-- ==== Sys2Proof/Word.lean ====
section
/-! DEFINITION. The word types of the EL20 (spec/00_scope.md R5): bit 0 is the least significant bit.
Register words, addresses and encoded fields are bit vectors or, where the spec counts with them, naturals. -/
namespace Sys2Proof

/-- A register word: every CSR and every s register is 64 bits wide. -/
abbrev W64 := BitVec 64

/-- The smallest addressable unit of memory. -/
abbrev Byte := BitVec 8

end Sys2Proof
end

