-- ==== Sys2Proof/Syntax.lean ====
section
/-! DEFINITION. The commands of the EL20, one constructor per row of spec/opcode_table.json, and the operand
types they carry. A command's operands are what its rule says arrives from outside the block: the written value,
the packet, the sample, the tile or partition concerned. -/
namespace Sys2Proof

/-- The origin of an access that does not come from a tile (spec/13_partitions_and_protection.md R378, Table 13.1):
management firmware and its bridges, the PF, or the VF of partition p. -/
inductive Who where
  | m
  | pf
  | vf (p : Nat)
  deriving DecidableEq, Repr, Inhabited

/-- What carries an SPDM request (spec/13_partitions_and_protection.md R389): PCIe DOE, MCTP on SMBus, or MCTP in PCIe
vendor-defined messages. -/
inductive Transport where
  | doe
  | smbus
  | vdm
  deriving DecidableEq, Repr, Inhabited

/-- What error detection reports on a memory read (spec/06_memory_and_ordering.md R167): nothing, a single-bit
error corrected, or an uncorrectable error, at the device address given. -/
inductive Ecc where
  | ok
  | corrected (da : Nat)
  | uncorrectable (da : Nat)
  deriving DecidableEq, Repr, Inhabited

/-- A PLL: its clock domain and which of the two it is, A (false) or B (spec/14_clocks_and_crossings.md R399). -/
structure Pll where
  dom : Nat
  b : Bool
  deriving DecidableEq, Repr, Inhabited

/-- The half of a 64-bit register that a 4-byte read takes (spec/05_tiles_dies_device.md R159). -/
inductive Half where
  | full
  | lower
  | upper
  deriving DecidableEq, Repr, Inhabited

/-- The issue of one tile-core instruction (spec/07_nolpa_programming.md R211): the logical tile (128 d + t), the
instruction word and, for X-form, the immediate word that follow at the tile's pc, what error detection reports on
its data accesses, and whether a parity error of the tile's arrays is found (spec/16_faults_ageing_service.md R442). -/
structure Issue where
  tile : Nat
  word : W64
  imm : W64
  ecc : Ecc
  parity : Bool
  deriving DecidableEq, Repr, Inhabited

/-- A unit that sees tick edges in its own clock domain (spec/09_datum_time.md R280). -/
inductive TickUnit where
  | die (d : Nat)
  | hub (h : Nat)
  deriving DecidableEq, Repr, Inhabited

/-- A Stezer packet as it arrives: header, payload and CRC (spec/10_links_and_collectives.md R294, Table 10.2). -/
structure Packet where
  hdr : BitVec 96
  payload : List Byte
  crc : BitVec 32
  deriving DecidableEq, Repr, Inhabited

/-- The payload of a HEARTBEAT packet (spec/10_links_and_collectives.md R300). -/
structure Heartbeat where
  count : W64
  identity : W64
  phys : Nat
  logical : Nat
  port : Nat
  version : Nat
  tx : W64
  echo : W64
  hold : W64
  /-- The receiver's own clock, in the same units, when the heartbeat arrived. -/
  rx : W64
  deriving DecidableEq, Repr, Inhabited

/-- A segment as its packets assemble (spec/10_links_and_collectives.md R297, Table 10.3). -/
structure Segment where
  xid : Nat
  src : Nat
  op : Nat
  sendTick : Nat
  bytes : Nat
  da : Nat
  status : Nat
  part : Nat
  priv : Bool
  data : List Byte
  deriving DecidableEq, Repr, Inhabited

/-- A collective stream: the stream header of R320 with the running state of R314 to R319 and the elements, for a
whole instance (spec/10_links_and_collectives.md R320, R321), and of the segments that brought it their source, ids
and oldest send tick. -/
structure CollStream where
  group : Nat
  tag : Nat
  inst : Nat
  epoch : Nat
  opcode : Nat
  dtype : Nat
  norm : Bool
  late : Nat
  dlEn : Bool
  /-- False in the forward direction (from rank - 1), true in the return direction (from rank + 1). -/
  ret : Bool
  abort : Bool
  /-- A failed comparison travels with the stream: its status (R320), zero for none. -/
  status : Nat
  count : Nat
  eoff : Nat
  deadline : W64
  root : Nat
  onTime : Nat
  lateCnt : Nat
  carried : Nat
  expected : Nat
  nonfinite : Bool
  sumsq : W64
  data : List Byte
  src : Nat
  xids : List Nat
  sendTick : Nat
  deriving DecidableEq, Repr, Inhabited

/-- A firmware image, header and body (spec/17_startup_and_discovery.md Table 17.2): the bytes that a slot of the
flash holds, or that a firmware update brings (R462, R463). -/
structure FwImage where
  bytes : List (BitVec 8) := []
  deriving DecidableEq, Repr, Inhabited

/-- What the power controller measures for one sample (spec/15_power_droop_thermal.md R420, R431, R435): the sample in
units of 0.125 W, the energy since the sample before in microjoules, and the temperatures of dies C0 to C15, H0 to H3
and stacks 0 to 7 in units of 1/8 degree Celsius. -/
structure PowerReading where
  sample : Nat
  uj : Nat
  temps : List Int
  deriving DecidableEq, Repr, Inhabited

/-- What firmware reports when start-up finishes (spec/17_startup_and_discovery.md R465): the µs to DEVICE_READY that
CFG_BOOT_T shows. -/
structure StartTimes where
  readyUs : Nat
  deriving DecidableEq, Repr, Inhabited

/-- One constructor per row of spec/opcode_table.json: the commands the block takes. The table gives no
operands; the operands are what each rule needs to be told (assumption log 7). -/
inductive Instr where
  /-- `REGISTER_WRITE` (R7): A write to a CSR field that has no row of its own takes effect according to its field
  type. -/
  | registerWrite (who : Who) (addr : Nat) (size : Nat) (value : W64)
  /-- `COLD_RESET` (R490): PWR_OK falls or the rails ramp, and the whole device is held in cold reset with every field
  at its Reset value. -/
  | coldReset
  /-- `STARTUP_BEGIN` (R460): PWR_OK rises, POS is sampled and device-local start-up begins in stage COLD on IOSC. -/
  | startupBegin (pos : Nat)
  /-- `WARM_RESET` (R413): An assertion of RESET_N with the rails in regulation resets every unit except the clock
  unit, the Datum unit and the energy counter. -/
  | warmReset
  /-- `RESET_N_RELEASE` (R461): RESET_N rises after a warm reset, and start-up resumes at stage ROM. -/
  | resetNRelease
  /-- `PERST_ASSERT` (R413): PERST_N resets the PCIe link, configuration space and function state only. -/
  | perstAssert
  /-- `PCIE_TRAINING_START` (R466): The PCIe port begins link training at the later of 20 ms after PERST_N release and
  H0 HCLK running from a READY PLL. -/
  | pcieTrainingStart
  /-- `IOSC_STABLE` (R399): IOSC becomes stable 2048 of its cycles after it is enabled at cold reset. -/
  | ioscStable
  /-- `CLKMON_WINDOW` (R398): A clock-monitor window of 1024 IOSC cycles ends and its REFCLK edge count is judged in
  range or not. -/
  | clkmonWindow (edges : Nat)
  /-- `REFCLK_UNQUAL_TIMEOUT` (R408): REFCLK is not qualified 100 ms after IOSC is stable, so REFCLK_UNQUAL is raised
  and ALERT_N is driven low. -/
  | refclkUnqualTimeout
  /-- `PLL_WRITE` (R401): A write to CLK_PLL_A or CLK_PLL_B is checked, then discarded with cfg_err or accepted, which
  drops READY and restarts the lock count. -/
  | pllWrite (dom : Nat) (b : Bool) (value : W64)
  /-- `PLL_READY` (R399): A PLL becomes READY after 8192 consecutive REFCLK cycles within lock tolerance. -/
  | pllReady (dom : Nat) (b : Bool)
  /-- `PLL_UNLOCK` (R405): A domain's current PLL loses READY, and the multiplexer switches the domain to IOSC and
  raises PLL_UNLOCK. -/
  | pllUnlock (pll : Pll)
  /-- `CLK_SWITCH_REQUEST` (R402): A write of CLK_SRC.sel requests a source switch, which is refused, held for droop
  or performed glitch-free. -/
  | clkSwitchRequest (dom : Nat) (source : Nat)
  /-- `HELD_SWITCH_PROCEED` (R430): A frequency-raising switch held during a stretch proceeds 256 source cycles after
  the stretch ends, re-tested under R402. -/
  | heldSwitchProceed (dom : Nat)
  /-- `CROSSING_BACKPRESSURE_TIMEOUT` (R414): A transfer into a fenced crossing is back-pressured for 256 live-side
  cycles and then completes with RESET_PEER. -/
  | crossingBackpressureTimeout (xing : Nat)
  /-- `CROSSING_READY_REQUEST` (R415): The reset side, leaving reset, sends a ready request into the fenced crossing. -/
  | crossingReadyRequest (xing : Nat)
  /-- `CROSSING_READY_ACK` (R415): The live side's ready acknowledgement arrives and traffic is admitted in the next
  cycle. -/
  | crossingReadyAck (xing : Nat)
  /-- `MXW` (R251): MXW is issued to load one weight block and its group scales into a weight buffer. -/
  | mxw (i : Issue)
  /-- `MXW_LOAD_START` (R252): The weight loader starts an MXW once its buffer is free and the previous MXW has ended
  its duration. -/
  | mxwLoadStart (tile : Nat)
  /-- `MXM_OPEN` (R50): An MXM with acc OVERWRITE opens a chain in its slot, captures its settings and streams
  activation rows through the buffer. -/
  | mxmOpen (i : Issue)
  /-- `MXM_ADD` (R50): An MXM with acc ADD continues the open chain of its slot, optionally closing it with the end
  flag. -/
  | mxmAdd (i : Issue)
  /-- `OUTPUT_CONVERSION` (R86): When the chain's last running-sum write completes, the output converter reads the
  record and converts each entry through zero point, scale, bias, clip, activation and rounding. -/
  | outputConversion (tile : Nat) (slot : Nat)
  /-- `CFG_CTR_CLR` (R104): A write of 1 clears every count of a Contour slot, together with sat_any and drift. -/
  | cfgCtrClr (tile : Nat) (slot : Nat) (value : W64)
  /-- `CFG_FMTC_CLR` (R110): A write clears both format counters of each format code whose mask bit is 1. -/
  | cfgFmtcClr (tile : Nat) (value : W64)
  /-- `CVT` (R256): CVT converts a tensor element by element into another format. -/
  | cvt (i : Issue)
  /-- `FADD` (R115): VOP FADD adds IEEE elements. -/
  | fadd (i : Issue)
  /-- `FSUB` (R115): VOP FSUB subtracts IEEE elements. -/
  | fsub (i : Issue)
  /-- `FMUL` (R115): VOP FMUL multiplies IEEE elements. -/
  | fmul (i : Issue)
  /-- `FMA` (R257): VOP FMA computes a × b + c with one rounding. -/
  | fma (i : Issue)
  /-- `FDIV` (R115): VOP FDIV divides IEEE elements. -/
  | fdiv (i : Issue)
  /-- `FSQRT` (R115): VOP FSQRT takes the IEEE square root. -/
  | fsqrt (i : Issue)
  /-- `FMIN` (R115): VOP FMIN takes the IEEE minimum. -/
  | fmin (i : Issue)
  /-- `FMAX` (R115): VOP FMAX takes the IEEE maximum. -/
  | fmax (i : Issue)
  /-- `FCMP_EQ` (R257): VOP FCMP.EQ writes a quiet equality mask. -/
  | fcmpEq (i : Issue)
  /-- `FCMP_LT` (R257): VOP FCMP.LT writes a signaling less-than mask. -/
  | fcmpLt (i : Issue)
  /-- `FCMP_LE` (R257): VOP FCMP.LE writes a signaling less-or-equal mask. -/
  | fcmpLe (i : Issue)
  /-- `FCMP_UN` (R257): VOP FCMP.UN writes a quiet unordered mask. -/
  | fcmpUn (i : Issue)
  /-- `LMUL` (R118): VOP LMUL multiplies L-format elements by adding their logs. -/
  | lmul (i : Issue)
  /-- `LDIV` (R118): VOP LDIV divides L-format elements by subtracting their logs. -/
  | ldiv (i : Issue)
  /-- `LRCP` (R118): VOP LRCP takes the log-domain reciprocal. -/
  | lrcp (i : Issue)
  /-- `LSQRT` (R118): VOP LSQRT halves the log of each element. -/
  | lsqrt (i : Issue)
  /-- `LRSQRT` (R118): VOP LRSQRT negates and halves the log of each element. -/
  | lrsqrt (i : Issue)
  /-- `LCMP_EQ` (R123): VOP LCMP.EQ writes an L-format equality mask. -/
  | lcmpEq (i : Issue)
  /-- `LCMP_LT` (R123): VOP LCMP.LT writes an L-format less-than mask. -/
  | lcmpLt (i : Issue)
  /-- `LCMP_LE` (R123): VOP LCMP.LE writes an L-format less-or-equal mask. -/
  | lcmpLe (i : Issue)
  /-- `LCMP_UN` (R123): VOP LCMP.UN writes an L-format unordered mask. -/
  | lcmpUn (i : Issue)
  /-- `IADD_W` (R123): VOP IADD.W adds 32-bit words. -/
  | iaddW (i : Issue)
  /-- `ISUB_W` (R123): VOP ISUB.W subtracts 32-bit words. -/
  | isubW (i : Issue)
  /-- `IMUL_W` (R123): VOP IMUL.W multiplies 32-bit words, keeping the low half. -/
  | imulW (i : Issue)
  /-- `AND_W` (R123): VOP AND.W takes the bitwise AND of 32-bit words. -/
  | andW (i : Issue)
  /-- `OR_W` (R123): VOP OR.W takes the bitwise OR of 32-bit words. -/
  | orW (i : Issue)
  /-- `XOR_W` (R123): VOP XOR.W takes the bitwise XOR of 32-bit words. -/
  | xorW (i : Issue)
  /-- `SLL_W` (R123): VOP SLL.W shifts 32-bit words left. -/
  | sllW (i : Issue)
  /-- `SRL_W` (R123): VOP SRL.W shifts 32-bit words right logically. -/
  | srlW (i : Issue)
  /-- `SRA_W` (R123): VOP SRA.W shifts 32-bit words right arithmetically. -/
  | sraW (i : Issue)
  /-- `IMIN_W` (R123): VOP IMIN.W takes the signed minimum of 32-bit words. -/
  | iminW (i : Issue)
  /-- `IMAX_W` (R123): VOP IMAX.W takes the signed maximum of 32-bit words. -/
  | imaxW (i : Issue)
  /-- `ICMP_EQ_W` (R257): VOP ICMP.EQ.W writes a 32-bit equality mask. -/
  | icmpEqW (i : Issue)
  /-- `ICMP_LT_W` (R257): VOP ICMP.LT.W writes a signed 32-bit less-than mask. -/
  | icmpLtW (i : Issue)
  /-- `ICMP_LTU_W` (R257): VOP ICMP.LTU.W writes an unsigned 32-bit less-than mask. -/
  | icmpLtuW (i : Issue)
  /-- `IADD_D` (R123): VOP IADD.D adds 64-bit words. -/
  | iaddD (i : Issue)
  /-- `ISUB_D` (R123): VOP ISUB.D subtracts 64-bit words. -/
  | isubD (i : Issue)
  /-- `AND_D` (R123): VOP AND.D takes the bitwise AND of 64-bit words. -/
  | andD (i : Issue)
  /-- `OR_D` (R123): VOP OR.D takes the bitwise OR of 64-bit words. -/
  | orD (i : Issue)
  /-- `XOR_D` (R123): VOP XOR.D takes the bitwise XOR of 64-bit words. -/
  | xorD (i : Issue)
  /-- `SLL_D` (R123): VOP SLL.D shifts 64-bit words left. -/
  | sllD (i : Issue)
  /-- `SRL_D` (R123): VOP SRL.D shifts 64-bit words right logically. -/
  | srlD (i : Issue)
  /-- `SRA_D` (R123): VOP SRA.D shifts 64-bit words right arithmetically. -/
  | sraD (i : Issue)
  /-- `SEL` (R257): VOP SEL selects a or b for each element under a mask. -/
  | sel (i : Issue)
  /-- `PERM` (R123): VOP PERM permutes lanes within each pass. -/
  | perm (i : Issue)
  /-- `LADD` (R120): LADD forms the log-domain sum a + b. -/
  | ladd (i : Issue)
  /-- `LADD_SUB` (R120): LADD with sub = 1 forms the log-domain difference a − b. -/
  | laddSub (i : Issue)
  /-- `FNT_EXP` (R130): FNT evaluates the built-in exp. -/
  | fntExp (i : Issue)
  /-- `FNT_EXP2` (R130): FNT evaluates the built-in exp2. -/
  | fntExp2 (i : Issue)
  /-- `FNT_LOG` (R130): FNT evaluates the built-in log. -/
  | fntLog (i : Issue)
  /-- `FNT_LOG2` (R130): FNT evaluates the built-in log2. -/
  | fntLog2 (i : Issue)
  /-- `FNT_RECIPROCAL` (R130): FNT evaluates the built-in reciprocal. -/
  | fntReciprocal (i : Issue)
  /-- `FNT_RSQRT` (R130): FNT evaluates the built-in reciprocal square root. -/
  | fntRsqrt (i : Issue)
  /-- `FNT_TABLE` (R133): FNT evaluates the table image held in a function-unit slot. -/
  | fntTable (i : Issue)
  /-- `FNT_F` (R134): The fused FNT.F applies a per-channel bias, the function and a per-channel gain with one
  rounding. -/
  | fntF (i : Issue)
  /-- `RED_MAX` (R124): RED.MAX returns the largest element of each row and its index. -/
  | redMax (i : Issue)
  /-- `RED_MIN` (R124): RED.MIN returns the smallest element of each row and its index. -/
  | redMin (i : Issue)
  /-- `RED_SUM` (R125): RED.SUM sums each row in FP64 over 64 lanes and a fixed tree. -/
  | redSum (i : Issue)
  /-- `RED_MOM` (R126): RED.MOM writes a moment record of count, sum and sum of squares for each row. -/
  | redMom (i : Issue)
  /-- `RED_PSUM` (R128): RED.PSUM adds m partials as a left fold in ascending order. -/
  | redPsum (i : Issue)
  /-- `RED_MOMFIN` (R129): RED.MOMFIN turns moment records into mean, variance and rstd. -/
  | redMomfin (i : Issue)
  /-- `RED_SOFTMAX` (R136): RED.SOFTMAX normalises masked score rows and writes row statistics and mask status. -/
  | redSoftmax (i : Issue)
  /-- `RED_SOFTMAX_BWD` (R138): RED.SOFTMAX_BWD computes the soft-maximum gradient for each row. -/
  | redSoftmaxBwd (i : Issue)
  /-- `HAD` (R265): HAD applies the signed block Hadamard rotation along one dimension. -/
  | had (i : Issue)
  /-- `MOV_COPY` (R266): MOV COPY copies a tensor as one tracked transfer. -/
  | movCopy (i : Issue)
  /-- `MOV_SRF` (R267): MOV SRF writes L16 entries into the scale register file. -/
  | movSrf (i : Issue)
  /-- `MOV_FUSLOT` (R267): MOV FUSLOT checks a table image and loads it into a function-unit slot. -/
  | movFuslot (i : Issue)
  /-- `COLL` (R269): COLL hands a collective descriptor to the hub's collective engine as the tile's contribution. -/
  | coll (i : Issue)
  /-- `RNG_RAW` (R270): RNG in RAW mode writes raw Bearing words. -/
  | rngRaw (i : Issue)
  /-- `RNG_UNIFORM` (R270): RNG in UNIFORM mode writes uniform values in [0, 1) converted to the destination. -/
  | rngUniform (i : Issue)
  /-- `RNG_BERN` (R270): RNG in BERN mode writes a Bernoulli mask against a threshold. -/
  | rngBern (i : Issue)
  /-- `HIST_READ` (R271): HIST READ stores a Contour slot into a record, optionally clearing it. -/
  | histRead (i : Issue)
  /-- `HIST_MERGE` (R271): HIST MERGE adds a Contour slot into a record with saturating atomic adds. -/
  | histMerge (i : Issue)
  /-- `HIST_ADAPT` (R107): HIST ADAPT chooses a format and scale change from a merged record and applies them to a
  descriptor register. -/
  | histAdapt (i : Issue)
  /-- `PHASE` (R273): PHASE sets the tile's current phase slot, optionally after its engines drain. -/
  | phase (i : Issue)
  /-- `T_COMPLETION` (R225): A T-class instruction completes in its engine and writes its token status word. -/
  | tCompletion (tile : Nat) (engine : Nat)
  /-- `ADD` (R213): ADD adds two s registers. -/
  | add (i : Issue)
  /-- `SUB` (R213): SUB subtracts two s registers. -/
  | sub (i : Issue)
  /-- `MUL` (R213): MUL returns the low 64 bits of a product. -/
  | mul (i : Issue)
  /-- `MULH` (R213): MULH returns the signed high 64 bits of a product. -/
  | mulh (i : Issue)
  /-- `MULHU` (R213): MULHU returns the unsigned high 64 bits of a product. -/
  | mulhu (i : Issue)
  /-- `DIV` (R213): DIV divides signed, truncating toward zero. -/
  | div (i : Issue)
  /-- `DIVU` (R213): DIVU divides unsigned. -/
  | divu (i : Issue)
  /-- `REM` (R213): REM returns the signed remainder. -/
  | rem (i : Issue)
  /-- `REMU` (R213): REMU returns the unsigned remainder. -/
  | remu (i : Issue)
  /-- `AND` (R213): AND takes the bitwise AND of two s registers. -/
  | and (i : Issue)
  /-- `OR` (R213): OR takes the bitwise OR of two s registers. -/
  | or (i : Issue)
  /-- `XOR` (R213): XOR takes the bitwise XOR of two s registers. -/
  | xor (i : Issue)
  /-- `SLL` (R213): SLL shifts left by rb[5:0]. -/
  | sll (i : Issue)
  /-- `SRL` (R213): SRL shifts right logically. -/
  | srl (i : Issue)
  /-- `SRA` (R213): SRA shifts right arithmetically. -/
  | sra (i : Issue)
  /-- `SLT` (R213): SLT sets 1 on a signed less-than. -/
  | slt (i : Issue)
  /-- `SLTU` (R213): SLTU sets 1 on an unsigned less-than. -/
  | sltu (i : Issue)
  /-- `MIN` (R213): MIN takes the signed minimum. -/
  | min (i : Issue)
  /-- `MAX` (R213): MAX takes the signed maximum. -/
  | max (i : Issue)
  /-- `MINU` (R213): MINU takes the unsigned minimum. -/
  | minu (i : Issue)
  /-- `MAXU` (R213): MAXU takes the unsigned maximum. -/
  | maxu (i : Issue)
  /-- `CLZ` (R213): CLZ counts leading zeros. -/
  | clz (i : Issue)
  /-- `POPC` (R213): POPC counts set bits. -/
  | popc (i : Issue)
  /-- `ADDI` (R213): ADDI adds a sign-extended immediate. -/
  | addi (i : Issue)
  /-- `ANDI` (R213): ANDI takes the AND with an immediate. -/
  | andi (i : Issue)
  /-- `ORI` (R213): ORI takes the OR with an immediate. -/
  | ori (i : Issue)
  /-- `XORI` (R213): XORI takes the XOR with an immediate. -/
  | xori (i : Issue)
  /-- `SLLI` (R213): SLLI shifts left by an immediate. -/
  | slli (i : Issue)
  /-- `SRLI` (R213): SRLI shifts right logically by an immediate. -/
  | srli (i : Issue)
  /-- `SRAI` (R213): SRAI shifts right arithmetically by an immediate. -/
  | srai (i : Issue)
  /-- `SLTI` (R213): SLTI compares signed with an immediate. -/
  | slti (i : Issue)
  /-- `LIH` (R213): LIH loads an immediate into the upper half of a register. -/
  | lih (i : Issue)
  /-- `DGETW` (R213): DGETW reads one word of a d register. -/
  | dgetw (i : Issue)
  /-- `DSETW` (R213): DSETW writes one word of a d register. -/
  | dsetw (i : Issue)
  /-- `DMOV` (R213): DMOV copies a d register. -/
  | dmov (i : Issue)
  /-- `DADDB` (R213): DADDB copies a d register with its base advanced. -/
  | daddb (i : Issue)
  /-- `NOP` (R213): The scalar NOP does nothing. -/
  | nop (i : Issue)
  /-- `LIX` (R213): The X-form LIX loads a 64-bit immediate. -/
  | lix (i : Issue)
  /-- `ADDX` (R213): The X-form ADDX adds a 64-bit immediate. -/
  | addx (i : Issue)
  /-- `JAL` (R214): JAL jumps pc-relative and links. -/
  | jal (i : Issue)
  /-- `JALR` (R214): JALR jumps register-relative and links. -/
  | jalr (i : Issue)
  /-- `BEQ` (R214): BEQ branches on equality. -/
  | beq (i : Issue)
  /-- `BNE` (R214): BNE branches on inequality. -/
  | bne (i : Issue)
  /-- `BLT` (R214): BLT branches on a signed less-than. -/
  | blt (i : Issue)
  /-- `BGE` (R214): BGE branches on a signed greater-or-equal. -/
  | bge (i : Issue)
  /-- `BLTU` (R214): BLTU branches on an unsigned less-than. -/
  | bltu (i : Issue)
  /-- `BGEU` (R214): BGEU branches on an unsigned greater-or-equal. -/
  | bgeu (i : Issue)
  /-- `JX` (R214): JX jumps to a 64-bit immediate. -/
  | jx (i : Issue)
  /-- `LD` (R215): LD loads 1, 2, 4 or 8 bytes into an s register. -/
  | ld (i : Issue)
  /-- `ST` (R215): ST stores the low bytes of an s register. -/
  | st (i : Issue)
  /-- `AMO_ADD_I32` (R178): AMO op 0 adds an i32 atomically at the home. -/
  | amoAddI32 (i : Issue)
  /-- `AMO_ADD_I64` (R178): AMO op 1 adds an i64 atomically. -/
  | amoAddI64 (i : Issue)
  /-- `AMO_FADD` (R178): AMO op 2 adds an FP32 atomically without raising flags. -/
  | amoFadd (i : Issue)
  /-- `AMO_MAX_I32` (R178): AMO op 3 takes the i32 maximum atomically. -/
  | amoMaxI32 (i : Issue)
  /-- `AMO_MAX_I64` (R178): AMO op 4 takes the i64 maximum atomically. -/
  | amoMaxI64 (i : Issue)
  /-- `AMO_MIN_I32` (R178): AMO op 5 takes the i32 minimum atomically. -/
  | amoMinI32 (i : Issue)
  /-- `AMO_MIN_I64` (R178): AMO op 6 takes the i64 minimum atomically. -/
  | amoMinI64 (i : Issue)
  /-- `AMO_FMAX` (R178): AMO op 7 takes the FP32 maximum atomically. -/
  | amoFmax (i : Issue)
  /-- `AMO_FMIN` (R178): AMO op 8 takes the FP32 minimum atomically. -/
  | amoFmin (i : Issue)
  /-- `CAS` (R178): CAS compares and swaps 32 or 64 bits atomically. -/
  | cas (i : Issue)
  /-- `DLD` (R215): DLD loads a 64-B descriptor into a d register. -/
  | dld (i : Issue)
  /-- `DST` (R215): DST stores a d register as a 64-B descriptor. -/
  | dst (i : Issue)
  /-- `MEM_ACCESS_COMPLETE` (R216): The home's response to an M-class access returns to the tile core, and issue
  resumes. -/
  | memAccessComplete (tile : Nat)
  /-- `WTK` (R218): WTK waits on a token mask, with an optional deadline tick and an optional trap. -/
  | wtk (i : Issue)
  /-- `WTK_RELEASE` (R218): A WTK releases when its condition holds or its deadline edge passes, and writes rd or
  traps with TC_EFAULT. -/
  | wtkRelease (tile : Nat)
  /-- `FENCE` (R176): FENCE orders the earlier set before later accesses at a scope. -/
  | fence (i : Issue)
  /-- `FENCE_COMPLETE` (R177): A fence with E = 1 completes once the earlier T-class instructions are performed at its
  scope. -/
  | fenceComplete (tile : Nat)
  /-- `TKS` (R217): TKS reads a token's status word without waiting. -/
  | tks (i : Issue)
  /-- `ECALL` (R220): ECALL traps from J to P with a code. -/
  | ecall (i : Issue)
  /-- `ERET` (R220): ERET returns to TC_EPC at the saved privilege. -/
  | eret (i : Issue)
  /-- `BRK` (R220): BRK enters DEBUG or takes TC_BREAK. -/
  | brk (i : Issue)
  /-- `CSRR` (R220): CSRR reads a register of the tile's own per-tile CSR space. -/
  | csrr (i : Issue)
  /-- `CSRW` (R220): CSRW writes a register of the tile's own per-tile CSR space, at P only. -/
  | csrw (i : Issue)
  /-- `IFLUSH` (R235): IFLUSH waits for fills in flight and invalidates the instruction buffer. -/
  | iflush (i : Issue)
  /-- `IPF` (R220): IPF prefetches instruction-buffer lines and drops their faults silently. -/
  | ipf (i : Issue)
  /-- `HALT` (R232): HALT stops issue and waits for every T-class instruction of the tile. -/
  | halt (i : Issue)
  /-- `HALT_COMPLETE` (R232): Once the engines drain, HALT discards open chains, may raise TC_EXIT, and the tile
  enters IDLE. -/
  | haltComplete (tile : Nat)
  /-- `DOUBLE_FAULT_IDLE` (R231): After a double fault the engines drain, the tile enters IDLE with dfault set, and
  TC_DOUBLE is raised. -/
  | doubleFaultIdle (tile : Nat)
  /-- `IBUF_FILL_COMPLETE` (R233): An instruction-buffer line fill completes or installs nothing on a fault. -/
  | ibufFillComplete (tile : Nat) (line : Nat) (ecc : Ecc)
  /-- `BREAKPOINT_HIT` (R238): The tile is about to issue an instruction at an enabled breakpoint pc, and it enters
  DEBUG. -/
  | breakpointHit (tile : Nat)
  /-- `TC_HALT_REQUEST` (R238): A write of TC_DBG_CTL.halt requests a debug halt of the tile. -/
  | tcHaltRequest (tile : Nat)
  /-- `TC_RESUME` (R241): A write of TC_DBG_CTL.resume restarts the tile's engines and core, applying any late mode. -/
  | tcResume (tile : Nat)
  /-- `TC_STEP` (R241): A write of TC_DBG_CTL.step issues one instruction and then halts again. -/
  | tcStep (tile : Nat)
  /-- `DEBUG_HALT_COMPLETE` (R239): Once every engine has stopped at its boundary, halted is set and TC_HALTED is
  raised. -/
  | debugHaltComplete (tile : Nat)
  /-- `DBG_PHALT` (R242): A write requests a halt of the named tiles of a partition. -/
  | dbgPhalt (part : Nat) (mask : W64)
  /-- `DBG_PRESUME` (R242): A write resumes the named tiles of a partition. -/
  | dbgPresume (part : Nat) (mask : W64)
  /-- `SRAM_SCRUB` (R168): Every 65,536 TCLK cycles the scrubber reads and corrects one SRAM line. -/
  | sramScrub (tile : Nat) (ecc : Ecc)
  /-- `HBM_REFRESH` (R169): A controller refreshes its stack at the rate that the stack's temperature requires. -/
  | hbmRefresh (stack : Nat)
  /-- `HBM_ECS` (R169): The controller runs the stack's error check and scrub, visiting every row each 24 hours. -/
  | hbmEcs (stack : Nat) (ecc : Ecc)
  /-- `HBM_TRAINED` (R155): A stack completes or fails JEDEC HBM4 training and sets trained or failed. -/
  | hbmTrained (stack : Nat) (ok : Bool)
  /-- `RING_LOAD` (R191): The LOAD command of MEM_RING_CMD starts reading a ring's context entry. -/
  | ringLoad (part : Nat) (ring : Nat)
  /-- `RING_LOAD_COMPLETE` (R187): The context read completes and the ring becomes RUNNING, or faults with
  RING_CTX_INVALID. -/
  | ringLoadComplete (part : Nat) (ecc : Ecc)
  /-- `RING_STOP` (R191): The STOP command moves a RUNNING ring to STOPPING. -/
  | ringStop (part : Nat) (ring : Nat)
  /-- `RING_RESUME` (R191): The RESUME command moves a STOPPED ring to RUNNING at its recorded indices. -/
  | ringResume (part : Nat) (ring : Nat)
  /-- `RING_DOORBELL` (R189): A write of a producer index to MEM_RING_IDX publishes entries, or is discarded with
  RING_OVERRUN. -/
  | ringDoorbell (ring : Nat) (value : W64)
  /-- `EVENT_RING_CONSUME` (R189): A consumer-index write to an EVENT ring releases records and lets held records be
  written. -/
  | eventRingConsume (ring : Nat) (value : W64)
  /-- `MEVQ_CONSUME` (R189): A write of MEM_MEVQ_CONS releases M-level records. -/
  | mevqConsume (value : W64)
  /-- `MEVQ_CFG_WRITE` (R508): A write of MEM_MEVQ_CFG is checked, then accepted (possibly resetting indices) or
  discarded with cfg_err. -/
  | mevqCfgWrite (value : W64)
  /-- `PEVQ_LOST_READ` (R200): A read of MEM_PEVQ_LOST returns and clears the partition's lost count. -/
  | pevqLostRead (part : Nat) (half : Half)
  /-- `MEVQ_LOST_READ` (R200): A read of MEM_MEVQ_LOST returns and clears the M-level lost count. -/
  | mevqLostRead (half : Half)
  /-- `MEM_TT_CLR` (R196): A write of 1 sets high_water to in_use. -/
  | memTtClr (part : Nat) (value : W64)
  /-- `DESC_FETCH` (R196): The ring engine fetches the next descriptor of a RUNNING ring in round-robin order when a
  tracked transfer is free. -/
  | descFetch (part : Nat) (ecc : Ecc)
  /-- `DESC_NOP` (R192): A NOP descriptor completes at once. -/
  | descNop (ring : Nat)
  /-- `DESC_COPY` (R193): A COPY descriptor copies strided rows and may add to a signal word. -/
  | descCopy (ring : Nat) (ecc : Ecc)
  /-- `DESC_FILL` (R193): A FILL descriptor fills strided rows with a pattern. -/
  | descFill (ring : Nat) (ecc : Ecc := .ok)
  /-- `LAUNCH` (R237): A LAUNCH descriptor prepares the named IDLE tiles and starts them RUNNING. -/
  | launch (ring : Nat)
  /-- `DESC_COMPLETE` (R192): A descriptor finishes; its status word is written and XFER_DONE or XFER_FAIL is raised. -/
  | descComplete (ring : Nat)
  /-- `HOST_READ_COMPLETION` (R182): A PCIe completion for a host move engine read returns data. -/
  | hostReadCompletion (ring : Nat) (data : List (BitVec 8)) (ecc : Ecc := .ok)
  /-- `HOST_BAR_READ` (R388): A host memory read through a BAR is checked and served or answered with Unsupported
  Request. -/
  | hostBarRead (who : Who) (bar : Nat) (offset : Nat) (size : Nat) (ecc : Ecc := .ok)
  /-- `HOST_BAR_WRITE` (R388): A host posted write through a BAR is checked and performed or discarded. -/
  | hostBarWrite (who : Who) (bar : Nat) (offset : Nat) (size : Nat) (value : W64) (ecc : Ecc := .ok)
  /-- `CFG_TILE_MAP_WRITE` (R148): A write of CFG_TILE_MAP requests a row re-map, which is accepted or refused. -/
  | cfgTileMapWrite (die : Nat) (row : Nat) (value : W64)
  /-- `REMAP_SWITCH` (R149): Once the row holds no transit packet, it switches its multiplexers and zeroing begins. -/
  | remapSwitch (die : Nat) (row : Nat)
  /-- `REMAP_DONE` (R149): The row's SRAM zeroing completes, done is set and TILE_REMAP is raised. -/
  | remapDone (die : Nat) (row : Nat)
  /-- `D2D_RETRY_FAIL` (R158): A die-to-die flit retry fails, and the link starts retraining and raises D2D_RETRAIN. -/
  | d2dRetryFail (link : Nat)
  /-- `D2D_RETRAIN_DONE` (R158): A retraining attempt ends; the link comes up, tries again, or goes down after the
  third failure with D2D_DOWN. -/
  | d2dRetrainDone (link : Nat) (trained : Option Nat)
  /-- `DATUM_TICK` (R275): The Datum unit's generated interval expires; DTM_COUNT rises by one and the next interval
  is set by state. -/
  | datumTick
  /-- `DATUM_REF_EDGE` (R277): A reference edge on DATUM_P/N arrives and is accepted or ignored by window. -/
  | datumRefEdge (interval : Nat) (offset : Int)
  /-- `TICK_EDGE_SEEN` (R280): A unit sees a new tick count in its domain and runs what it schedules at that edge. -/
  | tickEdgeSeen (unit : TickUnit)
  /-- `DTM_CTL_WRITE` (R276): A write of DTM_CTL changes the reference source or period, moving the unit to ACQUIRE or
  FREE. -/
  | dtmCtlWrite (value : W64)
  /-- `DTM_LOAD` (R278): A write of DTM_LOAD while unaligned sets the count of the next tick and sets aligned. -/
  | dtmLoad (value : W64)
  /-- `DTM_RELAY_WRITE` (R283): A write of DTM_RELAY sets the upstream port and resumes comparison of its markers. -/
  | dtmRelayWrite (value : W64)
  /-- `DTM_MODE_PEND_WRITE` (R286): A write of DTM_MODE_PEND or DTM_MODE_T is taken, or discarded with MODE_REJECT
  while a mode is armed. -/
  | dtmModePendWrite (isT : Bool) (value : W64)
  /-- `MODE_ARM` (R286): A write of arm = 1 arms the pending mode for tick T, or is rejected with MODE_REJECT. -/
  | modeArm (value : W64)
  /-- `MODE_CANCEL` (R286): A write of cancel = 1 disarms the mode before edge T − 1. -/
  | modeCancel (value : W64)
  /-- `MODE_SEND` (R286): At tick edge T − 1 the Datum unit sends the armed mode to every unit. -/
  | modeSend
  /-- `MODE_APPLY` (R287): At tick T the mode takes effect, DTM_MODE_CUR is updated and MODE_APPLIED is raised. -/
  | modeApply
  /-- `DTM_PT_CLR` (R289): A write clears every phase-timer count of the masked partitions. -/
  | dtmPtClr (value : W64)
  /-- `STEZER_DATA_RX` (R296): A sequenced packet arrives; it is accepted and acknowledged or forwarded, or discarded
  with a nak. -/
  | stezerDataRx (port : Nat) (pkt : Packet)
  /-- `LINKCTL_RX` (R296): A LINKCTL packet returns credits or a nak that starts retransmission. -/
  | linkctlRx (port : Nat) (pkt : Packet)
  /-- `ACK_TIMER` (R296): 200 ns after the oldest unacknowledged accepted packet the receiver returns an
  acknowledgement. -/
  | ackTimer (port : Nat)
  /-- `REPLAY_TIMEOUT` (R296): No acknowledgement advances for 1 µs; the sender retransmits, and enters RETRAIN after
  16 tries. -/
  | replayTimeout (port : Nat)
  /-- `HEARTBEAT_RX` (R300): A heartbeat arrives, carrying the Relay marker, peer identity and delay samples. -/
  | heartbeatRx (port : Nat) (pkt : Packet) (rx : W64 := 0)
  /-- `PORT_SILENT` (R300): A port receives no good packet for 8 ticks and leaves UP for RETRAIN. -/
  | portSilent (port : Nat)
  /-- `PORT_TRAINED` (R301): A port completes training and enters UP, or HELD under R328. -/
  | portTrained (port : Nat)
  /-- `PORT_TRAIN_TIMEOUT` (R301): A training attempt exceeds 0.3 s and is retried, or the port enters FAILED after
  the third failure. -/
  | portTrainTimeout (port : Nat)
  /-- `LNK_PORT_TRAIN` (R301): LNK_PORT_CMD.train moves a DOWN or FAILED port to TRAINING. -/
  | lnkPortTrain (port : Nat)
  /-- `LNK_PORT_DISABLE` (R301): LNK_PORT_CMD.disable moves a port to DOWN. -/
  | lnkPortDisable (port : Nat)
  /-- `GAZ_ENTRY` (R306): A Gazetteer entry of a higher version arrives; it is stored, flooded and reachability is
  recomputed. -/
  | gazEntry (port : Nat) (pos : Nat) (lo : W64) (hi : W64)
  /-- `SPLIT_FREEZE_TIMEOUT` (R326): freeze_ticks after a split, the remaining running tiles of the group's partitions
  are halted. -/
  | splitFreezeTimeout (group : Nat)
  /-- `LNK_SUBST_GO` (R308): A substitution command is checked and flooded with its tick T, or rejected. -/
  | lnkSubstGo (value : W64)
  /-- `GAZ_SUBST` (R308): A flooded substitution command is received and held for tick T. -/
  | gazSubst (port : Nat) (logical : Nat) (phys : Nat) (t : Nat)
  /-- `SUBST_APPLY` (R308): At tick edge T the spare takes the failed logical number and the old position becomes
  ABSENT. -/
  | substApply
  /-- `SEG_WRITE` (R298): A WRITE segment is served at the target and acknowledged. -/
  | segWrite (seg : Segment) (ecc : Ecc := .ok)
  /-- `SEG_READ` (R298): A READ segment is served and answered with RDATA segments. -/
  | segRead (seg : Segment) (ecc : Ecc := .ok)
  /-- `SEG_SIGNAL` (R298): A SIGNAL segment adds 1 to a u64 at the target and is acknowledged. -/
  | segSignal (seg : Segment) (ecc : Ecc := .ok)
  /-- `SEG_COLL` (R321): A collective stream segment arrives from the neighbouring rank and is folded, forwarded or
  returned. -/
  | segColl (st : CollStream)
  /-- `SEG_ACK` (R298): An ACK arrives and completes a remote write or signal at the source. -/
  | segAck (seg : Segment) (ecc : Ecc := .ok)
  /-- `SEG_RDATA` (R298): An RDATA segment returns remote read data. -/
  | segRdata (seg : Segment) (ecc : Ecc := .ok)
  /-- `SEGMENT_LOST_TIMEOUT` (R299): A segment gets no answer within life_ticks + 2 ticks, and its transfer completes
  with LINK_LOST. -/
  | segmentLostTimeout (xid : Nat)
  /-- `ALLREDUCE` (R316): The collective opcode ALLREDUCE folds all elements in fold order. -/
  | allreduce (group : Nat) (ecc : Ecc := .ok)
  /-- `REDUCE_SCATTER` (R316): REDUCE_SCATTER returns this rank's shard of the fold. -/
  | reduceScatter (group : Nat) (ecc : Ecc := .ok)
  /-- `ALLGATHER` (R316): ALLGATHER concatenates every contribution in fold order. -/
  | allgather (group : Nat) (ecc : Ecc := .ok)
  /-- `BROADCAST` (R316): BROADCAST delivers the root's first contribution. -/
  | broadcast (group : Nat) (ecc : Ecc := .ok)
  /-- `ALLTOALL` (R316): ALLTOALL exchanges blocks between contributions. -/
  | alltoall (group : Nat) (ecc : Ecc := .ok)
  /-- `BARRIER` (R316): BARRIER completes once every contribution of the instance has been accepted. -/
  | barrier (group : Nat) (ecc : Ecc := .ok)
  /-- `COLL_FOLD_START` (R322): A device begins its fold once the upstream stream has arrived and its local
  contributions are in or the deadline has passed. -/
  | collFoldStart (group : Nat)
  /-- `COLL_DEADLINE` (R323): A hub sees deadline edge D, and contributions accepted later become late. -/
  | collDeadline (hub : Nat) (group : Nat)
  /-- `COL_GRP_WRITE` (R312): A write of a group entry resets its instance count and clears split. -/
  | colGrpWrite (group : Nat) (word : Nat) (value : W64)
  /-- `RNG_REGISTER` (R336): The REGISTER command creates an entry or records a replay, or returns ALIAS or FULL. -/
  | rngRegister (part : Nat)
  /-- `RNG_RELEASE` (R336): The RELEASE command removes an entry. -/
  | rngRelease (part : Nat)
  /-- `RNG_LOOKUP` (R336): The LOOKUP command returns an entry's seed and replay count. -/
  | rngLookup (part : Nat)
  /-- `RNG_CLEAR` (R336): The CLEAR command empties the registry and its counts. -/
  | rngClear (part : Nat)
  /-- `SEQ_START` (R344): A start command checks the schedule header and runs steps, or fails with SEQ_CONFIG. -/
  | seqStart (part : Nat)
  /-- `SEQ_STOP` (R350): A stop command lets the sequencer finish the current step and then stop. -/
  | seqStop (part : Nat)
  /-- `SEQ_ABORT` (R350): An abort command stops further launches, posts and updates. -/
  | seqAbort (part : Nat)
  /-- `SEQ_ABORT_COMPLETE` (R350): Once every tile is IDLE or in DEBUG, the abort writes an ABANDONED step record and
  enters STOPPED. -/
  | seqAbortComplete (part : Nat)
  /-- `SEQ_LAUNCH` (R346): Once its tiles are IDLE, the sequencer prepares them and starts the next program of the
  step. -/
  | seqLaunch (part : Nat)
  /-- `SEQ_SIGNAL_WAIT_MET` (R348): A signal word reaches the awaited count, and the sequencer proceeds. -/
  | seqSignalWaitMet (part : Nat)
  /-- `SEQ_STRAGGLER_DEADLINE` (R349): A signal wait is still unmet at its deadline edge, so SEQ_STRAGGLER is raised. -/
  | seqStragglerDeadline (part : Nat)
  /-- `SEQ_COLL_DONE` (R358): The step's posted collectives are done; the gate value is formed and posted, or the step
  freezes. -/
  | seqCollDone (part : Nat)
  /-- `SEQ_GATE_DONE` (R361): The gate completes, and the step is skipped or applied with its gradient factor and
  update. -/
  | seqGateDone (part : Nat) (ecc : Ecc)
  /-- `SEQ_UPDATE_DONE` (R363): The update phase ends; applied and t_end are written and STEP_DONE is raised. -/
  | seqUpdateDone (part : Nat)
  /-- `EVAL_WINDOW_START` (R370): At the evaluation window edge the sequencer runs the evaluation forward launches. -/
  | evalWindowStart (part : Nat)
  /-- `EVAL_OVERRUN` (R370): The evaluation has not completed at edge W + eval_len, and EVAL_OVERRUN is raised. -/
  | evalOverrun (part : Nat)
  /-- `PART_RESET` (R376): PRT_PART.reset starts a partition reset: rings stop, tiles are held in reset and transfers
  are fenced. -/
  | partReset (part : Nat)
  /-- `FLR` (R376): A Function Level Reset of a VF starts its partition's reset. -/
  | flr (who : Who)
  /-- `PART_RESET_ZERO` (R376): When nothing is in flight, or after 4096 HCLK cycles, the tile test runs where due and
  the partition's state is zeroed. -/
  | partResetZero (part : Nat) (failed : W64)
  /-- `PART_RESET_DONE` (R376): Zeroing completes, the partition becomes READY with tiles IDLE, and PART_RESET_DONE is
  raised. -/
  | partResetDone (part : Nat)
  /-- `PART_WITHDRAW` (R375): PRT_PART.withdraw withdraws a partition until cold reset and raises PART_WITHDRAWN. -/
  | partWithdraw (part : Nat)
  /-- `PRT_COMMIT` (R384): A commit makes each check point switch from the active Cadastre copy to the shadow. -/
  | prtCommit (value : W64)
  /-- `COMMIT_DONE` (R384): Every check point has switched; busy clears, gen rises and CADASTRE_COMMIT is raised. -/
  | commitDone
  /-- `PRT_DENY_READ` (R383): A read of PRT_DENY returns and clears the denial count. -/
  | prtDenyRead (half : Half)
  /-- `PRT_SYSID_WRITE` (R390): The host writes the system identity and the installation binding is checked: BOUND or
  NEW_OCCUPANT. -/
  | prtSysidWrite (value : W64)
  /-- `PRT_LCS_CMD` (R393): A limited-change request is refused, or it starts a Logbook entry and programs the value. -/
  | prtLcsCmd (value : W64) (actor : Nat := 0)
  /-- `LCS_PROGRAM_DONE` (R393): OTP programming completes, the Logbook entry is marked DONE and LCS_CHANGED is
  raised. -/
  | lcsProgramDone
  /-- `GET_VERSION` (R389): The SPDM GET_VERSION request is answered. -/
  | getVersion (via : Transport := .smbus)
  /-- `GET_CAPABILITIES` (R389): The SPDM GET_CAPABILITIES request is answered. -/
  | getCapabilities (via : Transport := .smbus)
  /-- `NEGOTIATE_ALGORITHMS` (R389): The SPDM NEGOTIATE_ALGORITHMS request is answered. -/
  | negotiateAlgorithms (supported : Bool) (via : Transport := .smbus)
  /-- `GET_DIGESTS` (R389): The SPDM GET_DIGESTS request is answered. -/
  | getDigests (via : Transport := .smbus)
  /-- `GET_CERTIFICATE` (R389): The SPDM GET_CERTIFICATE request returns the slot 0 chain. -/
  | getCertificate (slot : Nat) (offset : Nat) (length : Nat) (via : Transport := .smbus)
  /-- `CHALLENGE` (R389): The SPDM CHALLENGE request is answered with a signed response. -/
  | challenge (slot : Nat) (nonce : W64) (via : Transport := .smbus)
  /-- `GET_MEASUREMENTS` (R389): The SPDM GET_MEASUREMENTS request returns measurement blocks 1 to 6. -/
  | getMeasurements (block : Nat) (via : Transport := .smbus)
  /-- `KEY_EXCHANGE` (R389): The SPDM KEY_EXCHANGE request starts a session. -/
  | keyExchange (slot : Nat) (exchange : W64) (via : Transport := .smbus)
  /-- `FINISH` (R389): The SPDM FINISH request completes session establishment. -/
  | finish (session : Nat) (verified : Bool) (via : Transport := .smbus)
  /-- `SPDM_HEARTBEAT` (R389): The SPDM HEARTBEAT request keeps a session alive. -/
  | spdmHeartbeat (session : Nat) (via : Transport := .smbus)
  /-- `END_SESSION` (R389): The SPDM END_SESSION request ends a session. -/
  | endSession (session : Nat) (via : Transport := .smbus)
  /-- `GET_SENSOR_READING` (R439): The PLDM GetSensorReading request returns a sensor value. -/
  | getSensorReading (sensor : Nat)
  /-- `SET_NUMERIC_SENSOR_ENABLE` (R439): The PLDM SetNumericSensorEnable request enables or disables a sensor. -/
  | setNumericSensorEnable (sensor : Nat) (enable : Bool)
  /-- `PLDM_GET_PDR` (R439): A PLDM Platform Descriptor Record request returns the records of the sensors. -/
  | pldmGetPdr (record : Nat)
  /-- `PLDM_FW_UPDATE` (R463): A PLDM Type 5 firmware-update transfer writes the slot not loaded from. -/
  | pldmFwUpdate (image : FwImage)
  /-- `ACTIVATE_FIRMWARE` (R463): The PLDM ActivateFirmware request schedules the new image for the next reset. -/
  | activateFirmware
  /-- `POWER_SAMPLE` (R423): Every 100 µs the power controller takes a sample and moves the cap ladder and thermal
  ceilings. -/
  | powerSample (reading : PowerReading)
  /-- `OP_STEP_SWITCH` (R419): Once the rail has settled and the idle PLL is READY, TCLK is switched and the step
  completes. -/
  | opStepSwitch (die : Nat)
  /-- `POWER_WINDOW_EDGE` (R422): A cap window edge starts a new budget window, applying a pending window length. -/
  | powerWindowEdge
  /-- `PWR_CAP_WRITE` (R421): A write of the cap is clamped to 300–800 W and rebudgets the window. -/
  | pwrCapWrite (value : W64)
  /-- `PWR_WIN_WRITE` (R422): A write of the window length takes effect at the next matching tick edge. -/
  | pwrWinWrite (value : W64)
  /-- `PWR_PRIO_WRITE` (R424): A write of the class ranks is accepted, or discarded with prio_err on equal ranks. -/
  | pwrPrioWrite (value : W64)
  /-- `PWR_THR_CLR` (R437): A write clears every throttle-reason counter of a partition. -/
  | pwrThrClr (part : Nat) (value : W64)
  /-- `ILIM_SAMPLE` (R427): Every 1 µs the rail current is compared with the limit, entering or releasing the current
  limit. -/
  | ilimSample (rail : Nat) (amps : Nat)
  /-- `DROOP_DETECT` (R428): The local core voltage falls past a threshold and a ÷2 or ÷4 stretch starts. -/
  | droopDetect (die : Nat) (mv : Nat)
  /-- `DROOP_HOLD_EXPIRE` (R429): A stretch's hold count expires and the voltage decides the next divider. -/
  | droopHoldExpire (die : Nat) (mv : Nat)
  /-- `THERMAL_CRIT` (R432): A die reaches 105 °C and is forced to OP0 at duty 1/16, with THERMAL_CRIT and ALERT_N. -/
  | thermalCrit (die : Nat)
  /-- `THERMAL_TRIP` (R433): A die reaches 115 °C; THERMTRIP_N is asserted and every clock stops. -/
  | thermalTrip (die : Nat)
  /-- `AVS_TIMEOUT` (R488): An AVSBus transaction errs or times out twice; the step is abandoned and AVS_FAULT is
  raised. -/
  | avsTimeout (rail : Nat)
  /-- `SURVEY_RUN` (R452): A write of run = 1 starts a Survey. -/
  | surveyRun
  /-- `SURVEY_PERIODIC` (R452): The Survey period elapses and an in-place measurement starts. -/
  | surveyPeriodic
  /-- `SURVEY_COMPLETE` (R453): A Survey ends; margins are re-planned and points are enabled or disabled. -/
  | surveyComplete (needs : List (List Int))
  /-- `SVC_REPAIR` (R448): A repair request is refused, or runs a partition reset with a row re-map inserted. -/
  | svcRepair (value : W64)
  /-- `SVC_REPL_SET` (R450): Setting a replacement reason raises REPLACE_REQUEST. -/
  | svcReplSet (value : W64)
  /-- `BOOT_SLOT_SELECT` (R463): The boot ROM verifies both firmware slots and loads one, or enters FAILED. -/
  | bootSlotSelect (a : FwImage) (b : FwImage) (fwUs : Nat := 0)
  /-- `BIST_COMPLETE` (R464): Self-test ends, CFG_BIST is written and BIST_FAIL is raised on failure. -/
  | bistComplete (dieFail : Nat) (tiles : List (Nat × Nat × Nat))
  /-- `DEVICE_READY` (R465): Firmware finishes start-up, partitions become READY and discovery is started. -/
  | deviceReady (rec : StartTimes)
  /-- `LNK_DISC_START` (R467): A write of LNK_DISC.start begins or re-runs discovery. -/
  | lnkDiscStart
  /-- `DISC_EXCHANGE_TIMEOUT` (R467): Two ticks after the first port UP the device moves from EXCHANGE to FLOOD. -/
  | discExchangeTimeout
  /-- `JOIN_WINDOW_CLOSE` (R469): 10 s after DEVICE_READY the join window closes. -/
  | joinWindowClose
  /-- `GAZ_QUIET` (R471): The Gazetteer has been quiet for 2.4 ms, and the lowest position floods a CLAIM. -/
  | gazQuiet
  /-- `GAZ_CLAIM` (R471): An Origin claim arrives, withdrawing a higher claim. -/
  | gazClaim (port : Nat) (pos : Nat) (closed : Bool)
  /-- `ORIGIN_ELECTED` (R471): A claim stands 2.4 ms unchallenged and its sender becomes the Origin and aligns. -/
  | originElected
  /-- `DATUM_ABSENT` (R472): The Origin accepts no 16 edges within 20 ms, switches to FREE and raises DATUM_ABSENT. -/
  | datumAbsent
  /-- `GAZ_ALIGNED` (R472): A neighbour's ALIGNED arrives, enabling alignment from its markers. -/
  | gazAligned (port : Nat) (pos : Nat)
  /-- `DISC_ALIGN` (R472): After 16 accepted markers following the upstream's ALIGNED, the device loads its count and
  floods ALIGNED. -/
  | discAlign
  /-- `DISC_READY_FLOOD` (R473): Once all positions are aligned or the window closes, the Origin floods READY with
  T_r. -/
  | discReadyFlood
  /-- `GAZ_READY` (R473): A READY packet arrives carrying T_r, or isolates a late arrival. -/
  | gazReady (port : Nat) (tr : Nat)
  /-- `SYSTEM_READY` (R473): At tick edge T_r the device sets ready, HELD links go UP and SYSTEM_READY is raised. -/
  | systemReady
  /-- `TAP_EXTEST` (R503): Loading EXTEST takes the lands and holds the device in warm reset. -/
  | tapExtest
  /-- `TAP_SAMPLE_PRELOAD` (R501): Loading SAMPLE/PRELOAD selects the boundary-scan register. -/
  | tapSamplePreload
  /-- `TAP_IDCODE` (R501): Loading IDCODE selects the 32-bit identification register. -/
  | tapIdcode
  /-- `TAP_CLAMP` (R503): Loading CLAMP takes the lands and holds the device in warm reset. -/
  | tapClamp
  /-- `TAP_HIGHZ` (R503): Loading HIGHZ takes the lands and holds the device in warm reset. -/
  | tapHighz
  /-- `TAP_EXTEST_PULSE` (R503): Loading EXTEST_PULSE takes the lands for 1149.6 testing. -/
  | tapExtestPulse
  /-- `TAP_EXTEST_TRAIN` (R503): Loading EXTEST_TRAIN takes the lands for 1149.6 testing. -/
  | tapExtestTrain
  /-- `TAP_BRIDGE` (R502): Loading BRIDGE selects the 120-bit bridge register. -/
  | tapBridge
  /-- `TAP_BYPASS` (R501): Loading BYPASS or any other code selects the 1-bit bypass register. -/
  | tapBypass
  /-- `JTAG_BRIDGE_ACCESS` (R502): Update-DR of BRIDGE starts one M-level CSR access, which completes or errs. -/
  | jtagBridgeAccess (dr : BitVec 120)
  /-- `LANE_LOCK_LOSS` (R301): A Stezer receiver loses lane lock and the port leaves UP for RETRAIN, raising
  LINK_DOWN. -/
  | laneLockLoss (port : Nat)
  /-- `CONFIGURATION_REQUEST` (R466): A PCIe configuration request to the PF or a VF completes with Request Retry
  Status until configuration space is ready, and normally after, including VF Enable. -/
  | configurationRequest (vfEnable : Option Bool)
  /-- `SMBUS_ARP` (R499): An SMBus ARP exchange assigns the device a new SMBus address in place of 0x4E, using
  PRT_IDENT as its unique identifier. -/
  | smbusArp (address : Nat)
  /-- `TEST_LOGIC_RESET` (R501): TRST_N low or the TMS sequence puts the TAP in Test-Logic-Reset, which selects IDCODE
  and ends any boundary-scan hold of warm reset. -/
  | testLogicReset
  deriving DecidableEq, Repr, Inhabited

end Sys2Proof
end

