-- ==== Sys2Proof/Config.lean ====
section
/-! DEFINITION. What the spec leaves open: free values, constants without a body that nothing in Lean can evaluate.
Each is applied to a counter of State (freeCtr) or to the operands it depends on, so that a statement about it holds
for every value (assumption log 5 and 6). -/
namespace Sys2Proof.Config

/-- A 64-bit value the spec leaves open, the n-th taken. -/
opaque freeWord : Nat → BitVec 64

/-- A choice the spec leaves open, the n-th taken (R226: which units of a faulted destination are written). -/
opaque freeBool : Nat → Bool

/-- The bytes of an answer that carries a signature, a certificate, a nonce or a key (R389): uninterpreted, of the
request's number and of what it answers for. -/
opaque crypto : Nat → List (BitVec 8) → List (BitVec 8)

/-- Whether a signature over a message of this SHA-384 digest verifies under ECDSA P-384 with the boot-ROM key of this
index (R462): the keys are not in the spec (log 50). -/
opaque ecdsaP384 : Nat → List (BitVec 8) → List (BitVec 8) → Bool

end Sys2Proof.Config
end

