-- ==== Sys2Proof/Machine/Bits.lean ====
section
/-! DEFINITION. Bit fields, two's complement, byte order (spec/00_scope.md R5) and the sparse map in canonical form
that memory, register files and register spaces are held in. -/
namespace Sys2Proof.Machine

/-! ## Bit fields -/

/-- Bits [lo + w - 1 : lo] of a natural. -/
def field (x lo w : Nat) : Nat := x / 2 ^ lo % 2 ^ w

/-- `x` with its bits [lo + w - 1 : lo] replaced by `v`. -/
def putField (x lo w v : Nat) : Nat := x - field x lo w * 2 ^ lo + v % 2 ^ w * 2 ^ lo

/-- Bits of a register word. -/
def bits (x : W64) (lo w : Nat) : Nat := field x.toNat lo w

/-- One bit of a register word. -/
def bit (x : W64) (i : Nat) : Bool := x.getLsbD i

/-- A natural as a register word. -/
abbrev w64 (n : Nat) : W64 := BitVec.ofNat 64 n

/-- The integer that the low `w` bits of `x` stand for in two's complement. -/
def signed (w x : Nat) : Int :=
  if x % 2 ^ w < 2 ^ (w - 1) then (x % 2 ^ w : Nat) else (x % 2 ^ w : Nat) - (2 ^ w : Nat)

/-- The low `w` bits of an integer in two's complement. -/
def unsigned (w : Nat) (i : Int) : Nat := (i % (2 ^ w : Nat)).toNat

/-- Rounding down to a multiple. -/
def alignDown (x m : Nat) : Nat := x / m * m

/-- 1 for true. -/
def b2n (b : Bool) : Nat := if b then 1 else 0

/-- The word whose bit `k` is `f k`, below bit `n`. -/
def wordOfBits (f : Nat → Bool) : Nat → W64
  | 0 => 0
  | n + 1 => wordOfBits f n ||| (if f n then BitVec.twoPow 64 n else 0)

/-- Clamping of an integer to a range. -/
def clampI (lo hi x : Int) : Int := if x < lo then lo else if hi < x then hi else x

/-! ## Bytes (little-endian, R5) -/

/-- The `n` bytes of a natural, least significant first. -/
def toBytes : Nat → Nat → List Byte
  | 0, _ => []
  | n + 1, x => BitVec.ofNat 8 x :: toBytes n (x / 256)

/-- The natural that bytes spell, least significant first. -/
def ofBytes : List Byte → Nat
  | [] => 0
  | b :: bs => b.toNat + 256 * ofBytes bs

/-- `n` bytes of a list from position `o`, missing ones zero. -/
def sliceBytes (bs : List Byte) (o n : Nat) : List Byte :=
  let t := (bs.drop o).take n
  t ++ List.replicate (n - t.length) 0

/-- The little-endian natural in `n` bytes at position `o`. -/
def leAt (bs : List Byte) (o n : Nat) : Nat := ofBytes (sliceBytes bs o n)

/-! ## Sparse maps: keys strictly rising, no entry equal to the default -/

/-- A sparse map from naturals; what an unlisted key reads as is a function given at each use. -/
abbrev NMap (α : Type) := List (Nat × α)

/-- The listed entry of a key. -/
def NMap.find? {α : Type} : NMap α → Nat → Option α
  | [], _ => none
  | (k, v) :: m, i => if i = k then some v else NMap.find? m i

/-- What a key reads as. -/
def NMap.get {α : Type} (d : Nat → α) (m : NMap α) (i : Nat) : α := (NMap.find? m i).getD (d i)

/-- The map without a key. -/
def NMap.erase {α : Type} (m : NMap α) (i : Nat) : NMap α := m.filter (fun e => e.1 != i)

/-- The map with a key listed. -/
def NMap.insert {α : Type} : NMap α → Nat → α → NMap α
  | [], i, x => [(i, x)]
  | (k, v) :: m, i, x =>
    if i = k then (i, x) :: m else if i < k then (i, x) :: (k, v) :: m else (k, v) :: NMap.insert m i x

/-- The map after a write, in canonical form: writing the default removes the entry. -/
def NMap.set {α : Type} [DecidableEq α] (d : Nat → α) (m : NMap α) (i : Nat) (x : α) : NMap α :=
  if x = d i then NMap.erase m i else NMap.insert m i x

/-- The canonical form: keys strictly rising from `lo`, no entry equal to the default. -/
def NMap.wfFrom {α : Type} [DecidableEq α] (d : Nat → α) : Nat → NMap α → Bool
  | _, [] => true
  | lo, (k, v) :: m => decide (lo ≤ k) && decide (v ≠ d k) && NMap.wfFrom d (k + 1) m

/-- The canonical form of a sparse map. -/
def NMap.wf {α : Type} [DecidableEq α] (d : Nat → α) (m : NMap α) : Bool := NMap.wfFrom d 0 m

/-- The sparse map without the keys of `[lo, hi)`. -/
def NMap.clear {α : Type} (m : NMap α) (lo hi : Nat) : NMap α := m.filter (fun e => e.1 < lo || hi ≤ e.1)

/-- A list with position `i` replaced. -/
def setAt {α : Type} (l : List α) (i : Nat) (x : α) : List α := l.set i x

end Sys2Proof.Machine
end

