-- ==== Sys2Proof/Machine/Real.lean ====
section
/-! DEFINITION. Exact real arithmetic for the floors and roundings that spec/01_log_numbers.md R29, R31, R32, R34 and
R37 ask to be decided exactly. Every number the part rounds is a sum of terms c × 2^(k/1024), such a sum over a natural,
the square root of one, or (exp, log) a real given by enclosures. -/
namespace Sys2Proof.Machine

/-! ## Sums of terms c × 2^(k/1024) -/

/-- A sum of terms c × 2^(k/1024), each held as (c, k). The log grid of the part is 2^-9 (R18); halving a log (R118)
needs one bit more. -/
abbrev Alg := List (Int × Int)

/-- The integer n. -/
def Alg.ofInt (n : Int) : Alg := [(n, 0)]

/-- The dyadic c × 2^e. -/
def Alg.dyadic (c : Int) (e : Int) : Alg := [(c, 1024 * e)]

/-- The number 2^(k/1024). -/
def Alg.pow (k : Int) : Alg := [(1, k)]

def Alg.neg (a : Alg) : Alg := a.map (fun t => (-t.1, t.2))
def Alg.add (a b : Alg) : Alg := a ++ b
def Alg.sub (a b : Alg) : Alg := a ++ b.neg
def Alg.scale (c : Int) (a : Alg) : Alg := a.map (fun t => (c * t.1, t.2))
def Alg.shift (k : Int) (a : Alg) : Alg := a.map (fun t => (t.1, t.2 + k))
def Alg.mul (a b : Alg) : Alg := a.flatMap (fun s => b.map (fun t => (s.1 * t.1, s.2 + t.2)))

/-- The least exponent floor(k/1024) of the terms. -/
def Alg.minExp (a : Alg) : Int := a.foldl (fun m t => min m (t.2 / 1024)) 0

/-- Adds a coefficient at a residue in an association list. -/
def Alg.addAt (m : List (Nat × Int)) (r : Nat) (c : Int) : List (Nat × Int) :=
  match m with
  | [] => [(r, c)]
  | (s, d) :: m => if s = r then (s, d + c) :: m else (s, d) :: Alg.addAt m r c

/-- The coefficients of 2^(r/1024), r < 1024, after multiplication by 2^(-minExp): whole numbers, without zeros.
The powers 2^(r/1024) are linearly independent over the rationals, so the sum is zero exactly when none is left. -/
def Alg.norm (a : Alg) : List (Nat × Int) :=
  let m := a.minExp
  (a.foldl (fun acc t => Alg.addAt acc (t.2 % 1024).toNat (t.1 * (2 ^ (t.2 / 1024 - m).toNat : Nat))) []).filter
    (fun t => t.2 != 0)

/-- Integer square root by Newton's iteration from above. -/
def isqrtGo : Nat → Nat → Nat → Nat
  | 0, _, x => x
  | fuel + 1, n, x =>
    let y := (x + n / x) / 2
    if x ≤ y then x else isqrtGo fuel n y

/-- The integer square root: the largest r with r × r ≤ n. -/
def isqrt (n : Nat) : Nat := if n = 0 then 0 else isqrtGo 4096 n (2 ^ (n.log2 / 2 + 1))

/-- 2^P × 2^(r/1024) for r < 2^j, from c = 2^P × 2^(2^(j-1)/1024) down, each factor and product rounded down. -/
def powFixGo : Nat → Nat → Nat → Nat → Nat
  | 0, _, _, _ => 0
  | j + 1, p, r, c =>
    let rest := if j = 0 then 2 ^ p else powFixGo j p (r % 2 ^ j) (isqrt (c * 2 ^ p))
    if r / 2 ^ j % 2 = 1 then c * rest / 2 ^ p else rest

/-- A lower bound of 2^p × 2^(r/1024), r < 1024, less than 64 below it. -/
def powFix (p r : Nat) : Nat := powFixGo 10 p r (isqrt (2 * 2 ^ (2 * p)))

/-- Bounds of 2^p × the sum of the normalised terms. -/
def Alg.bounds (p : Nat) (ts : List (Nat × Int)) : Int × Int :=
  ts.foldl (fun acc t =>
    if t.1 = 0 then (acc.1 + t.2 * (2 ^ p : Nat), acc.2 + t.2 * (2 ^ p : Nat))
    else
      let l : Int := powFix p t.1
      if 0 ≤ t.2 then (acc.1 + t.2 * l, acc.2 + t.2 * (l + 64))
      else (acc.1 + t.2 * (l + 64), acc.2 + t.2 * l)) (0, 0)

/-- The sign by ever tighter bounds. The fuel is ample: the precision doubles from 64 bits to 2^19. -/
def Alg.signGo : Nat → Nat → List (Nat × Int) → Int
  | 0, _, _ => 0
  | fuel + 1, p, ts =>
    let b := Alg.bounds p ts
    if 0 < b.1 then 1 else if b.2 < 0 then -1 else Alg.signGo fuel (2 * p) ts

/-- The sign of a sum: -1, 0 or 1. -/
def Alg.sign (a : Alg) : Int :=
  match a.norm with
  | [] => 0
  | [(_, c)] => Int.sign c
  | ts => Alg.signGo 14 64 ts

/-! ## Non-negative reals to be rounded -/

/-- A non-negative real: num/den, its square root, or a real x known through enclosures: `f p` bounds 2^p × x. -/
inductive Real where
  | alg (num : Alg) (den : Nat)
  | root (num : Alg) (den : Nat)
  | enc (f : Nat → Int × Int)

/-- The sign of x - b/bd, for x known through enclosures (an undecided comparison counts as equal; the exact cases of
the functions are answered as `alg` before this). -/
def Real.cmpEnc (f : Nat → Int × Int) (b : Alg) (bd : Nat) : Nat → Nat → Int
  | 0, _ => 0
  | fuel + 1, p =>
    let x := f p
    let m := b.minExp
    let y := Alg.bounds p b.norm
    let up : Int := (2 ^ (-m).toNat : Nat)
    let dn : Int := (2 ^ m.toNat : Nat)
    let d : Int := bd
    if x.1 * d * up > y.2 * dn then 1
    else if x.2 * d * up < y.1 * dn then -1
    else Real.cmpEnc f b bd fuel (2 * p)

/-- The sign of x - b/bd, for b ≥ 0 and bd > 0. -/
def Real.cmp (x : Real) (b : Alg) (bd : Nat) : Int :=
  match x with
  | .alg n d => Alg.sign ((n.scale bd).sub (b.scale d))
  | .root n d => Alg.sign ((n.scale (bd * bd)).sub ((b.mul b).scale d))
  | .enc f => Real.cmpEnc f b bd 12 64

/-- Whether x ≥ b/bd. -/
def Real.ge (x : Real) (b : Alg) (bd : Nat) : Bool := decide (0 ≤ x.cmp b bd)

/-- x × 2^(k/1024), for x given by an expression. -/
def Real.shift (k : Int) : Real → Real
  | .alg n d => .alg (n.shift k) d
  | .root n d => .root (n.shift (2 * k)) d
  | .enc f => .enc (fun p =>
      let b := f (p + 8 + (k / 1024).toNat)
      let q := p + 8 + (k / 1024).toNat
      let l : Int := powFix q (k % 1024).toNat
      let e := k / 1024
      -- b × l is x × 2^(2q); bring it to 2^p × 2^e
      let s := 2 * (q : Int) - p - e
      let dn := fun (z : Int) => if 0 ≤ s then z / (2 ^ s.toNat : Nat) else z * (2 ^ (-s).toNat : Nat)
      (dn (b.1 * l), dn (b.2 * (l + 64)) + 1))

/-- The largest i in [lo, lo + n) with `p i`, for p true at lo and downward closed (binary search in j rounds,
n ≤ 2^j). -/
def searchMax (p : Int → Bool) : Nat → Int → Int
  | 0, lo => lo
  | j + 1, lo => if p (lo + (2 ^ j : Nat)) then searchMax p j (lo + (2 ^ j : Nat)) else searchMax p j lo

/-- floor(x / (2^(k/1024))) capped below 2^j. -/
def Real.floorBy (x : Real) (j : Nat) (k : Int) : Nat :=
  (searchMax (fun i => x.ge ((Alg.pow k).scale i) 1) j 0).toNat

end Sys2Proof.Machine
end

