-- ==== Sys2Proof/Machine/Numbers.lean ====
section
/-! DEFINITION. Number formats and every conversion between them (spec/01_log_numbers.md): the L-formats, the IEEE
formats with their flags, the integer formats with zero points, packing. -/
namespace Sys2Proof.Machine

/-- The element formats (spec/01_log_numbers.md R15, Table 1.3). -/
inductive Fmt where
  | l4 | l6 | l8 | l8w | l12 | l16 | fp16 | fp32 | fp64 | fp32p | i8 | i16
  deriving DecidableEq, Repr, Inhabited

/-- The format a code names; reserved codes name none (Table 1.3). -/
def Fmt.ofCode : Nat → Option Fmt
  | 0 => some .l4 | 1 => some .l6 | 2 => some .l8 | 3 => some .l8w | 4 => some .l12 | 5 => some .l16
  | 8 => some .fp16 | 9 => some .fp32 | 10 => some .fp64 | 11 => some .fp32p | 12 => some .i8 | 13 => some .i16
  | _ => none

/-- The code of a format (Table 1.3). -/
def Fmt.code : Fmt → Nat
  | .l4 => 0 | .l6 => 1 | .l8 => 2 | .l8w => 3 | .l12 => 4 | .l16 => 5
  | .fp16 => 8 | .fp32 => 9 | .fp64 => 10 | .fp32p => 11 | .i8 => 12 | .i16 => 13

/-- Bits per element (Table 1.3). -/
def Fmt.bits : Fmt → Nat
  | .l4 => 4 | .l6 => 6 | .l8 => 8 | .l8w => 8 | .l12 => 12 | .l16 => 16
  | .fp16 => 16 | .fp32 => 32 | .fp64 => 64 | .fp32p => 32 | .i8 => 8 | .i16 => 16

/-- An L-format? -/
def Fmt.isL : Fmt → Bool
  | .l4 | .l6 | .l8 | .l8w | .l12 | .l16 => true
  | _ => false

/-- I8 or I16? -/
def Fmt.isI : Fmt → Bool
  | .i8 | .i16 => true
  | _ => false

/-- An IEEE format, FP32P among them? -/
def Fmt.isF (f : Fmt) : Bool := !f.isL && !f.isI

/-- L4 or L6, the narrow formats? -/
def Fmt.narrow : Fmt → Bool
  | .l4 | .l6 => true
  | _ => false

/-- The log fraction bits of an L-format (Table 1.1). -/
def Fmt.frac : Fmt → Nat
  | .l4 => 1 | .l6 => 2 | .l8 => 3 | .l8w => 2 | .l12 => 6 | .l16 => 9
  | _ => 0

/-- The bias of an L-format, 2^(w-2) (R11). -/
def Fmt.bias (f : Fmt) : Nat := 2 ^ (f.bits - 2)

/-- Precision, in bits, of an IEEE format. -/
def Fmt.prec : Fmt → Nat
  | .fp16 => 11 | .fp64 => 53 | _ => 24

/-- Exponent width of an IEEE format. -/
def Fmt.expw : Fmt → Nat
  | .fp16 => 5 | .fp64 => 11 | _ => 8

/-- The largest exponent of an IEEE format. -/
def Fmt.emax (f : Fmt) : Int := (2 ^ (f.expw - 1) : Nat) - 1

/-- The packing granule in bytes (R16, R17): one element where it fills whole bytes. -/
def Fmt.granule : Fmt → Nat
  | .l6 | .l12 => 3
  | .l4 | .l8 | .l8w | .i8 => 1
  | .l16 | .fp16 | .i16 => 2
  | .fp32 | .fp32p => 4
  | .fp64 => 8

/-- Elements in one packing granule (R16). -/
def Fmt.perGranule : Fmt → Nat
  | .l4 => 2 | .l6 => 4 | .l12 => 2
  | _ => 1

/-- A packed format (R17)? -/
def Fmt.packed : Fmt → Bool
  | .l4 | .l6 | .l12 => true
  | _ => false

/-- The mantissa field's width. -/
def Fmt.manw (f : Fmt) : Nat := f.prec - 1

/-- The default NaN (R26): sign 0, quiet bit set, payload 0. -/
def Fmt.defaultNaN (f : Fmt) : Nat := (2 ^ f.expw - 1) * 2 ^ f.manw + 2 ^ (f.manw - 1)

/-- NaR: S = 1, E = 0 (R12). -/
def Fmt.nar (f : Fmt) : Nat := 2 ^ (f.bits - 1)

/-- The largest E of an L-format. -/
def Fmt.eTop (f : Fmt) : Nat := 2 ^ (f.bits - 1) - 1

/-- The sign bit of a code. -/
def Fmt.signBit (f : Fmt) (c : Nat) : Bool := c / 2 ^ (f.bits - 1) % 2 = 1

/-- The E field of an L code (R10). -/
def Fmt.eField (f : Fmt) (c : Nat) : Nat := c % 2 ^ (f.bits - 1)

/-- The log of a real L code in units of 2^-9 (R10, R35 step 1). -/
def Fmt.log9 (f : Fmt) (c : Nat) : Int := ((f.eField c : Int) - f.bias) * (2 ^ (9 - f.frac) : Nat)

/-- An element's exact value. A NaN carries its sign, its payload left-aligned in 52 bits without the quiet bit, and
whether it signals; `nar` is the NaR of an L-format. -/
inductive XVal where
  | nan (neg : Bool) (payload : Nat) (signaling : Bool)
  | nar
  | inf (neg : Bool)
  | zero (neg : Bool)
  | fin (neg : Bool) (m : Real)

/-- NaN or NaR? -/
def XVal.isNaN : XVal → Bool
  | .nan .. | .nar => true
  | _ => false

/-- NaN or infinite? -/
def XVal.nonfinite : XVal → Bool
  | .nan .. | .nar | .inf _ => true
  | _ => false

/-- A signaling NaN? -/
def XVal.signaling : XVal → Bool
  | .nan _ _ s => s
  | _ => false

/-- The value scaled by 2^(sc/512) (R18). -/
def XVal.scale (sc : Int) : XVal → XVal
  | .fin n m => .fin n (m.shift (2 * sc))
  | v => v

/-- The value of an exact sum. -/
def XVal.ofAlg (a : Alg) (den : Nat := 1) : XVal :=
  match a.sign with
  | 0 => .zero false
  | 1 => .fin false (.alg a den)
  | _ => .fin true (.alg a.neg den)

/-- A finite IEEE code as mantissa and exponent: (-1)^neg × m × 2^e. -/
structure Dyad where
  neg : Bool
  m : Nat
  e : Int
  deriving DecidableEq, Repr, Inhabited

/-- The magnitude of an IEEE code that is neither NaN nor infinite. -/
def Fmt.dyad (f : Fmt) (c : Nat) : Dyad :=
  let ef := field c f.manw f.expw
  let mf := field c 0 f.manw
  let q : Int := 1 - f.emax - f.manw
  ⟨f.signBit c, if ef = 0 then mf else mf + 2 ^ f.manw, if ef = 0 then q else q + (ef - 1 : Nat)⟩

/-- The signed mantissa. -/
def Dyad.int (d : Dyad) : Int := if d.neg then -(d.m : Int) else d.m

/-- The exact sum a dyadic is. -/
def Dyad.alg (d : Dyad) : Alg := Alg.dyadic d.int d.e

/-- A NaN code of an IEEE format? -/
def Fmt.isNaNCode (f : Fmt) (c : Nat) : Bool :=
  field c f.manw f.expw = 2 ^ f.expw - 1 && field c 0 f.manw != 0

/-- An infinite code of an IEEE format? -/
def Fmt.isInfCode (f : Fmt) (c : Nat) : Bool :=
  field c f.manw f.expw = 2 ^ f.expw - 1 && field c 0 f.manw == 0

/-- A signaling NaN code? -/
def Fmt.isSNaN (f : Fmt) (c : Nat) : Bool := f.isNaNCode c && field c (f.manw - 1) 1 == 0

/-- The NaN code with its quiet bit set. -/
def Fmt.quiet (f : Fmt) (c : Nat) : Nat := if field c (f.manw - 1) 1 = 1 then c else c + 2 ^ (f.manw - 1)

/-- The exact value of an element (R10, R22, R27) with zero point `z`, before its tensor scale. -/
def Fmt.value (f : Fmt) (c : Nat) (z : Int) : XVal :=
  if f.isL then
    if f.eField c = 0 then (if f.signBit c then .nar else .zero false)
    else .fin (f.signBit c) (.alg (Alg.pow (2 * f.log9 c)) 1)
  else if f.isI then
    let q := signed f.bits c - z
    if q = 0 then .zero false else .fin (q < 0) (.alg (Alg.ofInt q.natAbs) 1)
  else if f.isNaNCode c then
    .nan (f.signBit c) (field c 0 (f.manw - 1) * 2 ^ (52 - f.manw)) (f.isSNaN c)
  else if f.isInfCode c then .inf (f.signBit c)
  else
    let d := f.dyad c
    if d.m = 0 then .zero d.neg else .fin d.neg (.alg (Alg.dyadic d.m d.e) 1)

/-! ## IEEE flags and rounding -/

/-- The IEEE exception flags of an operation (R22), in the order of CFG_VE_FLAGS. -/
structure Flags where
  nv : Bool := false
  dz : Bool := false
  of : Bool := false
  uf : Bool := false
  nx : Bool := false
  deriving DecidableEq, Repr, Inhabited

/-- Either's flags. -/
def Flags.or (a b : Flags) : Flags :=
  ⟨a.nv || b.nv, a.dz || b.dz, a.of || b.of, a.uf || b.uf, a.nx || b.nx⟩

/-- The rounding directions of R30 Table 1.4, by selector. -/
inductive Rnd where
  | rne | rtz | rup | rdn
  deriving DecidableEq, Repr, Inhabited

/-- The direction of a selector for an IEEE destination (Table 1.4). -/
def Rnd.ofSel : Nat → Rnd
  | 1 => .rtz | 2 => .rup | 3 => .rdn
  | _ => .rne

/-- The result of a conversion: the code, whether it counts an overflow and an underflow (R38), and IEEE flags. -/
structure Conv where
  code : Nat
  ovf : Bool := false
  unf : Bool := false
  fl : Flags := {}
  deriving DecidableEq, Repr, Inhabited

/-- What a conversion into a format counts in the format counters (R38): its overflow and its underflow. -/
abbrev FmtCount := Fmt × Bool × Bool

/-- The count of a conversion into `f` that an instruction makes before its final rounding (R38, R110, Table 1.8). -/
def Conv.count (c : Conv) (f : Fmt) : FmtCount := (f, c.ovf, c.unf)

/-- Whether the truncated magnitude is raised by one unit: `half` compares the discarded part with half a unit. -/
def roundUp (r : Rnd) (neg odd exact : Bool) (half : Int) : Bool :=
  match r with
  | .rne => decide (0 < half) || (decide (half = 0) && odd)
  | .rtz => false
  | .rup => !exact && !neg
  | .rdn => !exact && neg

/-- The exact magnitude x × 2^(-sc/512) rounded at unit 2^q: the rounded count of units and whether it is exact.
`j` bounds the count's bits. -/
def roundAt (r : Rnd) (neg : Bool) (x : Real) (sc : Int) (q : Int) (j : Nat) : Nat × Bool :=
  let k : Int := 1024 * q + 2 * sc
  let n := x.floorBy j k
  let exact := x.cmp ((Alg.pow k).scale n) 1 == 0
  let half := x.cmp ((Alg.pow k).scale (2 * n + 1)) 2
  (if roundUp r neg (n % 2 = 1) exact half then n + 1 else n, exact)

/-- A non-zero magnitude rounded into an IEEE format after division by 2^(sc/512) (R37, R24: tininess is detected
after rounding). -/
def roundF (f : Fmt) (r : Rnd) (neg : Bool) (x : Real) (sc : Int) : Conv :=
  let emin := 1 - f.emax
  let s := if neg then 2 ^ (f.bits - 1) else 0
  let infc := (2 ^ f.expw - 1) * 2 ^ f.manw
  -- the exponent of x, capped to [emin - 1, emax + 1]: a magnitude below 2^emin counts as emin - 1
  let e := searchMax (fun i => x.ge (Alg.pow (1024 * i + 2 * sc)) 1) (f.expw + 1) (emin - 1)
  let past : Conv :=
    let toInf := match r with | .rne => true | .rtz => false | .rup => !neg | .rdn => neg
    ⟨s + (if toInf then infc else infc - 1), true, false, { of := true, nx := true }⟩
  if e > f.emax then past
  else
    let q := max e emin - f.manw
    let (n, exact) := roundAt r neg x sc q f.prec
    -- a carry out of the mantissa moves the code up by one exponent by itself
    let c := if e < emin then n else n + (e - emin).toNat * 2 ^ f.manw
    if infc ≤ c then past
    else
      -- tininess after rounding: rounded at the precision of the format with unbounded exponent, below 2^emin
      let tiny := e < emin && (n < 2 ^ f.manw || (roundAt r neg x sc (emin - 1 - f.manw) (f.prec + 1)).1 < 2 ^ f.prec)
      ⟨s + c, false, decide (c = 0), { uf := tiny && !exact, nx := !exact }⟩

/-- Conversion of a value into an IEEE format (R26, R37). -/
def toF (f : Fmt) (r : Rnd) (v : XVal) (sc : Int) : Conv :=
  let s := fun (neg : Bool) => if neg then 2 ^ (f.bits - 1) else 0
  match v with
  | .nar => ⟨f.defaultNaN, false, false, {}⟩
  | .nan neg p sg =>
    ⟨s neg + (2 ^ f.expw - 1) * 2 ^ f.manw + 2 ^ (f.manw - 1) + p / 2 ^ (52 - f.manw), false, false, { nv := sg }⟩
  | .inf neg => ⟨s neg + (2 ^ f.expw - 1) * 2 ^ f.manw, false, false, {}⟩
  | .zero neg => ⟨s neg, false, false, {}⟩
  | .fin neg m => roundF f r neg m sc

/-! ## Into the L-formats (R31, R32) -/

/-- 2^(n/2^f) × 2^(sc/512), for n counted from E = bias. -/
def Fmt.lThreshold (f : Fmt) (sc : Int) (e : Nat) : Alg :=
  Alg.pow (((e : Int) - f.bias) * (2 ^ (10 - f.frac) : Nat) + 2 * sc)

/-- Conversion of a value into an L-format; `u` is the 24-bit draw under the stochastic selector. -/
def toL (f : Fmt) (u : Option Nat) (v : XVal) (sc : Int) : Conv :=
  let s := fun (neg : Bool) => if neg then 2 ^ (f.bits - 1) else 0
  match v with
  | .nan .. | .nar => ⟨f.nar, false, false, {}⟩
  | .zero _ => ⟨0, false, false, {}⟩
  | .inf neg => ⟨s neg + f.eTop, true, false, {}⟩
  | .fin neg m =>
    let e := (searchMax (fun i => m.ge (f.lThreshold sc i.toNat) 1) f.bits 0).toNat
    if f.eTop < e then ⟨s neg + f.eTop, true, false, {}⟩
    else if e = 0 then ⟨0, false, true, {}⟩
    else
      let up := match u with
        | none => false
        | some u =>
          -- u < floor(2^24 (m - a)/(b - a)), that is m ≥ ((2^24 - (u + 1)) a + (u + 1) b) / 2^24
          e < f.eTop && m.ge (((f.lThreshold sc e).scale ((2 ^ 24 : Int) - (u + 1))).add
            ((f.lThreshold sc (e + 1)).scale (u + 1))) (2 ^ 24)
      ⟨s neg + e + b2n up, false, false, {}⟩

/-! ## Into I8 and I16 (R36) -/

/-- Conversion into I8 or I16 with zero point `z`. -/
def toI (f : Fmt) (u : Option Nat) (z : Int) (v : XVal) (sc : Int) : Conv :=
  let top : Int := (2 ^ (f.bits - 1) : Nat) - 1
  let bot : Int := -(2 ^ (f.bits - 1) : Nat)
  let sat := fun (neg : Bool) => if neg then bot else top
  match v with
  | .nan .. | .nar => ⟨unsigned f.bits z, true, false, {}⟩
  | .inf neg => ⟨unsigned f.bits (sat neg), true, false, {}⟩
  | .zero _ => ⟨unsigned f.bits z, false, false, {}⟩
  | .fin neg m =>
    -- |y| ≥ 2^17 saturates whatever the zero point
    let n := m.floorBy 18 (2 * sc)
    let up := match u with
      | none => false
      | some u => m.ge ((Alg.pow (2 * sc)).scale (2 ^ 24 * (n : Int) + u + 1)) (2 ^ 24)
    let r : Int := n + b2n up
    let q := (if neg then -r else r) + z
    ⟨unsigned f.bits (clampI bot top q), decide (q < bot ∨ top < q), decide (r = 0), {}⟩

/-- Conversion of an exact value into any format (R29, R31 to R37): `sel` is the rounding selector of Table 1.4,
`u` the draw of R33 (used under the stochastic selector only). -/
def convert (f : Fmt) (sel u : Nat) (z : Int) (v : XVal) (sc : Int) : Conv :=
  let draw := if sel = 1 then some u else none
  if f.isL then toL f draw v sc
  else if f.isI then toI f draw z v sc
  else toF f (Rnd.ofSel sel) v sc

/-- Whether a selector is permitted for a destination format (Table 1.4). -/
def Fmt.selOk (f : Fmt) (sel : Nat) : Bool := f.isF || sel < 2

/-- The source and destination pairs that Table 1.8 permits to CVT and the output converter. -/
def cvtOk (src dst : Fmt) : Bool :=
  if dst = .fp32p then src = .fp32 || src = .fp32p else true

/-! ## Packing (R16) -/

/-- The code of element `i` of a packed run of bytes. -/
def Fmt.unpack (f : Fmt) (bs : List Byte) (i : Nat) : Nat :=
  let g := f.granule
  let w := leAt bs (i / f.perGranule * g) g
  field w (f.bits * (i % f.perGranule)) f.bits

end Sys2Proof.Machine
end

