-- ==== Sys2Proof/Machine/Regs.lean ====
section
/-! DEFINITION. The CSR registers of the device and of a tile, from the register table of each chapter of spec/:
their offsets, fields, types (spec/00_scope.md R7) and values after cold reset (R6). Device offsets count from
0x0200_0000_0000, tile offsets from the tile's own CSR window (spec/05_tiles_dies_device.md R159, Table 5.8).
A field's constant is named <register>_<field>; an offset's constant is named <register>. -/
namespace Sys2Proof.Machine

/-- The types of register fields (spec/00_scope.md R7, Table 0.6). -/
inductive FieldType where
  | ro | rw | wo | w1c | rws | lck | otp
  deriving DecidableEq, Repr

/-- A field of a register: the byte offset of its word, its lowest bit and its width. -/
structure Fld where
  off : Nat
  lo : Nat
  w : Nat
  deriving DecidableEq, Repr

/-- A field of a register's layout. -/
structure FieldRow where
  lo : Nat
  w : Nat
  ty : FieldType
  reset : Nat
  deriving DecidableEq, Repr

/-- The registers, device blocks first, then those of a tile. -/
inductive Reg where
  | cfgDevId
  | cfgTopo
  | cfgTileMap
  | cfgD2dSts
  | cfgBoot
  | cfgBootT
  | cfgBist
  | clkSts
  | clkMon
  | clkFail
  | clkFwd
  | clkPllA
  | clkPllB
  | clkPllSts
  | clkSrc
  | pwrSts
  | pwrCtl
  | pwrCap
  | pwrWin
  | pwrPrio
  | pwrFlags
  | pwrTel
  | pwrEnergy
  | pwrIlim
  | pwrOp
  | pwrDroop
  | pwrTherm
  | pwrTemp
  | pwrThrClr
  | dtmCtl
  | dtmSts
  | dtmCount
  | dtmLoad
  | dtmPhase
  | dtmHold
  | dtmRelay
  | dtmLinkdly
  | dtmModeT
  | dtmModeArm
  | dtmPtClr
  | dtmModeCur
  | dtmModePend
  | rngRegCmd
  | rngRegSts
  | rngRegCnt
  | lnkCtl
  | lnkSts
  | lnkSubst
  | lnkSubstT
  | lnkExpired
  | lnkDisc
  | lnkDiscT0
  | lnkDiscTr
  | lnkPortSts
  | lnkPortCnt
  | lnkPortCmd
  | colCtl
  | colGrpCfg
  | colGrpPart
  | colGrpMem
  | colGrpInst
  | colSeqBase
  | colSeqCtl
  | colSeqSts
  | colSeqStep
  | colSeqWait
  | colSeqCnt
  | colUpdSts
  | colUpdCnt
  | memCtl
  | memHbmSts
  | memSramCe
  | memRctx
  | memPevq
  | memRingCmd
  | memTt
  | memPevqLost
  | memMevqCfg
  | memMevqCons
  | memMevqSts
  | memMevqLost
  | memRingIdx
  | memRingSts
  | prtCtl
  | prtBindSts
  | prtSysid
  | prtIdent
  | prtFit
  | prtCommit
  | prtDeny
  | prtPart
  | prtGran
  | prtGranAct
  | prtOtpCnt
  | prtVfIrq
  | svcRepl
  | svcReplSet
  | svcJobAbt
  | svcRepair
  | svcSurvCtl
  | svcSurvSts
  | svcReserve
  | dbgCtl
  | cfgTileId
  | tcStatus
  | tcTvec
  | tcEpc
  | tcCause
  | tcDbgCtl
  | tcDbgSts
  | tcDbgBp
  | cfgVeFlags
  | cfgFuSlot
  | rngTileEval
  | dbgGratCtl
  | dbgGratCnt
  | dbgGratKey
  | dbgGratBin
  | cfgCtrBin
  | cfgCtrZn
  | cfgCtrSf
  | cfgCtrElem
  | cfgCtrCtl
  | cfgCtrSts
  | cfgCtrClr
  | cfgFmtcClr
  | tcTval
  | tcScratch
  | tcCycle
  | tcInstret
  | cfgFmtcOvf
  | cfgFmtcUnf
  | dtmPtCycles
  | dtmPtTicks
  | lnkGazLo
  | lnkGazHi
  | prtJob
  | prtJobPeers
  | prtJobAct
  | prtJobActPeers
  | prtLcsVal
  | prtLcsCmd
  | prtLcsSts
  | prtLogIdx
  | prtLogData
  | pwrJobeEnergyUj
  | pwrJobePtick
  | pwrJobeStart
  | pwrJobeEnd
  | pwrThrTicks
  | pwrThrCycles
  | svcSurvNeed
  | svcFltAttr
  | svcFltHard
  | dbgPhalt
  | dbgPresume
  | dbgPhalted
  deriving DecidableEq, Repr, Inhabited

/-- A register or an array of registers: its first offset, the count and stride of each index, its fields. -/
structure RegRow where
  reg : Reg
  base : Nat
  dims : List (Nat × Nat)
  fields : List FieldRow
  deriving DecidableEq, Repr

namespace Csr

abbrev cfgDevId : Nat := 0x0
abbrev cfgDevId_part : Fld := ⟨cfgDevId, 0, 16⟩
abbrev cfgDevId_grade : Fld := ⟨cfgDevId, 16, 4⟩
abbrev cfgDevId_step_major : Fld := ⟨cfgDevId, 20, 4⟩
abbrev cfgDevId_step_minor : Fld := ⟨cfgDevId, 24, 4⟩
abbrev cfgTopo : Nat := 0x8
abbrev cfgTopo_compute_dies : Fld := ⟨cfgTopo, 0, 5⟩
abbrev cfgTopo_hubs : Fld := ⟨cfgTopo, 5, 3⟩
abbrev cfgTopo_tiles_per_die : Fld := ⟨cfgTopo, 8, 8⟩
abbrev cfgTopo_stacks : Fld := ⟨cfgTopo, 16, 4⟩
abbrev cfgTopo_ports : Fld := ⟨cfgTopo, 20, 5⟩
abbrev cfgTopo_partitions : Fld := ⟨cfgTopo, 25, 6⟩
abbrev cfgTileMap (i : Nat) (j : Nat) : Nat := 0x1000 + 0x40 * i + 0x8 * j
abbrev cfgTileMap_bypass (i : Nat) (j : Nat) : Fld := ⟨(cfgTileMap i j), 0, 5⟩
abbrev cfgTileMap_factory (i : Nat) (j : Nat) : Fld := ⟨(cfgTileMap i j), 5, 5⟩
abbrev cfgTileMap_spare_free (i : Nat) (j : Nat) : Fld := ⟨(cfgTileMap i j), 10, 1⟩
abbrev cfgTileMap_done (i : Nat) (j : Nat) : Fld := ⟨(cfgTileMap i j), 11, 1⟩
abbrev cfgTileMap_refused (i : Nat) (j : Nat) : Fld := ⟨(cfgTileMap i j), 12, 1⟩
abbrev cfgD2dSts (i : Nat) : Nat := 0x2000 + 0x10 * i
abbrev cfgD2dSts_up (i : Nat) : Fld := ⟨(cfgD2dSts i), 0, 1⟩
abbrev cfgD2dSts_down (i : Nat) : Fld := ⟨(cfgD2dSts i), 1, 1⟩
abbrev cfgD2dSts_attempts (i : Nat) : Fld := ⟨(cfgD2dSts i), 2, 2⟩
abbrev cfgD2dSts_lanes_repaired (i : Nat) : Fld := ⟨(cfgD2dSts i), 4, 4⟩
abbrev cfgD2dSts_retries (i : Nat) : Fld := ⟨(cfgD2dSts i), 8, 24⟩
abbrev cfgBoot : Nat := 0x3000
abbrev cfgBoot_stage : Fld := ⟨cfgBoot, 0, 4⟩
abbrev cfgBoot_slot : Fld := ⟨cfgBoot, 4, 1⟩
abbrev cfgBoot_fallback : Fld := ⟨cfgBoot, 5, 1⟩
abbrev cfgBoot_a_ok : Fld := ⟨cfgBoot, 6, 1⟩
abbrev cfgBoot_b_ok : Fld := ⟨cfgBoot, 7, 1⟩
abbrev cfgBoot_version : Fld := ⟨cfgBoot, 32, 32⟩
abbrev cfgBootT : Nat := 0x3008
abbrev cfgBootT_fw_us : Fld := ⟨cfgBootT, 0, 32⟩
abbrev cfgBootT_ready_us : Fld := ⟨cfgBootT, 32, 32⟩
abbrev cfgBist : Nat := 0x3010
abbrev cfgBist_die_fail : Fld := ⟨cfgBist, 0, 20⟩
abbrev cfgBist_tiles : Fld := ⟨cfgBist, 20, 12⟩
abbrev clkSts : Nat := 0x100000
abbrev clkSts_iosc_ok : Fld := ⟨clkSts, 0, 1⟩
abbrev clkSts_ref_ok : Fld := ⟨clkSts, 1, 1⟩
abbrev clkSts_lost_state : Fld := ⟨clkSts, 2, 1⟩
abbrev clkSts_good_windows : Fld := ⟨clkSts, 3, 6⟩
abbrev clkMon : Nat := 0x100008
abbrev clkMon_last_count : Fld := ⟨clkMon, 0, 12⟩
abbrev clkMon_lo : Fld := ⟨clkMon, 12, 12⟩
abbrev clkMon_hi : Fld := ⟨clkMon, 24, 12⟩
abbrev clkMon_oor : Fld := ⟨clkMon, 36, 16⟩
abbrev clkFail : Nat := 0x100010
abbrev clkFail_lost : Fld := ⟨clkFail, 0, 1⟩
abbrev clkFail_count : Fld := ⟨clkFail, 8, 8⟩
abbrev clkFwd : Nat := 0x100018
abbrev clkFwd_en : Fld := ⟨clkFwd, 0, 1⟩
abbrev clkFwd_ssc : Fld := ⟨clkFwd, 1, 1⟩
abbrev clkFwd_active : Fld := ⟨clkFwd, 2, 1⟩
abbrev clkPllA (i : Nat) : Nat := 0x101000 + 0x40 * i
abbrev clkPllA_refdiv_m1 (i : Nat) : Fld := ⟨(clkPllA i), 0, 2⟩
abbrev clkPllA_fbdiv (i : Nat) : Fld := ⟨(clkPllA i), 2, 8⟩
abbrev clkPllA_frac (i : Nat) : Fld := ⟨(clkPllA i), 10, 16⟩
abbrev clkPllA_postdiv (i : Nat) : Fld := ⟨(clkPllA i), 26, 3⟩
abbrev clkPllA_en (i : Nat) : Fld := ⟨(clkPllA i), 29, 1⟩
abbrev clkPllB (i : Nat) : Nat := 0x101008 + 0x40 * i
abbrev clkPllB_refdiv_m1 (i : Nat) : Fld := ⟨(clkPllB i), 0, 2⟩
abbrev clkPllB_fbdiv (i : Nat) : Fld := ⟨(clkPllB i), 2, 8⟩
abbrev clkPllB_frac (i : Nat) : Fld := ⟨(clkPllB i), 10, 16⟩
abbrev clkPllB_postdiv (i : Nat) : Fld := ⟨(clkPllB i), 26, 3⟩
abbrev clkPllB_en (i : Nat) : Fld := ⟨(clkPllB i), 29, 1⟩
abbrev clkPllSts (i : Nat) : Nat := 0x101010 + 0x40 * i
abbrev clkPllSts_ready_a (i : Nat) : Fld := ⟨(clkPllSts i), 0, 1⟩
abbrev clkPllSts_ready_b (i : Nat) : Fld := ⟨(clkPllSts i), 1, 1⟩
abbrev clkPllSts_cfg_err (i : Nat) : Fld := ⟨(clkPllSts i), 2, 1⟩
abbrev clkPllSts_unlock (i : Nat) : Fld := ⟨(clkPllSts i), 3, 1⟩
abbrev clkSrc (i : Nat) : Nat := 0x101018 + 0x40 * i
abbrev clkSrc_sel (i : Nat) : Fld := ⟨(clkSrc i), 0, 2⟩
abbrev clkSrc_pending (i : Nat) : Fld := ⟨(clkSrc i), 2, 1⟩
abbrev clkSrc_refused (i : Nat) : Fld := ⟨(clkSrc i), 3, 1⟩
abbrev clkSrc_cur (i : Nat) : Fld := ⟨(clkSrc i), 4, 2⟩
abbrev clkSrc_switches (i : Nat) : Fld := ⟨(clkSrc i), 16, 16⟩
abbrev pwrSts : Nat := 0x200000
abbrev pwrSts_op : Fld := ⟨pwrSts, 0, 3⟩
abbrev pwrSts_duty : Fld := ⟨pwrSts, 3, 3⟩
abbrev pwrSts_mem : Fld := ⟨pwrSts, 6, 2⟩
abbrev pwrSts_paced : Fld := ⟨pwrSts, 8, 1⟩
abbrev pwrSts_stepping : Fld := ⟨pwrSts, 9, 1⟩
abbrev pwrCtl : Nat := 0x200008
abbrev pwrCtl_en : Fld := ⟨pwrCtl, 0, 1⟩
abbrev pwrCap : Nat := 0x200040
abbrev pwrCap_limit_w : Fld := ⟨pwrCap, 0, 16⟩
abbrev pwrWin : Nat := 0x200048
abbrev pwrWin_ticks : Fld := ⟨pwrWin, 0, 24⟩
abbrev pwrWin_eff : Fld := ⟨pwrWin, 24, 24⟩
abbrev pwrPrio : Nat := 0x200050
abbrev pwrPrio_compute : Fld := ⟨pwrPrio, 0, 2⟩
abbrev pwrPrio_memory : Fld := ⟨pwrPrio, 2, 2⟩
abbrev pwrPrio_links : Fld := ⟨pwrPrio, 4, 2⟩
abbrev pwrFlags : Nat := 0x200058
abbrev pwrFlags_cap_clamped : Fld := ⟨pwrFlags, 0, 1⟩
abbrev pwrFlags_cap_unmet : Fld := ⟨pwrFlags, 1, 1⟩
abbrev pwrFlags_prio_err : Fld := ⟨pwrFlags, 2, 1⟩
abbrev pwrFlags_therm_warn : Fld := ⟨pwrFlags, 3, 1⟩
abbrev pwrFlags_therm_crit : Fld := ⟨pwrFlags, 4, 1⟩
abbrev pwrTel : Nat := 0x200060
abbrev pwrTel_sample_w : Fld := ⟨pwrTel, 0, 16⟩
abbrev pwrTel_avg_w : Fld := ⟨pwrTel, 16, 16⟩
abbrev pwrTel_window : Fld := ⟨pwrTel, 32, 32⟩
abbrev pwrEnergy : Nat := 0x200068
abbrev pwrEnergy_uj : Fld := ⟨pwrEnergy, 0, 64⟩
abbrev pwrIlim (i : Nat) : Nat := 0x200080 + 0x8 * i
abbrev pwrIlim_limit_a (i : Nat) : Fld := ⟨(pwrIlim i), 0, 12⟩
abbrev pwrIlim_events (i : Nat) : Fld := ⟨(pwrIlim i), 12, 32⟩
abbrev pwrOp (i : Nat) : Nat := 0x200100 + 0x8 * i
abbrev pwrOp_mhz (i : Nat) : Fld := ⟨(pwrOp i), 0, 12⟩
abbrev pwrOp_vnom_mv (i : Nat) : Fld := ⟨(pwrOp i), 12, 10⟩
abbrev pwrOp_margin_mv (i : Nat) : Fld := ⟨(pwrOp i), 22, 8⟩
abbrev pwrOp_en (i : Nat) : Fld := ⟨(pwrOp i), 30, 1⟩
abbrev pwrOp_up_ratio (i : Nat) : Fld := ⟨(pwrOp i), 32, 16⟩
abbrev pwrDroop (i : Nat) : Nat := 0x200200 + 0x8 * i
abbrev pwrDroop_shallow (i : Nat) : Fld := ⟨(pwrDroop i), 0, 5⟩
abbrev pwrDroop_deep (i : Nat) : Fld := ⟨(pwrDroop i), 5, 5⟩
abbrev pwrDroop_hold (i : Nat) : Fld := ⟨(pwrDroop i), 10, 13⟩
abbrev pwrDroop_div (i : Nat) : Fld := ⟨(pwrDroop i), 23, 2⟩
abbrev pwrDroop_entries (i : Nat) : Fld := ⟨(pwrDroop i), 32, 32⟩
abbrev pwrTherm : Nat := 0x200300
abbrev pwrTherm_throttle_c : Fld := ⟨pwrTherm, 0, 8⟩
abbrev pwrTherm_crit_c : Fld := ⟨pwrTherm, 8, 8⟩
abbrev pwrTherm_trip_c : Fld := ⟨pwrTherm, 16, 8⟩
abbrev pwrTherm_hbm_c : Fld := ⟨pwrTherm, 24, 8⟩
abbrev pwrTherm_tj_max : Fld := ⟨pwrTherm, 32, 16⟩
abbrev pwrTherm_hottest : Fld := ⟨pwrTherm, 48, 5⟩
abbrev pwrTemp (i : Nat) : Nat := 0x200400 + 0x8 * i
abbrev pwrTemp_temp (i : Nat) : Fld := ⟨(pwrTemp i), 0, 16⟩
abbrev pwrTemp_ceil_op (i : Nat) : Fld := ⟨(pwrTemp i), 16, 3⟩
abbrev pwrTemp_ceil_duty (i : Nat) : Fld := ⟨(pwrTemp i), 19, 3⟩
abbrev pwrThrClr (i : Nat) : Nat := 0x202060 + 0x80 * i
abbrev pwrThrClr_clear (i : Nat) : Fld := ⟨(pwrThrClr i), 0, 1⟩
abbrev dtmCtl : Nat := 0x300000
abbrev dtmCtl_src : Fld := ⟨dtmCtl, 0, 2⟩
abbrev dtmCtl_period_10ns : Fld := ⟨dtmCtl, 2, 17⟩
abbrev dtmCtl_origin : Fld := ⟨dtmCtl, 19, 1⟩
abbrev dtmCtl_wander_ppb : Fld := ⟨dtmCtl, 32, 16⟩
abbrev dtmCtl_slew_ppm : Fld := ⟨dtmCtl, 48, 16⟩
abbrev dtmSts : Nat := 0x300008
abbrev dtmSts_state : Fld := ⟨dtmSts, 0, 3⟩
abbrev dtmSts_holdover : Fld := ⟨dtmSts, 3, 1⟩
abbrev dtmSts_aligned : Fld := ⟨dtmSts, 4, 1⟩
abbrev dtmSts_edge_err : Fld := ⟨dtmSts, 5, 1⟩
abbrev dtmSts_count_mismatch : Fld := ⟨dtmSts, 6, 1⟩
abbrev dtmSts_hold_seen : Fld := ⟨dtmSts, 7, 1⟩
abbrev dtmSts_hold_ticks : Fld := ⟨dtmSts, 32, 32⟩
abbrev dtmCount : Nat := 0x300010
abbrev dtmCount_count : Fld := ⟨dtmCount, 0, 64⟩
abbrev dtmLoad : Nat := 0x300018
abbrev dtmLoad_value : Fld := ⟨dtmLoad, 0, 64⟩
abbrev dtmPhase : Nat := 0x300020
abbrev dtmPhase_offset_ns : Fld := ⟨dtmPhase, 0, 32⟩
abbrev dtmPhase_interval : Fld := ⟨dtmPhase, 32, 32⟩
abbrev dtmHold : Nat := 0x300028
abbrev dtmHold_bound_ns : Fld := ⟨dtmHold, 0, 32⟩
abbrev dtmHold_limit_ns : Fld := ⟨dtmHold, 32, 32⟩
abbrev dtmRelay : Nat := 0x300030
abbrev dtmRelay_upstream : Fld := ⟨dtmRelay, 0, 5⟩
abbrev dtmRelay_up_valid : Fld := ⟨dtmRelay, 5, 1⟩
abbrev dtmRelay_hops : Fld := ⟨dtmRelay, 6, 5⟩
abbrev dtmRelay_en_mask : Fld := ⟨dtmRelay, 11, 24⟩
abbrev dtmLinkdly (i : Nat) : Nat := 0x300100 + 0x8 * i
abbrev dtmLinkdly_delay (i : Nat) : Fld := ⟨(dtmLinkdly i), 0, 32⟩
abbrev dtmLinkdly_samples (i : Nat) : Fld := ⟨(dtmLinkdly i), 32, 32⟩
abbrev dtmModeT : Nat := 0x300210
abbrev dtmModeT_t : Fld := ⟨dtmModeT, 0, 64⟩
abbrev dtmModeArm : Nat := 0x300218
abbrev dtmModeArm_arm : Fld := ⟨dtmModeArm, 0, 1⟩
abbrev dtmModeArm_cancel : Fld := ⟨dtmModeArm, 1, 1⟩
abbrev dtmModeArm_armed : Fld := ⟨dtmModeArm, 2, 1⟩
abbrev dtmModeArm_rej : Fld := ⟨dtmModeArm, 3, 1⟩
abbrev dtmPtClr : Nat := 0x303000
abbrev dtmPtClr_mask : Fld := ⟨dtmPtClr, 0, 32⟩
abbrev dtmModeCur : Nat := 0x300200
abbrev dtmModeCur_epoch : Fld := ⟨dtmModeCur, 0, 32⟩
abbrev dtmModeCur_rnd_stoch : Fld := ⟨dtmModeCur, 32, 1⟩
abbrev dtmModeCur_spill_m1 : Fld := ⟨dtmModeCur, 33, 16⟩
abbrev dtmModeCur_op_max : Fld := ⟨dtmModeCur, 49, 3⟩
abbrev dtmModeCur_ssc_depth : Fld := ⟨dtmModeCur, 52, 6⟩
abbrev dtmModeCur_ssc_rate : Fld := ⟨dtmModeCur, 58, 6⟩
abbrev dtmModePend : Nat := 0x300208
abbrev dtmModePend_epoch : Fld := ⟨dtmModePend, 0, 32⟩
abbrev dtmModePend_rnd_stoch : Fld := ⟨dtmModePend, 32, 1⟩
abbrev dtmModePend_spill_m1 : Fld := ⟨dtmModePend, 33, 16⟩
abbrev dtmModePend_op_max : Fld := ⟨dtmModePend, 49, 3⟩
abbrev dtmModePend_ssc_depth : Fld := ⟨dtmModePend, 52, 6⟩
abbrev dtmModePend_ssc_rate : Fld := ⟨dtmModePend, 58, 6⟩
abbrev rngRegCmd (i : Nat) : Nat := 0x401000 + 0x40 * i
abbrev rngRegCmd_rec (i : Nat) : Fld := ⟨(rngRegCmd i), 5, 43⟩
abbrev rngRegSts (i : Nat) : Nat := 0x401008 + 0x40 * i
abbrev rngRegSts_used (i : Nat) : Fld := ⟨(rngRegSts i), 0, 13⟩
abbrev rngRegSts_queued (i : Nat) : Fld := ⟨(rngRegSts i), 16, 7⟩
abbrev rngRegCnt (i : Nat) : Nat := 0x401010 + 0x40 * i
abbrev rngRegCnt_alias (i : Nat) : Fld := ⟨(rngRegCnt i), 0, 32⟩
abbrev rngRegCnt_replay (i : Nat) : Fld := ⟨(rngRegCnt i), 32, 32⟩
abbrev lnkCtl : Nat := 0x500000
abbrev lnkCtl_lx_m1 : Fld := ⟨lnkCtl, 0, 4⟩
abbrev lnkCtl_ly_m1 : Fld := ⟨lnkCtl, 4, 4⟩
abbrev lnkCtl_lz_m1 : Fld := ⟨lnkCtl, 8, 4⟩
abbrev lnkCtl_spares : Fld := ⟨lnkCtl, 12, 1⟩
abbrev lnkCtl_life_ticks : Fld := ⟨lnkCtl, 16, 8⟩
abbrev lnkSts : Nat := 0x500008
abbrev lnkSts_logical : Fld := ⟨lnkSts, 0, 12⟩
abbrev lnkSts_log_valid : Fld := ⟨lnkSts, 12, 1⟩
abbrev lnkSts_phys : Fld := ⟨lnkSts, 13, 13⟩
abbrev lnkSts_unreach : Fld := ⟨lnkSts, 26, 1⟩
abbrev lnkSts_ready : Fld := ⟨lnkSts, 27, 1⟩
abbrev lnkSubst : Nat := 0x500010
abbrev lnkSubst_logical : Fld := ⟨lnkSubst, 0, 12⟩
abbrev lnkSubst_phys : Fld := ⟨lnkSubst, 12, 13⟩
abbrev lnkSubst_go : Fld := ⟨lnkSubst, 25, 1⟩
abbrev lnkSubst_rej : Fld := ⟨lnkSubst, 26, 1⟩
abbrev lnkSubst_pending : Fld := ⟨lnkSubst, 27, 1⟩
abbrev lnkSubstT : Nat := 0x500018
abbrev lnkSubstT_t : Fld := ⟨lnkSubstT, 0, 64⟩
abbrev lnkExpired : Nat := 0x500020
abbrev lnkExpired_segments : Fld := ⟨lnkExpired, 0, 32⟩
abbrev lnkDisc : Nat := 0x500100
abbrev lnkDisc_state : Fld := ⟨lnkDisc, 0, 3⟩
abbrev lnkDisc_origin : Fld := ⟨lnkDisc, 3, 1⟩
abbrev lnkDisc_start : Fld := ⟨lnkDisc, 4, 1⟩
abbrev lnkDisc_dup_pos : Fld := ⟨lnkDisc, 5, 1⟩
abbrev lnkDisc_pos_invalid : Fld := ⟨lnkDisc, 6, 1⟩
abbrev lnkDisc_late_ready : Fld := ⟨lnkDisc, 7, 1⟩
abbrev lnkDisc_window : Fld := ⟨lnkDisc, 8, 1⟩
abbrev lnkDisc_origin_phys : Fld := ⟨lnkDisc, 9, 13⟩
abbrev lnkDiscT0 : Nat := 0x500108
abbrev lnkDiscT0_t0 : Fld := ⟨lnkDiscT0, 0, 64⟩
abbrev lnkDiscTr : Nat := 0x500110
abbrev lnkDiscTr_tr : Fld := ⟨lnkDiscTr, 0, 64⟩
abbrev lnkPortSts (i : Nat) : Nat := 0x501000 + 0x20 * i
abbrev lnkPortSts_state (i : Nat) : Fld := ⟨(lnkPortSts i), 0, 3⟩
abbrev lnkPortSts_attempts (i : Nat) : Fld := ⟨(lnkPortSts i), 3, 2⟩
abbrev lnkPortSts_miswire (i : Nat) : Fld := ⟨(lnkPortSts i), 5, 1⟩
abbrev lnkPortSts_peer_phys (i : Nat) : Fld := ⟨(lnkPortSts i), 6, 13⟩
abbrev lnkPortSts_peer_port (i : Nat) : Fld := ⟨(lnkPortSts i), 19, 5⟩
abbrev lnkPortCnt (i : Nat) : Nat := 0x501008 + 0x20 * i
abbrev lnkPortCnt_crc_err (i : Nat) : Fld := ⟨(lnkPortCnt i), 0, 32⟩
abbrev lnkPortCnt_replays (i : Nat) : Fld := ⟨(lnkPortCnt i), 32, 32⟩
abbrev lnkPortCmd (i : Nat) : Nat := 0x501010 + 0x20 * i
abbrev lnkPortCmd_train (i : Nat) : Fld := ⟨(lnkPortCmd i), 0, 1⟩
abbrev lnkPortCmd_disable (i : Nat) : Fld := ⟨(lnkPortCmd i), 1, 1⟩
abbrev colCtl : Nat := 0x600000
abbrev colCtl_freeze_ticks : Fld := ⟨colCtl, 0, 16⟩
abbrev colGrpCfg (i : Nat) : Nat := 0x610000 + 0x20 * i
abbrev colGrpCfg_n_m1 (i : Nat) : Fld := ⟨(colGrpCfg i), 0, 12⟩
abbrev colGrpCfg_rank (i : Nat) : Fld := ⟨(colGrpCfg i), 12, 12⟩
abbrev colGrpCfg_local_m1 (i : Nat) : Fld := ⟨(colGrpCfg i), 24, 11⟩
abbrev colGrpCfg_valid (i : Nat) : Fld := ⟨(colGrpCfg i), 35, 1⟩
abbrev colGrpCfg_split (i : Nat) : Fld := ⟨(colGrpCfg i), 36, 1⟩
abbrev colGrpPart (i : Nat) : Nat := 0x610008 + 0x20 * i
abbrev colGrpPart_mask (i : Nat) : Fld := ⟨(colGrpPart i), 0, 32⟩
abbrev colGrpMem (i : Nat) : Nat := 0x610010 + 0x20 * i
abbrev colGrpMem_list (i : Nat) : Fld := ⟨(colGrpMem i), 0, 48⟩
abbrev colGrpInst (i : Nat) : Nat := 0x610018 + 0x20 * i
abbrev colGrpInst_instance (i : Nat) : Fld := ⟨(colGrpInst i), 0, 32⟩
abbrev colGrpInst_late_total (i : Nat) : Fld := ⟨(colGrpInst i), 32, 32⟩
abbrev colSeqBase (i : Nat) : Nat := 0x620000 + 0x40 * i
abbrev colSeqBase_hdr (i : Nat) : Fld := ⟨(colSeqBase i), 7, 41⟩
abbrev colSeqCtl (i : Nat) : Nat := 0x620008 + 0x40 * i
abbrev colSeqCtl_start (i : Nat) : Fld := ⟨(colSeqCtl i), 0, 1⟩
abbrev colSeqCtl_stop (i : Nat) : Fld := ⟨(colSeqCtl i), 1, 1⟩
abbrev colSeqCtl_abort (i : Nat) : Fld := ⟨(colSeqCtl i), 2, 1⟩
abbrev colSeqSts (i : Nat) : Nat := 0x620010 + 0x40 * i
abbrev colSeqSts_state (i : Nat) : Fld := ⟨(colSeqSts i), 0, 3⟩
abbrev colSeqSts_activity (i : Nat) : Fld := ⟨(colSeqSts i), 3, 3⟩
abbrev colSeqSts_cfg_err (i : Nat) : Fld := ⟨(colSeqSts i), 6, 1⟩
abbrev colSeqSts_mb (i : Nat) : Fld := ⟨(colSeqSts i), 8, 12⟩
abbrev colSeqSts_layer (i : Nat) : Fld := ⟨(colSeqSts i), 20, 8⟩
abbrev colSeqStep (i : Nat) : Nat := 0x620018 + 0x40 * i
abbrev colSeqStep_n (i : Nat) : Fld := ⟨(colSeqStep i), 0, 64⟩
abbrev colSeqWait (i : Nat) : Nat := 0x620020 + 0x40 * i
abbrev colSeqWait_in_ticks (i : Nat) : Fld := ⟨(colSeqWait i), 0, 32⟩
abbrev colSeqWait_coll_ticks (i : Nat) : Fld := ⟨(colSeqWait i), 32, 32⟩
abbrev colSeqCnt (i : Nat) : Nat := 0x620028 + 0x40 * i
abbrev colSeqCnt_skipped (i : Nat) : Fld := ⟨(colSeqCnt i), 0, 32⟩
abbrev colSeqCnt_stragglers (i : Nat) : Fld := ⟨(colSeqCnt i), 32, 32⟩
abbrev colUpdSts (i : Nat) : Nat := 0x630000 + 0x20 * i
abbrev colUpdSts_busy (i : Nat) : Fld := ⟨(colUpdSts i), 0, 1⟩
abbrev colUpdSts_remaining (i : Nat) : Fld := ⟨(colUpdSts i), 1, 16⟩
abbrev colUpdCnt (i : Nat) : Nat := 0x630008 + 0x20 * i
abbrev colUpdCnt_params (i : Nat) : Fld := ⟨(colUpdCnt i), 0, 48⟩
abbrev memCtl : Nat := 0x700000
abbrev memCtl_sram_scrub : Fld := ⟨memCtl, 0, 1⟩
abbrev memHbmSts (i : Nat) : Nat := 0x700100 + 0x20 * i
abbrev memHbmSts_trained (i : Nat) : Fld := ⟨(memHbmSts i), 0, 1⟩
abbrev memHbmSts_failed (i : Nat) : Fld := ⟨(memHbmSts i), 1, 1⟩
abbrev memHbmSts_ce (i : Nat) : Fld := ⟨(memHbmSts i), 32, 16⟩
abbrev memHbmSts_ue (i : Nat) : Fld := ⟨(memHbmSts i), 48, 16⟩
abbrev memSramCe (i : Nat) : Nat := 0x700400 + 0x8 * i
abbrev memSramCe_ce (i : Nat) : Fld := ⟨(memSramCe i), 0, 32⟩
abbrev memSramCe_ue (i : Nat) : Fld := ⟨(memSramCe i), 32, 16⟩
abbrev memRctx (i : Nat) : Nat := 0x701000 + 0x40 * i
abbrev memRctx_base (i : Nat) : Fld := ⟨(memRctx i), 16, 32⟩
abbrev memPevq (i : Nat) : Nat := 0x701008 + 0x40 * i
abbrev memPevq_ring (i : Nat) : Fld := ⟨(memPevq i), 0, 10⟩
abbrev memPevq_en (i : Nat) : Fld := ⟨(memPevq i), 10, 1⟩
abbrev memRingCmd (i : Nat) : Nat := 0x701010 + 0x40 * i
abbrev memRingCmd_ring (i : Nat) : Fld := ⟨(memRingCmd i), 0, 10⟩
abbrev memRingCmd_cmd (i : Nat) : Fld := ⟨(memRingCmd i), 10, 2⟩
abbrev memRingCmd_busy (i : Nat) : Fld := ⟨(memRingCmd i), 12, 1⟩
abbrev memTt (i : Nat) : Nat := 0x701018 + 0x40 * i
abbrev memTt_in_use (i : Nat) : Fld := ⟨(memTt i), 0, 14⟩
abbrev memTt_high_water (i : Nat) : Fld := ⟨(memTt i), 16, 14⟩
abbrev memTt_clr (i : Nat) : Fld := ⟨(memTt i), 31, 1⟩
abbrev memPevqLost (i : Nat) : Nat := 0x701020 + 0x40 * i
abbrev memPevqLost_lost (i : Nat) : Fld := ⟨(memPevqLost i), 0, 32⟩
abbrev memPevqLost_held (i : Nat) : Fld := ⟨(memPevqLost i), 32, 6⟩
abbrev memMevqCfg : Nat := 0x702000
abbrev memMevqCfg_base : Fld := ⟨memMevqCfg, 0, 48⟩
abbrev memMevqCfg_size_log2 : Fld := ⟨memMevqCfg, 48, 5⟩
abbrev memMevqCons : Nat := 0x702008
abbrev memMevqCons_cons : Fld := ⟨memMevqCons, 0, 32⟩
abbrev memMevqSts : Nat := 0x702010
abbrev memMevqSts_prod : Fld := ⟨memMevqSts, 0, 32⟩
abbrev memMevqSts_held : Fld := ⟨memMevqSts, 32, 6⟩
abbrev memMevqSts_cfg_err : Fld := ⟨memMevqSts, 38, 1⟩
abbrev memMevqLost : Nat := 0x702018
abbrev memMevqLost_lost : Fld := ⟨memMevqLost, 0, 32⟩
abbrev memRingIdx (i : Nat) : Nat := 0x780000 + 0x10 * i
abbrev memRingIdx_idx (i : Nat) : Fld := ⟨(memRingIdx i), 0, 32⟩
abbrev memRingSts (i : Nat) : Nat := 0x780008 + 0x10 * i
abbrev memRingSts_dev_idx (i : Nat) : Fld := ⟨(memRingSts i), 0, 32⟩
abbrev memRingSts_kind (i : Nat) : Fld := ⟨(memRingSts i), 32, 3⟩
abbrev memRingSts_state (i : Nat) : Fld := ⟨(memRingSts i), 35, 2⟩
abbrev memRingSts_overrun (i : Nat) : Fld := ⟨(memRingSts i), 37, 1⟩
abbrev memRingSts_ctx_err (i : Nat) : Fld := ⟨(memRingSts i), 38, 1⟩
abbrev prtCtl : Nat := 0x800000
abbrev prtCtl_pf_m : Fld := ⟨prtCtl, 0, 1⟩
abbrev prtBindSts : Nat := 0x800008
abbrev prtBindSts_state : Fld := ⟨prtBindSts, 0, 2⟩
abbrev prtBindSts_bound : Fld := ⟨prtBindSts, 2, 61⟩
abbrev prtSysid : Nat := 0x800010
abbrev prtSysid_sysid : Fld := ⟨prtSysid, 0, 48⟩
abbrev prtIdent : Nat := 0x800018
abbrev prtIdent_ident : Fld := ⟨prtIdent, 0, 64⟩
abbrev prtFit : Nat := 0x800020
abbrev prtFit_class : Fld := ⟨prtFit, 0, 16⟩
abbrev prtCommit : Nat := 0x800028
abbrev prtCommit_go : Fld := ⟨prtCommit, 0, 1⟩
abbrev prtCommit_busy : Fld := ⟨prtCommit, 1, 1⟩
abbrev prtCommit_busy_err : Fld := ⟨prtCommit, 2, 1⟩
abbrev prtCommit_gen : Fld := ⟨prtCommit, 32, 32⟩
abbrev prtDeny : Nat := 0x800030
abbrev prtDeny_addr : Fld := ⟨prtDeny, 0, 48⟩
abbrev prtDeny_part : Fld := ⟨prtDeny, 48, 5⟩
abbrev prtDeny_origin : Fld := ⟨prtDeny, 53, 2⟩
abbrev prtDeny_count : Fld := ⟨prtDeny, 55, 9⟩
abbrev prtPart (i : Nat) : Nat := 0x800100 + 0x8 * i
abbrev prtPart_job (i : Nat) : Fld := ⟨(prtPart i), 0, 5⟩
abbrev prtPart_assigned (i : Nat) : Fld := ⟨(prtPart i), 5, 1⟩
abbrev prtPart_job_act (i : Nat) : Fld := ⟨(prtPart i), 6, 5⟩
abbrev prtPart_assigned_act (i : Nat) : Fld := ⟨(prtPart i), 11, 1⟩
abbrev prtPart_state (i : Nat) : Fld := ⟨(prtPart i), 12, 2⟩
abbrev prtPart_reset (i : Nat) : Fld := ⟨(prtPart i), 14, 1⟩
abbrev prtPart_withdraw (i : Nat) : Fld := ⟨(prtPart i), 15, 1⟩
abbrev prtGran (i : Nat) : Nat := 0x801000 + 0x8 * i
abbrev prtGran_job (i : Nat) : Fld := ⟨(prtGran i), 0, 5⟩
abbrev prtGran_valid (i : Nat) : Fld := ⟨(prtGran i), 5, 1⟩
abbrev prtGran_m_only (i : Nat) : Fld := ⟨(prtGran i), 6, 1⟩
abbrev prtGran_jr (i : Nat) : Fld := ⟨(prtGran i), 7, 1⟩
abbrev prtGran_jw (i : Nat) : Fld := ⟨(prtGran i), 8, 1⟩
abbrev prtGran_pr (i : Nat) : Fld := ⟨(prtGran i), 9, 1⟩
abbrev prtGran_pw (i : Nat) : Fld := ⟨(prtGran i), 10, 1⟩
abbrev prtGran_hr (i : Nat) : Fld := ⟨(prtGran i), 11, 1⟩
abbrev prtGran_hw (i : Nat) : Fld := ⟨(prtGran i), 12, 1⟩
abbrev prtGran_rr (i : Nat) : Fld := ⟨(prtGran i), 13, 1⟩
abbrev prtGran_rw (i : Nat) : Fld := ⟨(prtGran i), 14, 1⟩
abbrev prtGran_x (i : Nat) : Fld := ⟨(prtGran i), 15, 1⟩
abbrev prtGranAct (i : Nat) : Nat := 0x802000 + 0x8 * i
abbrev prtGranAct_job (i : Nat) : Fld := ⟨(prtGranAct i), 0, 5⟩
abbrev prtGranAct_valid (i : Nat) : Fld := ⟨(prtGranAct i), 5, 1⟩
abbrev prtGranAct_m_only (i : Nat) : Fld := ⟨(prtGranAct i), 6, 1⟩
abbrev prtGranAct_jr (i : Nat) : Fld := ⟨(prtGranAct i), 7, 1⟩
abbrev prtGranAct_jw (i : Nat) : Fld := ⟨(prtGranAct i), 8, 1⟩
abbrev prtGranAct_pr (i : Nat) : Fld := ⟨(prtGranAct i), 9, 1⟩
abbrev prtGranAct_pw (i : Nat) : Fld := ⟨(prtGranAct i), 10, 1⟩
abbrev prtGranAct_hr (i : Nat) : Fld := ⟨(prtGranAct i), 11, 1⟩
abbrev prtGranAct_hw (i : Nat) : Fld := ⟨(prtGranAct i), 12, 1⟩
abbrev prtGranAct_rr (i : Nat) : Fld := ⟨(prtGranAct i), 13, 1⟩
abbrev prtGranAct_rw (i : Nat) : Fld := ⟨(prtGranAct i), 14, 1⟩
abbrev prtGranAct_x (i : Nat) : Fld := ⟨(prtGranAct i), 15, 1⟩
abbrev prtOtpCnt : Nat := 0x803018
abbrev prtOtpCnt_bind : Fld := ⟨prtOtpCnt, 0, 6⟩
abbrev prtOtpCnt_survey : Fld := ⟨prtOtpCnt, 6, 4⟩
abbrev prtOtpCnt_revoke : Fld := ⟨prtOtpCnt, 10, 5⟩
abbrev prtOtpCnt_log_used : Fld := ⟨prtOtpCnt, 15, 13⟩
abbrev prtVfIrq (i : Nat) (j : Nat) : Nat := 0x804000 + 0x40 * i + 0x8 * j
abbrev prtVfIrq_ring (i : Nat) (j : Nat) : Fld := ⟨(prtVfIrq i j), 0, 10⟩
abbrev prtVfIrq_en (i : Nat) (j : Nat) : Fld := ⟨(prtVfIrq i j), 10, 1⟩
abbrev svcRepl : Nat := 0x900000
abbrev svcRepl_reasons : Fld := ⟨svcRepl, 0, 4⟩
abbrev svcRepl_withdrawn : Fld := ⟨svcRepl, 8, 5⟩
abbrev svcReplSet : Nat := 0x900008
abbrev svcReplSet_set : Fld := ⟨svcReplSet, 0, 4⟩
abbrev svcJobAbt : Nat := 0x900010
abbrev svcJobAbt_slots : Fld := ⟨svcJobAbt, 0, 32⟩
abbrev svcRepair : Nat := 0x900030
abbrev svcRepair_part : Fld := ⟨svcRepair, 0, 5⟩
abbrev svcRepair_row : Fld := ⟨svcRepair, 5, 3⟩
abbrev svcRepair_pos : Fld := ⟨svcRepair, 8, 5⟩
abbrev svcRepair_go : Fld := ⟨svcRepair, 13, 1⟩
abbrev svcRepair_done : Fld := ⟨svcRepair, 14, 1⟩
abbrev svcRepair_refused : Fld := ⟨svcRepair, 15, 1⟩
abbrev svcSurvCtl : Nat := 0x900100
abbrev svcSurvCtl_period_ticks : Fld := ⟨svcSurvCtl, 0, 48⟩
abbrev svcSurvCtl_run : Fld := ⟨svcSurvCtl, 48, 1⟩
abbrev svcSurvCtl_busy : Fld := ⟨svcSurvCtl, 49, 1⟩
abbrev svcSurvSts : Nat := 0x900108
abbrev svcSurvSts_last : Fld := ⟨svcSurvSts, 0, 48⟩
abbrev svcSurvSts_count : Fld := ⟨svcSurvSts, 48, 16⟩
abbrev svcReserve : Nat := 0x900110
abbrev svcReserve_ceiling_mv : Fld := ⟨svcReserve, 0, 8⟩
abbrev svcReserve_release : Fld := ⟨svcReserve, 8, 3⟩
abbrev dbgCtl : Nat := 0xA01000
abbrev dbgCtl_jtag_bridge : Fld := ⟨dbgCtl, 0, 1⟩
abbrev cfgTileId : Nat := 0x0
abbrev cfgTileId_die : Fld := ⟨cfgTileId, 0, 4⟩
abbrev cfgTileId_tile : Fld := ⟨cfgTileId, 4, 7⟩
abbrev cfgTileId_phys : Fld := ⟨cfgTileId, 11, 5⟩
abbrev cfgTileId_partition : Fld := ⟨cfgTileId, 16, 5⟩
abbrev tcStatus : Nat := 0x10
abbrev tcStatus_state : Fld := ⟨tcStatus, 0, 2⟩
abbrev tcStatus_priv : Fld := ⟨tcStatus, 2, 1⟩
abbrev tcStatus_epriv : Fld := ⟨tcStatus, 3, 1⟩
abbrev tcStatus_dfault : Fld := ⟨tcStatus, 4, 1⟩
abbrev tcTvec : Nat := 0x18
abbrev tcTvec_vec : Fld := ⟨tcTvec, 3, 45⟩
abbrev tcEpc : Nat := 0x20
abbrev tcEpc_epc : Fld := ⟨tcEpc, 0, 48⟩
abbrev tcCause : Nat := 0x28
abbrev tcCause_code : Fld := ⟨tcCause, 0, 16⟩
abbrev tcCause_fetch : Fld := ⟨tcCause, 16, 1⟩
abbrev tcDbgCtl : Nat := 0x80
abbrev tcDbgCtl_halt : Fld := ⟨tcDbgCtl, 0, 1⟩
abbrev tcDbgCtl_resume : Fld := ⟨tcDbgCtl, 1, 1⟩
abbrev tcDbgCtl_step : Fld := ⟨tcDbgCtl, 2, 1⟩
abbrev tcDbgCtl_brk_en : Fld := ⟨tcDbgCtl, 3, 1⟩
abbrev tcDbgSts : Nat := 0x88
abbrev tcDbgSts_halted : Fld := ⟨tcDbgSts, 0, 1⟩
abbrev tcDbgSts_reason : Fld := ⟨tcDbgSts, 1, 2⟩
abbrev tcDbgBp (i : Nat) : Nat := 0x90 + 0x8 * i
abbrev tcDbgBp_pc (i : Nat) : Fld := ⟨(tcDbgBp i), 0, 48⟩
abbrev tcDbgBp_en (i : Nat) : Fld := ⟨(tcDbgBp i), 48, 1⟩
abbrev cfgVeFlags : Nat := 0x4000
abbrev cfgVeFlags_invalid : Fld := ⟨cfgVeFlags, 0, 1⟩
abbrev cfgVeFlags_div_by_zero : Fld := ⟨cfgVeFlags, 1, 1⟩
abbrev cfgVeFlags_overflow : Fld := ⟨cfgVeFlags, 2, 1⟩
abbrev cfgVeFlags_underflow : Fld := ⟨cfgVeFlags, 3, 1⟩
abbrev cfgVeFlags_inexact : Fld := ⟨cfgVeFlags, 4, 1⟩
abbrev cfgFuSlot (i : Nat) : Nat := 0x4100 + 0x10 * i
abbrev cfgFuSlot_loaded (i : Nat) : Fld := ⟨(cfgFuSlot i), 0, 1⟩
abbrev cfgFuSlot_mode (i : Nat) : Fld := ⟨(cfgFuSlot i), 1, 1⟩
abbrev cfgFuSlot_sym (i : Nat) : Fld := ⟨(cfgFuSlot i), 2, 2⟩
abbrev cfgFuSlot_lo_mode (i : Nat) : Fld := ⟨(cfgFuSlot i), 4, 2⟩
abbrev cfgFuSlot_hi_mode (i : Nat) : Fld := ⟨(cfgFuSlot i), 6, 2⟩
abbrev cfgFuSlot_nseg_m1 (i : Nat) : Fld := ⟨(cfgFuSlot i), 8, 10⟩
abbrev cfgFuSlot_id (i : Nat) : Fld := ⟨(cfgFuSlot i), 32, 32⟩
abbrev rngTileEval : Nat := 0x6000
abbrev rngTileEval_evals : Fld := ⟨rngTileEval, 0, 48⟩
abbrev dbgGratCtl (i : Nat) : Nat := 0x8000 + 0x20 * i
abbrev dbgGratCtl_open (i : Nat) : Fld := ⟨(dbgGratCtl i), 0, 1⟩
abbrev dbgGratCtl_faulted (i : Nat) : Fld := ⟨(dbgGratCtl i), 1, 1⟩
abbrev dbgGratCtl_stoch (i : Nat) : Fld := ⟨(dbgGratCtl i), 2, 1⟩
abbrev dbgGratCtl_preset (i : Nat) : Fld := ⟨(dbgGratCtl i), 3, 2⟩
abbrev dbgGratCtl_replays (i : Nat) : Fld := ⟨(dbgGratCtl i), 5, 2⟩
abbrev dbgGratCtl_row_base (i : Nat) : Fld := ⟨(dbgGratCtl i), 7, 9⟩
abbrev dbgGratCtl_row_count (i : Nat) : Fld := ⟨(dbgGratCtl i), 16, 10⟩
abbrev dbgGratCtl_spill_m1 (i : Nat) : Fld := ⟨(dbgGratCtl i), 26, 16⟩
abbrev dbgGratCtl_spill_base (i : Nat) : Fld := ⟨(dbgGratCtl i), 42, 14⟩
abbrev dbgGratCnt (i : Nat) : Nat := 0x8008 + 0x20 * i
abbrev dbgGratCnt_blocks (i : Nat) : Fld := ⟨(dbgGratCnt i), 0, 24⟩
abbrev dbgGratCnt_drops (i : Nat) : Fld := ⟨(dbgGratCnt i), 32, 32⟩
abbrev dbgGratKey (i : Nat) : Nat := 0x8010 + 0x20 * i
abbrev dbgGratKey_tensor_id (i : Nat) : Fld := ⟨(dbgGratKey i), 0, 32⟩
abbrev dbgGratKey_stream_id (i : Nat) : Fld := ⟨(dbgGratKey i), 32, 32⟩
abbrev dbgGratBin (i : Nat) (j : Nat) : Nat := 0x9000 + 0x200 * i + 0x8 * j
abbrev dbgGratBin_total (i : Nat) (j : Nat) : Fld := ⟨(dbgGratBin i j), 0, 48⟩
abbrev dbgGratBin_emax (i : Nat) (j : Nat) : Fld := ⟨(dbgGratBin i j), 48, 8⟩
abbrev cfgCtrBin (i : Nat) (j : Nat) : Nat := 0xD000 + 0x200 * i + 0x8 * j
abbrev cfgCtrBin_lo (i : Nat) (j : Nat) : Fld := ⟨(cfgCtrBin i j), 0, 32⟩
abbrev cfgCtrBin_hi (i : Nat) (j : Nat) : Fld := ⟨(cfgCtrBin i j), 32, 32⟩
abbrev cfgCtrZn (i : Nat) : Nat := 0xD100 + 0x200 * i
abbrev cfgCtrZn_zero (i : Nat) : Fld := ⟨(cfgCtrZn i), 0, 32⟩
abbrev cfgCtrZn_nar (i : Nat) : Fld := ⟨(cfgCtrZn i), 32, 32⟩
abbrev cfgCtrSf (i : Nat) : Nat := 0xD108 + 0x200 * i
abbrev cfgCtrSf_sat (i : Nat) : Fld := ⟨(cfgCtrSf i), 0, 32⟩
abbrev cfgCtrSf_flush (i : Nat) : Fld := ⟨(cfgCtrSf i), 32, 32⟩
abbrev cfgCtrElem (i : Nat) : Nat := 0xD110 + 0x200 * i
abbrev cfgCtrElem_elements (i : Nat) : Fld := ⟨(cfgCtrElem i), 0, 32⟩
abbrev cfgCtrCtl (i : Nat) : Nat := 0xD118 + 0x200 * i
abbrev cfgCtrCtl_drift_thr (i : Nat) : Fld := ⟨(cfgCtrCtl i), 0, 16⟩
abbrev cfgCtrCtl_drift_min (i : Nat) : Fld := ⟨(cfgCtrCtl i), 16, 5⟩
abbrev cfgCtrCtl_drift_en (i : Nat) : Fld := ⟨(cfgCtrCtl i), 21, 1⟩
abbrev cfgCtrSts (i : Nat) : Nat := 0xD120 + 0x200 * i
abbrev cfgCtrSts_drift (i : Nat) : Fld := ⟨(cfgCtrSts i), 0, 1⟩
abbrev cfgCtrSts_sat_any (i : Nat) : Fld := ⟨(cfgCtrSts i), 1, 1⟩
abbrev cfgCtrClr (i : Nat) : Nat := 0xD128 + 0x200 * i
abbrev cfgCtrClr_clear (i : Nat) : Fld := ⟨(cfgCtrClr i), 0, 1⟩
abbrev cfgFmtcClr : Nat := 0xF100
abbrev cfgFmtcClr_mask : Fld := ⟨cfgFmtcClr, 0, 16⟩
abbrev tcTval : Nat := 0x30
abbrev tcTval_tval : Fld := ⟨tcTval, 0, 64⟩
abbrev tcScratch : Nat := 0x38
abbrev tcScratch_scratch : Fld := ⟨tcScratch, 0, 64⟩
abbrev tcCycle : Nat := 0x40
abbrev tcCycle_cycles : Fld := ⟨tcCycle, 0, 64⟩
abbrev tcInstret : Nat := 0x48
abbrev tcInstret_issued : Fld := ⟨tcInstret, 0, 64⟩
abbrev cfgFmtcOvf (i : Nat) : Nat := 0xF000 + 0x10 * i
abbrev cfgFmtcOvf_count (i : Nat) : Fld := ⟨(cfgFmtcOvf i), 0, 48⟩
abbrev cfgFmtcUnf (i : Nat) : Nat := 0xF008 + 0x10 * i
abbrev cfgFmtcUnf_count (i : Nat) : Fld := ⟨(cfgFmtcUnf i), 0, 48⟩
abbrev dtmPtCycles (i : Nat) (j : Nat) : Nat := 0x301000 + 0x100 * i + 0x10 * j
abbrev dtmPtCycles_cycles (i : Nat) (j : Nat) : Fld := ⟨(dtmPtCycles i j), 0, 64⟩
abbrev dtmPtTicks (i : Nat) (j : Nat) : Nat := 0x301008 + 0x100 * i + 0x10 * j
abbrev dtmPtTicks_ticks (i : Nat) (j : Nat) : Fld := ⟨(dtmPtTicks i j), 0, 64⟩
abbrev lnkGazLo (i : Nat) : Nat := 0x510000 + 0x10 * i
abbrev lnkGazLo_logical (i : Nat) : Fld := ⟨(lnkGazLo i), 0, 12⟩
abbrev lnkGazLo_log_valid (i : Nat) : Fld := ⟨(lnkGazLo i), 12, 1⟩
abbrev lnkGazLo_state (i : Nat) : Fld := ⟨(lnkGazLo i), 13, 3⟩
abbrev lnkGazLo_links (i : Nat) : Fld := ⟨(lnkGazLo i), 16, 24⟩
abbrev lnkGazLo_version (i : Nat) : Fld := ⟨(lnkGazLo i), 40, 24⟩
abbrev lnkGazHi (i : Nat) : Nat := 0x510008 + 0x10 * i
abbrev lnkGazHi_identity (i : Nat) : Fld := ⟨(lnkGazHi i), 0, 64⟩
abbrev prtJob (i : Nat) : Nat := 0x800400 + 0x10 * i
abbrev prtJob_atlas_job (i : Nat) : Fld := ⟨(prtJob i), 0, 32⟩
abbrev prtJob_valid (i : Nat) : Fld := ⟨(prtJob i), 32, 1⟩
abbrev prtJobPeers (i : Nat) : Nat := 0x800408 + 0x10 * i
abbrev prtJobPeers_peers (i : Nat) : Fld := ⟨(prtJobPeers i), 0, 48⟩
abbrev prtJobAct (i : Nat) : Nat := 0x800600 + 0x10 * i
abbrev prtJobAct_atlas_job (i : Nat) : Fld := ⟨(prtJobAct i), 0, 32⟩
abbrev prtJobAct_valid (i : Nat) : Fld := ⟨(prtJobAct i), 32, 1⟩
abbrev prtJobActPeers (i : Nat) : Nat := 0x800608 + 0x10 * i
abbrev prtJobActPeers_peers (i : Nat) : Fld := ⟨(prtJobActPeers i), 0, 48⟩
abbrev prtLcsVal : Nat := 0x803000
abbrev prtLcsVal_value : Fld := ⟨prtLcsVal, 0, 64⟩
abbrev prtLcsCmd : Nat := 0x803008
abbrev prtLcsCmd_id : Fld := ⟨prtLcsCmd, 0, 3⟩
abbrev prtLcsCmd_go : Fld := ⟨prtLcsCmd, 3, 1⟩
abbrev prtLcsSts : Nat := 0x803010
abbrev prtLcsSts_busy : Fld := ⟨prtLcsSts, 0, 1⟩
abbrev prtLcsSts_refused : Fld := ⟨prtLcsSts, 1, 1⟩
abbrev prtLogIdx : Nat := 0x803100
abbrev prtLogIdx_idx : Fld := ⟨prtLogIdx, 0, 12⟩
abbrev prtLogData (i : Nat) : Nat := 0x803108 + 0x8 * i
abbrev prtLogData_word (i : Nat) : Fld := ⟨(prtLogData i), 0, 64⟩
abbrev pwrJobeEnergyUj (i : Nat) : Nat := 0x201000 + 0x20 * i
abbrev pwrJobeEnergyUj_v (i : Nat) : Fld := ⟨(pwrJobeEnergyUj i), 0, 64⟩
abbrev pwrJobePtick (i : Nat) : Nat := 0x201008 + 0x20 * i
abbrev pwrJobePtick_v (i : Nat) : Fld := ⟨(pwrJobePtick i), 0, 64⟩
abbrev pwrJobeStart (i : Nat) : Nat := 0x201010 + 0x20 * i
abbrev pwrJobeStart_v (i : Nat) : Fld := ⟨(pwrJobeStart i), 0, 64⟩
abbrev pwrJobeEnd (i : Nat) : Nat := 0x201018 + 0x20 * i
abbrev pwrJobeEnd_v (i : Nat) : Fld := ⟨(pwrJobeEnd i), 0, 64⟩
abbrev pwrThrTicks (i : Nat) (j : Nat) : Nat := 0x202000 + 0x80 * i + 0x10 * j
abbrev pwrThrTicks_ticks (i : Nat) (j : Nat) : Fld := ⟨(pwrThrTicks i j), 0, 64⟩
abbrev pwrThrCycles (i : Nat) (j : Nat) : Nat := 0x202008 + 0x80 * i + 0x10 * j
abbrev pwrThrCycles_cycles (i : Nat) (j : Nat) : Fld := ⟨(pwrThrCycles i j), 0, 64⟩
abbrev svcSurvNeed (i : Nat) : Nat := 0x900200 + 0x8 * i
abbrev svcSurvNeed_need (i : Nat) : Fld := ⟨(svcSurvNeed i), 0, 64⟩
abbrev svcFltAttr (i : Nat) : Nat := 0x900400 + 0x10 * i
abbrev svcFltAttr_attr (i : Nat) : Fld := ⟨(svcFltAttr i), 0, 64⟩
abbrev svcFltHard (i : Nat) : Nat := 0x900408 + 0x10 * i
abbrev svcFltHard_hard (i : Nat) : Fld := ⟨(svcFltHard i), 0, 64⟩
abbrev dbgPhalt (i : Nat) : Nat := 0xA00000 + 0x20 * i
abbrev dbgPhalt_mask (i : Nat) : Fld := ⟨(dbgPhalt i), 0, 64⟩
abbrev dbgPresume (i : Nat) : Nat := 0xA00008 + 0x20 * i
abbrev dbgPresume_mask (i : Nat) : Fld := ⟨(dbgPresume i), 0, 64⟩
abbrev dbgPhalted (i : Nat) : Nat := 0xA00010 + 0x20 * i
abbrev dbgPhalted_mask (i : Nat) : Fld := ⟨(dbgPhalted i), 0, 64⟩

end Csr

/-- The registers of the device CSR blocks (part 1). -/
def deviceRegs0 : List RegRow := [
  ⟨.cfgDevId, 0x0, [], [⟨0, 16, .ro, 0xE20⟩, ⟨16, 4, .ro, 0x0⟩, ⟨20, 4, .ro, 0x0⟩, ⟨24, 4, .ro, 0x0⟩]⟩,
  ⟨.cfgTopo, 0x8, [], [⟨0, 5, .ro, 0x10⟩, ⟨5, 3, .ro, 0x4⟩, ⟨8, 8, .ro, 0x80⟩, ⟨16, 4, .ro, 0x8⟩, ⟨20, 5, .ro, 0x18⟩, ⟨25, 6, .ro, 0x20⟩]⟩,
  ⟨.cfgTileMap, 0x1000, [(16, 0x40), (8, 0x8)], [⟨0, 5, .rws, 0x10⟩, ⟨5, 5, .ro, 0x10⟩, ⟨10, 1, .ro, 0x1⟩, ⟨11, 1, .w1c, 0x0⟩, ⟨12, 1, .w1c, 0x0⟩]⟩,
  ⟨.cfgD2dSts, 0x2000, [(44, 0x10)], [⟨0, 1, .ro, 0x0⟩, ⟨1, 1, .ro, 0x0⟩, ⟨2, 2, .ro, 0x0⟩, ⟨4, 4, .ro, 0x0⟩, ⟨8, 24, .ro, 0x0⟩]⟩,
  ⟨.cfgBoot, 0x3000, [], [⟨0, 4, .ro, 0x0⟩, ⟨4, 1, .ro, 0x0⟩, ⟨5, 1, .ro, 0x0⟩, ⟨6, 1, .ro, 0x0⟩, ⟨7, 1, .ro, 0x0⟩, ⟨32, 32, .ro, 0x0⟩]⟩,
  ⟨.cfgBootT, 0x3008, [], [⟨0, 32, .ro, 0x0⟩, ⟨32, 32, .ro, 0x0⟩]⟩,
  ⟨.cfgBist, 0x3010, [], [⟨0, 20, .ro, 0x0⟩, ⟨20, 12, .ro, 0x0⟩]⟩,
  ⟨.clkSts, 0x100000, [], [⟨0, 1, .ro, 0x0⟩, ⟨1, 1, .ro, 0x0⟩, ⟨2, 1, .ro, 0x0⟩, ⟨3, 6, .ro, 0x0⟩]⟩,
  ⟨.clkMon, 0x100008, [], [⟨0, 12, .ro, 0x0⟩, ⟨12, 12, .ro, 0x758⟩, ⟨24, 12, .ro, 0x8C0⟩, ⟨36, 16, .ro, 0x0⟩]⟩,
  ⟨.clkFail, 0x100010, [], [⟨0, 1, .w1c, 0x0⟩, ⟨8, 8, .ro, 0x0⟩]⟩,
  ⟨.clkFwd, 0x100018, [], [⟨0, 1, .rws, 0x0⟩, ⟨1, 1, .rws, 0x0⟩, ⟨2, 1, .ro, 0x0⟩]⟩,
  ⟨.clkPllA, 0x101000, [(54, 0x40)], [⟨0, 2, .rws, 0x0⟩, ⟨2, 8, .rws, 0x20⟩, ⟨10, 16, .rws, 0x0⟩, ⟨26, 3, .rws, 0x0⟩, ⟨29, 1, .rws, 0x0⟩]⟩]

/-- The registers of the device CSR blocks (part 2). -/
def deviceRegs1 : List RegRow := [
  ⟨.clkPllB, 0x101008, [(54, 0x40)], [⟨0, 2, .rws, 0x0⟩, ⟨2, 8, .rws, 0x20⟩, ⟨10, 16, .rws, 0x0⟩, ⟨26, 3, .rws, 0x0⟩, ⟨29, 1, .rws, 0x0⟩]⟩,
  ⟨.clkPllSts, 0x101010, [(54, 0x40)], [⟨0, 1, .ro, 0x0⟩, ⟨1, 1, .ro, 0x0⟩, ⟨2, 1, .w1c, 0x0⟩, ⟨3, 1, .w1c, 0x0⟩]⟩,
  ⟨.clkSrc, 0x101018, [(54, 0x40)], [⟨0, 2, .rws, 0x2⟩, ⟨2, 1, .ro, 0x0⟩, ⟨3, 1, .w1c, 0x0⟩, ⟨4, 2, .ro, 0x2⟩, ⟨16, 16, .ro, 0x0⟩]⟩,
  ⟨.pwrSts, 0x200000, [], [⟨0, 3, .ro, 0x0⟩, ⟨3, 3, .ro, 0x0⟩, ⟨6, 2, .ro, 0x0⟩, ⟨8, 1, .ro, 0x0⟩, ⟨9, 1, .ro, 0x0⟩]⟩,
  ⟨.pwrCtl, 0x200008, [], [⟨0, 1, .rw, 0x0⟩]⟩,
  ⟨.pwrCap, 0x200040, [], [⟨0, 16, .rw, 0x1900⟩]⟩,
  ⟨.pwrWin, 0x200048, [], [⟨0, 24, .rw, 0x64⟩, ⟨24, 24, .ro, 0x64⟩]⟩,
  ⟨.pwrPrio, 0x200050, [], [⟨0, 2, .rw, 0x0⟩, ⟨2, 2, .rw, 0x1⟩, ⟨4, 2, .rw, 0x2⟩]⟩,
  ⟨.pwrFlags, 0x200058, [], [⟨0, 1, .w1c, 0x0⟩, ⟨1, 1, .w1c, 0x0⟩, ⟨2, 1, .w1c, 0x0⟩, ⟨3, 1, .w1c, 0x0⟩, ⟨4, 1, .w1c, 0x0⟩]⟩,
  ⟨.pwrTel, 0x200060, [], [⟨0, 16, .ro, 0x0⟩, ⟨16, 16, .ro, 0x0⟩, ⟨32, 32, .ro, 0x0⟩]⟩,
  ⟨.pwrEnergy, 0x200068, [], [⟨0, 64, .ro, 0x0⟩]⟩,
  ⟨.pwrIlim, 0x200080, [(4, 0x8)], [⟨0, 12, .rw, 0x12C⟩, ⟨12, 32, .ro, 0x0⟩]⟩]

/-- The registers of the device CSR blocks (part 3). -/
def deviceRegs2 : List RegRow := [
  ⟨.pwrOp, 0x200100, [(8, 0x8)], [⟨0, 12, .ro, 0x0⟩, ⟨12, 10, .ro, 0x0⟩, ⟨22, 8, .ro, 0x0⟩, ⟨30, 1, .ro, 0x1⟩, ⟨32, 16, .rw, 0x140⟩]⟩,
  ⟨.pwrDroop, 0x200200, [(16, 0x8)], [⟨0, 5, .rw, 0x4⟩, ⟨5, 5, .rw, 0xC⟩, ⟨10, 13, .rw, 0x100⟩, ⟨23, 2, .ro, 0x0⟩, ⟨32, 32, .ro, 0x0⟩]⟩,
  ⟨.pwrTherm, 0x200300, [], [⟨0, 8, .rw, 0x64⟩, ⟨8, 8, .ro, 0x69⟩, ⟨16, 8, .ro, 0x73⟩, ⟨24, 8, .rw, 0x5F⟩, ⟨32, 16, .ro, 0x0⟩, ⟨48, 5, .ro, 0x0⟩]⟩,
  ⟨.pwrTemp, 0x200400, [(28, 0x8)], [⟨0, 16, .ro, 0x0⟩, ⟨16, 3, .ro, 0x7⟩, ⟨19, 3, .ro, 0x0⟩]⟩,
  ⟨.pwrThrClr, 0x202060, [(32, 0x80)], [⟨0, 1, .wo, 0x0⟩]⟩,
  ⟨.dtmCtl, 0x300000, [], [⟨0, 2, .rw, 0x0⟩, ⟨2, 17, .rw, 0x3E8⟩, ⟨19, 1, .rw, 0x0⟩, ⟨32, 16, .rw, 0x64⟩, ⟨48, 16, .rw, 0x3E8⟩]⟩,
  ⟨.dtmSts, 0x300008, [], [⟨0, 3, .ro, 0x0⟩, ⟨3, 1, .ro, 0x0⟩, ⟨4, 1, .ro, 0x0⟩, ⟨5, 1, .w1c, 0x0⟩, ⟨6, 1, .w1c, 0x0⟩, ⟨7, 1, .w1c, 0x0⟩, ⟨32, 32, .ro, 0x0⟩]⟩,
  ⟨.dtmCount, 0x300010, [], [⟨0, 64, .ro, 0x0⟩]⟩,
  ⟨.dtmLoad, 0x300018, [], [⟨0, 64, .wo, 0x0⟩]⟩,
  ⟨.dtmPhase, 0x300020, [], [⟨0, 32, .ro, 0x0⟩, ⟨32, 32, .ro, 0x0⟩]⟩,
  ⟨.dtmHold, 0x300028, [], [⟨0, 32, .ro, 0x2⟩, ⟨32, 32, .rw, 0x3E8⟩]⟩,
  ⟨.dtmRelay, 0x300030, [], [⟨0, 5, .rw, 0x0⟩, ⟨5, 1, .rw, 0x0⟩, ⟨6, 5, .rw, 0x0⟩, ⟨11, 24, .rw, 0xFFFFFF⟩]⟩]

/-- The registers of the device CSR blocks (part 4). -/
def deviceRegs3 : List RegRow := [
  ⟨.dtmLinkdly, 0x300100, [(24, 0x8)], [⟨0, 32, .ro, 0x0⟩, ⟨32, 32, .ro, 0x0⟩]⟩,
  ⟨.dtmModeT, 0x300210, [], [⟨0, 64, .rw, 0x0⟩]⟩,
  ⟨.dtmModeArm, 0x300218, [], [⟨0, 1, .wo, 0x0⟩, ⟨1, 1, .wo, 0x0⟩, ⟨2, 1, .ro, 0x0⟩, ⟨3, 1, .w1c, 0x0⟩]⟩,
  ⟨.dtmPtClr, 0x303000, [], [⟨0, 32, .wo, 0x0⟩]⟩,
  ⟨.dtmModeCur, 0x300200, [], [⟨0, 32, .ro, 0x0⟩, ⟨32, 1, .ro, 0x1⟩, ⟨33, 16, .ro, 0x3F⟩, ⟨49, 3, .ro, 0x5⟩, ⟨52, 6, .ro, 0x0⟩, ⟨58, 6, .ro, 0x0⟩]⟩,
  ⟨.dtmModePend, 0x300208, [], [⟨0, 32, .rw, 0x0⟩, ⟨32, 1, .rw, 0x1⟩, ⟨33, 16, .rw, 0x3F⟩, ⟨49, 3, .rw, 0x5⟩, ⟨52, 6, .rw, 0x0⟩, ⟨58, 6, .rw, 0x0⟩]⟩,
  ⟨.rngRegCmd, 0x401000, [(32, 0x40)], [⟨5, 43, .wo, 0x0⟩]⟩,
  ⟨.rngRegSts, 0x401008, [(32, 0x40)], [⟨0, 13, .ro, 0x0⟩, ⟨16, 7, .ro, 0x0⟩]⟩,
  ⟨.rngRegCnt, 0x401010, [(32, 0x40)], [⟨0, 32, .ro, 0x0⟩, ⟨32, 32, .ro, 0x0⟩]⟩,
  ⟨.lnkCtl, 0x500000, [], [⟨0, 4, .rw, 0xF⟩, ⟨4, 4, .rw, 0xF⟩, ⟨8, 4, .rw, 0xF⟩, ⟨12, 1, .rw, 0x0⟩, ⟨16, 8, .rw, 0x10⟩]⟩,
  ⟨.lnkSts, 0x500008, [], [⟨0, 12, .ro, 0x0⟩, ⟨12, 1, .ro, 0x0⟩, ⟨13, 13, .ro, 0x0⟩, ⟨26, 1, .ro, 0x0⟩, ⟨27, 1, .ro, 0x0⟩]⟩,
  ⟨.lnkSubst, 0x500010, [], [⟨0, 12, .rw, 0x0⟩, ⟨12, 13, .rw, 0x0⟩, ⟨25, 1, .wo, 0x0⟩, ⟨26, 1, .w1c, 0x0⟩, ⟨27, 1, .ro, 0x0⟩]⟩]

/-- The registers of the device CSR blocks (part 5). -/
def deviceRegs4 : List RegRow := [
  ⟨.lnkSubstT, 0x500018, [], [⟨0, 64, .rw, 0x0⟩]⟩,
  ⟨.lnkExpired, 0x500020, [], [⟨0, 32, .ro, 0x0⟩]⟩,
  ⟨.lnkDisc, 0x500100, [], [⟨0, 3, .ro, 0x0⟩, ⟨3, 1, .ro, 0x0⟩, ⟨4, 1, .wo, 0x0⟩, ⟨5, 1, .w1c, 0x0⟩, ⟨6, 1, .ro, 0x0⟩, ⟨7, 1, .w1c, 0x0⟩, ⟨8, 1, .ro, 0x0⟩, ⟨9, 13, .ro, 0x0⟩]⟩,
  ⟨.lnkDiscT0, 0x500108, [], [⟨0, 64, .rw, 0x0⟩]⟩,
  ⟨.lnkDiscTr, 0x500110, [], [⟨0, 64, .ro, 0x0⟩]⟩,
  ⟨.lnkPortSts, 0x501000, [(24, 0x20)], [⟨0, 3, .ro, 0x0⟩, ⟨3, 2, .ro, 0x0⟩, ⟨5, 1, .ro, 0x0⟩, ⟨6, 13, .ro, 0x0⟩, ⟨19, 5, .ro, 0x0⟩]⟩,
  ⟨.lnkPortCnt, 0x501008, [(24, 0x20)], [⟨0, 32, .ro, 0x0⟩, ⟨32, 32, .ro, 0x0⟩]⟩,
  ⟨.lnkPortCmd, 0x501010, [(24, 0x20)], [⟨0, 1, .wo, 0x0⟩, ⟨1, 1, .wo, 0x0⟩]⟩,
  ⟨.colCtl, 0x600000, [], [⟨0, 16, .rw, 0x3E8⟩]⟩,
  ⟨.colGrpCfg, 0x610000, [(1024, 0x20)], [⟨0, 12, .rw, 0x0⟩, ⟨12, 12, .rw, 0x0⟩, ⟨24, 11, .rw, 0x0⟩, ⟨35, 1, .rw, 0x0⟩, ⟨36, 1, .ro, 0x0⟩]⟩,
  ⟨.colGrpPart, 0x610008, [(1024, 0x20)], [⟨0, 32, .rw, 0x0⟩]⟩,
  ⟨.colGrpMem, 0x610010, [(1024, 0x20)], [⟨0, 48, .rw, 0x0⟩]⟩]

/-- The registers of the device CSR blocks (part 6). -/
def deviceRegs5 : List RegRow := [
  ⟨.colGrpInst, 0x610018, [(1024, 0x20)], [⟨0, 32, .ro, 0x0⟩, ⟨32, 32, .ro, 0x0⟩]⟩,
  ⟨.colSeqBase, 0x620000, [(32, 0x40)], [⟨7, 41, .rw, 0x0⟩]⟩,
  ⟨.colSeqCtl, 0x620008, [(32, 0x40)], [⟨0, 1, .wo, 0x0⟩, ⟨1, 1, .wo, 0x0⟩, ⟨2, 1, .wo, 0x0⟩]⟩,
  ⟨.colSeqSts, 0x620010, [(32, 0x40)], [⟨0, 3, .ro, 0x0⟩, ⟨3, 3, .ro, 0x0⟩, ⟨6, 1, .w1c, 0x0⟩, ⟨8, 12, .ro, 0x0⟩, ⟨20, 8, .ro, 0x0⟩]⟩,
  ⟨.colSeqStep, 0x620018, [(32, 0x40)], [⟨0, 64, .ro, 0x0⟩]⟩,
  ⟨.colSeqWait, 0x620020, [(32, 0x40)], [⟨0, 32, .ro, 0x0⟩, ⟨32, 32, .ro, 0x0⟩]⟩,
  ⟨.colSeqCnt, 0x620028, [(32, 0x40)], [⟨0, 32, .ro, 0x0⟩, ⟨32, 32, .ro, 0x0⟩]⟩,
  ⟨.colUpdSts, 0x630000, [(32, 0x20)], [⟨0, 1, .ro, 0x0⟩, ⟨1, 16, .ro, 0x0⟩]⟩,
  ⟨.colUpdCnt, 0x630008, [(32, 0x20)], [⟨0, 48, .ro, 0x0⟩]⟩,
  ⟨.memCtl, 0x700000, [], [⟨0, 1, .rw, 0x1⟩]⟩,
  ⟨.memHbmSts, 0x700100, [(8, 0x20)], [⟨0, 1, .ro, 0x0⟩, ⟨1, 1, .ro, 0x0⟩, ⟨32, 16, .ro, 0x0⟩, ⟨48, 16, .ro, 0x0⟩]⟩,
  ⟨.memSramCe, 0x700400, [(16, 0x8)], [⟨0, 32, .ro, 0x0⟩, ⟨32, 16, .ro, 0x0⟩]⟩]

/-- The registers of the device CSR blocks (part 7). -/
def deviceRegs6 : List RegRow := [
  ⟨.memRctx, 0x701000, [(32, 0x40)], [⟨16, 32, .rw, 0x0⟩]⟩,
  ⟨.memPevq, 0x701008, [(32, 0x40)], [⟨0, 10, .rw, 0x0⟩, ⟨10, 1, .rw, 0x0⟩]⟩,
  ⟨.memRingCmd, 0x701010, [(32, 0x40)], [⟨0, 10, .wo, 0x0⟩, ⟨10, 2, .wo, 0x0⟩, ⟨12, 1, .ro, 0x0⟩]⟩,
  ⟨.memTt, 0x701018, [(32, 0x40)], [⟨0, 14, .ro, 0x0⟩, ⟨16, 14, .ro, 0x0⟩, ⟨31, 1, .wo, 0x0⟩]⟩,
  ⟨.memPevqLost, 0x701020, [(32, 0x40)], [⟨0, 32, .ro, 0x0⟩, ⟨32, 6, .ro, 0x0⟩]⟩,
  ⟨.memMevqCfg, 0x702000, [], [⟨0, 48, .rw, 0x0⟩, ⟨48, 5, .rw, 0x0⟩]⟩,
  ⟨.memMevqCons, 0x702008, [], [⟨0, 32, .rw, 0x0⟩]⟩,
  ⟨.memMevqSts, 0x702010, [], [⟨0, 32, .ro, 0x0⟩, ⟨32, 6, .ro, 0x0⟩, ⟨38, 1, .w1c, 0x0⟩]⟩,
  ⟨.memMevqLost, 0x702018, [], [⟨0, 32, .ro, 0x0⟩]⟩,
  ⟨.memRingIdx, 0x780000, [(32768, 0x10)], [⟨0, 32, .rw, 0x0⟩]⟩,
  ⟨.memRingSts, 0x780008, [(32768, 0x10)], [⟨0, 32, .ro, 0x0⟩, ⟨32, 3, .ro, 0x0⟩, ⟨35, 2, .ro, 0x0⟩, ⟨37, 1, .w1c, 0x0⟩, ⟨38, 1, .w1c, 0x0⟩]⟩,
  ⟨.prtCtl, 0x800000, [], [⟨0, 1, .rw, 0x0⟩]⟩]

/-- The registers of the device CSR blocks (part 8). -/
def deviceRegs7 : List RegRow := [
  ⟨.prtBindSts, 0x800008, [], [⟨0, 2, .ro, 0x0⟩, ⟨2, 61, .ro, 0x0⟩]⟩,
  ⟨.prtSysid, 0x800010, [], [⟨0, 48, .lck, 0x0⟩]⟩,
  ⟨.prtIdent, 0x800018, [], [⟨0, 64, .ro, 0x1⟩]⟩,
  ⟨.prtFit, 0x800020, [], [⟨0, 16, .otp, 0x3⟩]⟩,
  ⟨.prtCommit, 0x800028, [], [⟨0, 1, .wo, 0x0⟩, ⟨1, 1, .ro, 0x0⟩, ⟨2, 1, .w1c, 0x0⟩, ⟨32, 32, .ro, 0x0⟩]⟩,
  ⟨.prtDeny, 0x800030, [], [⟨0, 48, .ro, 0x0⟩, ⟨48, 5, .ro, 0x0⟩, ⟨53, 2, .ro, 0x0⟩, ⟨55, 9, .ro, 0x0⟩]⟩,
  ⟨.prtPart, 0x800100, [(32, 0x8)], [⟨0, 5, .rw, 0x0⟩, ⟨5, 1, .rw, 0x0⟩, ⟨6, 5, .ro, 0x0⟩, ⟨11, 1, .ro, 0x0⟩, ⟨12, 2, .ro, 0x1⟩, ⟨14, 1, .wo, 0x0⟩, ⟨15, 1, .wo, 0x0⟩]⟩,
  ⟨.prtGran, 0x801000, [(512, 0x8)], [⟨0, 5, .rw, 0x0⟩, ⟨5, 1, .rw, 0x0⟩, ⟨6, 1, .rw, 0x0⟩, ⟨7, 1, .rw, 0x0⟩, ⟨8, 1, .rw, 0x0⟩, ⟨9, 1, .rw, 0x0⟩, ⟨10, 1, .rw, 0x0⟩, ⟨11, 1, .rw, 0x0⟩, ⟨12, 1, .rw, 0x0⟩, ⟨13, 1, .rw, 0x0⟩, ⟨14, 1, .rw, 0x0⟩, ⟨15, 1, .rw, 0x0⟩]⟩,
  ⟨.prtGranAct, 0x802000, [(512, 0x8)], [⟨0, 5, .ro, 0x0⟩, ⟨5, 1, .ro, 0x0⟩, ⟨6, 1, .ro, 0x0⟩, ⟨7, 1, .ro, 0x0⟩, ⟨8, 1, .ro, 0x0⟩, ⟨9, 1, .ro, 0x0⟩, ⟨10, 1, .ro, 0x0⟩, ⟨11, 1, .ro, 0x0⟩, ⟨12, 1, .ro, 0x0⟩, ⟨13, 1, .ro, 0x0⟩, ⟨14, 1, .ro, 0x0⟩, ⟨15, 1, .ro, 0x0⟩]⟩,
  ⟨.prtOtpCnt, 0x803018, [], [⟨0, 6, .ro, 0x0⟩, ⟨6, 4, .ro, 0x0⟩, ⟨10, 5, .ro, 0x0⟩, ⟨15, 13, .ro, 0x0⟩]⟩,
  ⟨.prtVfIrq, 0x804000, [(32, 0x40), (8, 0x8)], [⟨0, 10, .rw, 0x0⟩, ⟨10, 1, .rw, 0x0⟩]⟩,
  ⟨.svcRepl, 0x900000, [], [⟨0, 4, .ro, 0x0⟩, ⟨8, 5, .ro, 0x0⟩]⟩]

/-- The registers of the device CSR blocks (part 9). -/
def deviceRegs8 : List RegRow := [
  ⟨.svcReplSet, 0x900008, [], [⟨0, 4, .wo, 0x0⟩]⟩,
  ⟨.svcJobAbt, 0x900010, [], [⟨0, 32, .w1c, 0x0⟩]⟩,
  ⟨.svcRepair, 0x900030, [], [⟨0, 5, .rw, 0x0⟩, ⟨5, 3, .rw, 0x0⟩, ⟨8, 5, .rw, 0x10⟩, ⟨13, 1, .wo, 0x0⟩, ⟨14, 1, .w1c, 0x0⟩, ⟨15, 1, .w1c, 0x0⟩]⟩,
  ⟨.svcSurvCtl, 0x900100, [], [⟨0, 48, .rw, 0x202FBF000⟩, ⟨48, 1, .wo, 0x0⟩, ⟨49, 1, .ro, 0x0⟩]⟩,
  ⟨.svcSurvSts, 0x900108, [], [⟨0, 48, .ro, 0x0⟩, ⟨48, 16, .ro, 0x0⟩]⟩,
  ⟨.svcReserve, 0x900110, [], [⟨0, 8, .ro, 0x1E⟩, ⟨8, 3, .ro, 0x0⟩]⟩,
  ⟨.dbgCtl, 0xA01000, [], [⟨0, 1, .rw, 0x0⟩]⟩,
  ⟨.dtmPtCycles, 0x301000, [(32, 0x100), (16, 0x10)], [⟨0, 64, .ro, 0x0⟩]⟩,
  ⟨.dtmPtTicks, 0x301008, [(32, 0x100), (16, 0x10)], [⟨0, 64, .ro, 0x0⟩]⟩,
  ⟨.lnkGazLo, 0x510000, [(4352, 0x10)], [⟨0, 12, .ro, 0x0⟩, ⟨12, 1, .ro, 0x0⟩, ⟨13, 3, .ro, 0x0⟩, ⟨16, 24, .ro, 0x0⟩, ⟨40, 24, .ro, 0x0⟩]⟩,
  ⟨.lnkGazHi, 0x510008, [(4352, 0x10)], [⟨0, 64, .ro, 0x0⟩]⟩,
  ⟨.prtJob, 0x800400, [(32, 0x10)], [⟨0, 32, .rw, 0x0⟩, ⟨32, 1, .rw, 0x0⟩]⟩]

/-- The registers of the device CSR blocks (part 10). -/
def deviceRegs9 : List RegRow := [
  ⟨.prtJobPeers, 0x800408, [(32, 0x10)], [⟨0, 48, .rw, 0x0⟩]⟩,
  ⟨.prtJobAct, 0x800600, [(32, 0x10)], [⟨0, 32, .ro, 0x0⟩, ⟨32, 1, .ro, 0x0⟩]⟩,
  ⟨.prtJobActPeers, 0x800608, [(32, 0x10)], [⟨0, 48, .ro, 0x0⟩]⟩,
  ⟨.prtLcsVal, 0x803000, [], [⟨0, 64, .rw, 0x0⟩]⟩,
  ⟨.prtLcsCmd, 0x803008, [], [⟨0, 3, .wo, 0x0⟩, ⟨3, 1, .wo, 0x0⟩]⟩,
  ⟨.prtLcsSts, 0x803010, [], [⟨0, 1, .ro, 0x0⟩, ⟨1, 1, .w1c, 0x0⟩]⟩,
  ⟨.prtLogIdx, 0x803100, [], [⟨0, 12, .rw, 0x0⟩]⟩,
  ⟨.prtLogData, 0x803108, [(4, 0x8)], [⟨0, 64, .ro, 0x0⟩]⟩,
  ⟨.pwrJobeEnergyUj, 0x201000, [(32, 0x20)], [⟨0, 64, .ro, 0x0⟩]⟩,
  ⟨.pwrJobePtick, 0x201008, [(32, 0x20)], [⟨0, 64, .ro, 0x0⟩]⟩,
  ⟨.pwrJobeStart, 0x201010, [(32, 0x20)], [⟨0, 64, .ro, 0x0⟩]⟩,
  ⟨.pwrJobeEnd, 0x201018, [(32, 0x20)], [⟨0, 64, .ro, 0x0⟩]⟩]

/-- The registers of the device CSR blocks (part 11). -/
def deviceRegs10 : List RegRow := [
  ⟨.pwrThrTicks, 0x202000, [(32, 0x80), (5, 0x10)], [⟨0, 64, .ro, 0x0⟩]⟩,
  ⟨.pwrThrCycles, 0x202008, [(32, 0x80), (5, 0x10)], [⟨0, 64, .ro, 0x0⟩]⟩,
  ⟨.svcSurvNeed, 0x900200, [(16, 0x8)], [⟨0, 64, .ro, 0x8080808080808080⟩]⟩,
  ⟨.svcFltAttr, 0x900400, [(32, 0x10)], [⟨0, 64, .ro, 0x0⟩]⟩,
  ⟨.svcFltHard, 0x900408, [(32, 0x10)], [⟨0, 64, .ro, 0x0⟩]⟩,
  ⟨.dbgPhalt, 0xA00000, [(32, 0x20)], [⟨0, 64, .wo, 0x0⟩]⟩,
  ⟨.dbgPresume, 0xA00008, [(32, 0x20)], [⟨0, 64, .wo, 0x0⟩]⟩,
  ⟨.dbgPhalted, 0xA00010, [(32, 0x20)], [⟨0, 64, .ro, 0x0⟩]⟩]

/-- The registers of the device CSR blocks. -/
def deviceRegs : List RegRow := deviceRegs0 ++ deviceRegs1 ++ deviceRegs2 ++ deviceRegs3 ++ deviceRegs4 ++ deviceRegs5 ++ deviceRegs6 ++ deviceRegs7 ++ deviceRegs8 ++ deviceRegs9 ++ deviceRegs10

/-- The registers of a tile (part 1). -/
def tileRegs0 : List RegRow := [
  ⟨.cfgTileId, 0x0, [], [⟨0, 4, .ro, 0x0⟩, ⟨4, 7, .ro, 0x0⟩, ⟨11, 5, .ro, 0x0⟩, ⟨16, 5, .ro, 0x0⟩]⟩,
  ⟨.tcStatus, 0x10, [], [⟨0, 2, .ro, 0x3⟩, ⟨2, 1, .ro, 0x0⟩, ⟨3, 1, .rw, 0x0⟩, ⟨4, 1, .w1c, 0x0⟩]⟩,
  ⟨.tcTvec, 0x18, [], [⟨3, 45, .rw, 0x0⟩]⟩,
  ⟨.tcEpc, 0x20, [], [⟨0, 48, .rw, 0x0⟩]⟩,
  ⟨.tcCause, 0x28, [], [⟨0, 16, .ro, 0x0⟩, ⟨16, 1, .ro, 0x0⟩]⟩,
  ⟨.tcDbgCtl, 0x80, [], [⟨0, 1, .wo, 0x0⟩, ⟨1, 1, .wo, 0x0⟩, ⟨2, 1, .wo, 0x0⟩, ⟨3, 1, .rw, 0x0⟩]⟩,
  ⟨.tcDbgSts, 0x88, [], [⟨0, 1, .ro, 0x0⟩, ⟨1, 2, .ro, 0x0⟩]⟩,
  ⟨.tcDbgBp, 0x90, [(4, 0x8)], [⟨0, 48, .rw, 0x0⟩, ⟨48, 1, .rw, 0x0⟩]⟩,
  ⟨.cfgVeFlags, 0x4000, [], [⟨0, 1, .w1c, 0x0⟩, ⟨1, 1, .w1c, 0x0⟩, ⟨2, 1, .w1c, 0x0⟩, ⟨3, 1, .w1c, 0x0⟩, ⟨4, 1, .w1c, 0x0⟩]⟩,
  ⟨.cfgFuSlot, 0x4100, [(16, 0x10)], [⟨0, 1, .ro, 0x0⟩, ⟨1, 1, .ro, 0x0⟩, ⟨2, 2, .ro, 0x0⟩, ⟨4, 2, .ro, 0x0⟩, ⟨6, 2, .ro, 0x0⟩, ⟨8, 10, .ro, 0x0⟩, ⟨32, 32, .ro, 0x0⟩]⟩,
  ⟨.rngTileEval, 0x6000, [], [⟨0, 48, .ro, 0x0⟩]⟩,
  ⟨.dbgGratCtl, 0x8000, [(8, 0x20)], [⟨0, 1, .ro, 0x0⟩, ⟨1, 1, .ro, 0x0⟩, ⟨2, 1, .ro, 0x0⟩, ⟨3, 2, .ro, 0x0⟩, ⟨5, 2, .ro, 0x0⟩, ⟨7, 9, .ro, 0x0⟩, ⟨16, 10, .ro, 0x0⟩, ⟨26, 16, .ro, 0x0⟩, ⟨42, 14, .ro, 0x0⟩]⟩]

/-- The registers of a tile (part 2). -/
def tileRegs1 : List RegRow := [
  ⟨.dbgGratCnt, 0x8008, [(8, 0x20)], [⟨0, 24, .ro, 0x0⟩, ⟨32, 32, .ro, 0x0⟩]⟩,
  ⟨.dbgGratKey, 0x8010, [(8, 0x20)], [⟨0, 32, .ro, 0x0⟩, ⟨32, 32, .ro, 0x0⟩]⟩,
  ⟨.dbgGratBin, 0x9000, [(32, 0x200), (64, 0x8)], [⟨0, 48, .ro, 0x0⟩, ⟨48, 8, .ro, 0x0⟩]⟩,
  ⟨.cfgCtrBin, 0xD000, [(16, 0x200), (32, 0x8)], [⟨0, 32, .ro, 0x0⟩, ⟨32, 32, .ro, 0x0⟩]⟩,
  ⟨.cfgCtrZn, 0xD100, [(16, 0x200)], [⟨0, 32, .ro, 0x0⟩, ⟨32, 32, .ro, 0x0⟩]⟩,
  ⟨.cfgCtrSf, 0xD108, [(16, 0x200)], [⟨0, 32, .ro, 0x0⟩, ⟨32, 32, .ro, 0x0⟩]⟩,
  ⟨.cfgCtrElem, 0xD110, [(16, 0x200)], [⟨0, 32, .ro, 0x0⟩]⟩,
  ⟨.cfgCtrCtl, 0xD118, [(16, 0x200)], [⟨0, 16, .rw, 0x0⟩, ⟨16, 5, .rw, 0x0⟩, ⟨21, 1, .rw, 0x0⟩]⟩,
  ⟨.cfgCtrSts, 0xD120, [(16, 0x200)], [⟨0, 1, .w1c, 0x0⟩, ⟨1, 1, .ro, 0x0⟩]⟩,
  ⟨.cfgCtrClr, 0xD128, [(16, 0x200)], [⟨0, 1, .wo, 0x0⟩]⟩,
  ⟨.cfgFmtcClr, 0xF100, [], [⟨0, 16, .wo, 0x0⟩]⟩,
  ⟨.tcTval, 0x30, [], [⟨0, 64, .ro, 0x0⟩]⟩]

/-- The registers of a tile (part 3). -/
def tileRegs2 : List RegRow := [
  ⟨.tcScratch, 0x38, [], [⟨0, 64, .rw, 0x0⟩]⟩,
  ⟨.tcCycle, 0x40, [], [⟨0, 64, .ro, 0x0⟩]⟩,
  ⟨.tcInstret, 0x48, [], [⟨0, 64, .ro, 0x0⟩]⟩,
  ⟨.cfgFmtcOvf, 0xF000, [(16, 0x10)], [⟨0, 48, .ro, 0x0⟩]⟩,
  ⟨.cfgFmtcUnf, 0xF008, [(16, 0x10)], [⟨0, 48, .ro, 0x0⟩]⟩]

/-- The registers of a tile. -/
def tileRegs : List RegRow := tileRegs0 ++ tileRegs1 ++ tileRegs2

/-- The index of `o` in an array with the dimensions given (outermost first), where `o` is one of its words. -/
def dimIndex : List (Nat × Nat) → Nat → Option (List Nat)
  | [], o => if o = 0 then some [] else none
  | (n, st) :: ds, o =>
    if o / st < n then (dimIndex ds (o % st)).map (o / st :: ·) else none

/-- Whether the register holds the word at `off`, and at which index. -/
def RegRow.find (r : RegRow) (off : Nat) : Option (List Nat) :=
  if off < r.base then none else dimIndex r.dims (off - r.base)

/-- The register that holds the word at `off` (none: an unassigned offset, spec/00_scope.md R9). -/
def findReg : List RegRow → Nat → Option (RegRow × List Nat)
  | [], _ => none
  | r :: rs, off => match r.find off with
    | some ix => some (r, ix)
    | none => findReg rs off

/-- The word that a list of field values makes. -/
def FieldRow.resetWord : List FieldRow → Nat
  | [] => 0
  | f :: fs => f.reset * 2 ^ f.lo + FieldRow.resetWord fs

/-- The operating points of spec/15_power_droop_thermal.md Table 15.1: TCLK in MHz and nominal millivolts. -/
def opPoints : List (Nat × Nat) :=
  [(600, 600), (800, 630), (1000, 660), (1200, 690), (1400, 720), (1600, 750), (1800, 800), (2000, 860)]

/-- The reset value of a register word, with the values that depend on the index: PWR_OP's points (Table 15.1). -/
def RegRow.reset (r : RegRow) (ix : List Nat) : W64 :=
  let b := FieldRow.resetWord r.fields
  BitVec.ofNat 64 (if r.reg = .pwrOp then
      let p := opPoints.getD (ix.headD 0) (0, 0)
      b + p.1 + p.2 * 2 ^ 12
    else b)

/-- The word at a device offset after cold reset. -/
def deviceReset (off : Nat) : W64 :=
  match findReg deviceRegs off with
  | some (r, ix) => r.reset ix
  | none => 0

/-- The word at a tile offset after cold reset. -/
def tileReset (off : Nat) : W64 :=
  match findReg tileRegs off with
  | some (r, ix) => r.reset ix
  | none => 0

/-- The word `old` after a write of `v` to one field, by the field's type (R7); `locked` says that an LCK field of
the word has taken its write. Fields of type WO hold nothing: what a write to one does is the register's own rule. -/
def FieldRow.write (locked : Bool) (v old : W64) (f : FieldRow) : W64 :=
  let m : W64 := BitVec.ofNat 64 ((2 ^ f.w - 1) * 2 ^ f.lo)
  match f.ty with
  | .ro | .wo | .otp => old
  | .rw | .rws => (old &&& ~~~m) ||| (v &&& m)
  | .w1c => old &&& ~~~(v &&& m)
  | .lck => if locked then old else (old &&& ~~~m) ||| (v &&& m)

/-- The word after a write of `v` to every field of the register. -/
def RegRow.write (r : RegRow) (locked : Bool) (v old : W64) : W64 :=
  r.fields.foldl (fun w f => f.write locked v w) old

/-- The word after a warm reset (R6): fields of type RWS and OTP keep their value, the others take the reset value. -/
def RegRow.warm (r : RegRow) (ix : List Nat) (old : W64) : W64 :=
  r.fields.foldl (fun w f =>
    let m : W64 := BitVec.ofNat 64 ((2 ^ f.w - 1) * 2 ^ f.lo)
    match f.ty with
    | .rws | .otp => (w &&& ~~~m) ||| (old &&& m)
    | _ => w) (r.reset ix)

end Sys2Proof.Machine
end

