-- ==== Sys2Proof/Machine/Tile.lean ====
section
/-! DEFINITION. The state of one tile (spec/05_tiles_dies_device.md R141, spec/07_nolpa_programming.md R202) and of its
engines, as plain data. Register fields live in the tile's CSR words; what no register shows has a field here. -/
namespace Sys2Proof.Machine

/-- An event before delivery: the fields of Table 6.13 that its rule states. -/
structure Event where
  code : Nat
  sev : Nat
  kind : Nat
  src : Nat
  hub : Nat
  part : Option Nat
  detail0 : W64
  detail1 : W64
  deriving DecidableEq, Repr, Inhabited

/-- An accumulator entry: FP32 bits, or the n-th free value after its chain closed (R73, assumption log 6). -/
inductive AccVal where
  | bits (b : Nat)
  | free (n : Nat)
  deriving DecidableEq, Repr, Inhabited

/-- A weight block as MXW captured it (R47, R252): codes by column then K position, group scales in units of 2^-9. -/
structure WBuf where
  fmt : Fmt
  sc : Int
  k : Nat
  n : Nat
  rb : Nat
  rc : Nat
  gs : Nat
  codes : List (List Nat)
  scales : List Int
  deriving DecidableEq, Repr, Inhabited

/-- A chain that is open in a slot, with the settings it captured (R50, R51, R82, R96). -/
structure Chain where
  faulted : Bool
  stoch : Bool
  preset : Nat
  replays : Nat
  rowBase : Nat
  rows : Nat
  spillS : Nat
  spillBase : Nat
  spilled : Bool
  blocks : Nat
  drops : Nat
  tid : Nat
  sid : Nat
  seed : W64
  /-- The place in issue order of the MXM that opened it, and the d register its MXMs name as output (R109). -/
  openSeq : Nat
  outReg : Nat
  scAcc : Int
  n : Nat
  rc : Nat
  sg : Bool
  sgBase : Nat
  /-- Groups its group-term cells have room for (R96). -/
  sgGroups : Nat
  /-- Its closing MXM has run (R50). -/
  closing : Bool
  /-- Groups begun so far in consumption order, and the K group of the latest block. -/
  groups : Nat
  grpKey : Option Nat
  deriving DecidableEq, Repr, Inhabited

/-- An issued MXM as the matrix engine queues it: its captured descriptors, chain word and mode bits (R209). -/
structure MxmOp where
  tok : Nat
  seq : Nat
  act : List W64
  out : List W64
  outReg : Nat
  cw : W64
  l : Nat
  /-- The numeric mode in force when it issued (R51, R227). -/
  mode : W64
  priv : Bool
  ecc : Ecc
  /-- Registry commands that had arrived at issue, and what its pair resolves to where a later command has been
  performed since (spec/11_random_streams.md R340). -/
  rngAt : Nat
  rng : Option (Option W64)
  deriving DecidableEq, Repr, Inhabited

/-- An issued MXW as the matrix engine queues it. -/
structure MxwOp where
  tok : Nat
  seq : Nat
  dw : List W64
  rb : Nat
  rc : Nat
  buf : Nat
  ecc : Ecc
  deriving DecidableEq, Repr, Inhabited

/-- The matrix engine's queue holds MXW and MXM in issue order (R42). -/
inductive MOp where
  | mxw (o : MxwOp)
  | mxm (o : MxmOp)
  deriving DecidableEq, Repr, Inhabited

/-- A chain closed and waiting for its output conversion (R86); its entries and cells stay as they are until then. The
output-stage record is read once, when the chain closes (R84). -/
structure ConvOp where
  slot : Nat
  op : MxmOp
  record : List Byte
  seed : Option W64
  /-- The activation zero point of the closing MXM (R92). -/
  za : Int
  deriving DecidableEq, Repr, Inhabited

/-- What a HIST works on (spec/08_nolpa_tensor_reference.md R271): form, slot, record, descriptor register, and its
privilege. -/
structure ContourOp where
  tok : Nat
  seq : Nat
  form : Nat
  slot : Nat
  clr : Bool
  reg : Nat
  da : W64
  priv : Bool
  ecc : Ecc
  deriving DecidableEq, Repr, Inhabited

/-- A T-class instruction that has issued, the matrix engine's apart: its place in issue order, the d and s registers
and the privilege it issued with (R209), the chains an ADAPT waits for, by the places of their opening MXMs in issue
order (spec/03_output_conversion.md R109), the registry commands that had arrived, and what its pair resolves to where
a later command has been performed since (spec/11_random_streams.md R340). -/
structure TOp where
  seq : Nat
  issue : Issue
  dreg : NMap W64
  sreg : NMap W64
  priv : Bool
  waits : List Nat
  rngAt : Nat
  rng : Option (Option W64)
  deriving DecidableEq, Repr, Inhabited

/-- The engines of a tile, in the order the T_COMPLETION command numbers them. -/
inductive Engine where
  | matrix | vector | function | move | collective | bearing | contour
  deriving DecidableEq, Repr, Inhabited

/-- An instruction in an engine: its token, its place in issue order, and, once its effect is done, what its completion
writes: status word fields, flags (R117), events, the Contour slot it counted into (R105), a pending register (R210). -/
structure InFlight where
  eng : Engine
  tok : Nat
  seq : Nat
  done : Bool
  fault : Nat
  status : Nat
  replays : Nat
  flags : Flags
  evs : List Event
  ctr : Option Nat
  /-- The d register that stays pending until this instruction completes (R210). -/
  pend : Option Nat
  /-- A move back-pressured by a tile in reset (R184), or a transfer that waits for another device. -/
  blocked : Bool
  /-- The number of the tracked transfer of a MOV or COLL (R196). -/
  xfer : Option Nat
  /-- Its instruction word, the Contour slot that its destination descriptor names (R272), whether it reads the scale
  register file (R268), and the local address hulls of a MOV (R71). -/
  word : W64 := 0
  dctr : Option Nat := none
  srf : Bool := false
  hulls : List (Int × Int) := []
  /-- The privilege it issued with (R378). -/
  priv : Bool := false
  deriving DecidableEq, Repr, Inhabited

/-- What the M-class access in progress answers when its home's response returns (R216). -/
inductive MemWait where
  | load (rd : Nat) (v : W64)
  | desc (d : Nat) (ws : List W64)
  | store
  | fault (code : Nat) (addr : W64)
  /-- The access waits at a fenced crossing (spec/14_clocks_and_crossings.md R414); it has been admitted and goes to
  its home (R415). -/
  | held
  | again (i : Issue)
  deriving DecidableEq, Repr, Inhabited

/-- What a tile core waits for before it issues again. -/
inductive Wait where
  | none
  | mem (pcNext : Nat) (r : MemWait)
  /-- WTK: rd, ANY, deadline, trap, mask (R217, R218). -/
  | wtk (rd : Nat) (any : Bool) (deadline : Option W64) (trap : Bool) (mask : Nat)
  /-- FENCE with E = 1 (R176) or PHASE with E = 1: the instructions in flight it waits for, and the phase to enter. -/
  | fence (seqs : List Nat) (phase : Option Nat)
  /-- HALT (R232). -/
  | halt (code : Nat) (report : Bool)
  /-- A double fault whose engines drain (R231). -/
  | dfault
  /-- IFLUSH with fills in flight (R235). -/
  | iflush
  deriving DecidableEq, Repr, Inhabited

/-- A line of the instruction buffer: its DA div 1024 and the bytes captured at the fill (R233, R235), zero bytes not
listed. -/
structure IbufLine where
  line : Nat
  cells : List (Nat × Byte)
  deriving DecidableEq, Repr, Inhabited

/-- A segment of a table image: c0, c1, c2 (R131). -/
structure FuSeg where
  c0 : Nat
  c1 : Nat
  c2 : Nat
  deriving DecidableEq, Repr, Inhabited

/-- A loaded table image (R131, Table 4.6). -/
structure FuImage where
  logmag : Bool
  sym : Nat
  loMode : Nat
  hiMode : Nat
  origin : Nat
  width : Nat
  loVal : Nat
  hiVal : Nat
  id : Nat
  segs : List FuSeg
  deriving DecidableEq, Repr, Inhabited

/-- One tile. -/
@[ext] structure Tile where
  csr : NMap W64
  sreg : NMap W64
  dreg : NMap W64
  kreg : NMap W64
  pc : Nat
  ibuf : List IbufLine
  fills : List Nat
  fetchErr : List Nat
  wait : Wait
  haltReq : Bool
  stepping : Bool
  dbgFrom : Nat
  /-- The breakpoint at pc has been met and the tile resumed from it (R238). -/
  bpPassed : Bool
  wbuf : NMap WBuf
  acc : NMap AccVal
  bins : NMap Int
  chains : NMap Chain
  /-- Slots whose latest chain ACC_OVERFLOW has faulted, until the next OVERWRITE there (R82). -/
  ovfSlots : List Nat
  mq : List MOp
  convs : List ConvOp
  /-- T-class instructions issued and not yet started in their engines, in issue order (R223, R245). -/
  tq : List TOp
  srf : NMap Nat
  fu : NMap FuImage
  inflight : List InFlight
  seq : Nat
  phase : Nat
  mode : W64
  modeLate : Bool
  /-- Corrected errors of the tile's SRAM (spec/06_memory_and_ordering.md R167), and the line that its scrubber visits
  next (R168). -/
  corrected : Nat
  scrubLine : Nat
  deriving DecidableEq, Repr, Inhabited

end Sys2Proof.Machine
end

