-- ==== Sys2Proof/Machine/Device.lean ====
section
/-! DEFINITION. The state of the hub units and of the device units that no register shows, as plain data. -/
namespace Sys2Proof.Machine

/-- The context of a loaded ring (spec/06_memory_and_ordering.md R186) and its engine's position: entries up to
`fetched` have been fetched, `doneIdx` lists the fetched ones that have completed (R188). -/
structure Ring where
  base : Nat
  sizeLog2 : Nat
  target : Nat
  evq : Nat
  fetched : Nat
  doneIdx : List Nat
  deriving DecidableEq, Repr, Inhabited

/-- A fetched descriptor that has not completed (R192): its ring, index and words, whether it has started, its status
once its effect is done, and the tracked transfer it holds. -/
structure Fetched where
  ring : Nat
  idx : Nat
  words : List W64
  status : Option Nat
  /-- The move waits for another device's answers, for host data, or at a fenced crossing. -/
  remote : Bool
  tracked : Bool
  /-- Its signal add has been sent (R194). -/
  signalled : Bool := false
  /-- The epoch when it was fetched (spec/10_links_and_collectives.md R314). -/
  epoch : Nat := 0
  deriving DecidableEq, Repr, Inhabited

/-- A side of a move: a local DA, host memory, another device, or the bytes an SRF or FUSLOT load gathers
(spec/06_memory_and_ordering.md R183, R193; spec/08_nolpa_tensor_reference.md R267). -/
inductive Side where
  | da
  | host
  | remote (dev : Nat)
  | stage
  deriving DecidableEq, Repr, Inhabited

/-- What a MOV loads from the bytes it gathers (R267). -/
inductive MovLoad where
  | srf (entry : Nat)
  | slot (k : Nat)
  deriving DecidableEq, Repr, Inhabited

/-- Who a transfer's answers belong to: a MOV of a tile by its place in issue order, or a descriptor by ring and
index. -/
inductive XOwner where
  | mov (tile seq : Nat) (load : Option MovLoad)
  | desc (ring idx : Nat)
  deriving DecidableEq, Repr, Inhabited

/-- What a move reads. -/
inductive MoveSrc where
  | side (x : Side)
  | pattern (p : W64)
  deriving DecidableEq, Repr, Inhabited

/-- A move as its engine runs it: its origin, the die of its engine (none: the host move engine of the partition's hub),
its sides and its runs of bytes (source, destination, length). -/
structure MoveJob where
  owner : XOwner
  part : Nat
  priv : Bool
  die : Option Nat
  src : MoveSrc
  dst : Side
  runs : List (Int × Int × Nat)
  deriving DecidableEq, Repr, Inhabited

/-- A segment sent whose answer has not returned (spec/10_links_and_collectives.md R298, R299): where read data goes,
the hub it left from, the ports of its path (R311), and whether its transfer is still in progress. -/
structure OutSeg where
  xid : Nat
  dev : Nat
  op : Nat
  tick : Nat
  owner : XOwner
  dst : Side
  addr : Nat
  len : Nat
  hub : Nat := 0
  path : List Nat := []
  live : Bool := true
  deriving DecidableEq, Repr, Inhabited

/-- A segment to send from a hub to a device: itself, bytes 0x12 to the end of its transaction header, and the record
of one that is to be answered. -/
structure SegOut where
  hub : Nat
  dev : Nat
  seg : Segment
  ext : List Byte
  out : Option OutSeg
  deriving DecidableEq, Repr, Inhabited

/-- What is known of a segment whose packets arrive here (R298): its source, id and class, the index of the packet
that comes next, its last packet, and whether one was missed. -/
structure InSeg where
  src : Nat
  xid : Nat
  cls : Nat
  next : Nat
  last : Nat
  broken : Bool
  deriving DecidableEq, Repr, Inhabited

/-- A packet that waits at a port for a credit, and the port and virtual channel whose buffer it holds where it is on
its way through this device (R295). -/
structure QPacket where
  pkt : Packet
  from_ : Option (Nat × Nat)
  deriving DecidableEq, Repr, Inhabited

/-- A host read request that waits for its data (R182, R185): its ring and descriptor, and where the data goes. -/
structure HostRd where
  ring : Nat
  idx : Nat
  dst : Side
  addr : Nat
  len : Nat
  deriving DecidableEq, Repr, Inhabited

/-- A Stezer port (spec/10_links_and_collectives.md R295, R296): the next sequence numbers to send and to expect, the
replay buffer from the oldest packet, the packets that wait for a credit, credits held and owed by virtual channel. -/
structure Port where
  txSeq : Nat := 0
  rxSeq : Nat := 0
  sent : List Packet := []
  queue : List QPacket := []
  used : List Nat := [0, 0, 0, 0, 0, 0, 0, 0]
  owed : List Nat := [0, 0, 0, 0, 0, 0, 0, 0]
  /-- A discard since the last accepted packet has been answered. -/
  naked : Bool := false
  /-- Retransmissions of the oldest packet without progress. -/
  tries : Nat := 0
  /-- Packets accepted since an acknowledgement was returned. -/
  unacked : Nat := 0
  /-- The tick count at the latest good packet (R300). -/
  heard : W64 := 0
  /-- The timestamp of the latest heartbeat received, and when it came, by this device's clock (R300). -/
  echo : W64 := 0
  echoAt : W64 := 0
  /-- HELD because the neighbour arrived after this device had reached READY (R477). -/
  arrival : Bool := false
  deriving DecidableEq, Repr, Inhabited

/-- A contribution that the collective engine has accepted (spec/10_links_and_collectives.md R313): its instance, its
place in the fold order of R314 (a tile's device-wide number, or 2048 plus a device ring number), who waits for it,
the DA of its descriptor and its words, its epoch, whether it came late and whether it was deferred, its bytes, and
whether its partition has since been reset (R376 step 3). Its accesses are made at P of its partition (R378). -/
structure Contrib where
  group : Nat
  inst : Nat
  place : Nat
  owner : XOwner
  part : Nat
  da : Nat
  words : List W64
  epoch : Nat
  late : Bool
  deferred : Bool
  data : List Byte
  dead : Bool
  deriving DecidableEq, Repr, Inhabited

/-- What waits at a fenced crossing (spec/14_clocks_and_crossings.md R414): a move that has not begun, the signal add
of a move, both with what error detection is to report, data of a move that has come from elsewhere, an M-class access
of a tile core with the answer of one that is not delivered, a COLL whose descriptor is to be read, a contribution to
be accepted, one to be served from its result, a request of another device, and a read or write of the host. -/
inductive Held where
  | move (j : MoveJob) (e : Ecc)
  | signal (o : XOwner) (e : Ecc)
  | data (o : XOwner) (addr : Nat) (bs : List Byte)
  | core (tile : Nat) (i : Issue) (lost : MemWait)
  | collDesc (tile seq da epoch : Nat) (e : Ecc)
  | collIn (place : Nat) (o : XOwner) (part da : Nat) (ws : List W64) (epoch : Nat) (e : Ecc)
  | collOut (h : CollStream) (c : Contrib) (pos : Nat) (e : Ecc)
  | seg (g : Segment) (e : Ecc)
  | host (w : Who) (addr size : Nat) (v : Option W64) (e : Ecc)
  deriving DecidableEq, Repr, Inhabited

/-- The transfer that waits. -/
def Held.owner : Held → Option XOwner
  | .move j _ => some j.owner
  | .signal o _ | .data o .. | .collIn _ o .. => some o
  | .collOut _ c .. => some c.owner
  | .collDesc n seq .. => some (.mov n seq none)
  | .core .. | .seg .. | .host .. => none

/-- A contribution carried under DEFER (R323): its series, the instance it was late for, its contributor and its
bytes' address and length. -/
structure Carried where
  group : Nat
  inst : Nat
  tag : Nat
  place : Nat
  dtype : Nat
  count : Nat
  addr : Nat
  deriving DecidableEq, Repr, Inhabited

/-- An instance in progress on this device (R321): the stream that has arrived, contributions expected on lower ranks,
whether the fold has run here, the result once it has come, the status with which it failed (R320), contributions
served or ended, and the places of the contributions accepted. -/
structure Inst where
  group : Nat
  idx : Nat
  inStream : Option CollStream
  base : Nat
  folded : Bool
  result : Option CollStream
  failed : Option Nat
  counted : Bool
  served : Nat
  places : List Nat
  deriving DecidableEq, Repr, Inhabited

/-- One action of a sequencer's step (spec/12_training_support.md R345): a wait on a signal word (0 forward, 1 backward,
2 auxiliary), a launch of a kind of Table 12.3 for a micro-batch and a layer, the posting of a layer's collective. -/
inductive SeqAct where
  | wait (which : Nat)
  | launch (kind mb layer : Nat)
  | post (layer : Nat)
  deriving DecidableEq, Repr, Inhabited

/-- Where a sequencer stands in a step: its launches, waits and posts; its collectives; the gate; the update; a wait for
the evaluation window that begins at a tick, and the evaluation in it. -/
inductive SeqAt where
  | acts
  | coll
  | gate
  | update
  | evalWait (w : W64)
  | eval (w : W64)
  deriving DecidableEq, Repr, Inhabited

/-- A stage sequencer's run (R344 to R350): its header and layer table as read at the start, where it stands, the next
forward or backward pass of the step, what remains of the present one, the step number, steps run, inputs consumed,
the tick its wait began and whether SEQ_STRAGGLER was raised for it, whether a launch of it runs, whether the step's
record has been begun, the entries it posted in the step with the status of each that is done and the gate's, whether
EVAL_OVERRUN was raised, steps applied and skipped, and the late and carried counts of the step. -/
structure Seq where
  hdr : List W64
  layers : List (List W64)
  at_ : SeqAt
  blk : Nat
  todo : List SeqAct
  n : W64
  runs : Nat
  cf : Nat
  cb : Nat
  ca : Nat
  since : Option W64
  straggled : Bool
  launched : Bool
  started : Bool
  posted : List (Nat × Option Nat)
  gate : Option (Nat × Option Nat)
  overran : Bool
  applied : W64
  skipped : Nat
  deriving DecidableEq, Repr, Inhabited

/-- What the Datum unit holds besides its registers (spec/09_datum_time.md R277 to R284), times in units of 2^-8 ns of
its own time base: the latest accepted reference intervals, newest first; edges accepted in a row, whether the latest
edge was accepted; e_n; an edge accepted for the tick to come; whether an edge was accepted since the latest tick, and
tick intervals without one; P_est as frozen for HOLDOVER; the interval in progress and the instant of the latest tick;
the instant of the latest marker edge; the value of DTM_LOAD to come; whether DATUM_HOLD_LIMIT was raised in this
holdover, the ports whose markers are ignored (R283), and ticks generated since the one that the latest accepted edge
was assigned to. -/
structure Datum where
  past : List Nat := []
  run : Nat := 0
  good : Bool := false
  e : Int := 0
  early : Option Int := none
  edge : Bool := false
  empty : Nat := 0
  frozen : Nat := 0
  next : Nat := 2560000
  tickAt : Int := 0
  markAt : Option Int := none
  /-- The count the latest marker of the upstream port carried (R472). -/
  mark : W64 := 0
  load : Option W64 := none
  limited : Bool := false
  deaf : List Nat := []
  lag : Int := 0
  deriving DecidableEq, Repr, Inhabited

/-- An operating-point step in progress (spec/15_power_droop_thermal.md R419): the die, the point it goes to, whether
it goes there on PLL B, the rail's set voltage before it and, by the margins in force at its start, the set voltage of
the point in mV (spec/16_faults_ageing_service.md R454). -/
structure OpStep where
  die : Nat
  point : Nat
  onB : Bool
  old : Nat
  mv : Nat
  deriving DecidableEq, Repr, Inhabited

/-- What the power controller and the thermal and current circuits hold besides the PWR registers
(spec/15_power_droop_thermal.md): the energy used in the window in µJ, the samples of the window and their sum, its
budget in units of 1.25 nJ (0.125 W × 10 ns), the tick of the latest window edge, whether CAP_UNMET was raised in the
window; operating-point steps in progress; of each point the set voltage in mV and whether it is enabled, by the plan
in force since the latest sample, and of each die the point and voltage that it was given under it (R454); the rails'
set voltages in mV, and those before each rail's latest voltage write, rails under R488; dies in the forced state of
R432; consecutive cool samples of each die; dies that have crossed throttle_c, hubs and stacks throttled for heat; of
each group, consecutive samples above the limit, samples since the first at or below it, whether the limit is in
force, and the tick of its latest CURRENT_LIMIT. -/
structure Power where
  uj : Nat := 0
  sum : Nat := 0
  n : Nat := 0
  budget : Nat := 640000000
  edge : Option W64 := none
  unmet : Bool := false
  steps : List OpStep := []
  plan : List (Nat × Bool) := [(600, true), (630, true), (660, true), (690, true), (720, true), (750, true), (800, true),
    (860, true)]
  volts : List (Option Nat × Nat) := List.replicate 16 (none, 0)
  rails : List Nat := [720, 720, 720, 720]
  railsWas : List Nat := [720, 720, 720, 720]
  avsBad : List Nat := []
  forced : List Nat := []
  cool : NMap Nat := []
  hot : List Nat := []
  hubHot : List Nat := []
  stackHot : List Nat := []
  overs : NMap Nat := []
  under : NMap Nat := []
  limited : List Nat := []
  ilimTick : NMap (Option W64) := []
  deriving DecidableEq, Repr, Inhabited

/-- What discovery holds besides LNK_DISC (spec/17_startup_and_discovery.md R467 to R478): the claim held, with its
closed flag; whether this device's own claim stands; the positions that have flooded ALIGNED; T_r of a READY whose
edge has not been seen; the last T_r flooded; a discovery started by the host on a READY device (1, and 2 once its 10
s have passed); the tick at which EXCHANGE was entered. -/
structure Disc where
  claim : Option (Nat × Bool) := none
  mine : Bool := false
  aligned : List Nat := []
  readyAt : Option W64 := none
  lastReady : Option W64 := none
  again : Nat := 0
  since : W64 := 0
  deriving DecidableEq, Repr, Inhabited

/-- The JTAG bridge (spec/18_package_pins_electrical.md R502): the DA of the latest access, whether one has completed,
err and the read data. -/
structure Bridge where
  da : Nat := 0
  done : Bool := false
  err : Bool := false
  data : W64 := 0
  deriving DecidableEq, Repr, Inhabited

/-- The assignments of the partitions (slot, assigned) and the job slots (in use, peer bitmap) of a copy of the Cadastre
(spec/13_partitions_and_protection.md R384). -/
structure Cadastre where
  parts : List (Nat × Bool) := []
  jobs : List (Bool × Nat) := []
  deriving DecidableEq, Repr

/-- An event record on its way to a ring: the event with the tick and the holdover state of its raising (Table 6.13). -/
structure EvRec where
  ev : Event
  datum : W64
  holdover : Bool
  deriving DecidableEq, Repr, Inhabited

/-- An entry of a stream registry (spec/11_random_streams.md R334). -/
structure Stream where
  tid : Nat
  sid : Nat
  seed : W64
  replays : Nat
  deriving DecidableEq, Repr, Inhabited

/-- A Logbook entry (spec/13_partitions_and_protection.md R395): its words, and whether it has been completed. -/
structure LogEntry where
  datum : W64
  setting : Nat
  actor : Nat
  key : Nat
  interrupted : Bool
  done : Bool
  old : W64
  new : W64
  deriving DecidableEq, Repr, Inhabited

/-- One-time-programmable storage (R392): the binding (none: never written), the Survey release, the revoked keys, the
writes used of each setting, the Logbook. -/
structure Otp where
  bound : Option W64
  release : Nat
  revoked : List Nat
  bindUsed : Nat
  surveyUsed : Nat
  revokeUsed : Nat
  log : List LogEntry
  deriving DecidableEq, Repr, Inhabited

/-- The SPDM responder (spec/13_partitions_and_protection.md R389): whether versions, capabilities and algorithms have
been negotiated, and the sessions, each with whether its handshake is finished. -/
structure Spdm where
  version : Bool := false
  caps : Bool := false
  algs : Bool := false
  sessions : List (Nat × Bool) := []
  deriving DecidableEq, Repr, Inhabited

/-- An output of the block, what a command answers on a bus, a link or a pin. -/
inductive Out where
  /-- Read data returned. -/
  | data (bs : List Byte)
  /-- Completed without data. -/
  | ack
  /-- PCIe Unsupported Request, or Request Retry Status (R383, R466). -/
  | unsupported
  | retry
  /-- A packet sent on a port. -/
  | packet (port : Nat) (p : Packet)
  /-- A write to or a read of host memory with its requester, the virtual function of partition `part` (R185); an MSI-X
  message (R388). -/
  | hostWrite (part : Nat) (addr : Nat) (bs : List Byte)
  | hostRead (part : Nat) (addr : Nat) (len : Nat)
  | msix (part : Nat) (vec : Nat)
  /-- A PLDM or SMBus answer: its code and bytes; an SPDM answer, with what carries it (R389). -/
  | message (code : Nat) (bs : List Byte)
  | spdm (via : Transport) (code : Nat) (bs : List Byte)
  /-- The voltage an AVSBus transaction sets on a rail (R488). -/
  | avs (rail : Nat) (mv : Nat)
  | pin (name : String) (level : Bool)
  deriving DecidableEq, Repr, Inhabited

end Sys2Proof.Machine
end

