-- ==== Sys2Proof/Machine/State.lean ====
section
/-! DEFINITION. The state of the block as plain data, and its value after cold reset. -/
namespace Sys2Proof.Machine

/-- A tile after cold reset: state RESET (spec/07_nolpa_programming.md TC_STATUS), everything else empty. -/
def Tile.reset : Tile where
  csr := []
  sreg := []
  dreg := []
  kreg := []
  pc := 0
  ibuf := []
  fills := []
  fetchErr := []
  wait := .none
  haltReq := false
  stepping := false
  dbgFrom := 0
  bpPassed := false
  wbuf := []
  acc := []
  bins := []
  chains := []
  ovfSlots := []
  mq := []
  convs := []
  tq := []
  srf := []
  fu := []
  inflight := []
  seq := 0
  phase := 0
  mode := deviceReset Csr.dtmModeCur
  modeLate := false
  corrected := 0
  scrubLine := 0

/-- OTP as the model takes it at manufacture (assumption log 4): nothing programmed. -/
def Otp.blank : Otp := ⟨none, 0, [], 0, 0, 0, []⟩

/-- The reasons a step stops with a fault. No command of this block ends the run, so none is raised. -/
inductive Fault where
  /-- Reserved for a command the block cannot carry on after; no meaning raises it (safe). -/
  | stopped
  deriving DecidableEq, Repr

/-- The reasons a command is refused. -/
inductive Refusal where
  /-- A command whose meaning is not written yet: raised by exec's arm of that command alone (safe). -/
  | notModelled (mnemonic : String)
  deriving DecidableEq, Repr

/-- The whole block. -/
@[ext]
structure State where
  /-- The commands waiting, first in, first out. -/
  pending : List Instr := []
  /-- What the block has answered on its buses, links and pins since reset, oldest first: the model's own trace. -/
  out : List Out := []
  /-- Package memory and tile SRAM by device address (spec/06_memory_and_ordering.md R162). -/
  mem : List Host.Cell := []
  /-- The words of the device CSR space by byte offset (spec/05_tiles_dies_device.md R159). -/
  csr : NMap W64 := []
  /-- Words whose LCK field has taken its write (spec/00_scope.md R7). -/
  locked : List Nat := []
  /-- DTM_COUNT (spec/09_datum_time.md R275). -/
  count : W64 := 0
  /-- One-time-programmable storage (spec/13_partitions_and_protection.md R392). -/
  otp : Otp := Otp.blank
  /-- Logical tile t of die d at 128 d + t. -/
  tiles : NMap Tile := []
  /-- Contexts of the loaded rings, by device ring number. -/
  rings : NMap Ring := []
  /-- LOAD commands reading their entry: partition and ring (MEM_RING_CMD.busy). -/
  loading : NMap Nat := []
  /-- The ring each partition's engine fetched from last (R196). -/
  lastRing : NMap Nat := []
  fetched : List Fetched := []
  /-- Segments in flight, segments held back (R311), host reads in flight, bytes gathered by a load in progress, what
  waits at each fenced crossing, oldest first (R184, R414), and the last segment id given. -/
  segs : List OutSeg := []
  heldSegs : List SegOut := []
  /-- Segments whose packets are arriving (spec/10_links_and_collectives.md R298). -/
  inSegs : List InSeg := []
  hostReads : List HostRd := []
  staged : List (XOwner × Nat × List Byte) := []
  fenced : List (Nat × Held) := []
  nextXid : Nat := 0
  /-- Crossings (spec/14_clocks_and_crossings.md R414, R415) that admit traffic, and those whose reset side has sent its
  ready request: partition p at p, die-to-die link k at 32 + k, Stezer port n at 76 + n, the PCIe port at 100. -/
  admitted : List Nat := []
  readyReq : List Nat := []
  /-- Collectives (spec/10_links_and_collectives.md R312 to R326): contributions accepted, those carried, instances in
  progress, contributions issued by each contributor of each group (group, place, count), the tick of each split, groups
  that have raised PEER_ABORT. -/
  contribs : List Contrib := []
  carried : List Carried := []
  insts : List Inst := []
  collSeq : List (Nat × Nat × Nat) := []
  /-- The latest tick whose cycle a hub has completed for a group's deadlines (R322): hub, group, tick. -/
  collPast : List (Nat × Nat × W64) := []
  splitTick : NMap (Option W64) := []
  peerAborted : List Nat := []
  /-- Stage sequencers that have started. -/
  seqs : NMap Seq := []
  /-- Substitutions held (R308): logical number, position, tick T. -/
  substs : List (Nat × Nat × W64) := []
  /-- The ticks of the latest GAZ_UPDATE and PKT_EXPIRED (R306, Table 10.14). -/
  gazTick : Option W64 := none
  expiredTick : Option W64 := none
  /-- Stezer ports. -/
  ports : NMap Port := []
  /-- Holding queues (R200): partition p at p, M level at 32; each record with the device ring it goes to. -/
  held : NMap (List (Nat × EvRec)) := []
  /-- Records were dropped in this owner's ring since the last one written (R200). -/
  lostMark : NMap Bool := []
  /-- A drop under R200 has raised EVQ_OVERFLOW since the lost count was last read. -/
  overflowed : NMap Bool := []
  /-- Tracked transfers of MOV and COLL instructions, numbered. -/
  nextXfer : Nat := 0
  /-- The tick of the latest PROT_DENIED event of each source (R383): partition p at p, remote 32, host 33. -/
  denyTick : NMap (Option W64) := []
  /-- The commit in progress (R384): the assignments and job slots before it, and the free value that says which check
  points have switched. -/
  cadOld : Cadastre := {}
  commitAt : Nat := 0
  /-- Stacks in self-refresh since a loss of REFCLK, whose PCLK has not run from a READY PLL since
  (spec/14_clocks_and_crossings.md R406). -/
  selfRefresh : List Nat := []
  /-- Words (DA div 8) of package memory that a stack has reported uncorrectable and nothing has written since
  (spec/06_memory_and_ordering.md R508). -/
  ueWords : List Nat := []
  /-- Stream registries and their queued command records (spec/11_random_streams.md R334, R337). -/
  registry : NMap (List Stream) := []
  rngQueue : NMap (List Nat) := []
  /-- Registry commands that have arrived at each partition's hub, those still queued among them (R340). -/
  rngArr : NMap Nat := []
  /-- Sequencers that have taken an abort and wait for their tiles (spec/12_training_support.md R350). -/
  seqAborting : NMap Bool := []
  /-- Groups whose streams carry the abort flag (spec/16_faults_ageing_service.md R443), and the job slots and causes
  that have raised JOB_ABORT. -/
  abortGroups : List Nat := []
  abortSeen : List (Nat × Nat) := []
  /-- The stage of start-up (spec/17_startup_and_discovery.md Table 17.1; 7 stands for READY, which has no stated
  code). -/
  stage : Nat := 0
  /-- Clock-monitor windows out of range in a row; REFCLK_UNQUAL holds ALERT_N low
  (spec/14_clocks_and_crossings.md R406, R408). -/
  badWindows : Nat := 0
  refUnqual : Bool := false
  /-- The PCIe link is trained, to a width and a rate in units of 0.5 GT/s (R387); its configuration space is ready;
  VF Enable (spec/17_startup_and_discovery.md R466). -/
  pcieUp : Bool := false
  pcieLanes : Nat := 0
  pcieRate : Nat := 0
  pcieCfg : Bool := false
  vfEnable : Bool := false
  /-- Function Level Resets that have not completed as PCIe sees it, by partition
  (spec/13_partitions_and_protection.md R376). -/
  flrWaits : List Nat := []
  /-- Partition resets in progress (spec/13_partitions_and_protection.md R376): 1 until step 5 is done, 2 after it. -/
  resetPhase : NMap Nat := []
  /-- Row re-maps accepted and not yet done (spec/05_tiles_dies_device.md R149): die, row and the bypass to come; and
  those whose multiplexers have switched. Repairs in progress (spec/16_faults_ageing_service.md R448): their
  partitions. -/
  remaps : List (Nat × Nat × Nat) := []
  switched : List (Nat × Nat) := []
  repairing : List Nat := []
  /-- The SPDM responder, PLDM sensors disabled (spec/15_power_droop_thermal.md R439), firmware written to slots A and B
  since they were last read, and the key of the running firmware (spec/17_startup_and_discovery.md R463). -/
  spdm : Spdm := {}
  sensorsOff : List Nat := []
  flashA : Option FwImage := none
  flashB : Option FwImage := none
  fwKey : Nat := 0
  /-- Failed attempts of a die-to-die link's retraining in progress (spec/05_tiles_dies_device.md R158). -/
  d2dFails : NMap Nat := []
  disc : Disc := {}
  /-- The power controller. -/
  power : Power := {}
  /-- The reset in force: 1 cold reset, 2 warm reset, 0 none; THERMTRIP_N asserted (spec/15_power_droop_thermal.md
  R433); the start-up in progress follows a cold reset (spec/17_startup_and_discovery.md R461). -/
  hold : Nat := 0
  tripped : Bool := false
  cold : Bool := true
  /-- RESET_N is low; the tiles that BIST found failed (die, row, position; R464), and whether H0's self-test has
  failed since cold reset; the JTAG instruction loaded, the bridge and the SMBus address
  (spec/18_package_pins_electrical.md R499 to R503). -/
  resetLow : Bool := false
  bistTiles : List (Nat × Nat × Nat) := []
  h0Failed : Bool := false
  tapIr : Nat := 0x02
  bridge : Bridge := {}
  smbus : Nat := 0x4E
  /-- The counter behind free values: the model's own (assumption log 5). -/
  freeCtr : Nat := 0
  /-- The copy of DTM_COUNT that a unit has seen (spec/09_datum_time.md R280): compute die d at d, hub h at 16 + h. -/
  seen : NMap W64 := []
  /-- The Datum unit. -/
  datum : Datum := {}
  /-- The mode the Datum unit has sent to every unit at edge T - 1, with its tick T (R286). -/
  modeSent : Option (W64 × W64) := none
  /-- TCLK cycles of each die since its clock started. -/
  cycles : NMap Nat := []
  deriving DecidableEq, Repr

/-- The block right after cold reset. -/
def State.reset : State := {}

end Sys2Proof.Machine
end

