-- ==== Sys2Proof/Machine/Mem.lean ====
section
/-! DEFINITION. Device addresses, memory, register words and tiles: the reads and writes every meaning uses
(spec/06_memory_and_ordering.md R162, spec/05_tiles_dies_device.md R159, R160). -/
namespace Sys2Proof.Machine

/-! ## Regions of the device address space (R162, Table 6.1) -/

/-- The region a device address lies in. -/
inductive Region where
  | pkg (stack : Nat)
  | sram (tile off : Nat)
  | csr (off : Nat)
  | tcsr (tile off : Nat)
  | unmapped
  deriving DecidableEq, Repr

/-- Bytes of populated SRAM per tile. -/
abbrev sramSize : Nat := 0x300000

/-- The DA of the SRAM window of logical tile `n` = 128 d + t. -/
def sramBase (n : Nat) : Nat := 0x010000000000 + n / 128 * 0x40000000 + n % 128 * 0x400000

/-- The DA of the per-tile CSR space of logical tile `n` (R160). -/
def tcsrBase (n : Nat) : Nat := 0x021000000000 + n / 128 * 0x1000000 + n % 128 * 0x20000

/-- The DA of the device CSR space. -/
abbrev csrBase : Nat := 0x020000000000

/-- The region of a device address. -/
def region (a : Nat) : Region :=
  if a < 0x008000000000 then .pkg (a / 0x1000000000)
  else if 0x010000000000 ≤ a ∧ a < 0x010400000000 then
    let d := (a - 0x010000000000) / 0x40000000
    let r := (a - 0x010000000000) % 0x40000000
    if r < 0x20000000 ∧ r % 0x400000 < sramSize then .sram (128 * d + r / 0x400000) (r % 0x400000) else .unmapped
  else if csrBase ≤ a ∧ a < 0x020000B00000 then .csr (a - csrBase)
  else if 0x021000000000 ≤ a ∧ a < 0x021010000000 then
    let d := (a - 0x021000000000) / 0x1000000
    let r := (a - 0x021000000000) % 0x1000000
    .tcsr (128 * d + r / 0x20000) (r % 0x20000)
  else .unmapped

/-- Whether all of `[a, a + n)` lies in package memory, or all in one tile's populated SRAM. -/
def memRange (a n : Nat) : Bool :=
  n = 0 || match region a, region (a + n - 1) with
    | .pkg _, .pkg _ => true
    | .sram t o, .sram u p => t = u && o + n = p + 1
    | _, _ => false

/-! ## Memory -/

/-- What a byte nothing has written reads as: zero (assumption log 2). -/
def memDefault (_ : Nat) : Byte := 0

/-- The canonical form of memory. -/
abbrev Memory.wf (m : List Host.Cell) : Bool := NMap.wf memDefault m

/-- The byte at a device address. -/
def State.byte (s : State) (a : Nat) : Byte := NMap.get memDefault s.mem a

/-- The memory after a write of one byte. -/
def Memory.setByte (m : List Host.Cell) (a : Nat) (b : Byte) : List Host.Cell := NMap.set memDefault m a b

/-- The memory after a write of bytes from an address up. -/
def Memory.setBytes (m : List Host.Cell) (a : Nat) : List Byte → List Host.Cell
  | [] => m
  | b :: bs => Memory.setBytes (Memory.setByte m a b) (a + 1) bs

/-- `n` bytes from an address up. -/
def State.bytes (s : State) (a : Nat) : Nat → List Byte
  | 0 => []
  | n + 1 => s.byte a :: State.bytes s (a + 1) n

/-- The little-endian natural in `n` bytes at an address (R5). -/
def State.load (s : State) (a n : Nat) : Nat := ofBytes (s.bytes a n)

/-- The words of a list that a write of `[a, a + n)` does not write whole: a word written whole has new check bits. -/
def unwritten (ws : List Nat) (a n : Nat) : List Nat :=
  ws.filter (fun w => !(decide (a ≤ 8 * w) && decide (8 * w + 8 ≤ a + n)))

/-- A write of bytes. -/
def State.writeBytes (s : State) (a : Nat) (bs : List Byte) : State :=
  { s with mem := Memory.setBytes s.mem a bs, ueWords := unwritten s.ueWords a bs.length }

/-- A write of the low `n` bytes of a natural, little-endian (R5). -/
def State.store (s : State) (a n v : Nat) : State := s.writeBytes a (toBytes n v)

/-- The 64-bit words of a block of memory. -/
def State.words (s : State) (a : Nat) : Nat → List W64
  | 0 => []
  | n + 1 => w64 (s.load a 8) :: State.words s (a + 8) n

/-- A write of 64-bit words. -/
def State.storeWords (s : State) (a : Nat) : List W64 → State
  | [] => s
  | w :: ws => State.storeWords (s.store a 8 w.toNat) (a + 8) ws

/-- Zero written to `[a, a + n)`: no byte listed there. -/
def State.zeroMem (s : State) (a n : Nat) : State :=
  { s with mem := NMap.clear s.mem a (a + n), ueWords := unwritten s.ueWords a n }

/-! ## Register words and tiles -/

/-- The device CSR word at an offset. -/
def State.word (s : State) (off : Nat) : W64 := NMap.get deviceReset s.csr off

/-- The device CSR word at an offset set. -/
def State.setWord (s : State) (off : Nat) (v : W64) : State := { s with csr := NMap.set deviceReset s.csr off v }

/-- A device register field. -/
def State.fld (s : State) (f : Fld) : Nat := bits (s.word f.off) f.lo f.w

/-- A device register field set by the device. -/
def State.setFld (s : State) (f : Fld) (v : Nat) : State :=
  s.setWord f.off (w64 (putField (s.word f.off).toNat f.lo f.w v))

/-- A counting field plus `n`, saturating. -/
def State.addFld (s : State) (f : Fld) (n : Nat) : State := s.setFld f (min (2 ^ f.w - 1) (s.fld f + n))

/-- A one-bit field read as a Bool. -/
def State.flag (s : State) (f : Fld) : Bool := s.fld f == 1

/-- Logical tile `n`. -/
def State.tile (s : State) (n : Nat) : Tile := NMap.get (fun _ => Tile.reset) s.tiles n

/-- Logical tile `n` replaced. -/
def State.setTile (s : State) (n : Nat) (t : Tile) : State :=
  { s with tiles := NMap.set (fun _ => Tile.reset) s.tiles n t }

/-- Logical tile `n` changed. -/
def State.updTile (s : State) (n : Nat) (f : Tile → Tile) : State := s.setTile n (f (s.tile n))

/-- A tile's CSR word. -/
def Tile.word (t : Tile) (off : Nat) : W64 := NMap.get tileReset t.csr off

/-- A tile's CSR word set. -/
def Tile.setWord (t : Tile) (off : Nat) (v : W64) : Tile := { t with csr := NMap.set tileReset t.csr off v }

/-- A tile register field. -/
def Tile.fld (t : Tile) (f : Fld) : Nat := bits (t.word f.off) f.lo f.w

/-- A tile register field set by the tile. -/
def Tile.setFld (t : Tile) (f : Fld) (v : Nat) : Tile :=
  t.setWord f.off (w64 (putField (t.word f.off).toNat f.lo f.w v))

/-- A tile's counting field plus `n`, saturating. -/
def Tile.addFld (t : Tile) (f : Fld) (n : Nat) : Tile := t.setFld f (min (2 ^ f.w - 1) (t.fld f + n))

/-- An s register; s0 reads as zero (spec/07_nolpa_programming.md R202). -/
def Tile.s (t : Tile) (r : Nat) : W64 := if r = 0 then 0 else NMap.get (fun _ => 0) t.sreg r

/-- An s register written; writes to s0 are discarded (R202). -/
def Tile.setS (t : Tile) (r : Nat) (v : W64) : Tile :=
  if r = 0 then t else { t with sreg := NMap.set (fun _ => 0) t.sreg r v }

/-- Word `w` of d register `d`. -/
def Tile.dw (t : Tile) (d w : Nat) : W64 := NMap.get (fun _ => 0) t.dreg (8 * d + w)

/-- Word `w` of d register `d` written. -/
def Tile.setDw (t : Tile) (d w : Nat) (v : W64) : Tile :=
  { t with dreg := NMap.set (fun _ => 0) t.dreg (8 * d + w) v }

/-- The eight words of a d register. -/
def Tile.d (t : Tile) (d : Nat) : List W64 := (List.range 8).map (t.dw d)

/-- A d register written. -/
def Tile.setD (t : Tile) (d : Nat) (ws : List W64) : Tile :=
  (List.range 8).foldl (fun t w => t.setDw d w (ws.getD w 0)) t

/-- A token status word; k0 reads as zero (R202). -/
def Tile.k (t : Tile) (n : Nat) : W64 := if n = 0 then 0 else NMap.get (fun _ => 0) t.kreg n

/-- A token status word written; k0 keeps none (R225). -/
def Tile.setK (t : Tile) (n : Nat) (v : W64) : Tile :=
  if n = 0 then t else { t with kreg := NMap.set (fun _ => 0) t.kreg n v }

/-- Whether a token is busy (Table 7.10). -/
def Tile.busy (t : Tile) (n : Nat) : Bool := bit (t.k n) 0

/-- Tile states (TC_STATUS.state). -/
abbrev tsIdle : Nat := 0
abbrev tsRunning : Nat := 1
abbrev tsDebug : Nat := 2
abbrev tsReset : Nat := 3

/-- The tile's state (spec/07_nolpa_programming.md R205). -/
def Tile.state (t : Tile) : Nat := t.fld Csr.tcStatus_state

/-- The tile's state set. -/
def Tile.setState (t : Tile) (v : Nat) : Tile := t.setFld Csr.tcStatus_state v

/-- Halted in debug mode with engines stopped (TC_DBG_STS.halted). -/
def Tile.halted (t : Tile) : Bool := t.state == tsDebug && t.fld Csr.tcDbgSts_halted == 1

/-- The core of the management controller, which executes instructions at M level (spec/07_nolpa_programming.md R204).
-/
abbrev mcCore : Nat := 2048

/-- The partition of logical tile `n` (spec/07_nolpa_programming.md R236). -/
def partOf (n : Nat) : Nat := 2 * (n / 128) + n % 128 / 64

/-- Logical tile `i` of partition `p` (R236). -/
def tileOf (p i : Nat) : Nat := 128 * (p / 2) + 64 * (p % 2) + i

/-- The hub of partition `p` (spec/05_tiles_dies_device.md R153). -/
def hubOf (p : Nat) : Nat := p / 8

/-- A function applied to every tile of a partition. -/
def State.updPart (s : State) (p : Nat) (f : Tile → Tile) : State :=
  (List.range 64).foldl (fun s i => s.updTile (tileOf p i) f) s

/-- Every clock stands still: PWR_OK is low, or THERMTRIP_N is asserted (spec/15_power_droop_thermal.md R433). -/
def State.frozen (s : State) : Bool := s.tripped || s.hold == 1

/-- What a command answers on a bus, a link or a pin; after a thermal trip the device drives nothing but THERMTRIP_N
(spec/15_power_droop_thermal.md R433), and while PWR_OK is low nothing (spec/18_package_pins_electrical.md R491). -/
def State.emit (s : State) (o : Out) : State :=
  if s.frozen then s else { s with out := s.out ++ [o] }

/-- A free value taken. -/
def State.takeFree (s : State) (n : Nat) : State := { s with freeCtr := s.freeCtr + n }

end Sys2Proof.Machine
end

