-- ==== Sys2Proof/Machine/Dies.lean ====
section
/-! DEFINITION. Routes over die-to-die links and their crossings (spec/05_tiles_dies_device.md R144, R151, R156, R158;
spec/06_memory_and_ordering.md R166, R184; spec/14_clocks_and_crossings.md R414, R415). -/
namespace Sys2Proof.Machine

/-! ## Die-to-die routes (spec/05_tiles_dies_device.md R144, R151, R156, R158) -/

/-- A die-to-die link that R158 has taken down. -/
def State.linkDown (s : State) (k : Nat) : Bool := s.flag (Csr.cfgD2dSts_down k)

/-- The links along package row `r` between two columns. -/
def rowLinks (r c c' : Nat) : List Nat := (List.range (max c c' - min c c')).map (fun i => 3 * r + min c c' + i)

/-- The links along package column `c` between two rows. -/
def colLinks (c r r' : Nat) : List Nat := (List.range (max r r' - min r r')).map (fun i => 12 + 4 * (min r r' + i) + c)

/-- The first of two routes, or the second where a link of the first is down; none where both have one (Table 5.7). -/
def State.pick (s : State) (a b : List Nat) : Option (List Nat) :=
  if !a.any s.linkDown then some a else if !b.any s.linkDown then some b else none

/-- The links from compute die `d` to die `e`: row first, or column first where a link is down (R151, Table 5.7). -/
def State.dieRoute (s : State) (d e : Nat) : Option (List Nat) :=
  s.pick (rowLinks (d / 4) (d % 4) (e % 4) ++ colLinks (e % 4) (d / 4) (e / 4))
    (colLinks (d % 4) (d / 4) (e / 4) ++ rowLinks (e / 4) (d % 4) (e % 4))

/-- The links from hub `h` to hub `g` by the shorter way round the ring, at distance 2 by H((h + 1) mod 4), or by the
other way where a link is down (R156, Table 5.7). -/
def State.ringRoute (s : State) (h g : Nat) : Option (List Nat) :=
  let path := fun (a b : Nat) => (List.range ((b + 4 - a) % 4)).map (fun i => 40 + (a + i) % 4)
  if (g + 4 - h) % 4 ≤ 2 then s.pick (path h g) (path g h) else s.pick (path g h) (path h g)

/-- A link between a die and its hub, where it is not down. -/
def State.dieHub (s : State) (d : Nat) : Option (List Nat) := if s.linkDown (24 + d) then none else some [24 + d]

/-- Two routes one after the other. -/
def joinRoute (a b : Option (List Nat)) : Option (List Nat) := a.bind (fun x => b.map (fun y => x ++ y))

/-- The links from a compute die, or from a hub, to the home of an address; none where it is not reached. -/
def State.route (s : State) (die : Option Nat) (hub : Nat) (a : Nat) : Option (List Nat) :=
  let toHub := fun (g : Nat) => match die with
    | some d => joinRoute (s.dieHub d) (s.ringRoute (d / 4) g)
    | none => s.ringRoute hub g
  let toDie := fun (e : Nat) => match die with
    | some d => s.dieRoute d e
    | none => joinRoute (s.ringRoute hub (e / 4)) (s.dieHub e)
  match region a with
  | .pkg st => toHub (st / 2)
  | .sram n _ | .tcsr n _ => toDie (n / 128)
  | .csr _ => toHub 0
  | .unmapped => some []

/-- Whether an address lies in a stack of package memory that has failed training, whose granules are unavailable (R508;
spec/16_faults_ageing_service.md R441). -/
def State.stackFailed (s : State) (a : Nat) : Bool :=
  match region a with
  | .pkg st => s.flag (Csr.memHbmSts_failed st)
  | _ => false

/-- Whether an access from a compute die, or from a hub, is served at the home of its address. DESIGN CHOICE, safe
(log 75): no rule says what an access to unavailable granules gives; it is not served. -/
def State.homeReach (s : State) (die : Option Nat) (hub : Nat) (a : Nat) : Bool :=
  (s.route die hub a).isSome && !s.stackFailed a

/-! ## Crossings -/

/-- A crossing admits traffic: partition p at p, die-to-die link k at 32 + k, Stezer port n at 76 + n, the PCIe port
at 100. -/
def State.admits (s : State) (x : Nat) : Bool := s.admitted.contains x

/-- A tile whose SRAM a local address lies in and which an access of partition `p` (none: another unit) cannot reach: it
is held in reset, or the crossing into its partition is still fenced (R184, R414). -/
def State.resetTileAt (s : State) (p : Option Nat) (a : Int) : Option Nat :=
  if a < 0 then none
  else
    match region a.toNat with
    | .sram n _ =>
      if (s.tile n).state = tsReset ∨ (p ≠ some (partOf n) ∧ s.admits (partOf n) = false) then some n else none
    | _ => none

/-- The crossing at which an access of partition `p` from a die or a hub is held back: a link on its route that is
retraining or has not completed its handshake (R158, R414, R415), the crossing into a partition or tile in reset
(R184), or, at 101 + k, stack k in self-refresh, which keeps accesses without a time-out (R406). -/
def State.heldAt (s : State) (p die : Option Nat) (hub : Nat) (a : Int) : Option Nat :=
  if a < 0 then none
  else
    match s.route die hub a.toNat with
    | none => none
    | some ks =>
      match ks.find? (fun k => !s.admits (32 + k)) with
      | some k => some (32 + k)
      | none =>
        match region a.toNat with
        | .pkg st => if s.selfRefresh.contains st then some (101 + st) else none
        | _ => (s.resetTileAt p a).map partOf

end Sys2Proof.Machine
end

