-- ==== Sys2Proof/Machine/Cadastre.lean ====
section
/-! DEFINITION. The check of every access against the active Cadastre
(spec/13_partitions_and_protection.md R377 to R382, R384, R391). -/
namespace Sys2Proof.Machine

/-- Who makes an access, and at which level (R378). -/
inductive Origin where
  /-- An agent of a partition: tile core, engine or hub unit, at P (true) or J. -/
  | loc (part : Nat) (priv : Bool)
  | vf (part : Nat)
  | pf
  | m
  /-- A remote device's request: the device, the requester partition and its privilege (R382). -/
  | remote (dev part : Nat) (priv : Bool)
  deriving DecidableEq, Repr

/-- The local partition an origin acts for. -/
def Origin.part : Origin → Option Nat
  | .loc p _ => some p
  | _ => none

/-- The kinds of access (Table 13.2). -/
inductive Access where
  | read | write | atomic | fetch
  deriving DecidableEq, Repr

/-- The origin a host or management command stands for. -/
def Who.origin : Who → Origin
  | .m => .m
  | .pf => .pf
  | .vf p => .vf p

/-- The origin's level is M (R378). -/
def State.isM (s : State) : Origin → Bool
  | .m => true
  | .pf => s.flag Csr.prtCtl_pf_m
  | _ => false

/-! ### The active copies (R384): the check point of stack k is numbered k, H0 is 8, that of tile n is 9 + n -/

/-- The check point of a device address. -/
def checkPoint (a : Nat) : Nat :=
  match region a with
  | .pkg st => st
  | .sram n _ | .tcsr n _ => 9 + n
  | _ => 8

/-- A commit is in progress. -/
def State.committing (s : State) : Bool := s.flag Csr.prtCommit_busy

/-- Whether a check point has switched in the commit in progress: an open choice for each (R384). -/
def State.hasSwitched (s : State) (c : Nat) : Bool := Config.freeBool (s.commitAt + c)

/-- The job slot of a partition and whether it is assigned, in the active copy of a check point. The registers show
H0's. -/
def State.assignAt (s : State) (c p : Nat) : Nat × Bool :=
  if s.committing && c != 8 then
    if s.hasSwitched c then (s.fld (Csr.prtPart_job p), s.flag (Csr.prtPart_assigned p)) else s.cadOld.parts.getD p (0, false)
  else (s.fld (Csr.prtPart_job_act p), s.flag (Csr.prtPart_assigned_act p))

/-- Whether a job slot is in use and the DA of its peer bitmap, in the active copy of a check point. -/
def State.slotAt (s : State) (c j : Nat) : Bool × Nat :=
  if s.committing && c != 8 then
    if s.hasSwitched c then (s.flag (Csr.prtJob_valid j), s.fld (Csr.prtJobPeers_peers j)) else s.cadOld.jobs.getD j (false, 0)
  else (s.flag (Csr.prtJobAct_valid j), s.fld (Csr.prtJobActPeers_peers j))

/-- Whether partition `p` is assigned to job slot `j` in the active copy of a check point. -/
def State.inJobAt (s : State) (c p j : Nat) : Bool := (s.assignAt c p).2 && (s.assignAt c p).1 == j

/-- Whether partition `p` is assigned to job slot `j` in the active copy at H0. -/
def State.inJob (s : State) (p j : Nat) : Bool := s.inJobAt 8 p j

/-- Whether the peer bitmap of job slot `j` names partition `p` of device `d` at a check point (R382). -/
def State.peer (s : State) (c j d p : Nat) : Bool :=
  let (valid, base) := s.slotAt c j
  valid && base != 0 && d != s.fld Csr.lnkSts_logical && field (s.load (base + 4 * d) 4) p 1 == 1

/-- A right bit of Table 13.2, by origin. -/
def rightBits : Origin → Nat × Nat
  | .loc _ false => (7, 8)
  | .loc _ true => (9, 10)
  | .vf _ | .pf | .m => (11, 12)
  | .remote .. => (13, 14)

/-- Whether granule `g` grants an access (R379), by the copy of its stack's check point. -/
def State.granuleOk (s : State) (o : Origin) (k : Access) (g : Nat) : Bool :=
  let w := s.word (Csr.prtGranAct g)
  let c := g / 64
  let j := bits w 0 5
  let (r, wr) := rightBits o
  let owner := match o with
    | .loc p _ | .vf p => s.inJobAt c p j
    | .remote d p _ => s.peer c j d p
    | _ => false
  bit w 5 && !bit w 6 && owner &&
    (match k with
     | .read => bit w r
     | .write => bit w wr
     | .atomic => bit w r && bit w wr
     | .fetch => bit w r && bit w 15)

/-- Whether the SRAM of tile `n` grants an access (R380), by the copy of the tile's check point. -/
def State.sramOk (s : State) (o : Origin) (n : Nat) : Bool :=
  let (j, assigned) := s.assignAt (9 + n) (partOf n)
  assigned &&
    match o with
    | .loc p _ => s.inJobAt (9 + n) p j
    | .remote d p _ => s.peer (9 + n) j d p
    | _ => false

/-- The partition whose per-partition register lies at a device CSR offset, and whether J may use it (R373, R381). -/
def csrOwner (off : Nat) : Option (Nat × Bool) :=
  match findReg deviceRegs off with
  | none => none
  | some (r, ix) =>
    let p := ix.headD 0
    match r.reg with
    | .memRingIdx | .memRingSts => some (p / 1024, true)
    | .memRctx | .memPevq | .memRingCmd | .memTt | .memPevqLost | .rngRegCmd | .rngRegSts | .rngRegCnt
    | .colSeqBase | .colSeqCtl | .colSeqSts | .colSeqStep | .colSeqWait | .colSeqCnt | .colUpdSts | .colUpdCnt
    | .dtmPtCycles | .dtmPtTicks | .pwrThrTicks | .pwrThrCycles | .pwrThrClr | .prtVfIrq
    | .dbgPhalt | .dbgPresume | .dbgPhalted | .svcFltAttr | .svcFltHard => some (p, false)
    | _ => none

/-- Whether the register at a device CSR offset may be read at J and P by any partition (Table 13.3). -/
def csrPublic (off : Nat) : Bool :=
  off == Csr.cfgDevId || off == Csr.cfgTopo || off == Csr.dtmCount || off == Csr.lnkSts

/-- Whether a device CSR access is granted (R378, R381, Table 13.3). -/
def State.csrOk (s : State) (o : Origin) (k : Access) (off : Nat) : Bool :=
  let part := fun (p : Nat) (privileged : Bool) =>
    match csrOwner off with
    | some (q, j) => p == q && (privileged || j)
    | none =>
      (csrPublic off && k == .read) ||
      (match findReg deviceRegs off with
       | some (r, ix) => r.reg == .prtPart && ix.headD 0 == p && privileged && k == .read
       | none => false)
  s.isM o || match o with
    | .loc p pv => part p pv
    | .vf p => part p true
    | .pf => (k == .read && (off == Csr.cfgDevId || off == Csr.cfgBoot || off == Csr.cfgBootT ||
        (0x800000 ≤ off && off < 0x900000))) || (k == .write && off == Csr.prtSysid)
    | _ => false

/-- Whether a per-tile CSR access is granted (Table 13.3). -/
def State.tcsrOk (s : State) (o : Origin) (n : Nat) : Bool :=
  s.isM o || match o with
    | .loc p true => p == partOf n
    | .vf p => p == partOf n
    | _ => false

/-- Whether the installation is bound (R391): otherwise nothing is granted below M. -/
def State.bound (s : State) : Bool := s.fld Csr.prtBindSts_state == 1

/-- The check of an access at its home's check point (R377, R378, R391). The PF's rights of R378 do not come from the
Cadastre and stand unbound. -/
def State.granted (s : State) (o : Origin) (k : Access) (a : Nat) : Bool :=
  s.isM o ||
  (match region a with
   | .pkg _ => s.bound && s.granuleOk o k (a / 0x40000000)
   | .sram n _ => s.bound && s.sramOk o n
   | .csr off => (s.bound || o == .pf) && s.csrOk o k (alignDown off 8)
   | .tcsr n _ => s.bound && s.tcsrOk o n
   | .unmapped => true)

/-- Whether every granule or window that `[a, a + n)` touches grants the access. -/
def State.grantedRange (s : State) (o : Origin) (k : Access) (a n : Nat) : Bool :=
  n = 0 || (List.range ((a + n - 1) / 0x40000000 - a / 0x40000000 + 1)).all
    (fun i => s.granted o k (max a ((a / 0x40000000 + i) * 0x40000000)))

end Sys2Proof.Machine
end

