-- ==== Sys2Proof/Machine/Events.lean ====
section
/-! DEFINITION. Event records and their delivery to rings (spec/06_memory_and_ordering.md R197 to R200, R507, R508), and the
report of a denied access (spec/13_partitions_and_protection.md R383). -/
namespace Sys2Proof.Machine

/-! Severities (Table 6.13) and source kinds. -/
abbrev sevInfo : Nat := 0
abbrev sevWarn : Nat := 1
abbrev sevFault : Nat := 2
abbrev sevAbort : Nat := 3
abbrev sevDevice : Nat := 4

/-- An event of tile `n` (kind 0): src holds die and logical tile. One of the management controller's core has its
unit. -/
def tileEvent (n code sev : Nat) (d0 d1 : W64) : Event :=
  if n = mcCore then ⟨code, sev, 2, 0, 0, none, d0, d1⟩
  else ⟨code, sev, 0, n / 128 + n % 128 * 16, hubOf (partOf n), some (partOf n), d0, d1⟩

/-- An event of a hub unit (kind 1, Table 6.15) that concerns a partition. -/
def hubEvent (unit p code sev : Nat) (d0 d1 : W64) : Event := ⟨code, sev, 1, unit, hubOf p, some p, d0, d1⟩

/-- An event of a hub unit that concerns no partition. -/
def hubUnitEvent (unit hub code sev : Nat) (d0 d1 : W64) : Event := ⟨code, sev, 1, unit, hub, none, d0, d1⟩

/-- An event of an H0 device unit (kind 2, Table 6.15); its hub field is 0 (R507). -/
def devEvent (unit code sev : Nat) (part : Option Nat) (d0 d1 : W64) : Event := ⟨code, sev, 2, unit, 0, part, d0, d1⟩

/-- An event of a Stezer port (kind 3). -/
def portEvent (port code sev : Nat) (d0 d1 : W64) : Event := ⟨code, sev, 3, port, port / 6, none, d0, d1⟩

/-- An event of a die-to-die link (kind 4). -/
def linkEvent (link code sev hub : Nat) (part : Option Nat) : Event := ⟨code, sev, 4, link, hub, part, 0, 0⟩

/-- The 32 bytes of an event record (R197, Table 6.13). -/
def EvRec.bytes (r : EvRec) (lost : Bool) (seq : Nat) : List Byte :=
  let e := r.ev
  toBytes 2 e.code ++ toBytes 1 (e.sev % 8 + e.kind % 8 * 8 + b2n lost * 64 + b2n r.holdover * 128) ++
  toBytes 1 ((e.part.getD 0) % 32 + b2n e.part.isSome * 32 + e.hub % 4 * 64) ++
  toBytes 2 e.src ++ toBytes 2 seq ++ toBytes 8 r.datum.toNat ++ toBytes 8 e.detail0.toNat ++ toBytes 8 e.detail1.toNat

/-! ## The M-level ring (MEM_MEVQ) -/

/-- The owner number of the M level in the holding queues. -/
abbrev ownM : Nat := 32

/-- Whether the M-level ring is enabled (MEM_MEVQ_CFG.size_log2). -/
def State.mRingOn (s : State) : Bool := 4 ≤ s.fld Csr.memMevqCfg_size_log2 && s.fld Csr.memMevqCfg_size_log2 ≤ 16

/-- Whether the M-level ring has room. -/
def State.mRingRoom (s : State) : Bool :=
  s.mRingOn && decide ((s.fld Csr.memMevqSts_prod + 2 ^ 32 - s.fld Csr.memMevqCons_cons) % 2 ^ 32
    < 2 ^ s.fld Csr.memMevqCfg_size_log2)

/-- The holding queue of an owner. -/
def State.heldOf (s : State) (o : Nat) : List (Nat × EvRec) := NMap.get (fun _ => []) s.held o

/-- The holding queue of an owner set, with the count software reads (MEM_PEVQ_LOST.held, MEM_MEVQ_STS.held);
the field's six bits hold 63 for a full queue of 64 (assumption log 31). -/
def State.setHeld (s : State) (o : Nat) (q : List (Nat × EvRec)) : State :=
  let s := { s with held := NMap.set (fun _ => []) s.held o q }
  s.setFld (if o = ownM then Csr.memMevqSts_held else Csr.memPevqLost_held o) (min 63 q.length)

/-- The lost mark of an owner: the next record it gets carries lost = 1 (R200). -/
def State.lostOf (s : State) (o : Nat) : Bool := NMap.get (fun _ => false) s.lostMark o
def State.setLost (s : State) (o : Nat) (b : Bool) : State :=
  { s with lostMark := NMap.set (fun _ => false) s.lostMark o b }
def State.overflowedOf (s : State) (o : Nat) : Bool := NMap.get (fun _ => false) s.overflowed o
def State.setOverflowed (s : State) (o : Nat) (b : Bool) : State :=
  { s with overflowed := NMap.set (fun _ => false) s.overflowed o b }

/-- A record written into the M-level ring, which has room. -/
def State.writeM (s : State) (r : EvRec) : State :=
  let prod := s.fld Csr.memMevqSts_prod
  let a := s.fld Csr.memMevqCfg_base + 32 * (prod % 2 ^ s.fld Csr.memMevqCfg_size_log2)
  let s := s.writeBytes a (r.bytes (s.lostOf ownM) (prod % 2 ^ 16))
  (s.setLost ownM false).setFld Csr.memMevqSts_prod (prod + 1)

/-- Whether a write of the next record into the M-level ring fails at its home (R508). DESIGN CHOICE, unsafe (log 66):
it fails with MEM_UE where the record's place holds a word reported uncorrectable and not written since. -/
def State.mWriteFails (s : State) : Bool :=
  let a := s.fld Csr.memMevqCfg_base + 32 * (s.fld Csr.memMevqSts_prod % 2 ^ s.fld Csr.memMevqCfg_size_log2)
  s.stackFailed a || s.ueWords.any (fun w => w / 4 == a / 32)

/-- A record of the M level dropped (R200). The first drop after a read of the lost count raises EVQ_OVERFLOW into the
M-level ring: it joins the holding queue where the ring is full, and where it has room its write fails as the dropped
record's did. -/
def State.dropM (s : State) : State :=
  let s := (s.addFld Csr.memMevqLost_lost 1).setLost ownM true
  if s.overflowedOf ownM then s
  else
    let s := s.setOverflowed ownM true
    let q := s.heldOf ownM
    let r : EvRec := ⟨hubUnitEvent 1 0 0x050B sevWarn 0 0, s.count, s.flag Csr.dtmSts_holdover⟩
    if !s.mRingRoom && decide (q.length < 64) then s.setHeld ownM (q ++ [(0, r)]) else s.addFld Csr.memMevqLost_lost 1

/-- A record due for the M-level ring (R198, R200); `hold` keeps it whatever its severity. -/
def State.putM (s : State) (r : EvRec) (hold : Bool) : State :=
  let q := s.heldOf ownM
  if q.isEmpty && s.mRingRoom then
    if s.mWriteFails then s.dropM else s.writeM r
  else if (hold || 2 ≤ r.ev.sev) && q.length < 64 then s.setHeld ownM (q ++ [(0, r)])
  else s.dropM

/-! ## Partition rings -/

/-- The context of a device ring, where one is loaded. -/
def State.ring? (s : State) (r : Nat) : Option Ring := NMap.find? s.rings r

/-- Whether a device ring is a RUNNING EVENT ring with room. -/
def State.evRingRoom (s : State) (r : Nat) : Bool :=
  match s.ring? r with
  | some c => s.fld (Csr.memRingSts_state r) == 1 && s.fld (Csr.memRingSts_kind r) == 4 &&
      decide ((s.fld (Csr.memRingSts_dev_idx r) + 2 ^ 32 - s.fld (Csr.memRingIdx_idx r)) % 2 ^ 32 < 2 ^ c.sizeLog2)
  | none => false

/-- MSI-X messages of the vectors bound to EVENT ring `r` (spec/13_partitions_and_protection.md R388). -/
def State.signalVectors (s : State) (r : Nat) : State :=
  let p := r / 1024
  (List.range 8).foldl (fun s v =>
    if s.flag (Csr.prtVfIrq_en p v) && s.fld (Csr.prtVfIrq_ring p v) == r % 1024 then s.emit (.msix p v) else s) s

/-- The DA of the next record of an EVENT ring. -/
def State.recordAt (s : State) (r : Nat) (c : Ring) : Nat :=
  c.base + 32 * (s.fld (Csr.memRingSts_dev_idx r) % 2 ^ c.sizeLog2)

/-- A record stored in EVENT ring `r`, which has room: the producer index advances past it. -/
def State.storeRecord (s : State) (r : Nat) (c : Ring) (e : EvRec) : State :=
  let prod := s.fld (Csr.memRingSts_dev_idx r)
  let s := s.writeBytes (s.recordAt r c) (e.bytes (s.lostOf (r / 1024)) (prod % 2 ^ 16))
  ((s.setLost (r / 1024) false).setFld (Csr.memRingSts_dev_idx r) (prod + 1)).signalVectors r

/-- A record of partition `p` dropped under R200. -/
def State.dropP (s : State) (p : Nat) : State :=
  let s := (s.addFld (Csr.memPevqLost_lost p) 1).setLost p true
  if s.overflowedOf p then s
  else
    let s := s.setOverflowed p true
    s.putM ⟨hubUnitEvent 1 (hubOf p) 0x050B sevWarn 0 0, s.count, s.flag Csr.dtmSts_holdover⟩ true

/-- A denial counted, and captured when the count was zero (R383). -/
def State.countDeny (s : State) (o : Origin) (a : Nat) : State :=
  let (p, org) := match o with
    | .loc p _ => (p, 0)
    | .remote _ p _ => (p, 1)
    | .vf p => (p, 2)
    | _ => (0, 2)
  let s := if s.fld Csr.prtDeny_count = 0 then
      ((s.setFld Csr.prtDeny_addr a).setFld Csr.prtDeny_part p).setFld Csr.prtDeny_origin org
    else s
  s.addFld Csr.prtDeny_count 1

/-- A record written into EVENT ring `r`, which has room. Event delivery writes it at P of the partition it serves
(spec/13_partitions_and_protection.md R377, R378); `denied` is the report of a denial. DESIGN CHOICE, unsafe (log 66):
a record whose write fails is dropped under R200, as R508 says of the M-level ring. -/
def State.writeRecord (denied : State → Origin → Nat → State) (s : State) (r : Nat) (e : EvRec) : State :=
  match s.ring? r with
  | none => s
  | some c =>
    let p := r / 1024
    let a := s.recordAt r c
    if !s.grantedRange (.loc p true) .write a 32 then (denied s (.loc p true) a).dropP p
    else if !s.homeReach none (hubOf p) a then s.dropP p
    else s.storeRecord r c e

/-- A record due for EVENT ring `r` of partition `r / 1024` (R198, R200). Held records of a ring go ahead of its newer
ones. -/
def State.putRing (denied : State → Origin → Nat → State) (s : State) (r : Nat) (e : EvRec) : State :=
  let p := r / 1024
  let q := s.heldOf p
  if s.evRingRoom r && !q.any (fun h => h.1 == r) then s.writeRecord denied r e
  else if 2 ≤ e.ev.sev && q.length < 64 then s.setHeld p (q ++ [(r, e)])
  else s.dropP p

/-- The source a denial is counted under (R383): partition p at p, remote devices 32, the host 33. -/
def Origin.denySource : Origin → Nat
  | .loc p _ => p
  | .remote .. => 32
  | _ => 33

/-- The event of a denial at an address (R383): its source is the check point that denied (Table 6.15), a stack's
controller or the device CSR router, or a tile for its own spaces. -/
def denyEvent (o : Origin) (a : Nat) : Event :=
  let part := match o with | .loc p _ => some p | _ => none
  match region a with
  | .pkg st => ⟨0x0901, sevFault, 1, 7 + st % 2, st / 2, part, 0, w64 a⟩
  | .sram n _ | .tcsr n _ => ⟨0x0901, sevFault, 0, n / 128 + n % 128 * 16, hubOf (partOf n), part, 0, w64 a⟩
  | _ => ⟨0x0901, sevFault, 2, 5, 0, part, 0, w64 a⟩

/-- The report of a denial: to the origin's partition, where it has one, and to the M level. -/
def State.reportDeny (s : State) (o : Origin) (a : Nat) : State :=
  let ev := denyEvent o a
  let r : EvRec := ⟨ev, s.count, s.flag Csr.dtmSts_holdover⟩
  let s := match ev.part with
    | some p =>
      if s.flag (Csr.memPevq_en p) then s.putRing State.countDeny (1024 * p + s.fld (Csr.memPevq_ring p)) r
      else s.addFld (Csr.memPevqLost_lost p) 1
    | none => s
  s.putM r false

/-- A denial (R383): counted, captured when the count was zero, and reported at most once per tick and source. The
write of the report's own record may be denied in turn: that denial has the same source, and is counted only. -/
def State.deny (s : State) (o : Origin) (a : Nat) : State :=
  let s := s.countDeny o a
  let src := o.denySource
  if NMap.get (fun _ => none) s.denyTick src = some s.count then s
  else { s with denyTick := NMap.set (fun _ => none) s.denyTick src (some s.count) }.reportDeny o a

/-- A record due for EVENT ring `r`. -/
def State.putP (s : State) (r : Nat) (e : EvRec) : State := s.putRing State.deny r e

/-- The partition copy of an event (R198): to the ring MEM_PEVQ names, or dropped where delivery is off. -/
def State.putPart (s : State) (p : Nat) (e : EvRec) : State :=
  if s.flag (Csr.memPevq_en p) then s.putP (1024 * p + s.fld (Csr.memPevq_ring p)) e
  else s.addFld (Csr.memPevqLost_lost p) 1

/-- The record of an event raised now: its tick and holdover bit. -/
def State.recOf (s : State) (e : Event) : EvRec := ⟨e, s.count, s.flag Csr.dtmSts_holdover⟩

/-- An event raised (R198): the partition's copy, then the M level's. -/
def State.raise (s : State) (e : Event) : State :=
  let r := s.recOf e
  let s := match e.part with
    | some p => s.putPart p r
    | none => s
  s.putM r false

/-- A transfer's event raised (R198): to ring `evq` in place of MEM_PEVQ, and to the M level. -/
def State.raiseXfer (s : State) (evq : Nat) (e : Event) : State :=
  let r := s.recOf e
  (s.putP evq r).putM r false

/-- An event raised to the M level only. -/
def State.raiseM (s : State) (e : Event) : State := s.putM (s.recOf e) false

/-- Events raised in order. -/
def State.raiseAll (s : State) (es : List Event) : State := es.foldl State.raise s

/-- Held records of partition `p` delivered (R200): the earliest whose ring has room, again and again. DEDUCED (log
66): the raise order is kept for each ring, and a ring that is still full holds up its own records alone. -/
def State.drainP (s : State) (p : Nat) : Nat → State
  | 0 => s
  | n + 1 =>
    let q := s.heldOf p
    match q.find? (fun h => s.evRingRoom h.1) with
    | none => s
    | some h => State.drainP ((s.setHeld p (q.erase h)).writeRecord State.deny h.1 h.2) p n

/-- Held records of the M level delivered while its ring has room. -/
def State.drainM (s : State) : Nat → State
  | 0 => s
  | n + 1 =>
    match s.heldOf ownM with
    | [] => s
    | (_, e) :: q =>
      if s.mRingRoom then
        let s := s.setHeld ownM q
        State.drainM (if s.mWriteFails then s.dropM else s.writeM e) n
      else s

end Sys2Proof.Machine
end

