-- ==== Sys2Proof/Machine/Abort.lean ====
section
/-! DEFINITION. Debug halt of a tile (spec/07_nolpa_programming.md R238, R239), and the abort of a job
(spec/16_faults_ageing_service.md R442, R443). -/
namespace Sys2Proof.Machine

/-- The halt reasons of TC_DBG_STS.reason. -/
abbrev haltRequest : Nat := 0
abbrev haltBrk : Nat := 1
abbrev haltBreakpoint : Nat := 2
abbrev haltStep : Nat := 3

/-- The tile core stops at an instruction boundary and enters DEBUG; an unreleased WTK is suspended with pc at the WTK
(R239). Engines stop at their boundaries, and DEBUG_HALT_COMPLETE sets halted. -/
def Tile.enterDebug (t : Tile) (reason : Nat) : Tile :=
  let w := match t.wait with | .wtk .. => .none | w => w
  (({ t with dbgFrom := t.state, haltReq := false, stepping := false, wait := w }.setState tsDebug).setFld
    Csr.tcDbgSts_reason reason).setFld Csr.tcDbgSts_halted 0

/-- Whether the core stands at an instruction boundary: not while the home of an M-class access has not answered. A WTK,
FENCE, HALT or IFLUSH that waits has issued, and the core can stop behind it (R239). -/
def Tile.atBoundary (t : Tile) : Bool :=
  match t.wait with
  | .mem .. => false
  | _ => true

/-- A halt request (R238): taken at once at an instruction boundary, else kept until the instruction ends. -/
def Tile.requestHalt (t : Tile) : Tile :=
  if t.state = tsIdle || t.state = tsRunning then
    if t.atBoundary then t.enterDebug haltRequest else { t with haltReq := true }
  else t

/-- At the end of an instruction: a step ends, or a halt request that waited is taken (R238). -/
def Tile.boundary (t : Tile) : Tile :=
  if (t.state = tsRunning || t.state = tsIdle) && t.atBoundary then
    if t.stepping then t.enterDebug haltStep
    else if t.haltReq then t.enterDebug haltRequest
    else t
  else t

/-- A STOP of a RUNNING ring (R191): STOPPED at once where nothing is fetched. -/
def State.stopRing (s : State) (r : Nat) : State :=
  if s.fld (Csr.memRingSts_state r) = 1 then
    if s.fetched.any (fun f => f.ring = r) && s.fld (Csr.memRingSts_kind r) ≠ 4 then s.setFld (Csr.memRingSts_state r) 2
    else s.setFld (Csr.memRingSts_state r) 3
  else s

/-- Every RUNNING ring of partition `p` whose kind the predicate names, stopped. -/
def State.stopRings (s : State) (p : Nat) (kinds : Nat → Bool) : State :=
  (s.rings.filter (fun e => e.1 / 1024 = p)).foldl
    (fun s e => if kinds (s.fld (Csr.memRingSts_kind e.1)) then s.stopRing e.1 else s) s

/-- The sequencer of partition `p` takes an abort (spec/12_training_support.md R350). -/
def State.abortSequencer (s : State) (p : Nat) : State :=
  let st := s.fld (Csr.colSeqSts_state p)
  if st = 1 || st = 2 then { s with seqAborting := NMap.set (fun _ => false) s.seqAborting p true } else s

/-- The partitions of a job slot in the active Cadastre. -/
def State.jobParts (s : State) (j : Nat) : List Nat := (List.range 32).filter (fun p => s.inJob p j)

/-- JOB_ABORT of a slot for a cause (R443 step 1): raised once for the pair, and again once the slot's bit of
SVC_JOB_ABT has been cleared between (DEDUCED, log 55). -/
def State.raiseJobAbort (s : State) (j cause : Nat) : State :=
  let w := s.word Csr.svcJobAbt
  let seen := if bit w j then s.abortSeen else s.abortSeen.filter (fun x => x.1 != j)
  let s := s.setWord Csr.svcJobAbt (w ||| w64 (2 ^ j))
  if seen.contains (j, cause) then { s with abortSeen := seen }
  else
    let d1 : W64 := w64 (j + cause * 2 ^ 16)
    let r := s.recOf (devEvent 0 0x0A01 sevWarn none 0 d1)
    let s := (s.jobParts j).foldl
      (fun s p => s.putPart p { r with ev := devEvent 0 0x0A01 sevWarn (some p) 0 d1 }) { s with abortSeen := seen ++ [(j, cause)] }
    s.putM r false

/-- A job aborts (R443). `cause` is the event code; tiles are not halted here for GROUP_SPLIT (R326). -/
def State.abortJob (s : State) (j cause : Nat) (haltTiles : Bool := true) : State :=
  let ps := s.jobParts j
  let s := s.raiseJobAbort j cause
  let s := ps.foldl (fun s p =>
    let s := (s.abortSequencer p).stopRings p (fun k => 1 ≤ k && k ≤ 3)
    if haltTiles then s.updPart p Tile.requestHalt else s) s
  let gs := (List.range 1024).filter (fun g => s.flag (Csr.colGrpCfg_valid g) &&
    ps.any (fun p => bit (s.word (Csr.colGrpPart g)) p))
  { s with abortGroups := s.abortGroups ++ gs.filter (fun g => !s.abortGroups.contains g) }

/-- The job of a partition aborts, where it has one. -/
def State.abortPart (s : State) (p cause : Nat) : State :=
  if s.flag (Csr.prtPart_assigned_act p) then s.abortJob (s.fld (Csr.prtPart_job_act p)) cause else s

/-- An event of severity ABORT raised, and the job of each partition it names aborted (R443), once for each job. -/
def State.raiseAbort (s : State) (e : Event) (others : List Nat := []) : State :=
  let s := s.raise e
  let ps := (match e.part with | some p => [p] | none => []) ++ others
  let slots := (ps.filter (fun p => s.flag (Csr.prtPart_assigned_act p))).map (fun p => s.fld (Csr.prtPart_job_act p))
  slots.eraseDups.foldl (fun s j => s.abortJob j e.code) s

/-- Events raised in order, those of severity ABORT with the abort they bring. -/
def State.raiseEach (s : State) (es : List Event) : State :=
  es.foldl (fun s e => if e.sev = sevAbort then s.raiseAbort e else s.raise e) s

/-- A fault attributed to a tile (R442): its bit in SVC_FLT_ATTR of its partition. -/
def State.attribute (s : State) (n : Nat) : State :=
  let o := Csr.svcFltAttr (partOf n)
  s.setWord o (s.word o ||| w64 (2 ^ (n % 64)))

/-- A parity error in the arrays of tile `n` (R442). -/
def State.hwError (s : State) (n : Nat) : State :=
  (s.attribute n).raiseAbort (tileEvent n 0x0A03 sevAbort 0 0)

/-- The partitions concerned by an uncorrectable error at a device address (R170): those of the owner of the word. -/
def State.ownerParts (s : State) (a : Nat) : List Nat :=
  match region a with
  | .sram n _ => [partOf n]
  | .pkg _ =>
    let w := s.word (Csr.prtGranAct (a / 0x40000000))
    if bit w 5 then s.jobParts (bits w 0 5) else []
  | _ => []

/-- An uncorrectable error at `a` counted, and attributed in SRAM (R167, R169, R442). -/
def State.noteUe (s : State) (a : Nat) : State :=
  match region a with
  | .sram n _ => (s.addFld (Csr.memSramCe_ue (n / 128)) 1).attribute n
  | .pkg st =>
    { s.addFld (Csr.memHbmSts_ue st) 1 with
      ueWords := if s.ueWords.contains (a / 8) then s.ueWords else a / 8 :: s.ueWords }
  | _ => s

/-- An uncorrectable error met at `a` by an access of partition `req` (R167, R169, R170): counted, attributed in SRAM,
raised with severity ABORT, and the jobs concerned aborted. A tile's record holds no address: R167 states none (R507).
`d0` is what a record holds of the instruction that met the error (Table 6.13). -/
def State.memUe (s : State) (a : Nat) (req : Option Nat) (d0 : W64 := 0) : State :=
  let others := s.ownerParts a ++ req.toList
  match region a with
  | .sram n _ => (s.noteUe a).raiseAbort (tileEvent n 0x0504 sevAbort d0 0) others
  | .pkg st =>
    let p := (s.ownerParts a).head?
    (s.noteUe a).raiseAbort ⟨0x0504, sevAbort, 1, 7 + st % 2, st / 2, p, d0, w64 a⟩ others
  | _ => s

/-- A corrected error at `a` (R167, R169): the word is already right; counted, for its tile and its die, and reported.
-/
def State.memCe (s : State) (a : Nat) : State :=
  match region a with
  | .sram n _ =>
    ((s.addFld (Csr.memSramCe_ce (n / 128)) 1).updTile n (fun t => { t with corrected := t.corrected + 1 })).raise
      (tileEvent n 0x0505 sevInfo 0 0)
  | .pkg st =>
    (s.addFld (Csr.memHbmSts_ce st) 1).raise
      ⟨0x0506, sevInfo, 1, 7 + st % 2, st / 2, (s.ownerParts a).head?, 0, w64 a⟩
  | _ => s

/-- What error detection reports on an access: the state after its effects, and whether data was lost at an address. -/
def State.detect (s : State) (e : Ecc) (req : Option Nat) (d0 : W64 := 0) : State × Option Nat :=
  match e with
  | .ok => (s, none)
  | .corrected a => (s.memCe a, none)
  | .uncorrectable a => (s.memUe a req d0, some a)

end Sys2Proof.Machine
end

