-- ==== Sys2Proof/Machine/Operands.lean ====
section
/-! DEFINITION. The fields of an instruction word, and the words that TC_UNDEF refuses
(spec/07_nolpa_programming.md R211, R212; spec/08_nolpa_tensor_reference.md R244). -/
namespace Sys2Proof.Machine

/-! Fields of Table 7.3. -/
abbrev fOp (w : W64) : Nat := bits w 56 8
abbrev fA (w : W64) : Nat := bits w 50 6
abbrev fB (w : W64) : Nat := bits w 44 6
abbrev fC (w : W64) : Nat := bits w 38 6
abbrev fD (w : W64) : Nat := bits w 32 6
abbrev fL (w : W64) : Nat := bits w 0 32

/-- Bits of field L. -/
abbrev fl (w : W64) (lo n : Nat) : Nat := bits w lo n

/-- imm32 or off32, sign-extended to 64 bits. -/
def simm (w : W64) : W64 := BitVec.ofInt 64 (signed 32 (fL w))

/-- off24, sign-extended to 64 bits (R215). -/
def soff24 (w : W64) : W64 := BitVec.ofInt 64 (signed 24 (fl w 0 24))

/-- mod, L[31:24] (R215). -/
abbrev fMod (w : W64) : Nat := fl w 24 8

/-- The X-form opcodes (R211). -/
def isX (w : W64) : Bool := 0xF0 ≤ fOp w && fOp w ≤ 0xF2

/-- The next sequential pc (R211). -/
def pcNext (pc : Nat) (w : W64) : Nat := (pc + if isX w then 16 else 8) % 2 ^ 48

/-- An s or k register field: bit 5 clear (R212). -/
abbrev isS (f : Nat) : Bool := f < 32

/-! ## VOP functions (Table 8.4) -/

/-- The groups of VOP functions (R257, R258). -/
inductive VopGroup where
  | ieee | l | word | dword | sel | perm
  deriving DecidableEq, Repr

/-- The group of a VOP function code; none: undefined. -/
def vopGroup (fn : Nat) : Option VopGroup :=
  if fn ≤ 0x0B then some .ieee
  else if (0x10 ≤ fn ∧ fn ≤ 0x14) ∨ (0x18 ≤ fn ∧ fn ≤ 0x1B) then some .l
  else if (0x20 ≤ fn ∧ fn ≤ 0x2A) ∨ (0x2C ≤ fn ∧ fn ≤ 0x2E) then some .word
  else if fn = 0x30 ∨ fn = 0x31 ∨ (0x33 ≤ fn ∧ fn ≤ 0x38) then some .dword
  else if fn = 0x40 then some .sel
  else if fn = 0x41 then some .perm
  else none

/-- A function that writes a mask (Table 8.4). -/
def vopMask (fn : Nat) : Bool :=
  (0x08 ≤ fn && fn ≤ 0x0B) || (0x18 ≤ fn && fn ≤ 0x1B) || (0x2C ≤ fn && fn ≤ 0x2E)

/-- A function with operand b. -/
def vopHasB (fn : Nat) : Bool := !(fn == 0x05 || (0x12 ≤ fn && fn ≤ 0x14))

/-- A function with operand c. -/
def vopHasC (fn : Nat) : Bool := fn == 0x03 || fn == 0x40

/-- The rest of a VOP word (R212, R257 to R259). -/
def vopOk (w : W64) : Bool :=
  let fn := fl w 0 8
  let bsc := fl w 10 1
  match vopGroup fn with
  | none => false
  | some g =>
    fl w 17 15 == 0 &&
    (vopHasB fn || (fD w == 0 && bsc == 0)) && (vopHasC fn || fl w 11 6 == 0) &&
    (bsc == 0 || isS (fD w)) && (bsc == 0 || !(g == .sel || g == .perm)) &&
    (fl w 8 2 == 0 || !(vopMask fn || g == .word || g == .dword || g == .sel || g == .perm))

/-- Whether a word's opcode is assigned and every field obeys its entry (R212). -/
def wordOk (w : W64) : Bool :=
  let o := fOp w
  let a := fA w
  let b := fB w
  let c := fC w
  let d := fD w
  let l := fL w
  let a0 := a == 0
  let b0 := b == 0
  let c0 := c == 0
  let d0 := d == 0
  let l0 := l == 0
  if 0x01 ≤ o ∧ o ≤ 0x15 then isS a && isS b && isS c && d0 && l0
  else if o = 0x16 ∨ o = 0x17 then isS a && isS b && c0 && d0 && l0
  else if (0x18 ≤ o ∧ o ≤ 0x1B) ∨ o = 0x1F ∨ o = 0x20 then isS a && isS b && c0 && d0
  else if 0x1C ≤ o ∧ o ≤ 0x1E then isS a && isS b && c0 && d0 && l < 64
  else if o = 0x30 then isS a && c0 && d0 && l < 8
  else if o = 0x31 then isS b && c0 && d0 && l < 8
  else if o = 0x32 then c0 && d0 && l0
  else if o = 0x33 then isS c && d0 && l0
  else if o = 0x3F then a0 && b0 && c0 && d0 && l0
  else if o = 0x40 then isS a && b0 && c0 && d0
  else if o = 0x41 then isS a && isS b && c0 && d0
  else if 0x42 ≤ o ∧ o ≤ 0x47 then a0 && isS b && isS c && d0
  else if o = 0x60 then isS a && isS b && c0 && d0 && fMod w < 8
  else if o = 0x61 then a0 && isS b && isS c && d0 && fMod w < 4
  else if o = 0x62 then isS a && isS b && isS c && d0 && fMod w % 16 ≤ 8 && fMod w / 64 != 3
  else if o = 0x63 then isS a && isS b && isS c && isS d && fMod w % 16 ≤ 1 && fMod w / 64 != 3
  else if o = 0x64 ∨ o = 0x65 then isS b && c0 && d0 && fMod w == 0
  else if o = 0x80 then isS a && isS c && isS d && l < 2
  else if o = 0x81 then isS a && isS d && fl w 7 2 != 3 && fl w 20 12 == 0
  else if o = 0x84 then isS a && d0 && l < 4
  else if o = 0x88 then isS a && vopOk w
  else if o = 0x89 then isS a && l < 8
  else if o = 0x8C then
    let fn := fl w 0 4
    isS a && (fn ≤ 5 || fn == 15) && (fn == 15 || fl w 4 4 == 0) && fl w 14 18 == 0 &&
    (if fl w 10 1 = 1 then isS d else d0 && fl w 11 3 == 0)
  else if o = 0x90 then
    let op := fl w 0 4
    isS a && op ≤ 7 && (fl w 4 2 == 0 || op == 6 || op == 7) && (fl w 6 1 == 0 || op == 4) &&
    fl w 7 3 == 0 && (fl w 10 22 == 0 || op == 7) &&
    (if op = 7 then true else if op = 5 ∨ op = 6 then isS d else d0)
  else if o = 0x94 then isS a && isS d && fl w 0 2 != 3 && l < 32
  else if o = 0x98 then
    let k := fl w 0 2
    isS a && d0 && k != 3 && fl w 19 13 == 0 && (k == 0 || b0) && (k == 1 || fl w 2 13 == 0) &&
    (k == 2 || fl w 15 4 == 0)
  else if o = 0x9C then isS a && isS b && c0 && d0 && l0
  else if o = 0xA0 then isS a && isS c && l < 3 && (if l = 2 then isS d else d0)
  else if o = 0xA4 then
    let k := fl w 4 2
    isS a && isS c && d0 && k != 3 && fl w 7 25 == 0 && (k == 2 || b0) && (k == 0 || fl w 6 1 == 0) &&
    (k != 2 || fl w 0 4 == 0)
  else if o = 0xC0 then isS a && isS b && c0 && d < 8
  else if o = 0xC1 then a0 && b0 && c0 && d0 && l < 32 && fl w 2 2 != 3
  else if o = 0xC2 then isS a && isS b && c0 && d0 && l0
  else if o = 0xC3 then a0 && b0 && c0 && d0 && l < 32
  else if o = 0xD0 then a0 && b0 && c0 && d0
  else if o = 0xD1 ∨ o = 0xD2 ∨ o = 0xD5 then a0 && b0 && c0 && d0 && l0
  else if o = 0xD3 then isS a && b0 && c0 && d0 && fl w 0 3 == 0 && fl w 17 15 == 0
  else if o = 0xD4 then a0 && isS b && c0 && d0 && fl w 0 3 == 0 && fl w 17 15 == 0
  else if o = 0xD6 then a0 && isS b && c0 && d0 && 1 ≤ l && l ≤ 64
  else if o = 0xD7 then a0 && b0 && c0 && d0 && l < 2 ^ 17
  else if o = 0xF0 then isS a && b0 && c0 && d0 && l0
  else if o = 0xF1 then isS a && isS b && c0 && d0 && l0
  else if o = 0xF2 then a0 && b0 && c0 && d0 && l0
  else false

end Sys2Proof.Machine
end

