-- ==== Sys2Proof/Machine/Ops.lean ====
section
/-! DEFINITION. The operations that instructions of the tile core share: fetch, issue, taking an exception and
returning from one (spec/07_nolpa_programming.md R211, R212, R223, R228 to R235). -/
namespace Sys2Proof.Machine

/-- The answer of a command. -/
abbrev Res := Host.Outcome State Fault Refusal

/-- Cause codes (Table 7.13, Table 6.14, Table 13.5). -/
abbrev cAddrUnmapped : Nat := 0x0501
abbrev cAddrAlign : Nat := 0x0502
abbrev cAtomicTarget : Nat := 0x0503
abbrev cMemUe : Nat := 0x0504
abbrev cAccSpill : Nat := 0x0413
abbrev cProtDenied : Nat := 0x0901
abbrev cUndef : Nat := 0x0A40
abbrev cPriv : Nat := 0x0A41
abbrev cEcall : Nat := 0x0A42
abbrev cBreak : Nat := 0x0A43
abbrev cEfault : Nat := 0x0A44

/-! ## Privilege, exceptions -/

/-- The tile core runs at P. -/
def Tile.priv (t : Tile) : Bool := t.fld Csr.tcStatus_priv == 1

/-- An exception at pc with cause, fetch bit and TVAL (R228, R230, R231): at J with a vector the handler is entered at
P; otherwise it is a double fault, after which the engines drain. A step that it ends, and a halt request that has
waited, halt the tile (R238). -/
def Tile.takeException (t : Tile) (cause : Nat) (fetch : Bool) (tval : W64) : Tile :=
  let t := (((t.setFld Csr.tcEpc_epc t.pc).setWord Csr.tcCause (w64 (cause + b2n fetch * 2 ^ 16))).setWord
    Csr.tcTval tval)
  if !t.priv && t.fld Csr.tcTvec_vec != 0 then
    let t := (t.setFld Csr.tcStatus_epriv 0).setFld Csr.tcStatus_priv 1
    { t with pc := t.fld Csr.tcTvec_vec * 8, wait := .none, bpPassed := false }.boundary
  else { t with wait := .dfault }.boundary

/-- ERET (Table 7.9): pc and privilege restored. -/
def Tile.eret (t : Tile) : Tile :=
  { t.setFld Csr.tcStatus_priv (t.fld Csr.tcStatus_epriv) with pc := alignDown (t.fld Csr.tcEpc_epc) 8 }

/-- The origin of the accesses of tile core `n` (R203); the management controller's are made at M (R204). -/
def State.tileOrigin (s : State) (n : Nat) : Origin := if n = mcCore then .m else .loc (partOf n) (s.tile n).priv

/-- The partition of core `n`, and the die it lies in: the management controller has neither, and lies in H0. -/
def corePart (n : Nat) : Option Nat := if n = mcCore then none else some (partOf n)
def coreDie (n : Nat) : Option Nat := if n = mcCore then none else some (n / 128)

/-! ## The instruction buffer (R233 to R235) -/

/-- Most recently used first, at most four lines of a set. -/
def Tile.touchLine (t : Tile) (l : IbufLine) : Tile :=
  let rest := t.ibuf.filter (fun m => m.line != l.line)
  let same := rest.filter (fun m => m.line % 16 == l.line % 16)
  { t with ibuf := l :: (rest.filter (fun m => m.line % 16 != l.line % 16) ++ same.take 3) }

/-- The resident line of a DA. -/
def Tile.lineAt (t : Tile) (a : Nat) : Option IbufLine := t.ibuf.find? (fun l => l.line == a / 1024)

/-- The captured byte at a DA of a resident line. -/
def IbufLine.byte (l : IbufLine) (a : Nat) : Byte := NMap.get memDefault l.cells a

/-- The captured 64-bit word at a DA of a resident line. -/
def IbufLine.wordAt (l : IbufLine) (a : Nat) : W64 :=
  w64 (ofBytes ((List.range 8).map (fun i => l.byte (a + i))))

/-- The instruction word a tile would issue from a DA: none where its line is not resident. -/
def Tile.fetch (t : Tile) (a : Nat) : Option W64 := (t.lineAt a).map (fun l => l.wordAt a)

/-- A resident line of a DA used: it is the most recent of its set. -/
def Tile.touchAt (t : Tile) (a : Nat) : Tile := (t.lineAt a).elim t t.touchLine

/-- The word core `n` has at a DA, where it is to issue `w` from there. DESIGN CHOICE, unsafe (log 67): the spec gives
neither the place nor the contents of the management controller's program, so its words come with the commands that
issue them. -/
def State.fetchWord (s : State) (n a : Nat) (w : W64) : Option W64 := if n = mcCore then some w else (s.tile n).fetch a

/-- Why a fetch at `a` faults (R229 row 1, R233, R234), where it does. -/
def State.fetchFault (s : State) (n a : Nat) : Option Nat :=
  match region a with
  | .pkg _ | .sram .. =>
    if s.stackFailed a then some cAddrUnmapped
    else if !s.granted (s.tileOrigin n) .fetch a then some cProtDenied
    else if (s.tile n).fetchErr.contains (a / 1024) then some cMemUe else none
  | _ => some cAddrUnmapped

/-- The line of a DA as memory holds it now (R233). -/
def State.captureLine (s : State) (line : Nat) : IbufLine :=
  ⟨line, s.mem.filter (fun c => c.1 / 1024 == line)⟩

/-- A fill of a line begins (R233). -/
def Tile.startFill (t : Tile) (line : Nat) : Tile :=
  if t.fills.contains line then t else { t with fills := t.fills ++ [line] }

/-! ## Issue -/

/-- The pending d registers (R210). -/
def Tile.pendingRegs (t : Tile) : List Nat := t.inflight.filterMap (fun f => f.pend)

/-- A pc at an enabled breakpoint (R238). -/
def Tile.atBreakpoint (t : Tile) : Bool :=
  !t.bpPassed && (List.range 4).any (fun i =>
    t.fld (Csr.tcDbgBp_en i) == 1 && t.fld (Csr.tcDbgBp_pc i) / 8 * 8 == t.pc)

/-- Whether tile `n` is at a point where an instruction may issue (R205, R216, R238). -/
def Tile.canIssue (t : Tile) : Bool :=
  t.state == tsRunning && t.wait == .none && !t.haltReq && !t.atBreakpoint

/-- The d registers a word names, for the stall of R210: an MXM's output register is excepted. -/
def wordDregs (w : W64) : List Nat :=
  let o := fOp w
  if o = 0x30 then [fB w] else if o = 0x31 then [fA w] else if o = 0x32 ∨ o = 0x33 then [fA w, fB w]
  else if o = 0x64 ∨ o = 0x65 then [fA w]
  else if o = 0x80 ∨ o = 0x81 ∨ o = 0xA0 then [fB w]
  else if o = 0x84 ∨ o = 0x8C ∨ o = 0x94 then [fB w, fC w]
  else if o = 0x88 then [fB w, fC w] ++ (if vopHasB (fl w 0 8) && fl w 10 1 == 0 then [fD w] else []) ++
    (if vopHasC (fl w 0 8) then [fl w 11 6] else [])
  else if o = 0x89 then [fB w, fC w, fD w]
  else if o = 0x90 then [fB w, fC w] ++ (if fl w 0 4 = 7 then [fD w] else [])
  else if o = 0x98 then (if fl w 0 2 = 0 then [fB w, fC w] else [fC w])
  else if o = 0xA4 then (if fl w 4 2 = 2 then [fB w] else [])
  else []

/-- The engine of a T-class opcode (Table 8.1). -/
def wordEngine (w : W64) : Engine :=
  let o := fOp w
  if o = 0x80 ∨ o = 0x81 then .matrix
  else if o = 0x8C then .function
  else if o = 0x98 then .move
  else if o = 0x9C then .collective
  else if o = 0xA0 then .bearing
  else if o = 0xA4 then .contour
  else .vector

/-- A T-class word (Table 7.4). -/
def isT (w : W64) : Bool := 0x80 ≤ fOp w && fOp w ≤ 0xBF

/-- Whether core `n` executes a word: its fields obey its entry (R212), and every T-class opcode is undefined on the
management controller (R204). -/
def coreOk (n : Nat) (w : W64) : Bool := wordOk w && !(n == mcCore && isT w)

/-- The tile whose move engine serves a MOVE ring (spec/06_memory_and_ordering.md R186). -/
def State.ringTile (s : State) (r : Nat) : Option Nat :=
  if s.fld (Csr.memRingSts_kind r) = 2 then (s.ring? r).map (fun c => tileOf (r / 1024) c.target) else none

/-- Tracked transfers in use by a partition (R196, MEM_TT). -/
def State.ttInUse (s : State) (p : Nat) : Nat := s.fld (Csr.memTt_in_use p)

/-- The stalls of R223 that commands can meet: pending registers, a busy token, a full engine, no tracked transfer. -/
def State.stalls (s : State) (n : Nat) (w : W64) : Bool :=
  let t := s.tile n
  (wordDregs w).any (fun r => t.pendingRegs.contains r) ||
  (isT w && (t.busy (fA w) || decide (8 ≤ (t.inflight.filter (fun f => f.eng == wordEngine w)).length) ||
    ((fOp w == 0x98 || fOp w == 0x9C) && decide (8192 ≤ s.ttInUse (partOf n)))))

/-- The tile after an instruction of the word has issued and moves on to `pc'` (R211): INSTRET counts it (R243). -/
def Tile.advance (t : Tile) (pc' : Nat) : Tile :=
  let t := t.setWord Csr.tcInstret (t.word Csr.tcInstret + 1)
  { t with pc := pc', bpPassed := false }.boundary

/-- An exception taken by tile `n`. -/
def State.except (s : State) (n cause : Nat) (tval : W64) : State :=
  s.updTile n (fun t => t.takeException cause false tval)

/-- An instruction is to be issued from `a`, whose line is not resident: its fetch faults, with pc in TC_TVAL (Table
7.11), or the line is filled (R229, R233, R234). -/
def State.fetchMiss (s : State) (n a : Nat) : State :=
  match s.fetchFault n a with
  | some c =>
    let s := if c = cProtDenied then s.deny (s.tileOrigin n) a else s
    s.updTile n (fun t =>
      { t.takeException c true (w64 t.pc) with fetchErr := t.fetchErr.filter (· != a / 1024) })
  | none => s.updTile n (fun t => t.startFill (a / 1024))

/-- Issue of an instruction word by its command (R211, R212, R223, R229): where the core may issue, its lines are
resident and hold the command's words, nothing stalls and the word is defined and of the command's row, `run` is its
effect. A fetch fault or TC_UNDEF takes the exception. Otherwise nothing issues. -/
def issue (i : Issue) (isRow : W64 → Bool) (run : Nat → State → State) (s : State) : Res :=
  let n := i.tile
  let t := s.tile n
  let second := (t.pc + 8) % 2 ^ 48
  if n ≤ mcCore ∧ t.canIssue then
    match s.fetchWord n t.pc i.word with
    | none => .next (s.fetchMiss n t.pc)
    | some w =>
      if w ≠ i.word then .next s
      else if i.parity && n != mcCore then .next ((s.hwError n).updTile n (fun t => t.touchAt t.pc))
      else
        match if isX w then s.fetchWord n second i.imm else some i.imm with
        | none => .next (s.fetchMiss n second)
        | some imm =>
          if imm ≠ i.imm then .next s
          else if !coreOk n w then .next (s.except n cUndef w)
          else if !isRow w then .next s
          else if s.stalls n w then .next s
          else
            let t := t.touchAt t.pc
            .next (run n (s.setTile n (if isX w then t.touchAt second else t)))
  else .next s

end Sys2Proof.Machine
end

