-- ==== Sys2Proof/Machine/Bearing.lean ====
section
/-! DEFINITION. Bearing random streams (spec/11_random_streams.md R331 to R333, R338): the evaluation, the draws of each
consumer, and the lookup of a stream's seed. -/
namespace Sys2Proof.Machine

/-- A 32-bit rotation to the left. -/
def rotl32 (x : BitVec 32) (n : Nat) : BitVec 32 := x.rotateLeft n

/-- The four words of an evaluation. -/
structure Bear where
  x0 : BitVec 32
  x1 : BitVec 32
  x2 : BitVec 32
  x3 : BitVec 32
  deriving DecidableEq, Repr

/-- The rotation amounts of Table 11.1. -/
def rotA (r : Nat) : Nat := [9, 14, 21, 6].getD (r % 4) 0
def rotB (r : Nat) : Nat := [18, 5, 27, 11].getD (r % 4) 0

/-- Round `r` (R331 steps 2 to 4). -/
def bearRound (kl kh : BitVec 32) (r : Nat) (b : Bear) : Bear :=
  let rk := (if r % 2 = 0 then kl else kh) + BitVec.ofNat 32 (r + 1) * 0x2F71C4A5
  let x3 := b.x3 ^^^ rotl32 (b.x0 + b.x1) (rotA r)
  let x2 := b.x2 + (x3 ^^^ rk)
  let x1 := rotl32 (b.x1 ^^^ x2) (rotB r)
  ⟨x3, b.x0, x1, x2⟩

/-- One evaluation (R331). -/
def bearing (seed : W64) (tid sid pos : Nat) : Bear :=
  let kl := seed.setWidth 32
  let kh := (seed >>> 32).setWidth 32
  let b : Bear := ⟨BitVec.ofNat 32 pos ^^^ kl, BitVec.ofNat 32 (pos / 2 ^ 32) ^^^ kh, BitVec.ofNat 32 tid, BitVec.ofNat 32 sid⟩
  let b := (List.range 12).foldl (fun b r => bearRound kl kh r b) b
  ⟨b.x0 + kh, b.x1 ^^^ kl, b.x2 + kl, b.x3 ^^^ kh⟩

/-- Word `n` of an evaluation. -/
def Bear.word (b : Bear) (n : Nat) : Nat :=
  (match n with | 0 => b.x0 | 1 => b.x1 | 2 => b.x2 | _ => b.x3).toNat

/-- The 24-bit draw of element `i` of a stochastic conversion (R33). -/
def drawConv (seed : W64) (tid sid i : Nat) : Nat := (bearing seed tid sid (i / 4)).word (i % 4) % 2 ^ 24

/-- The 24-bit draw of the running sum of output index `o` at block index `b` (R66). -/
def drawGrat (seed : W64) (tid sid o b : Nat) : Nat :=
  (bearing seed tid sid (2 ^ 63 + o * 2 ^ 24 + b % 2 ^ 24)).word 0 % 2 ^ 24

/-- The sign bit of element `i` of block `b` of a rotation (R99). -/
def drawSign (seed : W64) (tid sid b i : Nat) : Bool := (bearing seed tid sid b).word (i / 32) / 2 ^ (i % 32) % 2 = 1

/-- The word of element `i` of an RNG fill (R270). -/
def drawRng (seed : W64) (tid sid rb i : Nat) : Nat := (bearing seed tid sid (2 ^ 62 + rb + i / 4)).word (i % 4)

/-- A partition's registry. -/
def State.streams (s : State) (p : Nat) : List Stream := NMap.get (fun _ => []) s.registry p

/-- The seed of a registered stream (R338): none where the pair has no entry (R339). -/
def State.resolve (s : State) (p tid sid : Nat) : Option W64 :=
  ((s.streams p).find? (fun e => e.tid == tid && e.sid == sid)).map (fun e => e.seed)

/-- The record DAs a hub holds for a partition, oldest first (R337). -/
def State.rngQueued (s : State) (p : Nat) : List Nat := NMap.get (fun _ => []) s.rngQueue p

/-- Registry commands that have arrived at a partition's hub, and those of them that have been performed (R340). -/
def State.rngArrived (s : State) (p : Nat) : Nat := NMap.get (fun _ => 0) s.rngArr p
def State.rngDone (s : State) (p : Nat) : Nat := s.rngArrived p - (s.rngQueued p).length

/-- A resolution by an instruction that issued when `at_` commands had arrived waits for those of them that have not
been performed: the two are ordered by their arrival at the hub (R340). -/
def State.rngWaits (s : State) (p at_ : Nat) : Bool := decide (s.rngDone p < at_)

/-- Evaluations counted in the tile's register (RNG_TILE_EVAL). -/
def State.countEvals (s : State) (n k : Nat) : State := s.updTile n (fun t => t.addFld Csr.rngTileEval_evals k)

end Sys2Proof.Machine
end

