-- ==== Sys2Proof/Machine/Ieee.lean ====
section
/-! DEFINITION. IEEE 754-2019 operations on codes of one format (spec/01_log_numbers.md R22 to R26,
spec/04_vector_and_functions.md R115): each result rounded once, with its flags. -/
namespace Sys2Proof.Machine

/-- A result code with the flags it raises. -/
abbrev FRes := Nat × Flags

/-- The result of an operation with a NaN among its operands (R26): the first, quieted. -/
def nanResult (f : Fmt) (ops : List Nat) : Option FRes :=
  (ops.find? f.isNaNCode).map (fun c => (f.quiet c, { nv := ops.any f.isSNaN }))

/-- The invalid operation without a NaN operand (R26). -/
def invalid (f : Fmt) : FRes := (f.defaultNaN, { nv := true })

/-- An infinity. -/
def Fmt.inf (f : Fmt) (neg : Bool) : Nat := b2n neg * 2 ^ (f.bits - 1) + (2 ^ f.expw - 1) * 2 ^ f.manw

/-- A zero. -/
def Fmt.zero (f : Fmt) (neg : Bool) : Nat := b2n neg * 2 ^ (f.bits - 1)

/-- A zero code of either sign? -/
def Fmt.isZeroCode (f : Fmt) (c : Nat) : Bool := c % 2 ^ (f.bits - 1) == 0

/-- An exact sum rounded; an exact zero takes the sign given. -/
def roundAlg (f : Fmt) (r : Rnd) (a : Alg) (zeroNeg : Bool) (den : Nat := 1) : FRes :=
  match a.sign with
  | 0 => (f.zero zeroNeg, {})
  | 1 => let c := roundF f r false (.alg a den) 0; (c.code, c.fl)
  | _ => let c := roundF f r true (.alg a.neg den) 0; (c.code, c.fl)

/-- a + b (R115). -/
def fAdd (f : Fmt) (r : Rnd) (a b : Nat) : FRes :=
  match nanResult f [a, b] with
  | some x => x
  | none =>
    if f.isInfCode a then (if f.isInfCode b && f.signBit a != f.signBit b then invalid f else (a, {}))
    else if f.isInfCode b then (b, {})
    else
      let x := f.dyad a
      let y := f.dyad b
      let zneg := if x.m = 0 && y.m = 0 && x.neg == y.neg then x.neg else r == .rdn
      roundAlg f r (x.alg.add y.alg) zneg

/-- The negation of a code's sign. -/
def Fmt.flip (f : Fmt) (c : Nat) : Nat := if f.signBit c then c - 2 ^ (f.bits - 1) else c + 2 ^ (f.bits - 1)

/-- a - b: a NaN operand keeps its own sign. -/
def fSub (f : Fmt) (r : Rnd) (a b : Nat) : FRes :=
  match nanResult f [a, b] with
  | some x => x
  | none => fAdd f r a (f.flip b)

/-- a × b. -/
def fMul (f : Fmt) (r : Rnd) (a b : Nat) : FRes :=
  match nanResult f [a, b] with
  | some x => x
  | none =>
    let neg := f.signBit a != f.signBit b
    if f.isInfCode a || f.isInfCode b then
      (if f.isZeroCode a || f.isZeroCode b then invalid f else (f.inf neg, {}))
    else
      roundAlg f r ((f.dyad a).alg.mul (f.dyad b).alg) neg

/-- a × b + c with one rounding (R26: zero times infinity is invalid whatever c is). -/
def fFma (f : Fmt) (r : Rnd) (a b c : Nat) : FRes :=
  let zi := (f.isInfCode a && f.isZeroCode b) || (f.isZeroCode a && f.isInfCode b)
  match nanResult f [a, b, c] with
  | some (x, fl) => (x, { fl with nv := fl.nv || zi })
  | none =>
    if zi then invalid f
    else
      let neg := f.signBit a != f.signBit b
      if f.isInfCode a || f.isInfCode b then
        (if f.isInfCode c && f.signBit c != neg then invalid f else (f.inf neg, {}))
      else if f.isInfCode c then (c, {})
      else
        let x := f.dyad a
        let y := f.dyad b
        let z := f.dyad c
        let pz := x.m = 0 || y.m = 0
        let zneg := if pz && z.m = 0 && neg == z.neg then neg else r == .rdn
        roundAlg f r ((x.alg.mul y.alg).add z.alg) zneg

/-- a / b. -/
def fDiv (f : Fmt) (r : Rnd) (a b : Nat) : FRes :=
  match nanResult f [a, b] with
  | some x => x
  | none =>
    let neg := f.signBit a != f.signBit b
    if f.isInfCode a then (if f.isInfCode b then invalid f else (f.inf neg, {}))
    else if f.isInfCode b then (f.zero neg, {})
    else if f.isZeroCode b then (if f.isZeroCode a then invalid f else (f.inf neg, { dz := true }))
    else
      let x := f.dyad a
      let y := f.dyad b
      if x.m = 0 then (f.zero neg, {})
      else
        let c := roundF f r neg (.alg (Alg.dyadic x.m (x.e - y.e)) y.m) 0
        (c.code, c.fl)

/-- The square root. -/
def fSqrt (f : Fmt) (r : Rnd) (a : Nat) : FRes :=
  match nanResult f [a] with
  | some x => x
  | none =>
    if f.isZeroCode a then (a, {})
    else if f.signBit a then invalid f
    else if f.isInfCode a then (a, {})
    else
      let x := f.dyad a
      let c := roundF f r false (.root (Alg.dyadic x.m x.e) 1) 0
      (c.code, c.fl)

/-- The order of two codes that are not NaN, zeros equal: -1, 0 or 1. -/
def Fmt.order (f : Fmt) (a b : Nat) : Int :=
  let v := fun c => let m : Int := (c % 2 ^ (f.bits - 1) : Nat); if f.signBit c then -m else m
  if v a < v b then -1 else if v b < v a then 1 else 0

/-- a orders below b where -0 is below +0 (R115). -/
def Fmt.below (f : Fmt) (a b : Nat) : Bool := f.order a b == -1 || (f.order a b == 0 && f.signBit a && !f.signBit b)

/-- The IEEE minimum (R115). -/
def fMin (f : Fmt) (a b : Nat) : FRes :=
  match nanResult f [a, b] with
  | some x => x
  | none => (if f.below b a then b else a, {})

/-- The IEEE maximum (R115). -/
def fMax (f : Fmt) (a b : Nat) : FRes :=
  match nanResult f [a, b] with
  | some x => x
  | none => (if f.below a b then b else a, {})

/-- The relations of the FCMP functions, by function code (Table 8.4): EQ and UN quiet, LT and LE signaling. -/
def fCmp (f : Fmt) (fn a b : Nat) : Bool × Flags :=
  let nan := f.isNaNCode a || f.isNaNCode b
  let sn := f.isSNaN a || f.isSNaN b
  match fn with
  | 0x08 => (!nan && f.order a b == 0, { nv := sn })
  | 0x09 => (!nan && f.order a b == -1, { nv := nan })
  | 0x0A => (!nan && f.order a b != 1, { nv := nan })
  | _ => (nan, { nv := sn })

end Sys2Proof.Machine
end

