-- ==== Sys2Proof/Machine/Tensor.lean ====
section
/-! DEFINITION. Tensor descriptors, their views and checks, the reading and writing of elements, the counting of
conversions, and the shared shape of a T-class instruction (spec/07_nolpa_programming.md R206 to R210, R223 to R227;
spec/08_nolpa_tensor_reference.md R244 to R249; spec/03_output_conversion.md R94, R103, R110). -/
namespace Sys2Proof.Machine

/-! Engine fault codes (Tables 1.9, 2.8, 3.4, 4.8, 7.13, 8.7, 11.5). -/
abbrev eFmtAlign : Nat := 0x0401
abbrev eScaleInvalid : Nat := 0x0402
abbrev eScaleRange : Nat := 0x0403
abbrev eFmtUse : Nat := 0x0404
abbrev eAccOverflow : Nat := 0x0410
abbrev eAccReplay : Nat := 0x0411
abbrev eAccChain : Nat := 0x0412
abbrev eAccSpill : Nat := 0x0413
abbrev eMxmShape : Nat := 0x0414
abbrev eMxwShape : Nat := 0x0415
abbrev eSrfRange : Nat := 0x0421
abbrev eOsrInvalid : Nat := 0x0422
abbrev eContourPolicy : Nat := 0x0423
abbrev eVeShape : Nat := 0x0430
abbrev eFuTable : Nat := 0x0431
abbrev eFuEmpty : Nat := 0x0432
abbrev eRngUnreg : Nat := 0x0702
abbrev eDescField : Nat := 0x0A48
abbrev eXferFail : Nat := 0x0509

/-! ## Descriptors (R206, Table 7.2) -/

/-- A tensor descriptor. -/
structure Desc where
  base : Nat
  dev : Nat
  fmtc : Nat
  sc : Int
  redDim : Nat
  chanDim : Nat
  gs : Nat
  ctrEn : Bool
  ctrSlot : Nat
  srfBase : Nat
  resv : Nat
  zp : Int
  ext : List Nat
  stride : List Int
  tid : Nat
  sid : Nat
  deriving DecidableEq, Repr

/-- The descriptor in eight words. -/
def Desc.ofWords (ws : List W64) : Desc :=
  let w := fun i => ws.getD i 0
  ⟨bits (w 0) 0 48, bits (w 0) 48 12, bits (w 0) 60 4, signed 20 (bits (w 1) 0 20), bits (w 1) 20 3, bits (w 1) 23 3,
   bits (w 1) 26 2, bit (w 1) 28, bits (w 1) 29 4, bits (w 1) 33 13, bits (w 1) 46 2, signed 16 (bits (w 1) 48 16),
   (List.range 5).map (fun j => bits (w (2 + j)) 0 24 + 1), (List.range 5).map (fun j => signed 40 (bits (w (2 + j)) 24 40)),
   bits (w 7) 0 32, bits (w 7) 32 32⟩

/-- The format; a reserved code reads as L8 after the check of R15 has faulted. -/
def Desc.fmt (d : Desc) : Fmt := (Fmt.ofCode d.fmtc).getD .l8

/-- The extent of dimension j. -/
def Desc.n (d : Desc) (j : Nat) : Nat := d.ext.getD j 1

/-- The count of elements. -/
def Desc.count (d : Desc) : Nat := d.ext.foldl (· * ·) 1

/-- The indices of the element with linear index `i` (R207). -/
def coords : List Nat → Nat → List Nat
  | [], _ => []
  | n :: ns, i => i % n :: coords ns (i / n)

/-- The linear index of indices (R207). -/
def linear : List Nat → List Nat → Nat
  | n :: ns, i :: is => i + n * linear ns is
  | _, _ => 0

/-- Σ i_j × stride_j over the dimensions of extent above 1. -/
def strideSum : List Nat → List Int → List Nat → Int
  | n :: ns, s :: ss, i :: is => (if n = 1 then 0 else (i : Int) * s) + strideSum ns ss is
  | _, _, _ => 0

/-- The DA of the unit that holds an element, and the element's place in it (R16, R207). -/
def Desc.place (d : Desc) (c : List Nat) : Nat × Nat :=
  if d.fmt.packed then
    let i0 := c.headD 0
    let o := strideSum (d.ext.drop 1) (d.stride.drop 1) (c.drop 1)
    (((d.base : Int) + o).toNat + i0 / d.fmt.perGranule * d.fmt.granule, i0 % d.fmt.perGranule)
  else (((d.base : Int) + strideSum d.ext d.stride c).toNat, 0)

/-- The code of an element. -/
def State.elem (s : State) (d : Desc) (c : List Nat) : Nat :=
  let (a, j) := d.place c
  field (s.load a d.fmt.granule) (d.fmt.bits * j) d.fmt.bits

/-- An element written. -/
def State.setElem (s : State) (d : Desc) (c : List Nat) (v : Nat) : State :=
  let (a, j) := d.place c
  s.store a d.fmt.granule (putField (s.load a d.fmt.granule) (d.fmt.bits * j) d.fmt.bits v)

/-- The bytes of one unit along dimension 0: an element, or the packed row. -/
def Desc.unit (d : Desc) : Nat :=
  if d.fmt.packed then (d.n 0 + d.fmt.perGranule - 1) / d.fmt.perGranule * d.fmt.granule else d.fmt.granule

/-- The address hull of an operand (R183): from the lowest byte to past the highest. -/
def Desc.hull (d : Desc) : Int × Int :=
  let e := if d.fmt.packed then d.ext.drop 1 else d.ext
  let st := if d.fmt.packed then d.stride.drop 1 else d.stride
  let r := (e.zip st).foldl (fun (acc : Int × Int) p =>
    let x := ((p.1 : Int) - 1) * p.2
    if p.1 = 1 then acc else if x < 0 then (acc.1 + x, acc.2) else (acc.1, acc.2 + x)) ((d.base : Int), (d.base : Int))
  (r.1, r.2 + d.unit)

/-! ## Operands and views (R247) -/

/-- How an operand is read or written. -/
inductive View where
  | elems | raw | mask (count : Nat) | record (size count : Nat)
  deriving DecidableEq, Repr

/-- An operand of an instruction: its descriptor and view. -/
structure Opnd where
  d : Desc
  v : View
  deriving DecidableEq, Repr

/-- The hull of an operand in its view. -/
def Opnd.hull (o : Opnd) : Int × Int :=
  match o.v with
  | .elems | .raw => o.d.hull
  | .mask c => (o.d.base, o.d.base + ((c + 7) / 8 : Nat))
  | .record sz c => (o.d.base, o.d.base + (sz * c : Nat))

/-- DESC_FIELD (R208); views check reserved bits alone (R247). -/
def Opnd.descBad (o : Opnd) : Bool :=
  let d := o.d
  d.resv != 0 || (match o.v with
    | .elems =>
      4 < d.redDim || 4 < d.chanDim || (d.redDim == d.chanDim && d.gs != 0) ||
      (d.fmtc == 12 && (d.zp < -128 || 127 < d.zp)) ||
      (d.fmt.packed && (Fmt.ofCode d.fmtc).isSome && d.stride.headD 0 != 0)
    | _ => false)

/-- FMT_USE by the descriptor alone: a reserved code (R15), a narrow tensor without group scales (R20), a zero point in
a format that admits none (R28). -/
def Opnd.fmtBad (o : Opnd) : Bool :=
  let d := o.d
  match o.v with
  | .elems => (Fmt.ofCode d.fmtc).isNone || (d.fmt.narrow && d.gs == 0) || (!d.fmt.isI && d.zp != 0)
  | .raw => (Fmt.ofCode d.fmtc).isNone
  | _ => false

/-- Whether a descriptor's dev names this device (R208). -/
def State.localDev (s : State) (dev : Nat) : Bool := dev == 0 || (s.flag Csr.lnkSts_log_valid && dev == s.fld Csr.lnkSts_logical)

/-- Whether a hull lies in the populated SRAM of tile `n` (R246). -/
def inSram (n : Nat) (h : Int × Int) : Bool := (sramBase n : Int) ≤ h.1 && h.2 ≤ (sramBase n + sramSize : Nat)

/-- ADDR_UNMAPPED (R246, R247). -/
def State.opndUnmapped (s : State) (n : Nat) (o : Opnd) : Bool := !s.localDev o.d.dev || !inSram n o.hull

/-- ADDR_ALIGN (R207, R247). -/
def Opnd.alignBad (o : Opnd) : Bool :=
  let d := o.d
  match o.v with
  | .elems | .raw =>
    let g := d.fmt.granule
    !d.fmt.packed && (d.base % g != 0 || (d.ext.zip d.stride).any (fun p => p.1 != 1 && p.2 % (g : Int) != 0))
  | .mask _ => false
  | .record sz _ => d.base % sz != 0

/-- FMT_ALIGN (R17). -/
def Opnd.fmtAlignBad (o : Opnd) : Bool :=
  let d := o.d
  match o.v with
  | .elems | .raw =>
    let g := d.fmt.granule
    d.fmt.packed && (d.base % g != 0 || ((d.ext.zip d.stride).drop 1).any (fun p => p.1 != 1 && p.2 % (g : Int) != 0))
  | _ => false

/-- Overlap of two hulls. -/
def hullsMeet (a b : Int × Int) : Bool := a.1 < b.2 && b.1 < a.2

/-- The in-place case of R248: base, dev, fmt, extents, and the strides of dimensions of extent above 1 agree. -/
def samePlace (a b : Desc) : Bool :=
  a.base == b.base && a.dev == b.dev && a.fmtc == b.fmtc && a.ext == b.ext &&
  ((a.ext.zip (a.stride.zip b.stride)).all (fun p => p.1 == 1 || p.2.1 == p.2.2))

/-- A destination and a source that overlap other than in place (R248), whatever the views they are taken in. -/
def Opnd.clash (dst src : Opnd) : Bool := hullsMeet dst.hull src.hull && !samePlace dst.d src.d

/-- An array that an instruction names by its window offset and length, as an address hull. -/
def arrayHull (n : Nat) (a : Nat × Nat) : Int × Int := ((sramBase n + a.1 : Nat), ((sramBase n + a.1 + a.2 : Nat) : Int))

/-! ## Cells of open chains (R70, R71, R96) -/

/-- The SRAM ranges, as window offsets, that belong to a chain. -/
def Chain.cells (c : Chain) : List (Nat × Nat) :=
  (c.spillBase, c.spillBase + 256 * c.rows) :: if c.sg then [(c.sgBase, c.sgBase + 128 * c.rows * c.sgGroups)] else []

/-- The DA ranges of the open chains of tile `n`, but for those of slot `except`. -/
def State.cellRanges (s : State) (n : Nat) (except : Option Nat := none) : List (Int × Int) :=
  ((s.tile n).chains.filter (fun e => some e.1 != except)).flatMap (fun e =>
    e.2.cells.map (fun r => ((sramBase n + r.1 : Nat), ((sramBase n + r.2 : Nat) : Int))))

/-- Whether a hull touches the cells of an open chain of tile `n` (R71). -/
def State.touchesCells (s : State) (n : Nat) (h : Int × Int) (except : Option Nat := none) : Bool :=
  (s.cellRanges n except).any (fun r => hullsMeet r h)

/-- Whether `[a, a + len)` touches the cells of an open chain of any tile. -/
def State.inCells (s : State) (a len : Nat) : Bool :=
  match region a with
  | .sram n _ => s.touchesCells n (a, (a + len : Nat))
  | _ => false

/-- Whether the cells of an open chain bar an access: not a read while the tile is halted (R82). -/
def State.cellsBar (s : State) (k : Access) (a len : Nat) : Bool :=
  s.inCells a len && !(k == .read && (match region a with | .sram n _ => (s.tile n).halted | _ => false))

/-! ## The checks of an instruction (R249) -/

/-- The first fault of a list, in order. -/
def firstFault (l : List (Bool × Nat)) : Option Nat := (l.find? (fun p => p.1)).map (fun p => p.2)

/-- The checks of R249 steps 1 to 7 for operands in field order: extra format conditions and shape conditions of the
entry. Destinations, those among the arrays (`outs`) too, are compared with the sources, those among the arrays
(`ins`) too, for R248; an array has no descriptor that could agree, so its overlap is a fault. Arrays are SRAM offsets
and lengths. -/
def State.checkOpnds (s : State) (n : Nat) (dsts srcs : List Opnd) (fmtExtra shape : Bool) (shapeCode : Nat)
    (chain : Bool := false) (ins outs : List (Nat × Nat) := []) (except : Option Nat := none)
    (alignExtra : Bool := false) : Option Nat :=
  let os := dsts ++ srcs
  let arrays := ins ++ outs
  let meets := fun (l : List (Nat × Nat)) (h : Int × Int) => l.any (fun a => hullsMeet (arrayHull n a) h)
  let clashes := dsts.any (fun d => srcs.any (fun x => d.clash x) || meets ins d.hull) ||
    srcs.any (fun x => meets outs x.hull) || ins.any (fun a => meets outs (arrayHull n a))
  firstFault [
    (os.any Opnd.descBad, eDescField),
    (os.any Opnd.fmtBad || fmtExtra, eFmtUse),
    (os.any (s.opndUnmapped n), cAddrUnmapped),
    (os.any Opnd.alignBad || alignExtra, cAddrAlign),
    (os.any Opnd.fmtAlignBad, eFmtAlign),
    (shape || clashes || arrays.any (fun a => decide (sramSize < a.1 + a.2)), shapeCode),
    (chain, eAccChain),
    (os.any (fun o => s.touchesCells n o.hull except) ||
      arrays.any (fun a => s.touchesCells n (arrayHull n a) except),
      eAccSpill)]

/-! ## Group scales and values -/

/-- The group size of a gs field (Table 7.2). -/
def gsSize (gs : Nat) : Nat := 16 * 2 ^ gs

/-- The entry of a group scale (R94). -/
def srfEntry (srfBase kExt gs k n : Nat) : Nat :=
  srfBase + (n / 32 * ((kExt + gsSize gs - 1) / gsSize gs) + k / gsSize gs) * 32 + n % 32

/-- A scale register file entry read as a group scale in units of 2^-9 (R19, R94), or the fault. -/
def Tile.groupScale (t : Tile) (entry : Nat) : Except Nat Int :=
  if 8191 < entry then .error eSrfRange
  else
    let c := NMap.get (fun _ => 0) t.srf entry
    if c = 0 ∨ 0x8000 ≤ c then .error eScaleInvalid else .ok ((c : Int) - 16384)

/-- The group scale of an element of a descriptor: 0 without group scales. -/
def Tile.elemScale (t : Tile) (d : Desc) (c : List Nat) : Except Nat Int :=
  if d.gs = 0 then .ok 0
  else t.groupScale (srfEntry d.srfBase (d.n d.redDim) d.gs (c.getD d.redDim 0) (c.getD d.chanDim 0))

/-- The exact value of an element with its tensor scale, zero point and group scale (R18, R19, R27). -/
def State.value (s : State) (n : Nat) (d : Desc) (c : List Nat) : Except Nat XVal := do
  let g ← (s.tile n).elemScale d c
  return (d.fmt.value (s.elem d c) (if d.fmt.isI then d.zp else 0)).scale (d.sc + g)

/-! ## Counting (R38, R103, R110) -/

/-- What one element adds to a Contour slot. -/
inductive CtrKind where
  | nar | zero | bin (b : Nat)
  deriving DecidableEq, Repr

/-- The bin of a magnitude after division by 2^(sc/512) (R103). -/
def contourBin (m : Real) (sc : Int) : Nat :=
  (clampI 0 63 (searchMax (fun e => m.ge (Alg.pow (1024 * e + 2 * sc)) 1) 7 (-33) + 32)).toNat

/-- Where a value is counted: `sc` is the destination scale, group scale included. -/
def ctrKind (v : XVal) (sc : Int) : CtrKind :=
  match v with
  | .nan .. | .nar => .nar
  | .zero _ => .zero
  | .inf _ => .bin 63
  | .fin _ m => .bin (contourBin m sc)

/-- An element as an engine computes it: its code, what it counts, its flags, and the counts of the conversions on its
way (R38). -/
structure ElemRes where
  code : Nat
  kind : Option CtrKind := none
  clipped : Bool := false
  ovf : Bool := false
  unf : Bool := false
  fl : Flags := {}
  via : List FmtCount := []
  deriving DecidableEq, Repr

/-- A slot's 32-bit count raised by one, sat_any set when it saturates (R104). DESIGN CHOICE, unsafe (log 64): a count
saturates as it reaches 2^32 - 1, and sat_any is set then, not at the first event that is lost. -/
def Tile.bump (t : Tile) (slot : Nat) (f : Fld) : Tile :=
  if t.fld f = 2 ^ f.w - 1 then t.setFld (Csr.cfgCtrSts_sat_any slot) 1
  else
    let t := t.addFld f 1
    if t.fld f = 2 ^ f.w - 1 then t.setFld (Csr.cfgCtrSts_sat_any slot) 1 else t

/-- The field of a Contour bin (R104). -/
def ctrBinFld (slot b : Nat) : Fld := if b % 2 = 0 then Csr.cfgCtrBin_lo slot (b / 2) else Csr.cfgCtrBin_hi slot (b / 2)

/-- An element counted into a Contour slot (R103). -/
def Tile.countContour (t : Tile) (slot : Nat) (r : ElemRes) : Tile :=
  match r.kind with
  | none => t
  | some k =>
    let t := t.bump slot (Csr.cfgCtrElem_elements slot)
    let t := match k with
      | .nar => t.bump slot (Csr.cfgCtrZn_nar slot)
      | .zero => t.bump slot (Csr.cfgCtrZn_zero slot)
      | .bin b => t.bump slot (ctrBinFld slot b)
    let t := if r.clipped || r.ovf then t.bump slot (Csr.cfgCtrSf_sat slot) else t
    if r.unf then t.bump slot (Csr.cfgCtrSf_flush slot) else t

/-- A conversion counted into the format counters (R38, R110). -/
def Tile.countConv (t : Tile) (c : FmtCount) : Tile :=
  let t := if c.2.1 then t.addFld (Csr.cfgFmtcOvf_count c.1.code) 1 else t
  if c.2.2 then t.addFld (Csr.cfgFmtcUnf_count c.1.code) 1 else t

/-- An element's conversions counted: those on its way, and the last into the destination (R38, R110). -/
def Tile.countFmt (t : Tile) (f : Fmt) (r : ElemRes) : Tile := (r.via ++ [(f, r.ovf, r.unf)]).foldl Tile.countConv t

/-- The counts of an element written to `d`. -/
def State.countElem (s : State) (n : Nat) (d : Desc) (r : ElemRes) : State :=
  if r.kind.isNone && !r.ovf && !r.unf && r.via.isEmpty then s
  else s.updTile n (fun t =>
    let t := t.countFmt d.fmt r
    if d.ctrEn then t.countContour d.ctrSlot r else t)

/-- A conversion of an exact value into an element of `d` (R29, R103): `g` is the destination group scale. -/
def convElem (d : Desc) (sel u : Nat) (g : Int) (v : XVal) : ElemRes :=
  let sc := d.sc + g
  let c := convert d.fmt sel u (if d.fmt.isI then d.zp else 0) v sc
  { code := c.code, kind := some (ctrKind v sc), ovf := c.ovf, unf := c.unf, fl := c.fl }

/-! ## Writing results; engine faults part-way (R226) -/

/-- The elements of a destination written in linear order with their counts; an entry that faulted is skipped.
`sel` says which units are written, for an instruction that faults part-way (R226). -/
def State.writeElems (s : State) (n : Nat) (d : Desc) (rs : List (Except Nat ElemRes)) (sel : Nat → Bool) : State :=
  (rs.zipIdx).foldl (fun s p =>
    match p.1 with
    | .error _ => s
    | .ok r => if sel p.2 then (s.setElem d (coords d.ext p.2) r.code).countElem n d r else s) s

/-- The first fault among element results. -/
def resFault (rs : List (Except Nat ElemRes)) : Option Nat :=
  rs.findSome? (fun r => match r with | .error c => some c | .ok _ => none)

/-- The flags of all elements. -/
def resFlags (rs : List (Except Nat ElemRes)) : Flags :=
  rs.foldl (fun f r => match r with | .ok x => f.or x.fl | .error _ => f) {}

/-- Bit `i` of a mask at a DA written (R247). -/
def State.setMaskBit (s : State) (base i : Nat) (b : Bool) : State :=
  s.store (base + i / 8) 1 (putField (s.load (base + i / 8) 1) (i % 8) 1 (b2n b))

/-- Bit `i` of a mask. -/
def State.maskBit (s : State) (base i : Nat) : Bool := field (s.load (base + i / 8) 1) (i % 8) 1 == 1

/-! ## T-class instructions -/

/-- The detail0 of an engine fault of tile `n`: the token and the issue count (Table 6.13). -/
def State.tokenDetail (s : State) (n tok : Nat) : W64 :=
  w64 (tok + bits ((s.tile n).word Csr.tcInstret) 0 32 * 2 ^ 32)

/-! ### What an instruction word names -/

/-- The d register of the destination descriptor of an instruction that reads it as elements or copies into it (R247,
R272); a closing MXM's is its output. -/
def wordDst (w : W64) : Option Nat :=
  let o := fOp w
  if o = 0x81 then (if fl w 5 1 = 1 then some (fC w) else none)
  else if o = 0x84 ∨ o = 0x89 ∨ o = 0x8C ∨ o = 0x94 then some (fB w)
  else if o = 0x88 then
    match vopGroup (fl w 0 8) with
    | some .word | some .dword => none
    | _ => if vopMask (fl w 0 8) then none else some (fB w)
  else if o = 0x90 then (if fl w 0 4 = 4 ∨ fl w 0 4 = 6 ∨ fl w 0 4 = 7 then some (fB w) else none)
  else if o = 0x98 then (if fl w 0 2 = 0 then some (fB w) else none)
  else if o = 0xA0 then (if fl w 0 2 = 1 then some (fB w) else none)
  else none

/-- The d registers of the operands whose group scales an instruction reads from the scale register file (R268). -/
def wordScaled (w : W64) : List Nat :=
  let o := fOp w
  if o = 0x81 then (wordDst w).toList
  else if o = 0x98 ∨ o = 0x9C ∨ o = 0xA4 then []
  else wordDregs w

/-- MOV SRF, MOV FUSLOT and its slot, an FNT that names a table slot and that slot. -/
def isSrfLoad (w : W64) : Bool := fOp w == 0x98 && fl w 0 2 == 1
def slotLoad (w : W64) : Option Nat := if fOp w == 0x98 && fl w 0 2 == 2 then some (fl w 15 4) else none
def slotEval (w : W64) : Option Nat := if fOp w == 0x8C && fl w 0 4 == 15 then some (fl w 4 4) else none

/-- A HIST in its READ or MERGE form, and its slot (R272). -/
def histSlot (w : W64) : Option Nat := if fOp w == 0xA4 && fl w 4 2 != 2 then some (fl w 0 4) else none

/-- The Contour slot that the destination descriptor of a word names with ctr_en = 1 (R272). -/
def Tile.wordCtr (t : Tile) (w : W64) : Option Nat :=
  match wordDst w with
  | some r => let d := Desc.ofWords (t.d r); if d.ctrEn then some d.ctrSlot else none
  | none => none

/-- Whether a word's instruction reads the scale register file. -/
def Tile.readsSrf (t : Tile) (w : W64) : Bool := (wordScaled w).any (fun r => (Desc.ofWords (t.d r)).gs != 0)

/-- The local address hulls of a MOV (R71, R183). -/
def State.movHulls (s : State) (t : Tile) (w : W64) : List (Int × Int) :=
  if fOp w = 0x98 then
    ((if fl w 0 2 = 0 then [fB w, fC w] else [fC w]).map (fun r => Desc.ofWords (t.d r))).filterMap (fun d =>
      if s.localDev d.dev then some d.hull else none)
  else []

/-- An instruction just issued by tile `n`. -/
def State.newFlight (s : State) (n seq : Nat) (w : W64) : InFlight :=
  let t := s.tile n
  ⟨wordEngine w, fA w, seq, false, 0, 0, 0, {}, [], none, none, false, none, w, t.wordCtr w, t.readsSrf w, s.movHulls t w, t.priv⟩

/-- The instruction with place `seq` in issue order changed. -/
def State.updFlight (s : State) (n seq : Nat) (f : InFlight → InFlight) : State :=
  s.updTile n (fun t => { t with inflight := t.inflight.map (fun x => if x.seq = seq then f x else x) })

/-- The event that an engine fault raises at its completion (R199, R225): FAULT, but for MEM_UE, which has severity
ABORT (R167, Table 6.14). -/
def State.faultEvent (s : State) (n tok code : Nat) (d1 : W64) : Event :=
  tileEvent n code (if code = cMemUe then sevAbort else sevFault) (s.tokenDetail n tok) d1

/-- The instruction's effect is done without fault: flags and the slot it counted into. -/
def State.done (s : State) (n seq : Nat) (fl : Flags) (ctr : Option Nat) : State :=
  s.updFlight n seq (fun x => { x with done := true, flags := fl, ctr := ctr })

/-- The instruction has faulted: its completion writes the code and raises the event. -/
def State.failT (s : State) (n seq tok code : Nat) (d1 : W64 := 0) (fl : Flags := {}) (ctr : Option Nat := none) : State :=
  let e := s.faultEvent n tok code d1
  s.updFlight n seq (fun x =>
    { x with done := true, fault := code, flags := fl, ctr := ctr, evs := x.evs ++ [e] })

/-- A T-class instruction has issued (R225): its token is busy, it stands in its engine, and the core goes on. -/
def State.enter (s : State) (n : Nat) (w : W64) : State :=
  let f := s.newFlight n (s.tile n).seq w
  s.updTile n (fun t => { (t.setK (fA w) 1).advance (pcNext t.pc w) with
    seq := t.seq + 1, inflight := t.inflight ++ [f] })

/-- Issue of a T-class instruction: it enters its engine; then `eff` is its engine's effect, given the tile and its
place in issue order. -/
def issueT (i : Issue) (isRow : W64 → Bool) (eff : Nat → Nat → State → State) (s : State) : Res :=
  issue i isRow (fun n s => eff n (s.tile n).seq (s.enter n i.word)) s

/-! ### Waiting in an engine's queue (R132, R223, R245, R268, R272, R340) -/

/-! Fields of the mode bits and of the chain word of an MXM (Tables 8.2 and 8.3). -/
def MxmOp.slot (o : MxmOp) : Nat := field o.l 0 3
def MxmOp.buf (o : MxmOp) : Nat := field o.l 3 1
def MxmOp.add (o : MxmOp) : Bool := field o.l 4 1 == 1
def MxmOp.close (o : MxmOp) : Bool := field o.l 5 1 == 1
def MxmOp.sg (o : MxmOp) : Bool := field o.l 6 1 == 1
def MxmOp.rnd (o : MxmOp) : Nat := field o.l 7 2
def MxmOp.preset (o : MxmOp) : Nat := field o.l 9 2
def MxmOp.rowBase (o : MxmOp) : Nat := field o.l 11 9
def MxmOp.osr (o : MxmOp) : Nat := bits o.cw 45 16 * 64
def MxmOp.da (o : MxmOp) : Desc := Desc.ofWords o.act
def MxmOp.dout (o : MxmOp) : Desc := Desc.ofWords o.out
def MxmOp.rows (o : MxmOp) : Nat := o.da.n 1

/-- The 64 bytes of an output-stage record as memory holds them (spec/03_output_conversion.md R84). -/
def State.osrBytes (s : State) (n : Nat) (o : MxmOp) : List Byte := s.bytes (sramBase n + o.osr) 64

/-- The function-unit slot that a record names for a destination: its act is 10, and FP32P runs no activation
(spec/03_output_conversion.md R84; spec/02_products_and_sums.md R74). -/
def recordSlot (rec_ : List Byte) (dst : Fmt) : Option Nat :=
  let w := leAt rec_ 0 4
  if field w 2 2 = 2 ∧ dst ≠ .fp32p then some (field w 4 4) else none

/-- The d and s registers an instruction issued with (R209). -/
def TOp.core (o : TOp) (t : Tile) : Tile := { t with dreg := o.dreg, sreg := o.sreg }

/-- The chains an ADAPT waits for: those open or queued to open whose output register it names (R109). -/
def Tile.adaptWaits (t : Tile) (w : W64) : List Nat :=
  if fOp w = 0xA4 ∧ fl w 4 2 = 2 then
    (t.chains.filter (fun e => e.2.outReg == fB w)).map (fun e => e.2.openSeq) ++
    t.mq.filterMap (fun m => match m with
      | .mxm x => if x.outReg == fB w && !x.add then some x.seq else none
      | .mxw _ => none)
  else []

/-- The instruction that tile `n` issues, with what it captures. -/
def State.top (s : State) (n : Nat) (i : Issue) : TOp :=
  let t := s.tile n
  ⟨t.seq, i, t.dreg, t.sreg, t.priv, t.adaptWaits i.word, s.rngArrived (partOf n), none⟩

/-- The pair of stream ids an instruction draws from, where it draws (R33, R99, R270, R338). -/
def TOp.pair (o : TOp) (t : Tile) : Option (Nat × Nat) :=
  let t := o.core t
  let w := o.issue.word
  let dd := Desc.ofWords (t.d (fB w))
  let stoch := fun (rnd : Nat) => if rnd = 1 ∧ dd.fmt.isF = false then some (dd.tid, dd.sid) else none
  let c := fOp w
  if c = 0x84 then stoch (fl w 0 2)
  else if c = 0x88 then (if vopGroup (fl w 0 8) = some .l ∧ vopMask (fl w 0 8) = false then stoch (fl w 8 2) else none)
  else if c = 0x89 then stoch (fl w 1 2)
  else if c = 0x8C then stoch (fl w 8 2)
  else if c = 0x90 then (if fl w 0 4 = 6 ∨ fl w 0 4 = 7 then stoch (fl w 4 2) else none)
  else if c = 0x94 then let rc := t.s (fD w); some (bits rc 0 32, bits rc 32 32)
  else if c = 0xA0 then some (dd.tid, dd.sid)
  else none

/-- The seed of an instruction's pair: as the registry resolves it, or as it did before a command that the instruction
is not to see (R338, R340). -/
def State.seedOf (s : State) (n : Nat) (kept : Option (Option W64)) (tid sid : Nat) : Option W64 :=
  kept.getD (s.resolve (partOf n) tid sid)

/-- Before registry command number `k` of its partition is performed, the instructions that had issued when it arrived
and have not started keep what their pair resolves to (R340). -/
def Tile.keepSeeds (t : Tile) (resolve : Nat → Nat → Option W64) (k : Nat) : Tile :=
  let mxm := fun (o : MxmOp) =>
    if o.rngAt ≤ k ∧ o.rng.isNone then { o with rng := some (resolve o.dout.tid o.dout.sid) } else o
  let top := fun (o : TOp) =>
    match o.pair t with
    | some p => if o.rngAt ≤ k ∧ o.rng.isNone then { o with rng := some (resolve p.1 p.2) } else o
    | none => o
  { t with
    mq := t.mq.map (fun m => match m with | .mxm o => .mxm (mxm o) | .mxw o => .mxw o)
    tq := t.tq.map top }

/-- A move that loads the scale register file, issued before `seq` and not performed (R268). -/
def Tile.srfPending (t : Tile) (seq : Nat) : Bool :=
  t.inflight.any (fun f => decide (f.seq < seq) && !f.done && isSrfLoad f.word)

/-- A load of function-unit slot `k` issued before `seq` and not performed (R132). -/
def Tile.slotPending (t : Tile) (seq k : Nat) : Bool :=
  t.inflight.any (fun f => decide (f.seq < seq) && !f.done && slotLoad f.word == some k)

/-- The function-unit slots of the output conversions issued before `seq` that have not run (R88); a chain that has
not closed names the slot its record holds at present. -/
def State.convSlots (s : State) (n seq : Nat) : List Nat :=
  let t := s.tile n
  (t.convs.filter (fun v => decide (v.op.seq < seq))).filterMap (fun v => recordSlot v.record v.op.dout.fmt) ++
  t.mq.filterMap (fun m => match m with
    | .mxm x => if x.seq < seq ∧ x.close = true then recordSlot (s.osrBytes n x) x.dout.fmt else none
    | .mxw _ => none)

/-- A READ or MERGE of Contour slot `k` that was issued before `seq` and has not run: counts come after it (R272). -/
def Tile.histPending (t : Tile) (seq : Nat) (k : Option Nat) : Bool :=
  t.tq.any (fun x => decide (x.seq < seq) && (histSlot x.issue.word).isSome && histSlot x.issue.word == k)

/-- Whether an instruction has to wait in its engine's queue: behind an earlier one of its engine (R245); for the
scale register file, which loads and reads in issue order (R93, R268); for the function unit, which takes loads and
evaluations in issue order (R88, R132); for the Contour slot rule (R109, R272); for a registry command that arrived
before it issued (R340). -/
def State.mustWait (s : State) (n : Nat) (o : TOp) : Bool :=
  let t := s.tile n
  let w := o.issue.word
  let c := o.core t
  let earlier := fun (p : InFlight → Bool) => t.inflight.any (fun f => decide (f.seq < o.seq) && !f.done && p f)
  t.tq.any (fun x => decide (x.seq < o.seq) && wordEngine x.issue.word == wordEngine w) ||
  ((c.readsSrf w || isSrfLoad w) && t.srfPending o.seq) || (isSrfLoad w && earlier (fun f => f.srf)) ||
  (fOp w == 0x8C && !(s.convSlots n o.seq).isEmpty) ||
  (match slotEval w with | some k => t.slotPending o.seq k | none => false) ||
  (match slotLoad w with
    | some k => t.slotPending o.seq k || (s.convSlots n o.seq).contains k || earlier (fun f => slotEval f.word == some k)
    | none => false) ||
  t.histPending o.seq (c.wordCtr w) ||
  (match histSlot w with
    | some k => t.inflight.any (fun f => decide (f.seq < o.seq) && f.dctr == some k)
    | none => false) ||
  t.chains.any (fun e => o.waits.contains e.2.openSeq) ||
  t.mq.any (fun m => match m with | .mxm x => o.waits.contains x.seq | .mxw _ => false) ||
  ((o.pair t).isSome && s.rngWaits (partOf n) o.rngAt)

/-- Issue of a T-class instruction of an engine other than the matrix engine: it enters its engine with what it
captures, and starts unless it has to wait; `run` is its engine's effect, `mark` what its issue does besides. -/
def issueE (i : Issue) (isRow : W64 → Bool) (mark : State → Nat → TOp → State) (run : State → Nat → TOp → State)
    (s : State) : Res :=
  issue i isRow (fun n s =>
    let o := s.top n i
    let e := mark (s.enter n i.word) n o
    if s.mustWait n o then e.updTile n (fun t => { t with tq := t.tq ++ [o] }) else run e n o) s

/-- Issue of an instruction whose issue does nothing besides. -/
def issueQ (i : Issue) (isRow : W64 → Bool) (run : State → Nat → TOp → State) (s : State) : Res :=
  issueE i isRow (fun s _ _ => s) run s

/-- What error detection reports to an engine of a tile: MEM_UE is an engine fault, whose event the completion raises
(R167). -/
def State.detectT (s : State) (e : Ecc) : State × Bool :=
  match e with
  | .ok => (s, false)
  | .corrected a => (s.memCe a, false)
  | .uncorrectable a => (s.noteUe a, true)

/-- The Contour slot that an instruction has counted into (R105): the destination's, where some element written was
counted. `sel` says which were written. -/
def countedSlot (d : Desc) (rs : List (Except Nat ElemRes)) (sel : Nat → Bool) : Option Nat :=
  if d.ctrEn && (rs.zipIdx).any (fun p => match p.1 with | .ok r => r.kind.isSome && sel p.2 | .error _ => false)
  then some d.ctrSlot else none

/-- An element-wise engine instruction after its checks: results computed from the state, then written; a data fault
(R19, R94, R167) leaves an unspecified choice of the units written (R226). -/
def State.runElems (s : State) (n seq tok : Nat) (d : Desc) (ecc : Ecc) (rs : List (Except Nat ElemRes)) : State :=
  let (s, ue) := s.detectT ecc
  let code := if ue then some cMemUe else resFault rs
  match code with
  | none => (s.writeElems n d rs (fun _ => true)).done n seq (resFlags rs) (countedSlot d rs (fun _ => true))
  | some c =>
    let k := s.freeCtr
    let sel := fun i => Config.freeBool (k + i)
    ((s.writeElems n d rs sel).takeFree rs.length).failT n seq tok c 0 (resFlags rs) (countedSlot d rs sel)

end Sys2Proof.Machine
end

