-- ==== Sys2Proof/Machine/WaitCtl.lean ====
section
/-! DEFINITION. Waits, fences, control instructions and the instruction buffer
(spec/07_nolpa_programming.md R217 to R220, R231 to R235; spec/06_memory_and_ordering.md R176, R177). -/
namespace Sys2Proof.Machine

/-- The tick count that compute die `d` has seen (spec/09_datum_time.md R280). -/
def State.seenDie (s : State) (d : Nat) : W64 := NMap.get (fun _ => 0) s.seen d

/-- The tick count that hub `h` has seen. -/
def State.seenHub (s : State) (h : Nat) : W64 := NMap.get (fun _ => 0) s.seen (16 + h)

/-! ## WTK, FENCE, TKS -/

/-- The tokens a mask names; bit 0 is ignored (Table 7.8). -/
def maskTokens (mask : Nat) : List Nat := (List.range 32).filter (fun n => n != 0 && field mask n 1 == 1)

/-- Whether a token's status word carries fault = 1 (Table 7.10). -/
def Tile.tokenFault (t : Tile) (n : Nat) : Bool := bit (t.k n) 1

/-- The condition of a WTK (R218); one with an empty mask and a deadline is a Waypoint, whose condition is never met: it
waits for its tick (assumption log 58). -/
def Tile.wtkMet (t : Tile) (any waypoint : Bool) (mask : Nat) : Bool :=
  let ks := maskTokens mask
  if ks.isEmpty then !waypoint else if any then ks.any (fun n => !t.busy n) else ks.all (fun n => !t.busy n)

/-- The value a released WTK writes (R218): the named tokens that are not busy, a timeout in bit 0, and those of them
with a fault 32 bits higher. -/
def Tile.wtkResult (t : Tile) (mask : Nat) (timeout : Bool) : W64 :=
  let free := fun (n : Nat) => (maskTokens mask).contains n && !t.busy n
  wordOfBits (fun k =>
    if k = 0 then timeout else if k < 32 then free k else free (k - 32) && t.tokenFault (k - 32)) 64

/-- The TC_TVAL of TC_EFAULT: the lowest faulted token and its code (Table 7.11). -/
def Tile.efaultTval (t : Tile) (mask : Nat) : W64 :=
  match (maskTokens mask).find? (fun n => !t.busy n && t.tokenFault n) with
  | some n => w64 (n + bits (t.k n) 16 16 * 2 ^ 16)
  | none => 0

/-- WTK (R217, R218): the core waits with pc at the WTK. The management controller's takes only a deadline (R204): it
names no token. -/
def execWtk (i : Issue) (s : State) : Res :=
  issue i (fun w => fOp w == 0xC0) (fun n s =>
    let w := i.word
    let t := s.tile n
    let dl := if bits w 33 1 = 1 then some (t.s (fB w)) else none
    let mask := if n = mcCore then 0 else fL w
    s.setTile n { t with wait := .wtk (fA w) (bits w 32 1 = 1) dl (bits w 34 1 = 1) mask }) s

/-- WTK_RELEASE (R218): the condition is tested before the deadline, which a tile sees by its die's copy of DTM_COUNT
and the management controller by its hub's. -/
def execWtkRelease (tile : Nat) (s : State) : Res :=
  let t := s.tile tile
  match t.wait with
  | .wtk rd any dl trap mask =>
    let met := t.wtkMet any dl.isSome mask
    let late := match dl with
      | some d => decide (d.toNat ≤ (s.seenDie (tile / 128)).toNat)
      | none => false
    if t.state = tsRunning && (met || late) then
      let t := { t with wait := .none }
      if trap && (maskTokens mask).any (fun n => !t.busy n && t.tokenFault n) then
        .next (s.setTile tile (t.takeException cEfault false (t.efaultTval mask)))
      else
        .next (s.setTile tile ((t.setS rd (t.wtkResult mask (!met))).advance ((t.pc + 8) % 2 ^ 48)))
    else .next s
  | _ => .next s

/-- The tile after an instruction that leaves it waiting: pc and INSTRET move, and a step ends (R241). -/
def Tile.advanceWait (t : Tile) (w : Wait) : Tile :=
  let t := t.setWord Csr.tcInstret (t.word Csr.tcInstret + 1)
  { t with pc := (t.pc + 8) % 2 ^ 48, bpPassed := false, wait := w }.boundary

/-- The T-class instructions in flight that a fence with E = 1 waits for: those whose accesses are not yet performed. -/
def Tile.earlierSet (t : Tile) : List Nat := (t.inflight.filter (fun f => !f.done)).map (fun f => f.seq)

/-- FENCE (R176): with E = 0, or with nothing of the engines outstanding, it completes in its issue cycle. -/
def execFence (i : Issue) (s : State) : Res :=
  issue i (fun w => fOp w == 0xC1) (fun n s =>
    let t := s.tile n
    if fl i.word 4 1 = 1 && !t.earlierSet.isEmpty then s.setTile n (t.advanceWait (.fence t.earlierSet none))
    else s.setTile n (t.advance (pcNext t.pc i.word))) s

/-- FENCE_COMPLETE (R177): every instruction the fence waits for has been performed. A PHASE with E = 1 ends here too,
once those instructions have completed (spec/08_nolpa_tensor_reference.md R273). -/
def execFenceComplete (tile : Nat) (s : State) : Res :=
  let t := s.tile tile
  match t.wait with
  | .fence seqs ph =>
    let waits := t.inflight.any (fun f => seqs.contains f.seq && (!f.done || ph.isSome))
    if t.state = tsRunning && !waits then
      let t := match ph with
        | some p => { t with phase := p }
        | none => t
      .next (s.setTile tile { t with wait := .none })
    else .next s
  | _ => .next s

/-- TKS (R217). -/
def execTks (i : Issue) (s : State) : Res :=
  issue i (fun w => fOp w == 0xC2) (fun n s =>
    s.updTile n (fun t => (t.setS (fA i.word) (t.k (fB i.word))).advance (pcNext t.pc i.word))) s

/-- PHASE (spec/08_nolpa_tensor_reference.md R273). -/
def execPhase (i : Issue) (s : State) : Res :=
  issue i (fun w => fOp w == 0xC3) (fun n s =>
    let t := s.tile n
    let slot := fl i.word 0 4
    if fl i.word 4 1 = 1 && !t.inflight.isEmpty then
      s.setTile n (t.advanceWait (.fence (t.inflight.map (fun f => f.seq)) (some slot)))
    else s.setTile n ({ t with phase := slot }.advance (pcNext t.pc i.word))) s

/-! ## Control (Table 7.9) -/

/-- ECALL: traps from J with its code; undefined at P (R203). -/
def execEcall (i : Issue) (s : State) : Res :=
  issue i (fun w => fOp w == 0xD0) (fun n s =>
    if (s.tile n).priv then s.except n cUndef i.word else s.except n cEcall (w64 (fL i.word))) s

/-- ERET: P only (R203). -/
def execEret (i : Issue) (s : State) : Res :=
  issue i (fun w => fOp w == 0xD1) (fun n s =>
    if (s.tile n).priv then
      s.updTile n (fun t => let u := t.eret; u.advance u.pc)
    else s.except n cPriv i.word) s

/-- BRK: DEBUG with pc after it, or TC_BREAK. -/
def execBrk (i : Issue) (s : State) : Res :=
  issue i (fun w => fOp w == 0xD2) (fun n s =>
    let t := s.tile n
    if t.fld Csr.tcDbgCtl_brk_en = 1 then
      let t := t.setWord Csr.tcInstret (t.word Csr.tcInstret + 1)
      s.setTile n ({ t with pc := pcNext t.pc i.word, bpPassed := false }.enterDebug haltBrk)
    else s.except n cBreak 0) s

/-- The instruction buffer emptied (R235). -/
def Tile.flushBuffer (t : Tile) : Tile := { t with ibuf := [], fetchErr := [] }

/-- IFLUSH (R235): it waits for fills in flight. -/
def execIflush (i : Issue) (s : State) : Res :=
  issue i (fun w => fOp w == 0xD5) (fun n s =>
    let t := s.tile n
    if t.fills.isEmpty then s.setTile n (t.flushBuffer.advance (pcNext t.pc i.word))
    else s.setTile n (t.advanceWait .iflush)) s

/-- IPF (Table 7.9): fills of the lines from the one that holds ra; a line past the address range is dropped. -/
def execIpf (i : Issue) (s : State) : Res :=
  issue i (fun w => fOp w == 0xD6) (fun n s =>
    s.updTile n (fun t =>
      let first := (t.s (fB i.word)).toNat / 1024
      let lines := (List.range (fL i.word)).map (fun k => first + k)
      let t := lines.foldl (fun t l =>
        if 2 ^ 38 ≤ l || (t.lineAt (l * 1024)).isSome then t else t.startFill l) t
      t.advance (pcNext t.pc i.word))) s

/-- Whether a line is the one the next instruction, or its second word, comes from. -/
def Tile.wantsLine (t : Tile) (line : Nat) : Bool := t.pc / 1024 == line || (t.pc + 8) % 2 ^ 48 / 1024 == line

/-- IBUF_FILL_COMPLETE (R233, R234): the line as memory holds it now; a fill that is denied, unmapped or meets MEM_UE
installs nothing, and MEM_UE is remembered for the instruction that waits for the line. -/
def execIbufFillComplete (tile line : Nat) (ecc : Ecc) (s : State) : Res :=
  let t := s.tile tile
  if t.fills.contains line then
    let s := s.setTile tile { t with fills := t.fills.filter (· != line) }
    let s := match s.fetchFault tile (line * 1024) with
      | some c =>
        if c = cProtDenied && !t.wantsLine line then s.deny (s.tileOrigin tile) (line * 1024) else s
      | none =>
        let (s, bad) := s.detect ecc (corePart tile)
        if bad.isSome then
          if t.wantsLine line then s.updTile tile (fun t => { t with fetchErr := t.fetchErr ++ [line] }) else s
        else
          let l := s.captureLine line
          s.updTile tile (fun t => t.touchLine l)
    .next (s.updTile tile (fun t =>
      if t.wait = .iflush && t.fills.isEmpty then { t.flushBuffer with wait := .none } else t))
  else .next s

/-! ## The end of a program -/

/-- A chain leaves its slot: its cells are zeroed and released (spec/02_products_and_sums.md R71). -/
def State.releaseChain (s : State) (n slot : Nat) : State :=
  match NMap.find? (s.tile n).chains slot with
  | none => s
  | some c =>
    let s := c.cells.foldl (fun s r => s.zeroMem (sramBase n + r.1) (r.2 - r.1)) s
    s.updTile n (fun t => { t with chains := NMap.erase t.chains slot })

/-- Every open chain discarded without output (R231). -/
def State.discardChains (s : State) (n : Nat) : State :=
  (List.range 8).foldl (fun s slot => s.releaseChain n slot) s

/-- HALT (R232): nothing more issues. -/
def execHalt (i : Issue) (s : State) : Res :=
  issue i (fun w => fOp w == 0xD7) (fun n s =>
    s.updTile n (fun t => t.advanceWait (.halt (fl i.word 0 16) (fl i.word 16 1 = 1)))) s

end Sys2Proof.Machine
end

