-- ==== Sys2Proof/Machine/Matrix.lean ====
section
/-! DEFINITION. The matrix engine: weight blocks, the Graticule, chains, spills and overflow replays
(spec/02_products_and_sums.md R42 to R83; spec/03_output_conversion.md R94, R96 to R98;
spec/08_nolpa_tensor_reference.md R251 to R255). -/
namespace Sys2Proof.Machine

/-! ## One Graticule block (R54 to R63) -/

/-- The product grid f_p of two operand formats (Table 2.1). -/
def productGrid (a w : Fmt) : Nat :=
  if a == .l16 || w == .l16 then 9 else if a == .l12 || w == .l12 then 6 else 3

/-- The table C[j] = floor(2^23 × 2^(j/512)) of R61, decided exactly. -/
def gratConst (j : Nat) : Int :=
  2 ^ 23 + searchMax (fun i => (Real.alg (Alg.pow (2 * j)) 1).ge (Alg.ofInt (2 ^ 23 + i)) (2 ^ 23)) 23 0

/-- The residual correction c(x) of Table 2.4. -/
def gratResidual (x : Nat) : Nat := [0, 5, 11, 16, 22, 27, 33, 39].getD x 0

/-- A product: integer part, fraction, sign (R56). -/
structure Product where
  e : Int
  k : Nat
  neg : Bool
  deriving DecidableEq, Repr

/-- What a block gives (R57, R59, R62): not a number, or a sum B at e_max with its bins and drop count; a block
without a live product has B = 0 and no e_max. -/
inductive BlockRes where
  | nan
  | zero
  | real (b : Int) (emax : Int) (drops : Nat) (bins : List Int)
  deriving DecidableEq, Repr

/-- The log field of an operand on the product grid (R54). -/
def gridLog (f : Fmt) (fp : Nat) (c : Nat) : Int := ((f.eField c : Int) - f.bias) * (2 ^ (fp - f.frac) : Nat)

/-- A code is zero, or NaR. -/
def Fmt.isZeroL (f : Fmt) (c : Nat) : Bool := f.eField c == 0 && !f.signBit c
def Fmt.isNar (f : Fmt) (c : Nat) : Bool := f.eField c == 0 && f.signBit c

/-- The live products of a block (R56, R57): none when an operand is NaR. -/
def liveProducts (fa fw : Fmt) (fp : Nat) (g : Int) : List Nat → List Nat → Option (List Product)
  | a :: as, w :: ws =>
    if fa.isNar a || fw.isNar w then none
    else
      match liveProducts fa fw fp g as ws with
      | none => none
      | some l =>
        if fa.isZeroL a || fw.isZeroL w then some l
        else
          let p := gridLog fa fp a + gridLog fw fp w + g / (2 ^ (9 - fp) : Nat)
          some (⟨p / (2 ^ fp : Nat), (p % (2 ^ fp : Nat)).toNat, fa.signBit a != fw.signBit w⟩ :: l)
  | _, _ => some []

/-- A contribution with d = e - e_max + 40 ≥ 0: its bin and its signed amount (R58). -/
def contribution (fp : Nat) (p : Product) (d : Nat) : Nat × Int :=
  let (b, v) := if fp = 9 then (p.k / 8, (4096 + gratResidual (p.k % 8)) * 2 ^ d / 4096) else (p.k, 2 ^ d)
  (b, if p.neg then -(v : Int) else v)

/-- Division truncated toward zero. -/
def truncDiv (a : Int) (b : Nat) : Int := Int.tdiv a b

/-- One Graticule block of a column (R54 to R63). -/
def gratBlock (fa fw : Fmt) (g : Int) (as ws : List Nat) : BlockRes :=
  let fp := productGrid fa fw
  let nb := if fp = 3 then 8 else 64
  match liveProducts fa fw fp g as ws with
  | none => .nan
  | some [] => .zero
  | some (p0 :: ps) =>
    let emax := ps.foldl (fun m p => max m p.e) p0.e
    let live := p0 :: ps
    let drops := (live.filter (fun p => p.e - emax + 40 < 0)).length
    let bins := live.foldl (fun (bins : List Int) p =>
      let d := p.e - emax + 40
      if d < 0 then bins
      else
        let (b, v) := contribution fp p d.toNat
        setAt bins b (bins.getD b 0 + v)) (List.replicate nb 0)
    let glo := (g % (2 ^ (9 - fp) : Nat)).toNat
    let sum := (bins.zipIdx).foldl (fun acc t =>
      if t.1 = 0 then acc else acc + truncDiv (t.1 * gratConst (t.2 * (512 / nb) + glo)) (2 ^ 23)) 0
    .real sum emax drops bins

/-! ## Running sums, spills and rescales (R65 to R69, R75) -/

/-- The bits of an accumulator entry; a free value where its chain has closed (assumption log 6). -/
def AccVal.code : AccVal → Nat
  | .bits b => b
  | .free n => (Config.freeWord n).toNat % 2 ^ 32

/-- The running sum of a row and column. -/
def Tile.run (t : Tile) (row col : Nat) : Nat := (NMap.get (fun _ => AccVal.bits 0) t.acc (32 * row + col)).code

/-- A running sum set. -/
def Tile.setRun (t : Tile) (row col v : Nat) : Tile :=
  { t with acc := NMap.set (fun _ => AccVal.bits 0) t.acc (32 * row + col) (.bits v) }

/-- |v| > 2^128 - 2^104 (R67). -/
def sumOverflows (v : Alg) : Bool :=
  let lim := (Alg.dyadic 1 128).sub (Alg.dyadic 1 104)
  (v.sub lim).sign == 1 || (v.add lim).sign == -1

/-- The stochastic rounding of v into FP32 with draw U (R66): a when U ≥ t, its neighbour away from zero when U < t. -/
def stochSum (v : Alg) (u : Nat) : Nat :=
  let neg := v.sign == -1
  let m := if neg then v.neg else v
  let a := (roundF .fp32 .rtz neg (.alg m 1) 0).code
  let d := Fmt.fp32.dyad a
  -- U < t exactly when (|v| - |a|) × 2^24 ≥ (U + 1) × (|b| - |a|), and |b| - |a| is one unit of a's last place
  let x := (m.sub (Alg.dyadic d.m d.e)).scale (2 ^ 24)
  if (x.sub (Alg.dyadic (u + 1) d.e)).sign != -1 then a + 1 else a

/-- The new running sum (R65 to R67): none where the block overflows. `draw` is U under the stochastic rule. -/
def addBlock (run : Nat) (b : BlockRes) (xs : Int) (draw : Option Nat) : Option Nat :=
  if Fmt.fp32.isNaNCode run then some Fmt.fp32.defaultNaN
  else
    match b with
    | .nan => some Fmt.fp32.defaultNaN
    | .zero => some run
    | .real s emax _ _ =>
      if Fmt.fp32.isInfCode run then some run
      else
        let v := (Fmt.fp32.dyad run).alg.add (Alg.dyadic s (emax - 40 + xs))
        if v.sign == 0 then some 0
        else if sumOverflows v then none
        else
          match draw with
          | none => some (roundAlg .fp32 .rne v false).1
          | some u => some (stochSum v u)

/-- A running sum as FP64. -/
def fp32to64 (c : Nat) : Nat := (toF .fp64 .rne (Fmt.fp32.value c 0) 0).code

/-- A code multiplied by 2^-16, truncated toward zero (R75); an infinity and a NaN stay (R67). -/
def rescale16 (f : Fmt) (c : Nat) : Nat :=
  if f.isNaNCode c || f.isInfCode c || f.isZeroCode c then c
  else
    let d := f.dyad c
    (roundF f .rtz d.neg (.alg (Alg.dyadic d.m (d.e - 16)) 1) 0).code

/-- The DA of the spill cell of a chain's n-th row and a column (R70). -/
def Chain.spillCell (c : Chain) (n row col : Nat) : Nat := sramBase n + c.spillBase + 256 * row + 8 * col

/-- The DA of the group-term cell of a group, row and column (R96). -/
def Chain.termCell (c : Chain) (n g row col : Nat) : Nat := sramBase n + c.sgBase + 128 * (g * c.rows + row) + 4 * col

/-- The chain in a slot. -/
def Tile.chain? (t : Tile) (slot : Nat) : Option Chain := NMap.find? t.chains slot

/-- The chain in a slot replaced. -/
def State.setChain (s : State) (n slot : Nat) (c : Chain) : State :=
  s.updTile n (fun t => { t with chains := NMap.insert t.chains slot c })

/-- A function on every entry of a chain: its row, from 0, and its column. -/
def State.forEntries (s : State) (c : Chain) (f : State → Nat → Nat → State) : State :=
  (List.range (32 * c.rows)).foldl (fun s i => f s (i / 32) (i % 32)) s

/-- The entries of a chain's rows left with open values, the model's free values (R73, R226, assumption log 6). -/
def State.freeEntries (s : State) (n : Nat) (c : Chain) : State :=
  let k := s.freeCtr
  let s := s.forEntries c (fun s row col => s.updTile n (fun t =>
    { t with acc := NMap.set (fun _ => AccVal.bits 0) t.acc (32 * (c.rowBase + row) + col) (.free (k + 32 * row + col)) }))
  s.takeFree (32 * c.rows)

/-- A spill of a chain (R69). -/
def State.spill (s : State) (n slot : Nat) (c : Chain) : State :=
  let s := s.forEntries c (fun s row col =>
    let a := c.spillCell n row col
    let run := (s.tile n).run (c.rowBase + row) col
    let v := if c.spilled then (fAdd .fp64 .rne (s.load a 8) (fp32to64 run)).1 else fp32to64 run
    (s.store a 8 v).updTile n (fun t => t.setRun (c.rowBase + row) col 0))
  s.setChain n slot { c with spilled := true }

/-- The rescale of a replay (R75, R97): running sums, and the spill and group-term cells the chain has written; the
group of the MXM that replays is written in its first `rowsDone` rows when it is a new one. -/
def State.rescaleChain (s : State) (n : Nat) (c : Chain) (groupsFull rowsDone : Nat) : State :=
  s.forEntries c (fun s row col =>
    let s := s.updTile n (fun t => t.setRun (c.rowBase + row) col (rescale16 .fp32 (t.run (c.rowBase + row) col)))
    let s := if c.spilled then
        let a := c.spillCell n row col
        s.store a 8 (rescale16 .fp64 (s.load a 8))
      else s
    if c.sg && col < min 32 (c.n - 32 * c.rc) then
      (List.range c.groups).foldl (fun s g =>
        if g < groupsFull || row < rowsDone then
          let a := c.termCell n g row col
          s.store a 4 (rescale16 .fp32 (s.load a 4))
        else s) s
    else s)

/-- A group-term cell updated with a block (R97); `first`: the first block of its group. -/
def termUpdate (old : Nat) (b : BlockRes) (xs : Int) (first : Bool) : Nat :=
  let v : Option Alg := match b with
    | .nan => none
    | .zero => some []
    | .real s emax _ _ => some (Alg.dyadic s (emax - 40 + xs))
  match v with
  | none => Fmt.fp32.defaultNaN
  | some v =>
    if first then (roundAlg .fp32 .rne v false).1
    else if Fmt.fp32.isNaNCode old then Fmt.fp32.defaultNaN
    else if Fmt.fp32.isInfCode old then old
    else (roundAlg .fp32 .rne ((Fmt.fp32.dyad old).alg.add v) false).1

/-! ## The rows of an MXM -/

/-- What the rows of one MXM need: the tile, its buffer, its activation and its place in the chain. -/
structure RowJob where
  n : Nat
  slot : Nat
  buf : WBuf
  da : Desc
  rows : Nat
  blk : Nat
  group : Nat
  firstInGroup : Bool
  tok : Nat
  seq : Nat

/-- The operand format and code of an activation element (R45). -/
def actCode (f : Fmt) (c : Nat) : Fmt × Nat :=
  match f with
  | .i8 => (.l12, (toL .l12 none (Fmt.i8.value c 0) 0).code)
  | .i16 => (.l16, (toL .l16 none (Fmt.i16.value c 0) 0).code)
  | _ => (f, c)

/-- The live columns of a buffer (R46). -/
def WBuf.cols (b : WBuf) : Nat := min 32 (b.n - 32 * b.rc)

/-- The 32 activation codes of a row; positions beyond K are zero and not read (R253). -/
def RowJob.acts (j : RowJob) (s : State) (r : Nat) : List Nat :=
  (List.range 32).map (fun k =>
    if 32 * j.buf.rb + k < j.buf.k then (actCode j.da.fmt (s.elem j.da [32 * j.buf.rb + k, r, 0, 0, 0])).2 else 0)

/-- The word of DBG_GRAT_BIN (R82). -/
def binWord (total emax : Int) : Int := unsigned 48 total + (unsigned 8 emax : Nat) * 2 ^ 48

/-- A column's bins after a block, as DBG_GRAT_BIN shows them; a block without live products shows zeros. DESIGN CHOICE,
unsafe (log 64): so does a NaN block, for which R82 states no total and no e_max. -/
def Tile.setBins (t : Tile) (col : Nat) (b : BlockRes) : Tile :=
  let (bins, emax) := match b with
    | .real _ e _ l => (l, e)
    | _ => ([], 0)
  { t with bins := (List.range 64).foldl (fun m i =>
      NMap.set (fun _ => 0) m (64 * col + i) (if bins = [] then 0 else binWord (bins.getD i 0) emax)) t.bins }

/-- The blocks of a row with their new running sums: none where a column overflows. -/
def RowJob.row (j : RowJob) (s : State) (c : Chain) (r : Nat) : List BlockRes × Option (List Nat) :=
  let as := j.acts s r
  let fa := (actCode j.da.fmt 0).1
  let t := s.tile j.n
  let blocks := (List.range j.buf.cols).map (fun col =>
    gratBlock fa j.buf.fmt (j.buf.scales.getD col 0) as (j.buf.codes.getD col []))
  let xs : Int := -16 * ((c.preset + c.replays : Nat) : Int)
  let news := (blocks.zipIdx).map (fun p =>
    let o := 32 * j.buf.rc + p.2 + j.buf.n * r
    let draw := if c.stoch then some (drawGrat c.seed c.tid c.sid o j.blk) else none
    addBlock (t.run (c.rowBase + r) p.2) p.1 xs draw)
  (blocks, news.foldr (fun x acc => match x, acc with | some v, some l => some (v :: l) | _, _ => none) (some []))

/-- A row's blocks entered into the running sums, the group terms, the bins and the drop counts (R59, R65, R78, R97). -/
def RowJob.commit (j : RowJob) (s : State) (c : Chain) (r : Nat) (blocks : List BlockRes) (news : List Nat) :
    State × Chain :=
  let xs : Int := -16 * ((c.preset + c.replays : Nat) : Int)
  let drops := blocks.foldl (fun a b => match b with | .real _ _ d _ => a + d | _ => a) 0
  let reals := (blocks.filter (fun b => match b with | .real .. => true | _ => false)).length
  let s := s.updTile j.n (fun t =>
    let t := (news.zipIdx).foldl (fun t p => t.setRun (c.rowBase + r) p.2 p.1) t
    let t := (blocks.zipIdx).foldl (fun t p => t.setBins p.2 p.1) t
    t.addFld (Csr.cfgFmtcUnf_count Fmt.fp32.code) drops)
  let s := if c.stoch then s.countEvals j.n reals else s
  let s := if c.sg then
      (blocks.zipIdx).foldl (fun s p =>
        let a := c.termCell j.n j.group r p.2
        if a + 4 ≤ sramBase j.n + sramSize then
          s.store a 4 (termUpdate (s.load a 4) p.1 xs j.firstInGroup)
        else s) s
    else s
  (s, { c with drops := min (2 ^ 32 - 1) (c.drops + drops) })

/-- Rows `r` up of an MXM, `left` of them, with replays (R75, R76): the state, the chain, and whether ACC_OVERFLOW
stopped them. `fuel` bounds rows plus replays. -/
def RowJob.go (j : RowJob) : Nat → State → Chain → Nat → State × Chain × Bool
  | 0, s, c, _ => (s, c, false)
  | fuel + 1, s, c, r =>
    if j.rows ≤ r then (s, c, false)
    else
      match j.row s c r with
      | (blocks, some news) =>
        let (s, c) := j.commit s c r blocks news
        j.go fuel s c (r + 1)
      | (_, none) =>
        if 3 ≤ c.preset + c.replays then (s, { c with faulted := true }, true)
        else
          let s := s.rescaleChain j.n c (if j.firstInGroup then j.group else j.group + 1) r
          let c := { c with replays := c.replays + 1 }
          let s := s.updTile j.n (fun t => t.addFld (Csr.cfgFmtcOvf_count Fmt.fp32.code) 1)
          let s := s.raise (tileEvent j.n 0x0411 sevInfo (s.tokenDetail j.n j.tok) (w64 (j.slot + c.replays * 256)))
          j.go fuel s c r

/-! ## MXW -/

/-- MXW (R251, R252): queued with its descriptor and block indices as they stand at issue (R209). -/
def execMxw (i : Issue) (s : State) : Res :=
  issueT i (fun w => fOp w == 0x80) (fun n seq s =>
    let w := i.word
    let t := s.tile n
    let o : MxwOp := ⟨fA w, seq, t.d (fB w), (t.s (fC w)).toNat, (t.s (fD w)).toNat, fl w 0 1, i.ecc⟩
    s.setTile n { t with mq := t.mq ++ [.mxw o] }) s

/-- The checks of an MXW (R249): formats by R44, layout and place by R251. -/
def MxwOp.check (o : MxwOp) (s : State) (n : Nat) : Option Nat :=
  let d := Desc.ofWords o.dw
  let layout := d.n 2 != 1 || d.n 3 != 1 || d.n 4 != 1 || (d.gs != 0 && (d.redDim != 0 || d.chanDim != 1)) ||
    decide (d.n 0 ≤ 32 * o.rb) || decide (d.n 1 ≤ 32 * o.rc)
  s.checkOpnds n [] [⟨d, .elems⟩] (!d.fmt.isL) layout eMxwShape

/-- The group scales of the block's columns, or the fault of the first column that has one (R47, R94). -/
def MxwOp.groupScales (o : MxwOp) (t : Tile) (d : Desc) : Except Nat (List Int) :=
  (List.range (min 32 (d.n 1 - 32 * o.rc))).mapM (fun c => t.elemScale d [32 * o.rb, 32 * o.rc + c, 0, 0, 0])

/-- The block an MXW loads (R46, R252). -/
def MxwOp.block (o : MxwOp) (s : State) (d : Desc) (scales : List Int) : WBuf :=
  { fmt := d.fmt, sc := d.sc, k := d.n 0, n := d.n 1, rb := o.rb, rc := o.rc, gs := d.gs, scales := scales,
    codes := (List.range (min 32 (d.n 1 - 32 * o.rc))).map (fun c => (List.range 32).map (fun k =>
      if 32 * o.rb + k < d.n 0 then s.elem d [32 * o.rb + k, 32 * o.rc + c, 0, 0, 0] else 0)) }

/-- A weight buffer marked empty. -/
def State.emptyBuf (s : State) (n b : Nat) : State := s.updTile n (fun t => { t with wbuf := NMap.erase t.wbuf b })

/-- An MXW performed: its block and scales captured, or its fault (R47, R94, R251). DESIGN CHOICE, unsafe (log 64):
MEM_UE leaves the buffer empty as a scale fault does, which R47 does not say. -/
def State.loadBlock (s : State) (n : Nat) (o : MxwOp) : State :=
  let d := Desc.ofWords o.dw
  match o.check s n with
  | some c =>
    let s := if c = eMxwShape then s.emptyBuf n o.buf else s
    s.failT n o.seq o.tok c
  | none =>
    let (s, ue) := s.detectT o.ecc
    if ue then (s.emptyBuf n o.buf).failT n o.seq o.tok cMemUe
    else
      match o.groupScales (s.tile n) d with
      | .error c => (s.emptyBuf n o.buf).failT n o.seq o.tok c
      | .ok sc =>
        let b := o.block s d sc
        (s.updTile n (fun t => { t with wbuf := NMap.insert t.wbuf o.buf b })).done n o.seq {} none

/-! ## MXM -/

/-- The rounding rule of the running sums a chain opens with (R51, R66). -/
def MxmOp.stoch (o : MxmOp) : Bool := if o.rnd = 1 then true else if o.rnd = 2 then false else bit o.mode 32

/-- Overlap of two row ranges. -/
def rowsMeet (b1 n1 b2 n2 : Nat) : Bool := b1 < b2 + n2 && b2 < b1 + n1

/-- The chain an opening MXM opens, but for its seed (R51, R96, R254). DESIGN CHOICE, unsafe (log 64): its group-term
cells have room for the groups of its own buffer's K, one without group scales; R96 and R98 do not say how many groups
an opening MXM reserves and checks. -/
def MxmOp.opens (o : MxmOp) (b : WBuf) : Chain :=
  { faulted := false
    stoch := o.stoch
    preset := o.preset, replays := 0, rowBase := o.rowBase, rows := o.rows
    spillS := (if bits o.cw 30 1 = 1 then bits o.mode 33 16 else bits o.cw 14 16) + 1
    spillBase := bits o.cw 0 14 * 256, spilled := false, blocks := 0, drops := 0
    tid := o.dout.tid, sid := o.dout.sid, seed := 0, openSeq := o.seq, outReg := o.outReg, scAcc := o.da.sc + b.sc, n := b.n, rc := b.rc
    sg := o.sg, sgBase := bits o.cw 31 14 * 256
    sgGroups := if b.gs = 0 then 1 else (b.k + gsSize b.gs - 1) / gsSize b.gs
    closing := false, groups := 0, grpKey := none }

/-- Whether the record at an offset of the tile's SRAM lies in it. -/
def osrInside (off : Nat) : Bool := off + 64 ≤ sramSize

/-- Whether the output converter will draw for a closing MXM: its record, as read, selects the stochastic selector for
an L-format or integer destination, off the integer path (R30, R89, R338). -/
def MxmOp.convDraws (o : MxmOp) (record : List Byte) : Bool :=
  let w := leAt record 0 4
  o.close && osrInside o.osr && !o.dout.fmt.isF && field w 10 1 == 0 && field w 0 2 == 1

/-- The checks of an MXM in the order of R249. -/
def MxmOp.check (o : MxmOp) (s : State) (n : Nat) : Option Nat :=
  let t := s.tile n
  let da := o.da
  let dd := o.dout
  let b? := NMap.find? t.wbuf o.buf
  let c? := t.chain? o.slot
  let actOk := (da.fmt.isL && !da.fmt.narrow) || da.fmt.isI
  let shape := match b? with
    | none => true
    | some b =>
      da.n 0 != b.k || decide (512 < da.n 1) || da.n 2 != 1 || da.n 3 != 1 || da.n 4 != 1 ||
      decide (512 < o.rowBase + da.n 1) || dd.n 0 != b.n || dd.n 1 != da.n 1 || dd.n 2 != 1 || dd.n 3 != 1 ||
      dd.n 4 != 1 || (match c? with | some c => o.add && c.rc != b.rc | none => false)
  let chain := match b? with
    | none => false
    | some b =>
      if o.add then
        match c? with
        | none => true
        | some c => c.faulted || c.rowBase != o.rowBase || c.rows != o.rows || c.scAcc != da.sc + b.sc
      else t.chains.any (fun e => e.1 != o.slot && rowsMeet e.2.rowBase e.2.rows o.rowBase o.rows)
  let first := s.checkOpnds n [⟨dd, .elems⟩] [⟨da, .elems⟩] (!actOk || da.gs != 0) shape eMxmShape chain
    (except := some o.slot)
  match first with
  | some c => some c
  | none =>
    let cellsBad := match b? with
      | none => false
      | some b => !o.add && (o.opens b).cells.any (fun r => decide (sramSize < r.2) ||
          s.touchesCells n ((sramBase n + r.1 : Nat), ((sramBase n + r.2 : Nat) : Int)) (some o.slot))
    let stoch := b?.isSome && !o.add && o.stoch
    firstFault [
      (cellsBad, cAccSpill),
      ((stoch || o.convDraws (s.osrBytes n o)) && (s.seedOf n o.rng dd.tid dd.sid).isNone, eRngUnreg)]

/-- A chain is discarded, its cells zeroed (R50, R71). -/
def State.dropChain (s : State) (n slot : Nat) : State := s.releaseChain n slot

/-- The detail1 of an engine fault: the pair of stream ids for RNG_UNREG (spec/11_random_streams.md R342). -/
def pairDetail (code tid sid : Nat) : W64 := if code = eRngUnreg then w64 (tid + sid * 2 ^ 32) else 0

/-- The groups begun and the K group of the latest block, with a block of buffer `b` (R91, R97). -/
def Chain.enterGroup (c : Chain) (b : WBuf) : Chain × Bool :=
  let key := if b.gs = 0 then 0 else 32 * b.rb / gsSize b.gs
  if c.grpKey = some key then (c, false) else ({ c with groups := c.groups + 1, grpKey := some key }, true)

/-- An MXM performed (R50 to R78). A closing one reads its output-stage record here, once (R84). A closing MXM whose
output converter finds no stream loses its chain (R339, R85); DESIGN CHOICE, unsafe (log 64): one with OVERWRITE,
which has opened none, loses the chain that is open in its slot. -/
def State.runMxm (s : State) (n : Nat) (o : MxmOp) : State :=
  let record := s.osrBytes n o
  match o.check s n with
  | some c =>
    let s := if c = eRngUnreg && o.close then s.dropChain n o.slot else s
    s.failT n o.seq o.tok c (pairDetail c o.dout.tid o.dout.sid)
  | none =>
    match NMap.find? (s.tile n).wbuf o.buf with
    | none => s.failT n o.seq o.tok eMxmShape
    | some b =>
      let seed := s.seedOf n o.rng o.dout.tid o.dout.sid
      let (s, ue) := s.detectT o.ecc
      -- opening: an open chain of the slot is discarded, the running sums of the range start at +0
      let s := if o.add then s else
        let s := s.dropChain n o.slot
        let c := { o.opens b with seed := seed.getD 0 }
        let s := s.updTile n (fun t => { t with ovfSlots := t.ovfSlots.filter (· != o.slot) })
        (s.setChain n o.slot c).forEntries c (fun s row col => s.updTile n (fun t => t.setRun (c.rowBase + row) col 0))
      -- data lost part-way: which entries were updated is open (R226)
      if ue then ((s.tile n).chain? o.slot |>.elim s (s.freeEntries n)).failT n o.seq o.tok cMemUe
      else
        match (s.tile n).chain? o.slot with
        | none => s.failT n o.seq o.tok eAccChain
        | some c =>
          let (c, fresh) := c.enterGroup b
          let j : RowJob := ⟨n, o.slot, b, o.da, o.rows, c.blocks % 2 ^ 24, c.groups - 1, fresh, o.tok, o.seq⟩
          let (s, c, bust) := j.go (o.rows + 4) s c 0
          if bust then
            ((s.setChain n o.slot c).updTile n (fun t => { t with
              ovfSlots := o.slot :: t.ovfSlots.filter (· != o.slot) })).failT n o.seq o.tok eAccOverflow
          else
            let c := { c with blocks := c.blocks + 1, outReg := o.outReg }
            let s := s.setChain n o.slot c
            let s := if c.blocks % c.spillS = 0 then s.spill n o.slot c else s
            if o.close then
              let v : ConvOp := ⟨o.slot, o, record, if o.convDraws record then seed else none,
                if o.da.fmt.isI then o.da.zp else 0⟩
              s.updTile n (fun t => { t with
                convs := t.convs ++ [v],
                chains := NMap.insert t.chains o.slot { (t.chain? o.slot).getD c with closing := true } })
            else s.done n o.seq {} none

/-- A move that runs in its engine has a hull over the cells an opening MXM takes (R71, R98). -/
def Tile.movesMeet (t : Tile) (n : Nat) (c : Chain) : Bool :=
  let cells := c.cells.map (fun r => (((sramBase n + r.1 : Nat) : Int), ((sramBase n + r.2 : Nat) : Int)))
  t.inflight.any (fun f => !f.done && !t.tq.any (fun x => x.seq == f.seq) &&
    f.hulls.any (fun h => cells.any (hullsMeet h)))

/-- A closed chain whose cells are not released yet holds cells an opening MXM takes (R71: their release overlaps the
conversion). -/
def Tile.closedMeets (t : Tile) (c : Chain) : Bool :=
  t.convs.any (fun v => (t.chain? v.slot).any (fun e =>
    e.cells.any (fun r => c.cells.any (fun x => decide (r.1 < x.2) && decide (x.1 < r.2)))))

/-- An MXM waits while a conversion of its slot, or of rows it would open on, has not run; an opening one, for a
running move over its cells (R71, R98) and for the release of closed chains' cells among them; one that draws, for the
registry commands that arrived before it issued (R340). -/
def State.mxmWaits (s : State) (n : Nat) (o : MxmOp) : Bool :=
  let t := s.tile n
  t.convs.any (fun v => v.slot == o.slot || rowsMeet v.op.rowBase v.op.rows o.rowBase o.rows) ||
  (match NMap.find? t.wbuf o.buf with
    | some b => !o.add && (t.movesMeet n (o.opens b) || t.closedMeets (o.opens b))
    | none => false) ||
  (((!o.add && o.stoch) || o.convDraws (s.osrBytes n o)) && s.rngWaits (partOf n) o.rngAt)

/-- The matrix engine runs the MXMs at the head of its queue, in issue order (R42). -/
def State.drainMatrix (s : State) (n : Nat) : Nat → State
  | 0 => s
  | fuel + 1 =>
    match (s.tile n).mq with
    | .mxm o :: q =>
      if s.mxmWaits n o then s
      else
        let s := s.updTile n (fun t => { t with mq := q })
        State.drainMatrix (s.runMxm n o) n fuel
    | _ => s

/-- An MXM queued with what it reads at issue (R209, R227); a closing one leaves its output register pending (R210). -/
def issueMxm (add : Bool) (i : Issue) (s : State) : Res :=
  issueT i (fun w => fOp w == 0x81 && (fl w 4 1 == 1) == add) (fun n seq s =>
    let w := i.word
    let t := s.tile n
    let o : MxmOp := ⟨fA w, seq, t.d (fB w), t.d (fC w), fC w, t.s (fD w), fL w, t.mode, t.priv, i.ecc,
      s.rngArrived (partOf n), none⟩
    let s := s.setTile n { t with mq := t.mq ++ [.mxm o] }
    let s := if o.close then s.updFlight n seq (fun x => { x with pend := some (fC w) }) else s
    s.drainMatrix n 8) s

/-- MXM with acc = OVERWRITE (R50). -/
def execMxmOpen (i : Issue) (s : State) : Res := issueMxm false i s

/-- MXM with acc = ADD (R50). -/
def execMxmAdd (i : Issue) (s : State) : Res := issueMxm true i s

/-- The first MXW of the queue, where no MXM before it names its buffer (R42, R252). -/
def firstMxw : List MOp → List Nat → Option MxwOp
  | [], _ => none
  | .mxw o :: _, bufs => if bufs.contains o.buf then none else some o
  | .mxm o :: q, bufs => firstMxw q (o.buf :: bufs)

/-- Whether an MXW's group scales wait for an earlier load of the scale register file (R93, R268). -/
def MxwOp.srfWaits (o : MxwOp) (t : Tile) : Bool := (Desc.ofWords o.dw).gs != 0 && t.srfPending o.seq

/-- Engines start queued instructions: the tile is not in DEBUG, where queued instructions stay queued (R239). -/
def Tile.enginesRun (t : Tile) : Bool := t.state != tsDebug

/-- MXW_LOAD_START (R252): the weight loader takes the next MXW, and MXMs that waited for it run. -/
def execMxwLoadStart (tile : Nat) (s : State) : Res :=
  let t := s.tile tile
  match firstMxw t.mq [] with
  | none => .next s
  | some o =>
    if !t.enginesRun || o.srfWaits t then .next s
    else
      let s := s.setTile tile { t with mq := t.mq.filter (fun m => m != .mxw o) }
      .next ((s.loadBlock tile o).drainMatrix tile 8)

end Sys2Proof.Machine
end

