-- ==== Sys2Proof/Machine/Contour.lean ====
section
/-! DEFINITION. The Contour unit: slots, records, precision adaptation, the drift test, and the completion of T-class
instructions (spec/03_output_conversion.md R103 to R110; spec/08_nolpa_tensor_reference.md R271, R272;
spec/07_nolpa_programming.md R225; spec/04_vector_and_functions.md R117). -/
namespace Sys2Proof.Machine

/-! ## Slots -/

/-- The 69 counts of a slot in the order of a record's words 0x000 to 0x113 (Table 3.2). -/
def Tile.slotCounts (t : Tile) (slot : Nat) : List Nat :=
  (List.range 64).map (fun b => t.fld (ctrBinFld slot b)) ++
  [t.fld (Csr.cfgCtrZn_zero slot), t.fld (Csr.cfgCtrZn_nar slot), t.fld (Csr.cfgCtrSf_sat slot),
   t.fld (Csr.cfgCtrSf_flush slot), t.fld (Csr.cfgCtrElem_elements slot)]

/-- Every count of a slot and sat_any cleared: what HIST READ clears (spec/08_nolpa_tensor_reference.md R271, R104). -/
def Tile.clearCounts (t : Tile) (slot : Nat) : Tile :=
  let offs := (List.range 32).map (fun j => Csr.cfgCtrBin slot j) ++
    [Csr.cfgCtrZn slot, Csr.cfgCtrSf slot, Csr.cfgCtrElem slot]
  (offs.foldl (fun t o => t.setWord o 0) t).setFld (Csr.cfgCtrSts_sat_any slot) 0

/-- The slot cleared whole, drift with it (R104, R105). -/
def Tile.clearSlot (t : Tile) (slot : Nat) : Tile := (t.clearCounts slot).setWord (Csr.cfgCtrSts slot) 0

/-- A write of CFG_CTR_CLR. -/
def Tile.writeCtrClr (t : Tile) (slot : Nat) (v : W64) : Tile := if bit v 0 then t.clearSlot slot else t

/-- CFG_CTR_CLR (R104). -/
def execCfgCtrClr (tile slot : Nat) (value : W64) (s : State) : Res :=
  .next (if tile < 2048 && slot < 16 then s.updTile tile (fun t => t.writeCtrClr slot value) else s)

/-- A write of CFG_FMTC_CLR (R110): bits of reserved codes are ignored. -/
def Tile.writeFmtcClr (t : Tile) (v : W64) : Tile :=
  ((List.range 16).filter (fun f => bit v f && (Fmt.ofCode f).isSome)).foldl
    (fun t f => (t.setWord (Csr.cfgFmtcOvf f) 0).setWord (Csr.cfgFmtcUnf f) 0) t

/-- CFG_FMTC_CLR (R110). -/
def execCfgFmtcClr (tile : Nat) (value : W64) (s : State) : Res :=
  .next (if tile < 2048 then s.updTile tile (fun t => t.writeFmtcClr value) else s)

/-- The test of a slot at the completion of an instruction that counted into it (R105). -/
def State.driftTest (s : State) (n slot : Nat) : State :=
  let t := s.tile n
  let el := t.fld (Csr.cfgCtrElem_elements slot)
  let sat := t.fld (Csr.cfgCtrSf_sat slot)
  if t.fld (Csr.cfgCtrCtl_drift_en slot) = 1 && 2 ^ t.fld (Csr.cfgCtrCtl_drift_min slot) ≤ el &&
      t.fld (Csr.cfgCtrCtl_drift_thr slot) * el < sat * 2 ^ 16 && t.fld (Csr.cfgCtrSts_drift slot) = 0 then
    (s.setTile n (t.setFld (Csr.cfgCtrSts_drift slot) 1)).raise
      (tileEvent n 0x0420 sevInfo (w64 slot) (w64 (sat + el * 2 ^ 32)))
  else s

/-! ## HIST -/

/-- Word `i` of a Contour record. -/
def State.recWord (s : State) (da i : Nat) : Nat := s.load (da + 4 * i) 4

/-- Fields of the policy word (Table 3.2). -/
structure Policy where
  enable : Bool
  l8 : Bool
  l8w : Bool
  l12 : Bool
  prefer : Bool
  h : Nat
  tail : Nat
  hyst : Nat

/-- The policy of a word. -/
def Policy.ofWord (w : Nat) : Policy :=
  ⟨field w 0 1 == 1, field w 1 1 == 1, field w 2 1 == 1, field w 3 1 == 1, field w 4 1 == 1, field w 5 3, field w 8 5,
   field w 13 2⟩

/-- The bins and counts of a record that the policy uses: the smallest e with at most t elements above it, and the
largest with at most t below it (R107). -/
def adaptRange (bins : List Nat) (t : Nat) : Int × Int :=
  let above := fun (b : Nat) => (bins.drop (b + 1)).foldl (· + ·) 0
  let below := fun (b : Nat) => (bins.take b).foldl (· + ·) 0
  let hi := ((List.range 64).find? (fun b => above b ≤ t)).getD 63
  let lo := ((List.range 64).reverse.find? (fun b => below b ≤ t)).getD 0
  ((hi : Int) - 32, (min lo hi : Nat) - 32)

/-- The format and the scale-log change that the policy chooses (R107). -/
def adaptChoice (p : Policy) (cur : Fmt) (r : Int × Int) : Fmt × Int :=
  let need := r.1 - r.2 + 1 + p.h
  let l8ok := p.l8 && need ≤ 15 && (cur == .l8 || need ≤ 15 - (p.hyst : Int))
  let f := if l8ok then Fmt.l8 else if p.l12 && (p.prefer || !p.l8w) then .l12 else if p.l8w then .l8w else .l8
  (f, 512 * (r.1 + 1 + p.h - (if f == .l8 then 8 else 16)))

/-- The scale-log range of R18. -/
def scInRange (x : Int) : Bool := -524288 ≤ x && x ≤ 524287

/-- A descriptor's second word with another scale log. -/
def withSc (w : W64) (sc : Int) : W64 := w64 (putField w.toNat 0 20 (unsigned 20 sc))

/-- A descriptor's first word with another format. -/
def withFmt (w : W64) (f : Nat) : W64 := w64 (putField w.toNat 60 4 f)

/-- ADAPT on a record at `a` and a d register (R107, R108): the state, the fault, if any, and whether it wrote the
register (R210). -/
def State.adapt (s : State) (n a reg : Nat) : State × Option Nat × Bool :=
  let d := Desc.ofWords ((s.tile n).d reg)
  let pw := s.recWord a 0x45
  let p := Policy.ofWord pw
  let okFmt := d.fmtc == 2 || d.fmtc == 3 || d.fmtc == 4
  if field pw 15 17 ≠ 0 || !(p.l8 || p.l8w || p.l12) || !okFmt then (s, some eContourPolicy, false)
  else
    let N : Int := (s.recWord a 0x44 : Int) - s.recWord a 0x40 - s.recWord a 0x41
    let put := fun (s : State) (f : Nat) (applied : Bool) (delta : Int) =>
      (s.store (a + 0x118) 4 (f + b2n applied * 16)).store (a + 0x11C) 4 (unsigned 32 delta)
    if N = 0 then (s.store (a + 0x118) 4 0x20, none, false)
    else if N < 0 then
      -- counts that contradict each other: the spec states no choice, and the values are free (assumption log 5)
      let k := s.freeCtr
      let s := (s.takeFree 4).store (a + 0x118) 4 ((Config.freeWord k).toNat)
      let s := s.store (a + 0x11C) 4 ((Config.freeWord (k + 1)).toNat)
      if p.enable then
        (s.updTile n (fun t => (t.setDw reg 0 (withFmt (t.dw reg 0) ((Config.freeWord (k + 2)).toNat))).setDw reg 1
          (withSc (t.dw reg 1) ((Config.freeWord (k + 3)).toNat))), none, true)
      else (s, none, false)
    else
      let bins := (List.range 64).map (s.recWord a)
      let (f, delta) := adaptChoice p d.fmt (adaptRange bins (N.toNat / 2 ^ p.tail))
      if !p.enable then (put s f.code false delta, none, false)
      else if scInRange (d.sc + delta) then
        ((put s f.code true delta).updTile n (fun t =>
          (t.setDw reg 0 (withFmt (t.dw reg 0) f.code)).setDw reg 1 (withSc (t.dw reg 1) (d.sc + delta))), none, true)
      else (put s f.code false delta, some eScaleRange, false)

/-- The checks of a HIST on its record and on the descriptor an ADAPT names (R71, R106, R208, R246, R247, R249). -/
def ContourOp.check (o : ContourOp) (s : State) (n : Nat) : Option Nat :=
  let a := o.da.toNat
  let d : Opnd := ⟨Desc.ofWords ((s.tile n).d o.reg), .elems⟩
  firstFault [
    (o.form == 2 && d.descBad, eDescField),
    (o.form == 2 && (Fmt.ofCode d.d.fmtc).isNone, eFmtUse),
    (!decide (a < 2 ^ 48) || !memRange a 288 || (o.form == 2 && !s.localDev d.d.dev), cAddrUnmapped),
    (a % 32 != 0, cAddrAlign),
    (s.inCells a 288, eAccSpill),
    (!(s.granted (.loc (partOf n) o.priv) (if o.form = 0 then .write else .atomic) a), cProtDenied)]

/-- A HIST performed (R271, R272). -/
def State.runHist (s : State) (n : Nat) (o : ContourOp) : State :=
  let a := o.da.toNat
  match o.check s n with
  | some c =>
    let s := if c = cProtDenied then s.deny (.loc (partOf n) o.priv) a else s
    (s.failT n o.seq o.tok c (if c = cProtDenied then o.da else 0))
  | none =>
    let (s, ue) := if o.form = 0 then (s, false) else s.detectT o.ecc
    if ue then s.failT n o.seq o.tok cMemUe
    else
      let counts := (s.tile n).slotCounts o.slot
      match o.form with
      | 0 =>
        let s := (counts.zipIdx).foldl (fun s c => s.store (a + 4 * c.2) 4 c.1) s
        let s := if o.clr then s.updTile n (fun t => t.clearCounts o.slot) else s
        s.done n o.seq {} none
      | 1 =>
        let s := (counts.zipIdx).foldl (fun s c =>
          s.store (a + 4 * c.2) 4 (min (2 ^ 32 - 1) (s.recWord a c.2 + c.1))) s
        s.done n o.seq {} none
      | _ =>
        let (s, f, wrote) := s.adapt n a o.reg
        match f with
        | some c => s.failT n o.seq o.tok c
        | none => (s.done n o.seq {} none).updFlight n o.seq (fun x => if wrote then { x with pend := none } else x)

/-- A HIST as its word and registers give it (R271). -/
def ContourOp.of (o : TOp) (t : Tile) : ContourOp :=
  let w := o.issue.word
  ⟨fA w, o.seq, fl w 4 2, fl w 0 4, fl w 6 1 == 1, fB w, (o.core t).s (fC w), o.priv, o.issue.ecc⟩

/-- A HIST in the Contour unit. -/
def State.startHist (s : State) (n : Nat) (o : TOp) : State := s.runHist n (ContourOp.of o (s.tile n))

/-- Issue of a HIST in one form; the register that an ADAPT names is pending from its issue (R210). -/
def issueHist (form : Nat) (i : Issue) (s : State) : Res :=
  issueE i (fun w => fOp w == 0xA4 && fl w 4 2 == form)
    (fun s n o => if form = 2 then s.updFlight n o.seq (fun x => { x with pend := some (fB i.word) }) else s)
    State.startHist s

/-- HIST READ (R271). -/
def execHistRead (i : Issue) (s : State) : Res := issueHist 0 i s

/-- HIST MERGE (R271). -/
def execHistMerge (i : Issue) (s : State) : Res := issueHist 1 i s

/-- HIST ADAPT (R107 to R109). -/
def execHistAdapt (i : Issue) (s : State) : Res := issueHist 2 i s

/-! ## Completion (R225) -/

/-- The engines as T_COMPLETION numbers them. -/
def engineOf : Nat → Option Engine
  | 0 => some .matrix | 1 => some .vector | 2 => some .function | 3 => some .move | 4 => some .collective
  | 5 => some .bearing | 6 => some .contour
  | _ => none

/-- Flags in CFG_VE_FLAGS order (spec/04_vector_and_functions.md R116). -/
def Flags.bits (f : Flags) : Nat := b2n f.nv + b2n f.dz * 2 + b2n f.of * 4 + b2n f.uf * 8 + b2n f.nx * 16

/-- The status word of a completed instruction (Table 7.10). -/
def InFlight.statusWord (f : InFlight) : W64 :=
  w64 (b2n (f.fault != 0) * 2 + f.status * 2 ^ 8 + f.fault * 2 ^ 16 + f.replays * 2 ^ 32)

/-- The oldest performed instruction of an engine. -/
def Tile.oldestDone (t : Tile) (e : Engine) : Option InFlight := t.inflight.find? (fun f => f.eng == e && f.done)

/-- A tracked transfer of a partition released (spec/06_memory_and_ordering.md R196). -/
def State.ttRelease (s : State) (p : Nat) : State := s.setFld (Csr.memTt_in_use p) (s.ttInUse p - 1)

/-- A tracked transfer of a partition taken. -/
def State.ttAcquire (s : State) (p : Nat) : State :=
  let s := s.addFld (Csr.memTt_in_use p) 1
  s.setFld (Csr.memTt_high_water p) (max (s.fld (Csr.memTt_high_water p)) (s.ttInUse p))

/-- An instruction completes: flags (R117), its fault record (R199), its token status (R225), the drift test (R105). -/
def State.completeT (s : State) (n : Nat) (f : InFlight) : State :=
  let s := s.updTile n (fun t =>
    let t := { t with inflight := t.inflight.filter (fun x => x.seq != f.seq) }
    t.setWord Csr.cfgVeFlags (t.word Csr.cfgVeFlags ||| w64 f.flags.bits))
  let s := s.raiseEach f.evs
  let s := s.updTile n (fun t => t.setK f.tok f.statusWord)
  let s := match f.xfer with
    | some _ => s.ttRelease (partOf n)
    | none => s
  match f.ctr with
  | some slot => s.driftTest n slot
  | none => s

end Sys2Proof.Machine
end

