-- ==== Sys2Proof/Machine/Route.lean ====
section
/-! DEFINITION. Positions, the Gazetteer and routing (spec/10_links_and_collectives.md R291, R303 to R310). -/
namespace Sys2Proof.Machine

/-! ## Positions (R303, R304) -/

/-- Extents of the logical torus: X, Y, Z. -/
def State.extent (s : State) (axis : Nat) : Nat :=
  match axis with
  | 0 => s.fld Csr.lnkCtl_lx_m1 + 1
  | 1 => s.fld Csr.lnkCtl_ly_m1 + 1
  | _ => s.fld Csr.lnkCtl_lz_m1 + 1

/-- The length of a ring on an axis: with spares, X rings hold one position more. -/
def State.ringLen (s : State) (axis : Nat) : Nat :=
  s.extent axis + if axis = 0 then s.fld Csr.lnkCtl_spares else 0

/-- A coordinate of a physical position. -/
def posCoord (p axis : Nat) : Nat :=
  match axis with
  | 0 => p % 17
  | 1 => p / 17 % 16
  | _ => p / 272

/-- The physical position of coordinates. -/
def posAt (x y z : Nat) : Nat := x + 17 * y + 272 * z

/-- A position with one coordinate replaced. -/
def withCoord (p axis v : Nat) : Nat :=
  match axis with
  | 0 => posAt v (posCoord p 1) (posCoord p 2)
  | 1 => posAt (posCoord p 0) v (posCoord p 2)
  | _ => posAt (posCoord p 0) (posCoord p 1) v

/-- The physical positions of an atlas. -/
abbrev positions : Nat := 4352

/-! ## Entries (Table 10.6) -/

abbrev gazAbsent : Nat := 0
abbrev gazLive : Nat := 1
abbrev gazSpare : Nat := 2
abbrev gazIsolated : Nat := 3

/-- The state of a position's entry. -/
def State.gazState (s : State) (p : Nat) : Nat := s.fld (Csr.lnkGazLo_state p)

/-- A position that holds an entry of a device: LIVE or SPARE (R307). -/
def State.passable (s : State) (p : Nat) : Bool := s.gazState p == gazLive || s.gazState p == gazSpare

/-- Whether a position's port `n` is shown UP. -/
def State.portUp (s : State) (p n : Nat) : Bool := bit (w64 (s.fld (Csr.lnkGazLo_links p))) n

/-- The positions whose entry holds anything, ascending: an unlisted entry word is zero, its state ABSENT. -/
def State.entries (s : State) : List Nat :=
  (s.csr.filter (fun e => Csr.lnkGazLo 0 ≤ e.1 && e.1 < Csr.lnkGazLo positions && e.1 % 16 == 0)).map
    (fun e => (e.1 - Csr.lnkGazLo 0) / 16)

/-- The LIVE position that holds a logical number (R309). -/
def State.posOfLogical (s : State) (d : Nat) : Option Nat :=
  s.entries.find? (fun p => s.flag (Csr.lnkGazLo_log_valid p) && s.gazState p == gazLive &&
    s.fld (Csr.lnkGazLo_logical p) == d)

/-- This device's position. -/
def State.here (s : State) : Nat := s.fld Csr.lnkSts_phys

/-! ## Routing (R307, R309, R310) -/

/-- The position one hop away on an axis, upward or downward. -/
def State.neighbour (s : State) (p axis : Nat) (up : Bool) : Nat :=
  let r := s.ringLen axis
  withCoord p axis ((posCoord p axis + (if up then 1 else r - 1)) % r)

/-- The hop between two adjacent positions is usable on a plane (R307). -/
def State.usable (s : State) (p axis : Nat) (up : Bool) (plane : Nat) : Bool :=
  let port := fun (u : Bool) => 6 * plane + 2 * axis + (if u then 0 else 1)
  s.portUp p (port up) && s.portUp (s.neighbour p axis up) (port (!up))

/-- A hop between ring positions r - 1 and 0. -/
def State.wrapHop (s : State) (p axis : Nat) (up : Bool) : Bool :=
  if up then posCoord p axis + 1 == s.ringLen axis else posCoord p axis == 0

/-- Every position of the ring through `p` on an axis is passable (R310: other rings are routed as lines). -/
def State.wholeRing (s : State) (p axis : Nat) : Bool :=
  (List.range (s.ringLen axis)).all (fun v => s.passable (withCoord p axis v))

/-- `blocked` of R309: some hop toward coordinate `t` has no usable plane, or some position strictly between is not
passable; a wrap hop of a ring with a position that is not passable is never used (R310). -/
def State.blocked (s : State) (axis : Nat) (up : Bool) (t : Nat) : Nat → Nat → Bool
  | 0, _ => true
  | fuel + 1, p =>
    let q := s.neighbour p axis up
    let hop := (List.range 4).any (s.usable p axis up) && (!s.wrapHop p axis up || s.wholeRing p axis)
    !hop || (posCoord q axis != t && (!s.passable q || s.blocked axis up t fuel q))

/-- Where a packet goes next. -/
inductive Hop where
  | here
  | noRoute
  | go (axis : Nat) (up : Bool) (plane : Nat)
  deriving DecidableEq, Repr

/-- The hop on one axis (R309). -/
def State.axisHop (s : State) (p pl axis t : Nat) : Hop :=
  let r := s.ringLen axis
  let dist := (t + r - posCoord p axis) % r
  let up := decide (dist ≤ r - dist)
  let dir := if s.blocked axis up t r p then !up else up
  if s.blocked axis dir t r p then .noRoute
  else
    match ((List.range 4).map (fun i => (pl + i) % 4)).find? (s.usable p axis dir) with
    | some q => .go axis dir q
    | none => .noRoute

/-- next_hop of R309, toward a position. -/
def State.hopTo (s : State) (p pl t : Nat) : Hop :=
  match [0, 1, 2].find? (fun a => posCoord p a != posCoord t a) with
  | none => .here
  | some a => s.axisHop p pl a (posCoord t a)

/-- next_hop of R309 toward a logical number. -/
def State.nextHop (s : State) (p pl dst : Nat) : Hop :=
  match s.posOfLogical dst with
  | none => .noRoute
  | some t => s.hopTo p pl t

/-- The routing finds a path between positions. -/
def State.pathTo (s : State) (t : Nat) : Nat → Nat → Nat → Bool
  | 0, _, _ => false
  | fuel + 1, p, pl =>
    match s.hopTo p pl t with
    | .here => true
    | .noRoute => false
    | .go a up q => State.pathTo s t fuel (s.neighbour p a up) q

/-- Device `d` is reachable from here (R307). -/
def State.reachable (s : State) (d : Nat) : Bool :=
  match s.posOfLogical d with
  | none => false
  | some t => s.pathTo t 64 s.here 0 && s.pathTo s.here 64 t 0

/-- Whether a transfer to a remote device finds a route (R164, R309). -/
def State.routed (s : State) (d : Nat) : Bool :=
  s.flag Csr.lnkSts_ready &&
    match s.posOfLogical d with
    | none => false
    | some t => s.pathTo t 64 s.here 0

end Sys2Proof.Machine
end

