-- ==== Sys2Proof/Machine/Stezer.lean ====
section
/-! DEFINITION. Stezer packets and ports: CRC, sequence numbers, credits, the replay buffer, and the cutting of segments
into packets (spec/10_links_and_collectives.md R291 to R299, R310, R311). -/
namespace Sys2Proof
open Machine

/-! ## Packets (R294, Table 10.2) -/

/-- One byte into CRC-32C (reflected, polynomial 0x1EDC6F41). -/
def crcByte : Nat → BitVec 32 → BitVec 32
  | 0, c => c
  | n + 1, c => crcByte n (if c.getLsbD 0 then (c >>> 1) ^^^ 0x82F63B78 else c >>> 1)

/-- CRC-32C of bytes (R294). -/
def crc32c (bs : List Byte) : BitVec 32 :=
  ~~~ (bs.foldl (fun c b => crcByte 8 (c ^^^ b.setWidth 32)) 0xFFFFFFFF)

/-- A header field. -/
def Packet.fld (p : Packet) (lo w : Nat) : Nat := field p.hdr.toNat lo w

/-- The packet with a header field set. -/
def Packet.setFld (p : Packet) (lo w v : Nat) : Packet :=
  { p with hdr := BitVec.ofNat 96 (putField p.hdr.toNat lo w v) }

abbrev Packet.type (p : Packet) : Nat := p.fld 0 4
abbrev Packet.vc (p : Packet) : Nat := p.fld 4 3
abbrev Packet.seqNo (p : Packet) : Nat := p.fld 16 12
abbrev Packet.ackNo (p : Packet) : Nat := p.fld 28 12
abbrev Packet.nak (p : Packet) : Bool := p.fld 40 1 == 1
abbrev Packet.crVc (p : Packet) : Nat := p.fld 41 3
abbrev Packet.crN (p : Packet) : Nat := p.fld 44 8
abbrev Packet.dst (p : Packet) : Nat := p.fld 52 12
abbrev Packet.src (p : Packet) : Nat := p.fld 64 12
abbrev Packet.idx (p : Packet) : Nat := p.fld 76 6
abbrev Packet.xid (p : Packet) : Nat := p.fld 82 14

/-- Packet types. -/
abbrev ptData : Nat := 0
abbrev ptLinkctl : Nat := 1
abbrev ptHeartbeat : Nat := 2
abbrev ptGaz : Nat := 3

/-- The bytes that the CRC covers: header and payload, the payload filled with zeros to 256 B. -/
def Packet.covered (p : Packet) : List Byte := toBytes 12 p.hdr.toNat ++ sliceBytes p.payload 0 256

/-- Whether a packet's CRC is good. -/
def Packet.good (p : Packet) : Bool := crc32c p.covered == p.crc

/-- The packet with its CRC. -/
def Packet.seal (p : Packet) : Packet := { p with crc := crc32c p.covered }

/-- The payload of a HEARTBEAT (R300). DESIGN CHOICE, unsafe (log 68): the fields lie in the order of R300 without
gaps, the times of 64 bits each. -/
def Heartbeat.bytes (h : Heartbeat) : List Byte :=
  toBytes 8 h.count.toNat ++ toBytes 8 h.identity.toNat ++ toBytes 2 h.phys ++ toBytes 2 h.logical ++ toBytes 1 h.port ++
  toBytes 4 h.version ++ toBytes 8 h.tx.toNat ++ toBytes 8 h.echo.toNat ++ toBytes 8 h.hold.toNat

/-- What a HEARTBEAT packet carries, `rx` the receiver's clock as it arrives. -/
def Packet.heartbeat (p : Packet) (rx : W64) : Heartbeat :=
  let f := fun (o n : Nat) => leAt p.payload o n
  ⟨w64 (f 0 8), w64 (f 8 8), f 16 2, f 18 2, f 20 1, f 21 4, w64 (f 25 8), w64 (f 33 8), w64 (f 41 8), rx⟩

/-- The payload of a segment: the transaction header, then the data. `ext` are bytes 0x12 to the end of the header. -/
def Segment.body (g : Segment) (ext : List Byte) : List Byte :=
  let body := g.data
  let n := (0x12 + ext.length + body.length + 255) / 256
  toBytes 1 g.op ++ toBytes 1 (n - 1) ++ toBytes 2 g.sendTick ++ toBytes 4 g.bytes ++ toBytes 8 g.da ++
  toBytes 1 g.status ++ toBytes 1 (g.part % 32 + b2n g.priv * 32) ++ ext ++ body

end Sys2Proof

namespace Sys2Proof.Machine

/-- A packet before it is sequenced: `dst` and `src` are logical numbers. -/
def mkPacket (type vc dst src idx xid : Nat) (payload : List Byte) : Packet :=
  ⟨BitVec.ofNat 96 (type + vc * 2 ^ 4 + (payload.length - 1) % 256 * 2 ^ 8 + dst % 4096 * 2 ^ 52 + src % 4096 * 2 ^ 64 +
    idx % 64 * 2 ^ 76 + xid % 2 ^ 14 * 2 ^ 82), payload, 0⟩

/-! ## Ports (R295, R296, Table 10.4) -/

abbrev psDown : Nat := 0
abbrev psTraining : Nat := 1
abbrev psUp : Nat := 2
abbrev psRetrain : Nat := 3
abbrev psFailed : Nat := 4
abbrev psHeld : Nat := 5

/-- A port. -/
def State.port (s : State) (n : Nat) : Port := NMap.get (fun _ => {}) s.ports n

/-- A port set. -/
def State.setPort (s : State) (n : Nat) (p : Port) : State := { s with ports := NMap.set (fun _ => {}) s.ports n p }

/-- A port's state. -/
def State.portState (s : State) (n : Nat) : Nat := s.fld (Csr.lnkPortSts_state n)

/-- A port carries a packet type: UP all traffic, HELD Gazetteer packets (Table 10.4). -/
def State.carries (s : State) (n type : Nat) : Bool :=
  s.portState n == psUp || (s.portState n == psHeld && type == ptGaz)

/-- Traffic may enter a port: it carries the type, and the handshake of its crossing is complete
(spec/14_clocks_and_crossings.md R415). -/
def State.sends (s : State) (n type : Nat) : Bool := s.carries n type && s.admits (76 + n)

/-- A buffer of a virtual channel of a port is free again: its credit is owed to the peer (R295). -/
def State.freeBuffer (s : State) (b : Option (Nat × Nat)) : State :=
  match b with
  | none => s
  | some (n, v) =>
    let p := s.port n
    s.setPort n { p with owed := p.owed.set v (p.owed.getD v 0 + 1) }

/-- The virtual channel whose credits the next header returns, and how many (R295). -/
def Port.creditReturn (p : Port) : Nat × Nat :=
  match (List.range 8).find? (fun v => p.owed.getD v 0 != 0) with
  | some v => (v, min 32 (p.owed.getD v 0))
  | none => (0, 0)

/-- A packet with the acknowledgement and credit fields a port sends now, and the port after it. -/
def Port.stamp (p : Port) (q : Packet) : Port × Packet :=
  let (v, n) := p.creditReturn
  let q := ((q.setFld 28 12 p.rxSeq).setFld 41 3 v).setFld 44 8 n
  ({ p with owed := p.owed.set v (p.owed.getD v 0 - n), unacked := 0 }, q)

/-- Whether a port may send a sequenced packet: a credit of its virtual channel, and room in the replay buffer (R295,
R296). -/
def Port.maySend (p : Port) (q : Packet) : Bool :=
  decide (p.used.getD q.vc 0 < 32) && decide (p.sent.length < 256)

/-- A sequenced packet sent: it takes the next sequence number and a credit, and stays in the replay buffer (R296). -/
def State.transmit (s : State) (n : Nat) (q : Packet) : State :=
  let (p, q) := (s.port n).stamp (q.setFld 16 12 (s.port n).txSeq)
  let q := q.seal
  let p := { p with
    txSeq := (p.txSeq + 1) % 4096, sent := p.sent ++ [q], used := p.used.set q.vc (p.used.getD q.vc 0 + 1) }
  (s.setPort n p).emit (.packet n q)

/-- Waiting packets of a port sent while credits and the replay buffer allow; one that waits holds back the later ones
of its virtual channel only (R295). -/
def State.pump (s : State) (n : Nat) : List QPacket → List QPacket → State
  | kept, [] => s.setPort n { s.port n with queue := kept }
  | kept, q :: qs =>
    if s.sends n q.pkt.type && (s.port n).maySend q.pkt && !kept.any (fun k => k.pkt.vc == q.pkt.vc) then
      State.pump ((s.transmit n q.pkt).freeBuffer q.from_) n kept qs
    else State.pump s n (kept ++ [q]) qs

/-- A packet handed to a port, with the buffer it holds meanwhile. -/
def State.sendPacket (s : State) (n : Nat) (q : Packet) (b : Option (Nat × Nat) := none) : State :=
  s.pump n [] ((s.port n).queue ++ [⟨q, b⟩])

/-- A LINKCTL packet: acknowledgement, nak and credits, neither sequenced nor retried (R296). -/
def State.sendLinkctl (s : State) (n : Nat) (nak : Bool) : State :=
  let (p, q) := (s.port n).stamp (mkPacket ptLinkctl 0 0 0 0 0 [0])
  (s.setPort n p).emit (.packet n (q.setFld 40 1 (b2n nak)).seal)

/-- The port that a hop leaves by (R291). -/
def hopPort (axis : Nat) (up : Bool) (plane : Nat) : Nat := 6 * plane + 2 * axis + (if up then 0 else 1)

/-- A DATA packet sent on from here, arrived by port `via` where given: routed (R309), its lane chosen (R310). One in
transit holds its buffer until it leaves (R295). A packet without a route is discarded. -/
def State.routePacket (s : State) (via : Option Nat) (plane : Nat) (q : Packet) : State :=
  let buffer := via.map (fun n => (n, q.vc))
  match s.nextHop s.here plane q.dst with
  | .go axis up pl =>
    let lane := match via with
      | none => 0
      | some p =>
        -- the hop it arrived by: through port p, that is from the neighbour p faces
        let up' := p % 2 == 1
        let from' := s.neighbour s.here (p % 6 / 2) (p % 2 == 0)
        if p % 6 / 2 != axis then 0 else if s.wrapHop from' axis up' then 1 else q.vc % 2
    s.sendPacket (hopPort axis up pl) (q.setFld 4 1 lane) buffer
  | _ => s.freeBuffer buffer

/-! ## Segments (R297, Table 10.3) -/

abbrev opWrite : Nat := 0x01
abbrev opRead : Nat := 0x02
abbrev opSignal : Nat := 0x03
abbrev opColl : Nat := 0x04
abbrev opAck : Nat := 0x81
abbrev opRdata : Nat := 0x82

/-- The class of a segment's packets: REQ, RSP or COLL (R298, R320). -/
def segClass (op : Nat) : Nat := if op = opColl then 2 else if 0x80 ≤ op then 1 else 0

/-- The most data bytes of a segment. -/
abbrev segData : Nat := 16352

/-- Bytes cut into pieces of at most `k`. -/
def cutBytes (k : Nat) : Nat → List Byte → List (List Byte)
  | 0, _ => []
  | fuel + 1, bs => if bs.isEmpty then [] else bs.take k :: cutBytes k fuel (bs.drop k)

/-- The packets of a segment to a device. -/
def segmentPackets (g : Segment) (dst : Nat) (ext : List Byte) : List Packet :=
  let bs := g.body ext
  ((cutBytes 256 (bs.length / 256 + 1) bs).zipIdx).map (fun p =>
    mkPacket ptData (2 * segClass g.op) dst g.src p.2 g.xid p.1)

/-- The rest of the transaction header outside COLL segments: zero. -/
def noExt : List Byte := List.replicate 14 0

/-- A segment sent from hub `h` to a device (R298). -/
def State.sendSegment (s : State) (h dst : Nat) (g : Segment) (ext : List Byte := noExt) : State :=
  (segmentPackets g dst ext).foldl (fun s p => s.routePacket none h p) s

/-- A segment as this device makes it: its number, its send tick and its source. -/
def State.mkSegment (s : State) (op xid da bytes status part : Nat) (priv : Bool) (data : List Byte) : Segment :=
  ⟨xid, s.fld Csr.lnkSts_logical, op, bits s.count 0 16, bytes, da, status, part, priv, data⟩

/-- The ports by which a packet goes from a position to another. -/
def State.portsTo (s : State) (t : Nat) : Nat → Nat → Nat → List Nat
  | 0, _, _ => []
  | fuel + 1, p, pl =>
    match s.hopTo p pl t with
    | .go a up q => hopPort a up q :: State.portsTo s t fuel (s.neighbour p a up) q
    | _ => []

/-- The path from hub `h` to a device. -/
def State.pathOf (s : State) (h dst : Nat) : List Nat :=
  match s.posOfLogical dst with
  | none => []
  | some t => s.portsTo t 64 s.here h

/-- New segments for a device are held back: the path of one that is still to be answered has changed, or others are
held back (R311). -/
def State.holdsBack (s : State) (dev : Nat) : Bool :=
  s.heldSegs.any (fun x => x.dev == dev) || s.segs.any (fun x => x.dev == dev && x.path != s.pathOf x.hub dev)

/-- A segment sent from its hub, and recorded where it is to be answered. -/
def State.sendNow (s : State) (x : SegOut) : State :=
  let tick := bits s.count 0 16
  let s := match x.out with
    | some o => { s with segs := s.segs ++ [{ o with hub := x.hub, path := s.pathOf x.hub x.dev, tick := tick }] }
    | none => s
  s.sendSegment x.hub x.dev { x.seg with sendTick := tick } x.ext

/-- A segment sent, or held back (R311). DEDUCED (log 68): answers are not held back, since they are what the source
of a request waits for. -/
def State.sendOut (s : State) (x : SegOut) : State :=
  if s.holdsBack x.dev then { s with heldSegs := s.heldSegs ++ [x] } else s.sendNow x

/-- A request sent from hub `h`, its answer awaited. -/
def State.sendRequest (s : State) (h : Nat) (g : Segment) (o : OutSeg) : State := s.sendOut ⟨h, o.dev, g, noExt, some o⟩

/-- Held segments whose device has no request in flight any more are sent, in order (R311). -/
def State.releaseHeld (s : State) (dev : Nat) : State :=
  if s.segs.any (fun x => x.dev == dev) then s
  else
    (s.heldSegs.filter (fun x => x.dev == dev)).foldl State.sendOut
      { s with heldSegs := s.heldSegs.filter (fun x => x.dev != dev) }

/-- A segment id not in use (Table 10.2: 14 bits, unique among those in flight). -/
def State.newXid (s : State) : Nat × State :=
  let used := fun n => s.segs.any (fun g => g.xid == n) || s.heldSegs.any (fun g => g.seg.xid == n)
  let x := ((List.range 16384).map (fun i => (s.nextXid + i) % 16384)).find? (fun n => !used n)
  let x := x.getD 0
  (x, { s with nextXid := (x + 1) % 16384 })

/-! ## Segments received (R298, R299) -/

abbrev stLinkLost : Nat := 0x14

/-- What is known of an arriving segment. -/
def State.inSeg? (s : State) (src xid cls : Nat) : Option InSeg :=
  s.inSegs.find? (fun g => g.src == src && g.xid == xid && g.cls == cls)

/-- Whether a packet of a segment was missed, so that its remainder is discarded (R298). -/
def State.segBroken (s : State) (src xid cls : Nat) : Bool := (s.inSeg? src xid cls).elim false (fun g => g.broken)

/-- What is known of an arriving segment set, or forgotten. -/
def State.setInSeg (s : State) (src xid cls : Nat) (g : Option InSeg) : State :=
  { s with inSegs := s.inSegs.filter (fun g => !(g.src == src && g.xid == xid && g.cls == cls)) ++ g.toList }

/-- A packet of a segment arrives by a port (R298): in order; or the one before it has not come, the remainder is
discarded and the source is answered LINK_LOST. -/
def State.trackPacket (s : State) (n : Nat) (q : Packet) : State :=
  let cls := q.vc / 2
  let set := s.setInSeg q.src q.xid cls
  if q.idx = 0 then
    let last := leAt q.payload 1 1
    set (if last = 0 then none else some ⟨q.src, q.xid, cls, 1, last, false⟩)
  else
    let lost := (set (some ⟨q.src, q.xid, cls, q.idx, 0, true⟩)).sendSegment (n / 6) q.src
      (s.mkSegment opAck q.xid 0 0 stLinkLost 0 false [])
    match s.inSeg? q.src q.xid cls with
    | none => lost
    | some g =>
      if g.broken then s
      else if g.next ≠ q.idx then lost
      else set (if g.last ≤ q.idx then none else some { g with next := q.idx + 1 })

/-- life_ticks, with 0 taken as 1 (LNK_CTL). -/
def State.lifeTicks (s : State) : Nat := max 1 (s.fld Csr.lnkCtl_life_ticks)

/-- Ticks from a 16-bit send tick to now. -/
def State.ticksSince (s : State) (tick : Nat) : Nat := (bits s.count 0 16 + 65536 - tick % 65536) % 65536

/-- A segment past its life (R299). -/
def State.tooOld (s : State) (tick : Nat) : Bool := decide (s.lifeTicks < s.ticksSince tick)

/-- A segment past its life: counted and reported (R299, Table 10.14). -/
def State.expireSegment (s : State) (hub : Nat) : State :=
  let s := s.addFld Csr.lnkExpired_segments 1
  if s.expiredTick = some s.count then s
  else { s with expiredTick := some s.count }.raiseM (hubUnitEvent 10 hub 0x0609 sevWarn 0 0)

/-- The same GAZ packet handed to every port in UP or HELD but one (R306). What a GAZ packet's payload holds is the
model's own: a tag and 64-bit words (assumption log 30). -/
def State.flood (s : State) (but : Option Nat) (tag : Nat) (args : List W64) : State :=
  let pay := toBytes 8 tag ++ args.flatMap (fun a => toBytes 8 a.toNat)
  ((List.range 24).filter (fun n => some n != but && s.carries n ptGaz)).foldl
    (fun s n => s.sendPacket n (mkPacket ptGaz 6 0 (s.fld Csr.lnkSts_logical) 0 0 pay)) s

end Sys2Proof.Machine
end

