-- ==== Sys2Proof/Machine/Moves.lean ====
section
/-! DEFINITION. Moves: COPY and FILL of the move engines, MOV, transfers to and from other devices and the host
(spec/06_memory_and_ordering.md R164, R182 to R185, R193 to R196; spec/08_nolpa_tensor_reference.md R266 to R268;
spec/10_links_and_collectives.md R298, R299). -/
namespace Sys2Proof.Machine

/-! ## Completion statuses (Table 6.11, Table 10.13) -/

abbrev stOk : Nat := 0x00
abbrev stAddr : Nat := 0x01
abbrev stProt : Nat := 0x02
abbrev stMemUe : Nat := 0x03
abbrev stSpill : Nat := 0x04
abbrev stResetPeer : Nat := 0x05
abbrev stUnreach : Nat := 0x06
abbrev stNoRoute : Nat := 0x07
abbrev stOverlap : Nat := 0x08
abbrev stInvalid : Nat := 0x09
abbrev stBusy : Nat := 0x0A

/-! ## Checks of the accesses of a move -/

/-- The origin of a move's accesses (R378). -/
def MoveJob.origin (j : MoveJob) : Origin := .loc j.part j.priv

/-- Why an access to package memory or SRAM by a unit of the device fails, as a completion status. Unavailable
granules answer as an unpopulated address does (log 75). -/
def State.accessFail (s : State) (o : Origin) (die : Option Nat) (hub : Nat) (k : Access) (a len : Nat) : Option Nat :=
  if !memRange a len then some stAddr
  else if !s.homeReach die hub a || !s.homeReach die hub (a + len - 1) then
    some (if s.stackFailed a || s.stackFailed (a + len - 1) then stAddr else stUnreach)
  else if !s.grantedRange o k a len then some stProt
  else if s.cellsBar k a len then some stSpill
  else none

/-- Whether the word of an error lies in `[a, a + len)`, whole or in part, and for a write in part: a store of a whole
word does not read it (R167). -/
def wordIn (k : Access) (w : Nat) (a : Int) (len : Nat) : Bool :=
  let w0 : Int := (w / 8 * 8 : Nat)
  decide (a < w0 + 8) && decide (w0 < a + len) && !(k == .write && decide (a ≤ w0) && decide (w0 + 8 ≤ a + len))

/-- What error detection reports on the words that an access of `[a, a + len)` reads. -/
def eccWithin (e : Ecc) (k : Access) (a : Int) (len : Nat) : Ecc :=
  match e with
  | .corrected w | .uncorrectable w => if wordIn k w a len then e else .ok
  | .ok => .ok

/-- Whether an uncorrectable word is met. -/
def eccLost : Ecc → Bool
  | .uncorrectable _ => true
  | _ => false

/-- Why one side of a run of bytes fails. -/
def State.sideFail (s : State) (o : Origin) (die : Option Nat) (hub : Nat) (x : Side) (k : Access) (e : Ecc) (a : Int)
    (len : Nat) : Option Nat :=
  match x with
  | .da =>
    if a < 0 then some stAddr
    else (s.accessFail o die hub k a.toNat len).or (if eccLost (eccWithin e k a len) then some stMemUe else none)
  | .host => if a < 0 ∨ 2 ^ 60 < a + len then some stAddr else none
  | .remote _ => if a < 0 ∨ 2 ^ 48 < a + len then some stAddr else none
  | .stage => none

/-- The side a move reads, where it reads one. -/
def MoveSrc.side? : MoveSrc → Option Side
  | .side x => some x
  | .pattern _ => none

/-- Why a run of a move fails, and the address at fault. -/
def MoveJob.runFail (j : MoveJob) (s : State) (e : Ecc) (r : Int × Int × Nat) : Option (Nat × Int) :=
  let src := match j.src with
    | .side x => (s.sideFail j.origin j.die (hubOf j.part) x .read e r.1 r.2.2).map (fun st => (st, r.1))
    | .pattern _ => none
  src.or ((s.sideFail j.origin j.die (hubOf j.part) j.dst .write e r.2.1 r.2.2).map (fun st => (st, r.2.1)))

/-- A run cut where the destination crosses a multiple of 8: single-copy-atomic units (R171). -/
def cutRun : Nat → Int × Int × Nat → List (Int × Int × Nat)
  | 0, _ => []
  | fuel + 1, (a, b, n) =>
    if n = 0 then []
    else
      let k := min n (8 - (b % 8).toNat)
      (a, b, k) :: cutRun fuel (a + k, b + k, n - k)

/-- The lowest byte and the end of a side's runs. -/
def hullOf (l : List (Int × Nat)) : Int × Int :=
  match l with
  | [] => (0, 0)
  | (a, n) :: r => r.foldl (fun h p => (min h.1 p.1, max h.2 (p.1 + p.2))) (a, a + n)

/-- MOVE_OVERLAP (R183): both sides local memory, or both host memory, with hulls that overlap. -/
def MoveJob.overlap (j : MoveJob) : Bool :=
  match j.src with
  | .side x =>
    x == j.dst && (x == .da || x == .host) &&
      hullsMeet (hullOf (j.runs.map (fun r => (r.1, r.2.2)))) (hullOf (j.runs.map (fun r => (r.2.1, r.2.2))))
  | .pattern _ => false

/-- The crossing that holds back one side of a run: for the host, the one at the PCIe port. -/
def MoveJob.sideHeld (j : MoveJob) (s : State) (x : Side) (a : Int) (len : Nat) : Option Nat :=
  match x with
  | .da =>
    (s.heldAt (some j.part) j.die (hubOf j.part) a).or (s.heldAt (some j.part) j.die (hubOf j.part) (a + len - 1))
  | .host => if s.admits 100 then none else some 100
  | _ => none

/-- The first fenced crossing that a move meets. -/
def MoveJob.held (j : MoveJob) (s : State) : Option Nat :=
  j.runs.findSome? (fun r =>
    ((match j.src with | .side x => j.sideHeld s x r.1 r.2.2 | .pattern _ => none)).or
      (j.sideHeld s j.dst r.2.1 r.2.2))

/-- Whether error detection met the word of `e` in a local side of the move. -/
def MoveJob.meetsWord (j : MoveJob) (e : Ecc) : Bool :=
  j.runs.any (fun r => (j.src == .side .da && eccWithin e .read r.1 r.2.2 != .ok) ||
    (j.dst == .da && eccWithin e .write r.2.1 r.2.2 != .ok))

/-- The devices a move needs a route to. -/
def MoveJob.devs (j : MoveJob) : List Nat :=
  (match j.src with | .side (.remote d) => [d] | _ => []) ++ (match j.dst with | .remote d => [d] | _ => [])

/-! ## Data -/

/-- Bytes written to host memory for a ring of a partition, at most 512 at a time (R185). -/
def State.hostStore (s : State) (part a : Nat) (bs : List Byte) : State :=
  ((cutBytes 512 (bs.length + 1) bs).zipIdx).foldl (fun s p => s.emit (.hostWrite part (a + 512 * p.2) p.1)) s

/-- Bytes that reach the destination of a move: stored, posted to the host, sent to another device or gathered. -/
def State.deliver (s : State) (o : XOwner) (part : Nat) (priv : Bool) (x : Side) (a : Nat) (bs : List Byte) : State :=
  match x with
  | .da => s.writeBytes a bs
  | .host => s.hostStore part a bs
  | .stage => { s with staged := s.staged ++ [(o, a, bs)] }
  | .remote d =>
    ((cutBytes segData (bs.length + 1) bs).zipIdx).foldl (fun s p =>
      let (xid, s) := s.newXid
      let da := a + segData * p.2
      s.sendRequest (hubOf part) (s.mkSegment opWrite xid da p.1.length 0 part priv p.1)
        ⟨xid, d, opWrite, 0, o, .da, da, p.1.length, 0, [], true⟩) s

/-- The bytes of a fill: the byte at destination address `a` takes pattern byte a mod 8 (Table 6.12). -/
def fillBytes (p : W64) (a : Int) (n : Nat) : List Byte :=
  let bs := toBytes 8 p.toNat
  (List.range n).map (fun (i : Nat) => bs.getD ((a + (i : Int)) % 8).toNat 0)

/-- Requests for read data from another device or the host, at most `k` bytes each. -/
def readCuts (k : Nat) (r : Int × Int × Nat) : List (Nat × Nat × Nat) :=
  (List.range ((r.2.2 + k - 1) / k)).map (fun i => (r.1.toNat + k * i, r.2.1.toNat + k * i, min k (r.2.2 - k * i)))

/-- A run of a move carried out: local bytes moved at once, reads of other devices and of the host sent. -/
def MoveJob.runOne (j : MoveJob) (s : State) (r : Int × Int × Nat) : State :=
  match j.src with
  | .pattern p => s.deliver j.owner j.part j.priv j.dst r.2.1.toNat (fillBytes p r.2.1 r.2.2)
  | .side .da | .side .stage => s.deliver j.owner j.part j.priv j.dst r.2.1.toNat (s.bytes r.1.toNat r.2.2)
  | .side (.remote d) =>
    (readCuts segData r).foldl (fun s c =>
      let (xid, s) := s.newXid
      s.sendRequest (hubOf j.part) (s.mkSegment opRead xid c.1 c.2.2 0 j.part j.priv [])
        ⟨xid, d, opRead, 0, j.owner, j.dst, c.2.1, c.2.2, 0, [], true⟩) s
  | .side .host =>
    match j.owner with
    | .desc ring idx =>
      (readCuts 4096 r).foldl (fun s c =>
        let h : HostRd := ⟨ring, idx, j.dst, c.2.1, c.2.2⟩
        { s with hostReads := s.hostReads ++ [h] }.emit (.hostRead j.part c.1 c.2.2)) s
    | .mov .. => s

/-- Whether a transfer still waits for answers. -/
def State.waitsFor (s : State) (o : XOwner) : Bool :=
  s.segs.any (fun g => g.owner == o && g.live) || s.heldSegs.any (fun g => g.out.any (fun x => x.owner == o)) ||
  s.hostReads.any (fun h => o == .desc h.ring h.idx) || s.fenced.any (fun h => h.2.owner == some o)

/-! ## Ends of a move -/

/-- The entries of the scale register file from an entry up, from gathered L16 codes (R267). -/
def Tile.loadSrf (t : Tile) (entry : Nat) (bs : List Byte) : Tile :=
  (List.range (bs.length / 2)).foldl (fun t i =>
    { t with srf := NMap.set (fun _ => 0) t.srf (entry + i) (leAt bs (2 * i) 2) }) t

/-- The table image in the bytes of a source region (R131, R132); none where R132 faults. -/
def parseImage (bs : List Byte) : Option FuImage :=
  let h := leAt bs 0 4
  let n := field h 7 10 + 1
  let logmag := field h 0 1 == 1
  let origin := leAt bs 4 4
  let w := leAt bs 8 4
  let ok := field h 1 2 != 3 && field h 3 2 < 2 && field h 5 2 < 2 && field h 17 15 == 0 && w < 256 &&
    leAt bs 0x18 8 == 0 && decide (32 + 12 * n ≤ bs.length) &&
    (if logmag then decide (w ≤ 9) else field origin 23 8 != 255 && decide (-24 ≤ signed 8 w ∧ signed 8 w ≤ 8))
  if ok then
    some ⟨logmag, field h 1 2, field h 3 2, field h 5 2, origin, w, leAt bs 0x0C 4, leAt bs 0x10 4, leAt bs 0x14 4,
      (List.range n).map (fun i => ⟨leAt bs (32 + 12 * i) 4, leAt bs (36 + 12 * i) 4, leAt bs (40 + 12 * i) 4⟩)⟩
  else none

/-- The token of an instruction in flight. -/
def State.tokOf (s : State) (n seq : Nat) : Nat :=
  (((s.tile n).inflight.find? (fun f => f.seq == seq)).map (fun f => f.tok)).getD 0

/-- A MOV or COLL ends with a completion status (R266, R269); a MOV's token shows it (R224, Table 7.10). -/
def State.endStatus (s : State) (n seq st : Nat) : State :=
  let e := s.faultEvent n (s.tokOf n seq) eXferFail 0
  s.updFlight n seq (fun x => { x with
    done := true, blocked := false, status := if x.eng = .move then st else 0, fault := if st = 0 then 0 else eXferFail,
    evs := if st = 0 then x.evs else x.evs ++ [e] })

/-- A function-unit slot emptied (R132). -/
def State.emptySlot (s : State) (n k : Nat) : State := s.updTile n (fun t => { t with fu := NMap.erase t.fu k })

/-- A FUSLOT load that faults with FU_TABLE (R132): its slot is left empty. -/
def State.failSlot (s : State) (n seq k : Nat) : State :=
  ((s.emptySlot n k).failT n seq (s.tokOf n seq) eFuTable).updFlight n seq (fun x => { x with blocked := false })

/-- The gathered bytes of a load, in order of their offsets. -/
def State.gathered (s : State) (o : XOwner) : List Byte :=
  ofPieces ((s.staged.filter (fun e => e.1 == o)).map (fun e => (e.2.1, e.2.2)))
where
  ofPieces (l : List (Nat × List Byte)) : List Byte :=
    (l.foldl (fun (m : NMap Byte) p =>
      (p.2.zipIdx).foldl (fun m b => NMap.insert m (p.1 + b.2) b.1) m) []).map (fun e => e.2)

/-- A move ends with a status: a MOV's load is made, a descriptor takes its status. What a failed FUSLOT load leaves
in its slot is open where its fault is not FU_TABLE: the slot is emptied or keeps its image. -/
def State.endMove (s : State) (o : XOwner) (st : Nat) : State :=
  let bs := s.gathered o
  let s := { s with staged := s.staged.filter (fun e => e.1 != o) }
  match o with
  | .mov n seq none => s.endStatus n seq st
  | .mov n seq (some (.srf entry)) =>
    let s := if st = 0 then s.updTile n (fun t => t.loadSrf entry bs) else s
    s.endStatus n seq st
  | .mov n seq (some (.slot k)) =>
    if st = 0 then
      match parseImage bs with
      | some im => (s.updTile n (fun t => { t with fu := NMap.insert t.fu k im })).endStatus n seq 0
      | none => s.failSlot n seq k
    else
      let s := (if Config.freeBool s.freeCtr then s.emptySlot n k else s).takeFree 1
      s.endStatus n seq st
  | .desc ring idx =>
    { s with fetched := s.fetched.map (fun f =>
      if f.ring = ring ∧ f.idx = idx then { f with status := some st, remote := false } else f) }

/-- What transfers still await from other devices: requests not sent yet are dropped, and the answers of those that
were sent no longer count. -/
def State.dropRequests (s : State) (mine : XOwner → Bool) : State :=
  { s with
    segs := s.segs.map (fun g => { g with live := g.live && !mine g.owner })
    heldSegs := s.heldSegs.filter (fun g => !g.out.any (fun x => mine x.owner)) }

/-- A transfer's outstanding requests dropped, and its end with a status (R298, R299). -/
def State.failMove (s : State) (o : XOwner) (st : Nat) : State :=
  let s := s.dropRequests (· == o)
  let s : State := { s with
    hostReads := s.hostReads.filter (fun h => o != XOwner.desc h.ring h.idx)
    fenced := s.fenced.filter (fun h => h.2.owner != some o) }
  s.endMove o st

/-! ## Address words and the signal (R193, R194) -/

/-- An address word: its side and address; none where R193 refuses it. -/
def State.addrWord (s : State) (w : W64) : Option (Side × Nat) :=
  if bits w 62 2 ≠ 0 then none
  else
    match bits w 60 2 with
    | 0 => some (.da, bits w 0 60)
    | 1 =>
      let d := bits w 48 12
      some (if s.flag Csr.lnkSts_log_valid && d == s.fld Csr.lnkSts_logical then .da else .remote d, bits w 0 48)
    | 2 => some (.host, bits w 0 60)
    | _ => none

/-- The body word of a descriptor at a byte offset. -/
def descWord (ws : List W64) (off : Nat) : W64 := ws.getD (off / 8) 0

/-- A u64 at a local address raised by one (R178); the status. The home reads the word, and `e` is what error detection
reports there (R167). -/
def State.addSignal (s : State) (o : Origin) (die : Option Nat) (hub a : Nat) (e : Ecc) : State × Nat :=
  match s.accessFail o die hub .atomic a 8 with
  | some st => (if st = stProt then s.deny o a else s, st)
  | none =>
    let (s, ue) := s.detect (eccWithin e .atomic a 8) o.part
    if ue.isSome then (s, stMemUe) else (s.store a 8 (s.load a 8 + 1), stOk)

/-- A transfer marked as waiting for another unit, or at a crossing. -/
def State.markWaiting (s : State) (o : XOwner) : State :=
  match o with
  | .mov n seq _ => s.updFlight n seq (fun x => { x with blocked := true })
  | .desc ring idx =>
    { s with fetched := s.fetched.map (fun f => if f.ring = ring ∧ f.idx = idx then { f with remote := true } else f) }

/-- What waits at crossing `x`, last. -/
def State.holdAt (s : State) (x : Nat) (h : Held) : State := { s with fenced := s.fenced ++ [(x, h)] }

/-- After every byte of a move has been performed: the signal add of a descriptor, then its end (R194). `e` is what
error detection reports on the word of the signal. -/
def State.afterData (s : State) (o : XOwner) (e : Ecc) : State :=
  if s.waitsFor o then s
  else
    match o with
    | .mov .. => s.endMove o stOk
    | .desc ring idx =>
      match s.fetched.find? (fun f => f.ring == ring && f.idx == idx) with
      | none => s
      | some f =>
        let w := descWord f.words 0x28
        if w = 0 ∨ f.signalled = true then s.endMove o stOk
        else
          let p := ring / 1024
          let die := if s.fld (Csr.memRingSts_kind ring) = 2 then some (p / 2) else none
          match s.addrWord w with
          | some (.da, a) =>
            match s.heldAt (some p) die (hubOf p) a with
            | some x => (s.holdAt x (.signal o e)).markWaiting o
            | none =>
              let (s, st) := s.addSignal (.loc p true) die (hubOf p) a e
              s.endMove o st
          | some (.remote d, a) =>
            if s.routed d then
              let mark := fun (g : Fetched) =>
                if g.ring = ring ∧ g.idx = idx then { g with signalled := true, remote := true } else g
              let s := { s with fetched := s.fetched.map mark }
              let (xid, s) := s.newXid
              s.sendRequest (hubOf p) (s.mkSegment opSignal xid a 8 0 p true []) ⟨xid, d, opSignal, 0, o, .da, a, 8, 0, [], true⟩
            else s.endMove o stNoRoute
          | _ => s.endMove o stInvalid

/-! ## A move started -/

/-- A move with accesses that fail (R195): the units in no stated order (R182), so the access that stops it is a free
choice among the failing ones, and of the other units an open choice has been written. -/
def MoveJob.partly (j : MoveJob) (s : State) (e : Ecc) : State :=
  let units := j.runs.flatMap (fun r => cutRun (r.2.2 + 1) r)
  let bad := units.filterMap (j.runFail s e)
  let k := s.freeCtr
  let (st, a) := bad.getD ((Config.freeWord k).toNat % bad.length) (stAddr, 0)
  let s := ((units.zipIdx).foldl (fun s p =>
    if (j.runFail s e p.1).isNone && Config.freeBool (k + p.2) && j.dst != .stage && j.devs.isEmpty then j.runOne s p.1
    else s) s).takeFree (units.length + 1)
  let s := if st = stProt then s.deny j.origin a.toNat
    else if st = stMemUe then (s.detect e (some j.part)).1 else s
  s.failMove j.owner st

/-- A move run by its engine (R164, R182 to R184, R195). -/
def State.runMove (s : State) (j : MoveJob) (e : Ecc) : State :=
  if j.devs.any (fun d => !s.routed d) then s.endMove j.owner stNoRoute
  else if j.overlap then s.endMove j.owner stOverlap
  else
    match j.held s with
    | some x => (s.holdAt x (.move j e)).markWaiting j.owner
    | none =>
      if j.runs.any (fun r => (j.runFail s e r).isSome) then j.partly s e
      else
        let s := match e with
          | .corrected a => if j.meetsWord e then s.memCe a else s
          | _ => s
        let s := j.runs.foldl j.runOne s
        if s.waitsFor j.owner then s.markWaiting j.owner else s.afterData j.owner e

/-! ## Data that comes later -/

/-- The requester of a transfer: partition, privilege, and the die of its engine (R378). -/
def State.requester (s : State) (o : XOwner) : Nat × Bool × Option Nat :=
  match o with
  | .mov n seq _ =>
    (partOf n, ((s.tile n).inflight.find? (fun f => f.seq == seq)).elim false (fun f => f.priv), some (n / 128))
  | .desc r _ => (r / 1024, true, (s.ringTile r).map (fun n => n / 128))

/-- Data that has come from the host or another device reaches the destination of its transfer: a local home checks it
as it checks any write, when it comes (R71, R377), and a fenced crossing holds it back (R414). The transfer then goes
on, where nothing more is to come. `e`: what error detection reports on the words that are read, a part of one that is
written among them (R167). -/
def State.lateData (s : State) (o : XOwner) (x : Side) (a : Nat) (bs : List Byte) (e : Ecc) : State :=
  let (p, pv, die) := s.requester o
  if x = .da ∧ bs ≠ [] then
    match s.heldAt (some p) die (hubOf p) a with
    | some c => s.holdAt c (.data o a bs)
    | none =>
      match s.accessFail (.loc p pv) die (hubOf p) .write a bs.length with
      | some st => (if st = stProt then s.deny (.loc p pv) a else s).failMove o st
      | none =>
        let (s, ue) := s.detect (eccWithin e .write a bs.length) (some p)
        if ue.isSome then s.failMove o stMemUe else (s.writeBytes a bs).afterData o e
  else (s.deliver o p pv x a bs).afterData o e

/-- A core's access that waits gets an answer. -/
def State.answerCore (s : State) (n : Nat) (r : MemWait) : State :=
  s.updTile n (fun t => match t.wait with
    | .mem pc .held => { t with wait := .mem pc r }
    | _ => t)

/-- Runs joined where both sides continue. -/
def joinRuns (l : List (Int × Int × Nat)) : List (Int × Int × Nat) :=
  (l.foldl (fun acc r =>
    match acc with
    | (a, b, n) :: rest => if r.1 = a + n ∧ r.2.1 = b + n then (a, b, n + r.2.2) :: rest else r :: acc
    | [] => [r]) []).reverse

/-! ## MOV (R266, R267) -/

/-- The runs of a tensor: an element, or a packed row, at a time, in linear order. -/
def Desc.pieces (d : Desc) : List Int :=
  let ext := if d.fmt.packed then d.ext.drop 1 else d.ext
  let st := if d.fmt.packed then d.stride.drop 1 else d.stride
  (List.range (ext.foldl (· * ·) 1)).map (fun i => (d.base : Int) + strideSum ext st (coords ext i))

/-- The side a descriptor names. -/
def State.descSide (s : State) (d : Desc) : Side := if s.localDev d.dev then .da else .remote d.dev

/-- A MOV or COLL takes a tracked transfer as it issues (R196). -/
def State.takeXfer (s : State) (n seq : Nat) : State :=
  let x := s.nextXfer
  ({ s with nextXfer := x + 1 }.ttAcquire (partOf n)).updFlight n seq (fun f => { f with xfer := some x })

/-- Issue of a MOV of one kind. -/
def issueMov (kind : Nat) (i : Issue) (run : State → Nat → TOp → State) (s : State) : Res :=
  issueE i (fun w => fOp w == 0x98 && fl w 0 2 == kind) (fun s n o => s.takeXfer n o.seq) run s

/-- The checks of a MOV's descriptors that fault in the engine (R15, R17, R207, R208). -/
def movFault (os : List Opnd) : Option Nat :=
  firstFault [(os.any Opnd.descBad, eDescField), (os.any Opnd.fmtBad, eFmtUse), (os.any Opnd.alignBad, cAddrAlign),
    (os.any Opnd.fmtAlignBad, eFmtAlign)]

/-- A MOV COPY in the move engine (R266). -/
def State.startCopy (s : State) (n : Nat) (o : TOp) : State :=
  let w := o.issue.word
  let t := o.core (s.tile n)
  let dd := Desc.ofWords (t.d (fB w))
  let ds := Desc.ofWords (t.d (fC w))
  match movFault [⟨dd, .elems⟩, ⟨ds, .elems⟩] with
  | some c => s.failT n o.seq (fA w) c
  | none =>
    if dd.fmtc ≠ ds.fmtc ∨ dd.sc ≠ ds.sc ∨ dd.zp ≠ ds.zp ∨ dd.ext ≠ ds.ext ∨
        (s.localDev dd.dev = false ∧ s.localDev ds.dev = false) then s.endStatus n o.seq stInvalid
    else
      let runs := (ds.pieces.zip dd.pieces).map (fun p => (p.1, p.2, ds.unit))
      s.runMove ⟨.mov n o.seq none, partOf n, o.priv, some (n / 128), .side (s.descSide ds), s.descSide dd, joinRuns runs⟩
        o.issue.ecc

/-- A MOV SRF in the move engine (R267). -/
def State.startSrf (s : State) (n : Nat) (o : TOp) : State :=
  let w := o.issue.word
  let ds := Desc.ofWords ((o.core (s.tile n)).d (fC w))
  let entry := fl w 2 13
  match movFault [⟨ds, .elems⟩] with
  | some c => s.failT n o.seq (fA w) c
  | none =>
    if ds.fmtc ≠ 5 ∨ ds.ext.drop 1 ≠ [1, 1, 1, 1] then s.endStatus n o.seq stInvalid
    else if 8192 < entry + ds.n 0 then s.failT n o.seq (fA w) eSrfRange
    else
      let runs := (ds.pieces.zipIdx).map (fun p => (p.1, ((2 * p.2 : Nat) : Int), 2))
      s.runMove ⟨.mov n o.seq (some (.srf entry)), partOf n, o.priv, some (n / 128), .side (s.descSide ds), .stage,
        joinRuns runs⟩ o.issue.ecc

/-- A MOV FUSLOT in the move engine (R267, R131, R132): the placing of the region is checked before it is read. -/
def State.startFuslot (s : State) (n : Nat) (o : TOp) : State :=
  let w := o.issue.word
  let ds := Desc.ofWords ((o.core (s.tile n)).d (fC w))
  let k := fl w 15 4
  match firstFault [(Opnd.descBad ⟨ds, .elems⟩, eDescField), (Opnd.fmtBad ⟨ds, .elems⟩, eFmtUse)] with
  | some c => s.failT n o.seq (fA w) c
  | none =>
    if ds.fmtc ≠ 12 ∨ ds.ext.drop 1 ≠ [1, 1, 1, 1] then s.endStatus n o.seq stInvalid
    else if ds.base % 32 ≠ 0 ∨ ds.n 0 < 32 then s.failSlot n o.seq k
    else
      s.runMove ⟨.mov n o.seq (some (.slot k)), partOf n, o.priv, some (n / 128), .side (s.descSide ds), .stage,
        [((ds.base : Int), 0, ds.n 0)]⟩ o.issue.ecc

/-- MOV COPY (R266). -/
def execMovCopy (i : Issue) (s : State) : Res := issueMov 0 i State.startCopy s

/-- MOV SRF (R267). -/
def execMovSrf (i : Issue) (s : State) : Res := issueMov 1 i State.startSrf s

/-- MOV FUSLOT (R267, R132). -/
def execMovFuslot (i : Issue) (s : State) : Res := issueMov 2 i State.startFuslot s

/-! ## COPY and FILL descriptors (R193) -/

/-- The opcode, the fence flag and the privilege of a descriptor. -/
def descOp (ws : List W64) : Nat := bits (ws.headD 0) 0 8
def descFence (ws : List W64) : Bool := bit (ws.headD 0) 9

/-- Whether a fetched descriptor may start: not started, and with fence = 1 no earlier entry of its ring is incomplete
(Table 6.9). -/
def State.mayStart (s : State) (f : Fetched) : Bool :=
  f.status.isNone && !f.remote &&
    (!descFence f.words || ((s.fetched.filter (fun g => g.ring == f.ring)).head?.map (fun g => g.idx) == some f.idx))

/-- The engine of a ring's moves can start one: its tile is neither halted nor in reset (R239). -/
def State.moverReady (s : State) (r : Nat) : Bool :=
  match s.ringTile r with
  | some n => (s.tile n).state != tsDebug && (s.tile n).state != tsReset
  | none => true

/-- The oldest fetched descriptor of a ring with an opcode that may start. -/
def State.startable (s : State) (r op : Nat) : Option Fetched :=
  s.fetched.find? (fun f => f.ring == r && descOp f.words == op && s.mayStart f)

/-- The rows of a COPY or FILL body. -/
def descRuns (src dst : Nat) (ws : List W64) : List (Int × Int × Nat) :=
  let inner := bits (descWord ws 0x18) 0 32
  let rows := bits (descWord ws 0x18) 32 32
  let ss := signed 32 (bits (descWord ws 0x20) 0 32)
  let ds := signed 32 (bits (descWord ws 0x20) 32 32)
  (List.range rows).map (fun (r : Nat) => ((src : Int) + (r : Int) * ss, (dst : Int) + (r : Int) * ds, inner))

/-- The move a COPY or FILL descriptor describes; none where R193 refuses it. -/
def State.descJob (s : State) (f : Fetched) (fill : Bool) : Option MoveJob :=
  let ws := f.words
  let p := f.ring / 1024
  let host := fun (x : Side) => x == .host && s.fld (Csr.memRingSts_kind f.ring) == 2
  let inner := bits (descWord ws 0x18) 0 32
  let rows := bits (descWord ws 0x18) 32 32
  let sig := descWord ws 0x28
  let sigOk := sig == 0 || (match s.addrWord sig with
    | some (.host, _) | none => false
    | some (_, a) => a % 8 == 0)
  let reserved := bits (ws.headD 0) 10 6 != 0 || bits (ws.headD 0) 40 23 != 0 ||
    (if fill then descWord ws 0x08 != 0 || bits (descWord ws 0x20) 0 32 != 0 else descWord ws 0x30 != 0)
  if inner = 0 ∨ rows = 0 ∨ 2 ^ 24 < rows ∨ sigOk = false ∨ reserved = true then none
  else
    match s.addrWord (descWord ws 0x10) with
    | none => none
    | some (dx, da) =>
      let die := (s.ringTile f.ring).map (fun n => n / 128)
      let mk := fun (src : MoveSrc) (sa : Nat) => some (⟨.desc f.ring f.idx, p, true, die, src, dx, descRuns sa da ws⟩ : MoveJob)
      if host dx then none
      else if fill then mk (.pattern (descWord ws 0x30)) 0
      else
        match s.addrWord (descWord ws 0x08), dx with
        | none, _ => none
        | some (.remote _, _), .remote _ => none
        | some (sx, sa), _ => if host sx then none else mk (.side sx) sa

/-- A COPY or FILL descriptor started. -/
def State.runDesc (s : State) (r : Nat) (fill : Bool) (e : Ecc) : State :=
  match s.startable r (if fill then 2 else 1) with
  | none => s
  | some f =>
    if s.moverReady r then
      match s.descJob f fill with
      | some j => s.runMove j e
      | none => s.endMove (.desc f.ring f.idx) stInvalid
    else s

/-- DESC_COPY (R193). -/
def execDescCopy (ring : Nat) (ecc : Ecc) (s : State) : Res := .next (s.runDesc ring false ecc)

/-- DESC_FILL (R193). -/
def execDescFill (ring : Nat) (s : State) (ecc : Ecc := .ok) : Res := .next (s.runDesc ring true ecc)

/-! ## Answers (R298, R299) -/

/-- A segment record taken out: it has been answered, or has failed (R311). -/
def State.closeSeg (s : State) (g : OutSeg) : State := { s with segs := s.segs.filter (fun x => x.xid != g.xid) }

/-- The request that an answer belongs to: none where the answer is past its life, or a packet of it was missed. -/
def State.answered (s : State) (seg : Segment) : Option OutSeg :=
  if s.segBroken seg.src seg.xid (segClass seg.op) then none else s.segs.find? (fun g => g.xid == seg.xid && g.dev == seg.src)

/-- The answer to a WRITE or a SIGNAL; one whose transfer has ended only frees its segment. -/
def State.takeAck (s : State) (g : OutSeg) (st : Nat) (e : Ecc) : State :=
  let s := s.closeSeg g
  let s := if !g.live then s else if st = 0 then s.afterData g.owner e else s.failMove g.owner st
  s.releaseHeld g.dev

/-- SEG_ACK: the answer to a WRITE or a SIGNAL, or the failure of a READ (R298). -/
def execSegAck (seg : Segment) (s : State) (ecc : Ecc := .ok) : Res :=
  .next (if s.tooOld seg.sendTick then s.expireSegment (hubOf seg.part % 4)
    else
      match s.answered seg with
      | none => s
      | some g => s.takeAck g seg.status ecc)

/-- Data of a READ that arrives: it ends once all of it has come. -/
def State.takeRdata (s : State) (g : OutSeg) (bs : List Byte) (e : Ecc) : State :=
  if bs.length < g.len then
    let s := { s with segs := s.segs.map (fun x =>
      if x.xid = g.xid then { x with addr := x.addr + bs.length, len := x.len - bs.length } else x) }
    if g.live then s.lateData g.owner g.dst g.addr bs e else s
  else
    let s := s.closeSeg g
    (if g.live then s.lateData g.owner g.dst g.addr bs e else s).releaseHeld g.dev

/-- SEG_RDATA: data of a READ. -/
def execSegRdata (seg : Segment) (s : State) (ecc : Ecc := .ok) : Res :=
  .next (if s.tooOld seg.sendTick then s.expireSegment (hubOf seg.part % 4)
    else
      match s.answered seg with
      | none => s
      | some g =>
        if g.op ≠ opRead then s
        else if seg.status ≠ 0 then s.takeAck g seg.status ecc
        else s.takeRdata g (seg.data.take g.len) ecc)

/-- SEGMENT_LOST_TIMEOUT (R299). -/
def execSegmentLostTimeout (xid : Nat) (s : State) : Res :=
  .next (match s.segs.find? (fun g => g.xid == xid) with
    | none => s
    | some g => if s.lifeTicks + 2 ≤ s.ticksSince g.tick then s.takeAck g stLinkLost .ok else s)

/-- HOST_READ_COMPLETION (R182): data for the oldest host read of a ring, which may come in several completions. -/
def execHostReadCompletion (ring : Nat) (data : List (BitVec 8)) (s : State) (ecc : Ecc := .ok) : Res :=
  match s.hostReads.find? (fun h => h.ring == ring) with
  | none => .next s
  | some h =>
    let bs := data.take h.len
    let rest := if bs.length < h.len then
        s.hostReads.map (fun x => if x = h then { x with addr := x.addr + bs.length, len := x.len - bs.length } else x)
      else s.hostReads.erase h
    .next ({ s with hostReads := rest }.lateData (.desc h.ring h.idx) h.dst h.addr bs ecc)

end Sys2Proof.Machine
end

