-- ==== Sys2Proof/Machine/Fu.lean ====
section
/-! DEFINITION. The function unit's arithmetic: the six built-ins, decided exactly, and table evaluation
(spec/04_vector_and_functions.md R130, R133). -/
namespace Sys2Proof.Machine

/-! ## Enclosures of exp and log

Bounds (lo, hi) of a real x at precision w stand for lo ≤ 2^w × x ≤ hi. -/

/-- 2^w × 2 × atanh(y) from bounds of y in [0, 1/3]: the odd power series, `n` terms, `p` the bounds of y^(2k+1). -/
def atanhGo : Nat → Nat → Nat → Nat × Nat → Nat × Nat → Nat × Nat
  | 0, _, _, _, _ => (0, 8)
  | n + 1, w, k, p, y2 =>
    let t := (2 * p.1 / (2 * k + 1), 2 * p.2 / (2 * k + 1) + 1)
    let p' := (p.1 * y2.1 / 2 ^ w, p.2 * y2.2 / 2 ^ w + 1)
    let r := atanhGo n w (k + 1) p' y2
    (t.1 + r.1, t.2 + r.2)

/-- Bounds of 2 atanh(y). -/
def atanh2 (w : Nat) (y : Nat × Nat) : Nat × Nat :=
  atanhGo (w / 3 + 4) w 0 y (y.1 * y.1 / 2 ^ w, y.2 * y.2 / 2 ^ w + 1)

/-- Bounds of ln 2 = 2 atanh(1/3). -/
def ln2At (w : Nat) : Nat × Nat := atanh2 w (2 ^ w / 3, 2 ^ w / 3 + 1)

/-- Bounds of the natural logarithm of a positive real given by bounds (lo > 0) at precision w. -/
def lnAt (w : Nat) (x : Nat × Nat) : Int × Int :=
  let e : Int := (x.1.log2 : Int) - w
  -- m = x / 2^e in [1, 2): bounds at precision w
  let s := x.1.log2
  let m := if w ≤ s then (x.1 / 2 ^ (s - w), x.2 / 2 ^ (s - w) + 1) else (x.1 * 2 ^ (w - s), x.2 * 2 ^ (w - s))
  let y := ((m.1 - 2 ^ w) * 2 ^ w / (m.1 + 2 ^ w), (m.2 - 2 ^ w) * 2 ^ w / (m.2 + 2 ^ w) + 1)
  let a := atanh2 w y
  let l := ln2At w
  if 0 ≤ e then (e * l.1 + a.1, e * l.2 + a.2) else (e * l.2 + a.1, e * l.1 + a.2)

/-- 2^w × (t + t r / k + …): the exponential series from its term t, `n` terms. -/
def expGo : Nat → Nat → Nat → Nat × Nat → Nat × Nat → Nat × Nat
  | 0, _, _, _, _ => (0, 8)
  | n + 1, w, k, t, r =>
    let t' := (t.1 * r.1 / 2 ^ w / (k + 1), t.2 * r.2 / 2 ^ w / (k + 1) + 1)
    let s := expGo n w (k + 1) t' r
    (t.1 + s.1, t.2 + s.2)

/-- Bounds at precision p of exp of a real whose bounds at any precision are `x`; `k` is near x / ln 2. -/
def expEnc (x : Nat → Int × Int) (p : Nat) : Int × Int :=
  let l8 := ln2At 64
  let k : Int := (x 64).1 / l8.1
  let w := p + 48 + k.toNat
  let l := ln2At (w + 16)
  let b := x (w + 16)
  -- r = x - k ln 2, at precision w
  let r := if 0 ≤ k then (b.1 - k * l.2, b.2 - k * l.1) else (b.1 - k * l.1, b.2 - k * l.2)
  let r := (r.1 / 2 ^ 16 - 1, r.2 / 2 ^ 16 + 1)
  let s := expGo (w / 2 + 10) w 0 (2 ^ w, 2 ^ w) (r.1.toNat, r.2.toNat)
  -- e^r ≥ 1 + r where r is slightly below 0
  let lo : Int := if r.1 < 0 then 2 ^ w + r.1 else s.1
  let sh : Int := (w : Int) - p - k
  let div := fun (z : Int) => if 0 ≤ sh then z / (2 ^ sh.toNat : Nat) else z * (2 ^ (-sh).toNat : Nat)
  (div lo, div s.2 + 1)

/-- Bounds at precision p of a sum of terms over a natural. -/
def algEnc (a : Alg) (d : Nat) (p : Nat) : Int × Int :=
  let ts := a.norm
  let m := a.minExp
  let q := p + 16
  let b := Alg.bounds q ts
  let sh : Int := (q : Int) - p - m
  let div := fun (z : Int) => if 0 ≤ sh then z / (2 ^ sh.toNat : Nat) else z * (2 ^ (-sh).toNat : Nat)
  (div b.1 / d, div b.2 / d + 1)

/-- Bounds of x × ln 2. -/
def mulLn2 (x : Nat → Int × Int) (p : Nat) : Int × Int :=
  let b := x (p + 16)
  let q := p + 16 + b.2.natAbs.log2
  let b := x q
  let l := ln2At q
  let lo := if 0 ≤ b.1 then b.1 * l.1 else b.1 * l.2
  let hi := if 0 ≤ b.2 then b.2 * l.2 else b.2 * l.1
  (lo / 2 ^ (2 * q - p), hi / 2 ^ (2 * q - p) + 1)

/-- Values beyond every format and scale of the part: 2^±8192. -/
def huge (neg : Bool) : Real := .alg (Alg.pow (if neg then -8192 * 1024 else 8192 * 1024)) 1

/-- e^x, or 2^x, for the exact sum x ≠ 0 (R130). -/
def expReal (two : Bool) (x : Alg) : Real :=
  let big := (x.sub (Alg.ofInt 4096)).sign == 1
  let low := (x.add (Alg.ofInt 4096)).sign == -1
  if big then huge false
  else if low then huge true
  else
    -- 2^x is a term of the grid where 1024 x is whole
    match two, (x.shift (1024 * 10)).norm, (x.shift (1024 * 10)).minExp with
    | true, [(0, c)], m => if c % (2 ^ (-m).toNat : Nat) = 0 then .alg (Alg.pow (c / (2 ^ (-m).toNat : Nat))) 1
        else .enc (expEnc (mulLn2 (algEnc x 1)))
    | true, _, _ => .enc (expEnc (mulLn2 (algEnc x 1)))
    | false, _, _ => .enc (expEnc (algEnc x 1))

/-- Bounds of |log of c × 2^(k/1024)| for a positive term, natural or to base 2. -/
def logEnc (two : Bool) (c : Nat) (k : Int) (neg : Bool) (p : Nat) : Int × Int :=
  let w := p + 40 + k.natAbs.log2 + c.log2.log2
  let l := ln2At w
  let lc := lnAt w (c * 2 ^ w, c * 2 ^ w)
  -- k/1024 × ln 2
  let kl := if 0 ≤ k then (k * l.1 / 1024, k * l.2 / 1024 + 1) else (k * l.2 / 1024, k * l.1 / 1024 + 1)
  let v := (lc.1 + kl.1, lc.2 + kl.2)
  let v := if neg then (-v.2, -v.1) else v
  let v := (max v.1 0, max v.2 0)
  let v := if two then (v.1 * (2 ^ w : Nat) / l.2, v.2 * (2 ^ w : Nat) / l.1 + 1) else v
  (v.1 / (2 ^ (w - p) : Nat), v.2 / (2 ^ (w - p) : Nat) + 1)

/-- log of a positive term c × 2^(k/1024), natural or to base 2, as a value (R130). -/
def logVal (two : Bool) (c : Nat) (k : Int) : XVal :=
  let s := ((Alg.pow k).scale c).sub (Alg.ofInt 1) |>.sign
  if s = 0 then .zero false
  else if two && 2 ^ c.log2 = c then
    let n : Int := 1024 * c.log2 + k
    .fin (n < 0) (.alg (Alg.ofInt n.natAbs) 1024)
  else .fin (s < 0) (.enc (logEnc two c k (decide (s < 0))))

/-- The single term of a value that Fmt.value gives. -/
def Real.term : Real → Nat × Int
  | .alg [(c, k)] _ => (c.natAbs, k)
  | _ => (1, 0)

/-- The exact sum a finite value is. -/
def XVal.alg : XVal → Alg
  | .fin neg (.alg a _) => if neg then a.neg else a
  | _ => []

/-! ## Built-ins (R130, Table 4.5) -/

/-- A built-in: exp, exp2, log, log2, reciprocal, reciprocal square root. -/
inductive Builtin where
  | exp | exp2 | log | log2 | recip | rsqrt
  deriving DecidableEq, Repr

/-- The built-in of an fn code (R261). -/
def Builtin.ofCode : Nat → Option Builtin
  | 0 => some .exp | 1 => some .exp2 | 2 => some .log | 3 => some .log2 | 4 => some .recip | 5 => some .rsqrt
  | _ => none

/-- The exact result of a built-in and the flags of IEEE 754-2019 for its special cases; the default NaN of an invalid
operation is a NaN without payload. -/
def Builtin.eval (b : Builtin) (v : XVal) : XVal × Flags :=
  let inval : XVal × Flags := (.nan false 0 false, { nv := true })
  match v with
  | .nan .. => (v, {})
  | .nar => (.nar, {})
  | .inf neg =>
    match b with
    | .exp | .exp2 => (if neg then .zero false else .inf false, {})
    | .log | .log2 => if neg then inval else (.inf false, {})
    | .recip => (.zero neg, {})
    | .rsqrt => if neg then inval else (.zero false, {})
  | .zero neg =>
    match b with
    | .exp | .exp2 => (.fin false (.alg (Alg.ofInt 1) 1), {})
    | .log | .log2 => (.inf true, { dz := true })
    | .recip | .rsqrt => (.inf neg, { dz := true })
  | .fin neg m =>
    let (c, k) := m.term
    match b with
    | .exp => (.fin false (expReal false v.alg), {})
    | .exp2 => (.fin false (expReal true v.alg), {})
    | .log => if neg then inval else (logVal false c k, {})
    | .log2 => if neg then inval else (logVal true c k, {})
    | .recip => (.fin neg (.alg (Alg.pow (-k)) c), {})
    | .rsqrt => if neg then inval else (.fin false (.root (Alg.pow (-k)) c), {})

/-! ## Table evaluation (R133) -/

/-- The input of a table evaluation: the exact scaled value, the code where it is an FP32 element used as it stands, and
the exact log in units of 2^-9 where it is a real L16 element. -/
structure FuIn where
  v : XVal
  f32 : Option Nat
  lam : Option Int

/-- The sign of an input, -0 negative. -/
def XVal.neg : XVal → Bool
  | .nan n .. | .inf n | .zero n | .fin n _ => n
  | .nar => false

/-- |x| of a code. -/
def Fmt.abs (f : Fmt) (c : Nat) : Nat := c % 2 ^ (f.bits - 1)

/-- floor(512 × log2 m), decided exactly (R133 step 3), for magnitudes in the range of FP32 under any scale log. -/
def floorLog9 (m : Real) : Int := searchMax (fun i => m.ge (Alg.pow (2 * i)) 1) 22 (-(2 ^ 21))

/-- The polynomial of a segment (R133 step 6). -/
def fuPoly (g : FuSeg) (t : Nat) : Nat := (fFma .fp32 .rne (fFma .fp32 .rne g.c2 t g.c1).1 t g.c0).1

/-- A dyadic that FP32 holds exactly. -/
def exactF32 (c : Int) (e : Int) : Nat := (roundAlg .fp32 .rne (Alg.dyadic c e) false).1

/-- A table image evaluated (R133): the FP32 result, the flags, invalid among them only for a signaling NaN, besides
those of the conversion of a scaled input, and what that conversion into FP32 counts (R38, Table 1.8). -/
def FuImage.eval (im : FuImage) (x : FuIn) : Nat × Flags × List FmtCount :=
  let f := Fmt.fp32
  if x.v.isNaN then (f.defaultNaN, { nv := x.v.signaling }, [])
  else
    let n := im.segs.length
    let neg := x.v.neg
    -- the FP32 value of the input, used by LINEAR mode and by identity sides
    let cv : Conv := match x.f32 with
      | some c => ⟨c, false, false, {}⟩
      | none => toF f .rne x.v 0
    let fl : Flags := if im.logmag then {} else cv.fl
    let xc := if im.sym = 0 then cv.code else f.abs cv.code
    -- a result, and whether it takes x as the identity side does
    let side := fun (mode val : Nat) => if mode = 1 then (xc, true) else (val, false)
    let (y, ident) : Nat × Bool :=
      if !im.logmag then
        let u : Nat :=
          if f.isInfCode xc then xc
          else
            let d := (f.dyad xc).alg.sub (f.dyad im.origin).alg
            (roundAlg f .rne (d.shift (-1024 * signed 8 im.width)) false).1
        let past := f.order u (exactF32 n 0) != -1
        if f.order u 0 == -1 then side im.loMode im.loVal
        else if past then side im.hiMode im.hiVal
        else
          let d := f.dyad u
          let i := if 0 ≤ d.e then d.m * 2 ^ d.e.toNat else d.m / 2 ^ (-d.e).toNat
          let t := if 0 ≤ d.e then 0 else exactF32 ((d.m % 2 ^ (-d.e).toNat : Nat)) d.e
          (fuPoly (im.segs.getD i default) t, false)
      else
        let l0 := signed 32 im.origin
        match x.v with
        | .zero _ => side im.loMode im.loVal
        | .inf _ => if im.sym = 0 && neg then (f.defaultNaN, false) else side im.hiMode im.hiVal
        | .fin _ m =>
          if im.sym = 0 && neg then (f.defaultNaN, false)
          else
            let lam := match x.lam with | some l => l | none => floorLog9 m
            let v := lam - l0
            if v < 0 then side im.loMode im.loVal
            else
              let i := v.toNat / 2 ^ im.width
              if n ≤ i then side im.hiMode im.hiVal
              else (fuPoly (im.segs.getD i default) (exactF32 (v.toNat % 2 ^ im.width : Nat) (-(im.width : Int))), false)
        | _ => (f.defaultNaN, false)
    let y := if im.sym = 1 && neg then (if f.isNaNCode y then f.quiet y else f.flip y) else y
    -- x is brought to FP32 at the start in LINEAR mode, on an identity side alone in LOGMAG mode
    (y, fl, if x.f32.isSome || (im.logmag && !ident) then [] else [cv.count f])

end Sys2Proof.Machine
end

