-- ==== Sys2Proof/Machine/OutConv.lean ====
section
/-! DEFINITION. The output converter: the output-stage record, the exact stages, the integer path and the end of a chain
(spec/03_output_conversion.md R84 to R92, R95; spec/02_products_and_sums.md R73, R74, R77). -/
namespace Sys2Proof.Machine

/-! ## The output-stage record (Table 3.1) -/

/-- An output-stage record. -/
structure Osr where
  rnd : Nat
  act : Nat
  fuSlot : Nat
  biasEn : Bool
  clipEn : Bool
  intPath : Bool
  resv : Nat
  preShift : Int
  shift : Nat
  mult : Nat
  clipLo : Nat
  clipHi : Nat
  biasBase : Nat
  zpBase : Nat
  zpGroups : Nat
  deriving DecidableEq, Repr

/-- The record in 64 bytes; `resv` is non-zero where a reserved bit is set. DESIGN CHOICE, unsafe (log 64): bytes 0x06
and 0x07, which Table 3.1 does not list, are reserved. -/
def Osr.ofBytes (bs : List Byte) : Osr :=
  let w := leAt bs 0 4
  { rnd := field w 0 2, act := field w 2 2, fuSlot := field w 4 4, biasEn := field w 8 1 == 1
    clipEn := field w 9 1 == 1, intPath := field w 10 1 == 1
    resv := field w 11 21 + leAt bs 6 2 + leAt bs 0x1E 34
    preShift := signed 8 (leAt bs 4 1), shift := leAt bs 5 1, mult := leAt bs 8 4
    clipLo := leAt bs 0x0C 4, clipHi := leAt bs 0x10 4, biasBase := leAt bs 0x14 4, zpBase := leAt bs 0x18 4
    zpGroups := leAt bs 0x1C 2 }

/-- An array of FP32 words at an SRAM offset is misplaced. -/
def badArray (off len : Nat) : Bool := off % 4 != 0 || sramSize < off + len

/-- OSR_INVALID (R85). -/
def Osr.invalid (o : Osr) (dst : Fmt) (za : Int) : Bool :=
  o.act == 3 || (o.intPath && !dst.isI) ||
  (o.intPath && (o.shift < 1 || 62 < o.shift || o.mult == 0 || o.preShift < -32 || 31 < o.preShift)) ||
  (o.clipEn && (Fmt.fp32.isNaNCode o.clipLo || Fmt.fp32.isNaNCode o.clipHi)) ||
  4096 < o.zpGroups || (za != 0 && o.zpGroups == 0) ||
  (o.biasEn && badArray o.biasBase 128) || (za != 0 && badArray o.zpBase (128 * o.zpGroups)) ||
  o.resv != 0

/-! ## Exact values with infinities (R86) -/

/-- A quantity of the output stage: an exact real, an infinity or a NaN; zeros carry no sign. -/
inductive Ext where
  | nan
  | inf (neg : Bool)
  | num (a : Alg)

/-- The quantity of an IEEE code. -/
def Ext.ofCode (f : Fmt) (c : Nat) : Ext :=
  if f.isNaNCode c then .nan else if f.isInfCode c then .inf (f.signBit c) else .num (f.dyad c).alg

/-- An exact sum. -/
def Ext.add : Ext → Ext → Ext
  | .nan, _ | _, .nan => .nan
  | .inf a, .inf b => if a = b then .inf a else .nan
  | .inf a, .num _ | .num _, .inf a => .inf a
  | .num a, .num b => .num (a.add b)

/-- A product with a non-zero integer. -/
def Ext.times (k : Int) : Ext → Ext
  | .nan => .nan
  | .inf n => .inf (n != decide (k < 0))
  | .num a => .num (a.scale k)

/-- A product with 2^(sc/512). -/
def Ext.pow (sc : Int) : Ext → Ext
  | .num a => .num (a.shift (2 * sc))
  | x => x

/-- a < b for quantities that are no NaN. -/
def Ext.lt : Ext → Ext → Bool
  | .nan, _ | _, .nan => false
  | .inf a, .inf b => a && !b
  | .inf a, .num _ => a
  | .num _, .inf b => !b
  | .num a, .num b => (a.sub b).sign == -1

/-- The source value of a rounding; a NaN is one without sign and payload. -/
def Ext.value : Ext → XVal
  | .nan => .nar
  | .inf n => .inf n
  | .num a => XVal.ofAlg a

/-! ## One entry (R86 to R90) -/

/-- What the pass over the rows needs: the tile, the record, the destination, the chain. -/
structure OutJob where
  n : Nat
  osr : Osr
  dd : Desc
  c : Chain
  za : Int
  seed : Option W64
  img : Option FuImage

/-- x of entry (row, col): cell + run, less the zero-point term (steps 1 and 2). -/
def OutJob.x (j : OutJob) (s : State) (row col : Nat) : Ext :=
  let run := Ext.ofCode .fp32 ((s.tile j.n).run (j.c.rowBase + row) col)
  let x := if j.c.spilled then (Ext.ofCode .fp64 (s.load (j.c.spillCell j.n row col) 8)).add run else run
  if j.za = 0 then x
  else
    let z := (List.range j.osr.zpGroups).foldl (fun z g =>
      z.add (Ext.ofCode .fp32 (s.load (sramBase j.n + j.osr.zpBase + 128 * g + 4 * col) 4))) (Ext.num [])
    x.add (z.times (-j.za))

/-- Steps 3 to 6, whether step 5 changed the value, and the flags and the counts of the conversions into FP32 before
and in the function unit (R38, R88); FP32P runs step 3 alone (R74). -/
def OutJob.y (j : OutJob) (s : State) (row col : Nat) : Ext × Bool × Flags × List FmtCount :=
  let y := (j.x s row col).pow j.c.scAcc
  if j.dd.fmt = .fp32p then (y, false, {}, [])
  else
    let y := if j.osr.biasEn then y.add (Ext.ofCode .fp32 (s.load (sramBase j.n + j.osr.biasBase + 4 * col) 4)) else y
    let lo := Ext.ofCode .fp32 j.osr.clipLo
    let hi := Ext.ofCode .fp32 j.osr.clipHi
    let (y, c1) := if j.osr.clipEn && y.lt lo then (lo, true) else (y, false)
    let (y, c2) := if j.osr.clipEn && hi.lt y then (hi, true) else (y, c1)
    if j.osr.act = 1 then (if y.lt (.num []) then (.num [], c2, {}, []) else (y, c2, {}, []))
    else
      match j.img with
      | none => (y, c2, {}, [])
      | some im =>
        let r := toF .fp32 .rne y.value 0
        let (c, fl, via) := im.eval ⟨Fmt.fp32.value r.code 0, some r.code, none⟩
        (Ext.ofCode .fp32 c, c2, r.fl.or fl, r.count .fp32 :: via)

/-- The integer path (R89, R90): `g` is the destination group scale. -/
def Osr.intRescale (o : Osr) (f : Fmt) (z g : Int) (y : Ext) : ElemRes :=
  let top : Int := (2 ^ (f.bits - 1) : Nat) - 1
  let bot : Int := -(2 ^ (f.bits - 1) : Nat)
  match y with
  | .nan => { code := unsigned f.bits z, kind := some .nar, ovf := true }
  | _ =>
    let (a, sat, nz) : Int × Bool × Bool := match y.value with
      | .inf neg => (if neg then -(2 ^ 31) else 2 ^ 31 - 1, true, true)
      | .fin neg m =>
        let k := m.floorBy 33 (2 * g - 1024 * o.preShift)
        let a : Int := if neg then -(k : Int) else k
        (clampI (-(2 ^ 31)) (2 ^ 31 - 1) a, decide (a < -(2 ^ 31) ∨ 2 ^ 31 - 1 < a), true)
      | _ => (0, false, false)
    let prod := a * o.mult
    let mag : Int := (prod.natAbs + 2 ^ (o.shift - 1)) / 2 ^ o.shift
    let r := if prod < 0 then -mag else mag
    let q := r + z
    { code := unsigned f.bits (clampI bot top q)
      kind := some (if prod = 0 then .zero
        else .bin (contourBin (.alg (Alg.dyadic prod.natAbs (-(o.shift : Int))) 1) 0))
      ovf := sat || decide (q < bot ∨ top < q)
      unf := nz && decide (r = 0) }

/-- The element of entry (row, col): its indices, and its result or the fault of its group scale (R86, R95). -/
def OutJob.elem (j : OutJob) (s : State) (row col : Nat) : List Nat × Except Nat ElemRes :=
  let at_ := [32 * j.c.rc + col, row, 0, 0, 0]
  match (s.tile j.n).elemScale j.dd at_ with
  | .error c => (at_, .error c)
  | .ok g =>
    let (y, clipped, fl, via) := j.y s row col
    if j.osr.intPath then
      (at_, .ok { j.osr.intRescale j.dd.fmt j.dd.zp g y with clipped := clipped, fl := fl, via := via })
    else
      let u := match j.seed with
        | some sd => drawConv sd j.dd.tid j.dd.sid (32 * j.c.rc + col + j.c.n * row)
        | none => 0
      let r := convElem j.dd j.osr.rnd u g y.value
      (at_, .ok { r with clipped := clipped, fl := fl.or r.fl, via := via })

/-- The live columns of a chain. -/
def Chain.cols (c : Chain) : Nat := min 32 (c.n - 32 * c.rc)

/-- The elements of the pass, row by row. -/
def OutJob.elems (j : OutJob) (s : State) : List (List Nat × Except Nat ElemRes) :=
  (List.range (j.c.rows * j.c.cols)).map (fun i => j.elem s (i / j.c.cols) (i % j.c.cols))

/-- The elements written with their counts; `sel` says which are written (R226). -/
def State.writeAt (s : State) (n : Nat) (d : Desc) (rs : List (List Nat × Except Nat ElemRes)) (sel : Nat → Bool) :
    State :=
  (rs.zipIdx).foldl (fun s p =>
    match p.1.2 with
    | .error _ => s
    | .ok r => if sel p.2 then (s.setElem d p.1.1 r.code).countElem n d r else s) s

/-! ## The close of a chain -/

/-- The SRAM ranges, as window offsets and lengths, that the converter reads: the record, the biases, and the
zero-point sums (R84, R85, R92). -/
def ConvOp.reads (v : ConvOp) (o : Osr) : List (Nat × Nat) :=
  [(v.op.osr, 64)] ++ (if o.biasEn && v.op.dout.fmt != .fp32p then [(o.biasBase, 128)] else []) ++
  (if v.za != 0 then [(o.zpBase, 128 * o.zpGroups)] else [])

/-- What stops the pass before it reads anything but the record: the record out of place, R85, R30, R132, and a
destination or an array it reads over the cells of another chain (R71). -/
def ConvOp.fault (v : ConvOp) (s : State) (n : Nat) (o : Osr) : Option Nat :=
  let dd := v.op.dout
  firstFault [
    (!osrInside v.op.osr, cAddrUnmapped),
    (o.invalid dd.fmt v.za, eOsrInvalid),
    (!o.intPath && !dd.fmt.selOk o.rnd, eFmtUse),
    (o.act == 2 && dd.fmt != .fp32p && (NMap.find? (s.tile n).fu o.fuSlot).isNone, eFuEmpty),
    (s.touchesCells n dd.hull (some v.slot) ||
      (v.reads o).any (fun a => s.touchesCells n (arrayHull n a) (some v.slot)), eAccSpill)]

/-- The evaluations a stochastic pass draws: one for each distinct position i div 4 (R33). -/
def OutJob.evals (j : OutJob) : Nat :=
  ((List.range (j.c.rows * j.c.cols)).map (fun i =>
    (32 * j.c.rc + i % j.c.cols + j.c.n * (i / j.c.cols)) / 4)).eraseDups.length

/-- R77: the scale log of the register raised by 8192 for each replay, or SCALE_RANGE (R21). -/
def State.adjustScale (s : State) (n reg replays : Nat) : State × Bool :=
  let w := (s.tile n).dw reg 1
  let sc := signed 20 (bits w 0 20) + 8192 * replays
  if replays = 0 then (s, false)
  else if scInRange sc then (s.updTile n (fun t => t.setDw reg 1 (withSc w sc)), false)
  else (s, true)

/-- OUTPUT_CONVERSION (R84 to R95, R111): the pass over a closed chain, its cells released, R77, its token. -/
def State.convert (s : State) (n : Nat) (v : ConvOp) (c : Chain) : State :=
  let o := v.op
  let osr := Osr.ofBytes v.record
  -- the chain leaves its slot; its entries keep open values (R71, R73)
  let close := fun (s : State) =>
    ((s.freeEntries n c).releaseChain n v.slot).updFlight n o.seq (fun x => { x with replays := c.replays })
  match v.fault s n osr with
  | some code => (close s).failT n o.seq o.tok code
  | none =>
    let dd := o.dout
    let j : OutJob := ⟨n, osr, dd, c, v.za, v.seed,
      if osr.act = 2 && dd.fmt != .fp32p then NMap.find? (s.tile n).fu osr.fuSlot else none⟩
    let rs := j.elems s
    let es := rs.map (fun r => r.2)
    let fl := resFlags es
    let s := if v.seed.isSome then s.countEvals n j.evals else s
    match resFault es with
    | some code =>
      let k := s.freeCtr
      let sel := fun i => Config.freeBool (k + i)
      let s := (s.writeAt n dd rs sel).takeFree rs.length
      (close s).failT n o.seq o.tok code 0 fl (countedSlot dd es sel)
    | none =>
      let s := s.writeAt n dd rs (fun _ => true)
      let slot := countedSlot dd es (fun _ => true)
      let (s, bad) := (close s).adjustScale n o.outReg c.replays
      if bad then s.failT n o.seq o.tok eScaleRange 0 fl slot
      else
        -- the register has its new scale log, where the chain replayed, and is no longer pending (R77, R210)
        (s.done n o.seq fl slot).updFlight n o.seq (fun x => if c.replays = 0 then x else { x with pend := none })

/-- Whether a conversion has to wait: for earlier loads of what it reads, the scale register file (R93) and its
function-unit slot (R132); for earlier FNTs, which the function unit serves in issue order (R88); for an earlier HIST
on the Contour slot it counts into (R272). -/
def ConvOp.mustWait (v : ConvOp) (t : Tile) : Bool :=
  let seq := v.op.seq
  let dd := v.op.dout
  let slot := recordSlot v.record dd.fmt
  (dd.gs != 0 && t.srfPending seq) ||
  (match slot with
    | some k => t.slotPending seq k || t.tq.any (fun x => decide (x.seq < seq) && fOp x.issue.word == 0x8C)
    | none => false) ||
  t.histPending seq (if dd.ctrEn then some dd.ctrSlot else none)

/-- OUTPUT_CONVERSION (R86, R111): then the MXMs that waited for the chain run. -/
def execOutputConversion (tile slot : Nat) (s : State) : Res :=
  let t := s.tile tile
  match t.convs.find? (fun v => v.slot == slot), t.chain? slot with
  | some v, some c =>
    if !t.enginesRun || v.mustWait t then .next s
    else
      let s := s.setTile tile { t with convs := t.convs.filter (fun x => x.slot != slot) }
      .next ((s.convert tile v c).drainMatrix tile 8)
  | _, _ => .next s

end Sys2Proof.Machine
end

