-- ==== Sys2Proof/Machine/Vector.lean ====
section
/-! DEFINITION. The vector engine's element-wise instructions: CVT, VOP and LADD
(spec/08_nolpa_tensor_reference.md R256 to R260; spec/04_vector_and_functions.md R113 to R123). -/
namespace Sys2Proof.Machine

/-! ## The shape of an element-wise instruction -/

/-- The elements of a descriptor by linear index. -/
def Desc.indices (d : Desc) : List (List Nat) := (List.range d.count).map (coords d.ext)

/-- An instruction that writes elements of `d`: its first fault of R249, whether it draws (R338: it resolves as it
starts), a fault that follows its own rule after those, and its results, given the seed. -/
def State.runVec (s : State) (n : Nat) (o : TOp) (d : Desc) (first : Option Nat) (stoch : Bool)
    (rs : W64 → State → List (Except Nat ElemRes)) (late : Option Nat := none) : State :=
  let tok := fA o.issue.word
  match first with
  | some c => s.failT n o.seq tok c
  | none =>
    let seed? := if stoch then s.seedOf n o.rng d.tid d.sid else some 0
    match seed?, late with
    | none, _ => s.failT n o.seq tok eRngUnreg (pairDetail eRngUnreg d.tid d.sid)
    | some _, some c => s.failT n o.seq tok c
    | some seed, none =>
      let s := if stoch then s.countEvals n ((d.count + 3) / 4) else s
      s.runElems n o.seq tok d o.issue.ecc (rs seed s)

/-- The mask bits of an instruction after its checks; MEM_UE leaves an unspecified choice of the bytes written (R226).
-/
def State.runMask (s : State) (n seq tok base : Nat) (ecc : Ecc) (bs : List (Bool × Flags)) : State :=
  let (s, ue) := s.detectT ecc
  let k := s.freeCtr
  let s := (bs.zipIdx).foldl (fun s p =>
    if !ue || Config.freeBool (k + p.2 / 8) then s.setMaskBit base p.2 p.1.1 else s) s
  let fl := bs.foldl (fun f b => f.or b.2) {}
  if ue then (s.takeFree ((bs.length + 7) / 8)).failT n seq tok cMemUe 0 fl else s.done n seq fl none

/-- The draw of element `i` of a stochastic conversion into `d` (R33). -/
def Desc.draw (d : Desc) (seed : W64) (i : Nat) : Nat := drawConv seed d.tid d.sid i

/-! ## CVT -/

/-- A CVT in the vector engine (R256). -/
def State.startCvt (s : State) (n : Nat) (o : TOp) : State :=
  let w := o.issue.word
  let t := o.core (s.tile n)
  let dd := Desc.ofWords (t.d (fB w))
  let ds := Desc.ofWords (t.d (fC w))
  let rnd := fl w 0 2
  let first := s.checkOpnds n [⟨dd, .elems⟩] [⟨ds, .elems⟩] (!cvtOk ds.fmt dd.fmt || !dd.fmt.selOk rnd)
    (dd.ext != ds.ext) eVeShape
  s.runVec n o dd first (!dd.fmt.isF && rnd == 1) (fun seed s =>
    (dd.indices.zipIdx).map (fun p => do
      let v ← s.value n ds p.1
      let g ← (s.tile n).elemScale dd p.1
      return convElem dd rnd (dd.draw seed p.2) g v))

/-- CVT (R256). -/
def execCvt (i : Issue) (s : State) : Res := issueQ i (fun w => fOp w == 0x84) State.startCvt s

/-! ## Operands of VOP -/

/-- What a VOP works on: descriptors, and the broadcast value where bsc = 1 (R259). -/
structure VopArgs where
  fn : Nat
  rnd : Nat
  dd : Desc
  a : Desc
  b : Desc
  c : Desc
  bsc : Option W64

/-- The operands a word names. -/
def VopArgs.ofWord (t : Tile) (w : W64) : VopArgs :=
  ⟨fl w 0 8, fl w 8 2, Desc.ofWords (t.d (fB w)), Desc.ofWords (t.d (fC w)), Desc.ofWords (t.d (fD w)),
    Desc.ofWords (t.d (fl w 11 6)), if fl w 10 1 = 1 then some (t.s (fD w)) else none⟩

/-- The view of operand b. -/
def VopArgs.bView (v : VopArgs) : View :=
  match vopGroup v.fn with
  | some .word | some .dword | some .perm => .raw
  | _ => .elems

/-- The view of operand a. -/
def VopArgs.aView (v : VopArgs) : View :=
  match vopGroup v.fn with
  | some .word | some .dword => .raw
  | _ => .elems

/-- The destination as an operand. -/
def VopArgs.dst (v : VopArgs) : Opnd := ⟨v.dd, if vopMask v.fn then .mask v.a.count else v.aView⟩

/-- The sources as operands. -/
def VopArgs.srcs (v : VopArgs) : List Opnd :=
  ⟨v.a, v.aView⟩ :: (if vopHasB v.fn && v.bsc.isNone then [⟨v.b, v.bView⟩] else []) ++
  (if vopHasC v.fn then [⟨v.c, if v.fn = 0x40 then .mask v.a.count else .elems⟩] else [])

/-- The format rules of R258 are broken. -/
def VopArgs.fmtBad (v : VopArgs) : Bool :=
  let data := v.srcs.filter (fun o => match o.v with | .mask _ => false | _ => true)
  let all := (data.map (fun o => o.d)) ++ (if vopMask v.fn then [] else [v.dd])
  let like := fun (d : Desc) => d.fmtc == v.dd.fmtc && d.sc == v.dd.sc && d.zp == v.dd.zp && d.gs == v.dd.gs
  let raw32 := fun (d : Desc) => d.fmt.isI || d.fmt == .fp32 || d.fmt == .fp32p
  match vopGroup v.fn with
  | some .ieee => !(all.all (fun d => (d.fmt == .fp32 || d.fmt == .fp64) && d.fmtc == v.a.fmtc && d.sc == 0))
  | some .l => !(all.all (fun d => d.fmt.isL)) || (!vopMask v.fn && !v.dd.fmt.selOk v.rnd)
  | some .word => !(all.all raw32)
  | some .dword => !(all.all (fun d => d.fmt == .fp64))
  | some .sel => !(like v.a && like v.b)
  | some .perm => !(like v.a && raw32 v.b)
  | none => true

/-- The checks of a VOP (R249, R257). -/
def VopArgs.check (v : VopArgs) (s : State) (n : Nat) : Option Nat :=
  s.checkOpnds n [v.dst] v.srcs v.fmtBad (v.srcs.any (fun o => o.d.ext != v.dd.ext)) eVeShape

/-! ## The groups' results -/

/-- The IEEE group (R115): code and flags, operands as codes. -/
def ieeeOp (f : Fmt) (r : Rnd) (fn a b c : Nat) : FRes :=
  match fn with
  | 0x00 => fAdd f r a b
  | 0x01 => fSub f r a b
  | 0x02 => fMul f r a b
  | 0x03 => fFma f r a b c
  | 0x04 => fDiv f r a b
  | 0x05 => fSqrt f r a
  | 0x06 => fMin f a b
  | _ => fMax f a b

/-- An operand of the L group: its log in units of 2^-10 (R118). -/
inductive LVal where
  | nar | zero | real (neg : Bool) (k : Int)
  deriving DecidableEq, Repr

/-- An L code with a scale in units of 2^-9. -/
def LVal.ofCode (f : Fmt) (c : Nat) (sc : Int) : LVal :=
  if f.isNar c then .nar else if f.isZeroL c then .zero else .real (f.signBit c) (2 * (f.log9 c + sc))

/-- An element of an L operand. -/
def State.lval (s : State) (n : Nat) (d : Desc) (c : List Nat) : Except Nat LVal := do
  let g ← (s.tile n).elemScale d c
  return LVal.ofCode d.fmt (s.elem d c) (d.sc + g)

/-- The exact value of a log. -/
def LVal.value : LVal → XVal
  | .nar => .nar
  | .zero => .zero false
  | .real neg k => .fin neg (.alg (Alg.pow k) 1)

/-- Multiply, divide, reciprocal and the roots (R118, Table 4.2); an infinite value saturates and counts an overflow. -/
def lOp (fn : Nat) (a b : LVal) : XVal :=
  match fn, a, b with
  | 0x10, .nar, _ | 0x10, _, .nar | 0x11, .nar, _ | 0x11, _, .nar => .nar
  | 0x10, .real s x, .real t y => .fin (s != t) (.alg (Alg.pow (x + y)) 1)
  | 0x10, _, _ => .zero false
  | 0x11, .real s x, .real t y => .fin (s != t) (.alg (Alg.pow (x - y)) 1)
  | 0x11, .real s _, .zero => .inf s
  | 0x11, .zero, .real .. => .zero false
  | 0x11, _, _ => .nar
  | _, .nar, _ => .nar
  | 0x12, .zero, _ => .inf false
  | 0x12, .real s x, _ => .fin s (.alg (Alg.pow (-x)) 1)
  | 0x13, .zero, _ => .zero false
  | 0x13, .real s x, _ => if s then .nar else .fin false (.alg (Alg.pow (x / 2)) 1)
  | _, .zero, _ => .inf false
  | _, .real s x, _ => if s then .nar else .fin false (.alg (Alg.pow (-x / 2)) 1)

/-- The order of two L values that are not NaR, as a signed rank and a log. -/
def lLess : LVal → LVal → Bool
  | .real true x, .real true y => y < x
  | .real true _, .zero | .real true _, .real false _ | .zero, .real false _ => true
  | .real false x, .real false y => x < y
  | _, _ => false

/-- LCMP (R13, R14, R123): NaR is unordered. -/
def lCmp (fn : Nat) (a b : LVal) : Bool :=
  if a = .nar ∨ b = .nar then fn == 0x1B
  else
    match fn with
    | 0x18 => a == b
    | 0x19 => lLess a b
    | 0x1A => a == b || lLess a b
    | _ => false

/-- The word group at width `w` (R123): wrapping arithmetic, shifts by the low 5 or 6 bits. -/
def wordOp (fn w a b : Nat) : Nat :=
  let m := 2 ^ w
  let f := if 0x30 ≤ fn then fn - 0x30 else fn - 0x20
  let sh := b % w
  match f with
  | 0 => (a + b) % m
  | 1 => (a + m - b % m) % m
  | 2 => a * b % m
  | 3 => a &&& b
  | 4 => a ||| b
  | 5 => a ^^^ b
  | 6 => a * 2 ^ sh % m
  | 7 => a / 2 ^ sh
  | 8 => unsigned w (signed w a / (2 ^ sh : Nat))
  | 9 => if signed w a < signed w b then a else b
  | _ => if signed w a < signed w b then b else a

/-- ICMP.W (R123). -/
def wordCmp (fn a b : Nat) : Bool :=
  match fn with
  | 0x2C => a == b
  | 0x2D => signed 32 a < signed 32 b
  | _ => a < b

/-- An element in raw-word view (R247): I8 and I16 sign-extended to 32 bits. -/
def State.rawElem (s : State) (d : Desc) (c : List Nat) : Nat :=
  let v := s.elem d c
  if d.fmt.isI then unsigned 32 (signed d.fmt.bits v) else v

/-! ## VOP performed -/

/-- The bits of a broadcast operand. -/
def bscBits (v : W64) (w : Nat) : Nat := v.toNat % 2 ^ w

/-- Operand b of the IEEE group. -/
def VopArgs.fb (v : VopArgs) (s : State) (c : List Nat) : Nat :=
  match v.bsc with
  | some x => bscBits x v.a.fmt.bits
  | none => s.elem v.b c

/-- Operand b of the L group (R259). -/
def VopArgs.lb (v : VopArgs) (s : State) (n : Nat) (c : List Nat) : Except Nat LVal :=
  match v.bsc with
  | some x => .ok (LVal.ofCode .l16 (bscBits x 16) 0)
  | none => if vopHasB v.fn then s.lval n v.b c else .ok .zero

/-- Operand b of the word groups. -/
def VopArgs.wb (v : VopArgs) (s : State) (w : Nat) (c : List Nat) : Nat :=
  match v.bsc with
  | some x => bscBits x w
  | none => s.rawElem v.b c

/-- The result of a mask function at an element. -/
def VopArgs.maskRes (v : VopArgs) (s : State) (n : Nat) (c : List Nat) : Except Nat (Bool × Flags) :=
  match vopGroup v.fn with
  | some .ieee => .ok (fCmp v.a.fmt v.fn (s.elem v.a c) (v.fb s c))
  | some .l => do
    let a ← s.lval n v.a c
    let b ← v.lb s n c
    return (lCmp v.fn a b, {})
  | _ => .ok (wordCmp v.fn (s.rawElem v.a c) (v.wb s 32 c), {})

/-- The result of a function that writes elements. -/
def VopArgs.elemRes (v : VopArgs) (s : State) (n : Nat) (seed : W64) (c : List Nat) (i : Nat) : Except Nat ElemRes :=
  match vopGroup v.fn with
  | some .ieee =>
    let (x, fl) := ieeeOp v.a.fmt (Rnd.ofSel v.rnd) v.fn (s.elem v.a c) (v.fb s c)
      (if vopHasC v.fn then s.elem v.c c else 0)
    .ok { code := x, fl := fl }
  | some .l => do
    let a ← s.lval n v.a c
    let b ← v.lb s n c
    let g ← (s.tile n).elemScale v.dd c
    return convElem v.dd v.rnd (v.dd.draw seed i) g (lOp v.fn a b)
  | some .sel => .ok { code := if s.maskBit v.c.base i then s.elem v.a c else s.elem v.b c }
  | some .perm =>
    -- lanes of the pass that element i0 of its row belongs to (R113)
    let i0 := c.headD 0
    let j := i0 / 64 * 64 + s.rawElem v.b c % 64
    .ok { code := if j < v.dd.n 0 then s.elem v.a (j :: c.drop 1) else 0 }
  | some .dword => .ok { code := wordOp v.fn 64 (s.rawElem v.a c) (v.wb s 64 c) }
  | _ => .ok { code := wordOp v.fn 32 (s.rawElem v.a c) (v.wb s 32 c) % 2 ^ v.dd.fmt.bits }

/-- Results all without fault, or the first fault. -/
def allOk {α : Type} (l : List (Except Nat α)) : Except Nat (List α) := l.mapM id

/-- A VOP in the vector engine (R257 to R259). -/
def State.startVop (s : State) (n : Nat) (o : TOp) : State :=
  let v := VopArgs.ofWord (o.core (s.tile n)) o.issue.word
  let tok := fA o.issue.word
  let ecc := o.issue.ecc
  let seq := o.seq
  if vopMask v.fn then
    match v.check s n with
    | some c => s.failT n seq tok c
    | none =>
      let rs := v.a.indices.map (v.maskRes s n)
      match allOk rs with
      | .ok bs => s.runMask n seq tok v.dd.base ecc bs
      | .error c =>
        -- a group scale that is no scale (R19): which units were written is open (R226)
        let (s, ue) := s.detectT ecc
        let k := s.freeCtr
        let s := (rs.zipIdx).foldl (fun s p =>
          match p.1 with
          | .ok b => if Config.freeBool (k + p.2 / 8) then s.setMaskBit v.dd.base p.2 b.1 else s
          | .error _ => s) s
        (s.takeFree ((rs.length + 7) / 8)).failT n seq tok (if ue then cMemUe else c)
  else
    let stoch := vopGroup v.fn == some .l && v.rnd == 1
    -- PERM reads whole passes before it writes, so that an operation in place permutes the old elements
    s.runVec n o v.dd (v.check s n) stoch (fun seed s =>
      (v.dd.indices.zipIdx).map (fun p => v.elemRes s n seed p.1 p.2))

/-- Issue of a VOP with function `fn`. -/
def issueVop (fn : Nat) (i : Issue) (s : State) : Res :=
  issueQ i (fun w => fOp w == 0x88 && fl w 0 8 == fn) State.startVop s

/-- FADD (Table 8.4). -/
def execFadd (i : Issue) (s : State) : Res := issueVop 0x00 i s

/-- FSUB (Table 8.4). -/
def execFsub (i : Issue) (s : State) : Res := issueVop 0x01 i s

/-- FMUL (Table 8.4). -/
def execFmul (i : Issue) (s : State) : Res := issueVop 0x02 i s

/-- FMA (Table 8.4). -/
def execFma (i : Issue) (s : State) : Res := issueVop 0x03 i s

/-- FDIV (Table 8.4). -/
def execFdiv (i : Issue) (s : State) : Res := issueVop 0x04 i s

/-- FSQRT (Table 8.4). -/
def execFsqrt (i : Issue) (s : State) : Res := issueVop 0x05 i s

/-- FMIN (Table 8.4). -/
def execFmin (i : Issue) (s : State) : Res := issueVop 0x06 i s

/-- FMAX (Table 8.4). -/
def execFmax (i : Issue) (s : State) : Res := issueVop 0x07 i s

/-- FCMP.EQ (Table 8.4). -/
def execFcmpEq (i : Issue) (s : State) : Res := issueVop 0x08 i s

/-- FCMP.LT (Table 8.4). -/
def execFcmpLt (i : Issue) (s : State) : Res := issueVop 0x09 i s

/-- FCMP.LE (Table 8.4). -/
def execFcmpLe (i : Issue) (s : State) : Res := issueVop 0x0A i s

/-- FCMP.UN (Table 8.4). -/
def execFcmpUn (i : Issue) (s : State) : Res := issueVop 0x0B i s

/-- LMUL (Table 8.4). -/
def execLmul (i : Issue) (s : State) : Res := issueVop 0x10 i s

/-- LDIV (Table 8.4). -/
def execLdiv (i : Issue) (s : State) : Res := issueVop 0x11 i s

/-- LRCP (Table 8.4). -/
def execLrcp (i : Issue) (s : State) : Res := issueVop 0x12 i s

/-- LSQRT (Table 8.4). -/
def execLsqrt (i : Issue) (s : State) : Res := issueVop 0x13 i s

/-- LRSQRT (Table 8.4). -/
def execLrsqrt (i : Issue) (s : State) : Res := issueVop 0x14 i s

/-- LCMP.EQ (Table 8.4). -/
def execLcmpEq (i : Issue) (s : State) : Res := issueVop 0x18 i s

/-- LCMP.LT (Table 8.4). -/
def execLcmpLt (i : Issue) (s : State) : Res := issueVop 0x19 i s

/-- LCMP.LE (Table 8.4). -/
def execLcmpLe (i : Issue) (s : State) : Res := issueVop 0x1A i s

/-- LCMP.UN (Table 8.4). -/
def execLcmpUn (i : Issue) (s : State) : Res := issueVop 0x1B i s

/-- IADD.W (Table 8.4). -/
def execIaddW (i : Issue) (s : State) : Res := issueVop 0x20 i s

/-- ISUB.W (Table 8.4). -/
def execIsubW (i : Issue) (s : State) : Res := issueVop 0x21 i s

/-- IMUL.W (Table 8.4). -/
def execImulW (i : Issue) (s : State) : Res := issueVop 0x22 i s

/-- AND.W (Table 8.4). -/
def execAndW (i : Issue) (s : State) : Res := issueVop 0x23 i s

/-- OR.W (Table 8.4). -/
def execOrW (i : Issue) (s : State) : Res := issueVop 0x24 i s

/-- XOR.W (Table 8.4). -/
def execXorW (i : Issue) (s : State) : Res := issueVop 0x25 i s

/-- SLL.W (Table 8.4). -/
def execSllW (i : Issue) (s : State) : Res := issueVop 0x26 i s

/-- SRL.W (Table 8.4). -/
def execSrlW (i : Issue) (s : State) : Res := issueVop 0x27 i s

/-- SRA.W (Table 8.4). -/
def execSraW (i : Issue) (s : State) : Res := issueVop 0x28 i s

/-- IMIN.W (Table 8.4). -/
def execIminW (i : Issue) (s : State) : Res := issueVop 0x29 i s

/-- IMAX.W (Table 8.4). -/
def execImaxW (i : Issue) (s : State) : Res := issueVop 0x2A i s

/-- ICMP.EQ.W (Table 8.4). -/
def execIcmpEqW (i : Issue) (s : State) : Res := issueVop 0x2C i s

/-- ICMP.LT.W (Table 8.4). -/
def execIcmpLtW (i : Issue) (s : State) : Res := issueVop 0x2D i s

/-- ICMP.LTU.W (Table 8.4). -/
def execIcmpLtuW (i : Issue) (s : State) : Res := issueVop 0x2E i s

/-- IADD.D (Table 8.4). -/
def execIaddD (i : Issue) (s : State) : Res := issueVop 0x30 i s

/-- ISUB.D (Table 8.4). -/
def execIsubD (i : Issue) (s : State) : Res := issueVop 0x31 i s

/-- AND.D (Table 8.4). -/
def execAndD (i : Issue) (s : State) : Res := issueVop 0x33 i s

/-- OR.D (Table 8.4). -/
def execOrD (i : Issue) (s : State) : Res := issueVop 0x34 i s

/-- XOR.D (Table 8.4). -/
def execXorD (i : Issue) (s : State) : Res := issueVop 0x35 i s

/-- SLL.D (Table 8.4). -/
def execSllD (i : Issue) (s : State) : Res := issueVop 0x36 i s

/-- SRL.D (Table 8.4). -/
def execSrlD (i : Issue) (s : State) : Res := issueVop 0x37 i s

/-- SRA.D (Table 8.4). -/
def execSraD (i : Issue) (s : State) : Res := issueVop 0x38 i s

/-- SEL (Table 8.4). -/
def execSel (i : Issue) (s : State) : Res := issueVop 0x40 i s

/-- PERM (Table 8.4). -/
def execPerm (i : Issue) (s : State) : Res := issueVop 0x41 i s

/-! ## LADD -/

/-- The negation of an L value (R14). -/
def LVal.neg : LVal → LVal
  | .real s k => .real (!s) k
  | v => v

/-- The exact sum or difference of two L values (R120). -/
def lSum (sub : Bool) (a b : LVal) : XVal :=
  match a, if sub then b.neg else b with
  | .nar, _ | _, .nar => .nar
  | .zero, y => y.value
  | x, .zero => x.value
  | .real s x, .real t y =>
    XVal.ofAlg ((if s then (Alg.pow x).neg else Alg.pow x).add (if t then (Alg.pow y).neg else Alg.pow y))

/-- A LADD in the vector engine (R120, R260): the exact sum, or difference with sub = 1, converted. -/
def State.startLadd (s : State) (n : Nat) (o : TOp) : State :=
  let w := o.issue.word
  let t := o.core (s.tile n)
  let dd := Desc.ofWords (t.d (fB w))
  let da := Desc.ofWords (t.d (fC w))
  let db := Desc.ofWords (t.d (fD w))
  let sub := fl w 0 1 == 1
  let rnd := fl w 1 2
  let first := s.checkOpnds n [⟨dd, .elems⟩] [⟨da, .elems⟩, ⟨db, .elems⟩]
    (!(dd.fmt.isL && da.fmt.isL && db.fmt.isL) || !dd.fmt.selOk rnd) (dd.ext != da.ext || dd.ext != db.ext) eVeShape
  s.runVec n o dd first (rnd == 1) (fun seed s =>
    (dd.indices.zipIdx).map (fun p => do
      let a ← s.lval n da p.1
      let b ← s.lval n db p.1
      let g ← (s.tile n).elemScale dd p.1
      return convElem dd rnd (dd.draw seed p.2) g (lSum sub a b)))

/-- Issue of a LADD in either form. -/
def issueLadd (sub : Bool) (i : Issue) (s : State) : Res :=
  issueQ i (fun w => fOp w == 0x89 && (fl w 0 1 == 1) == sub) State.startLadd s

/-- LADD (R260). -/
def execLadd (i : Issue) (s : State) : Res := issueLadd false i s

/-- LADD with sub = 1 (R260). -/
def execLaddSub (i : Issue) (s : State) : Res := issueLadd true i s

end Sys2Proof.Machine
end

