-- ==== Sys2Proof/Machine/FuncUnit.lean ====
section
/-! DEFINITION. FNT and its fused form (spec/08_nolpa_tensor_reference.md R261, R262;
spec/04_vector_and_functions.md R130, R133, R134). -/
namespace Sys2Proof.Machine

/-- A destination that Table 1.8 permits from FP32 outside CVT and the output converter (DEDUCED for L4 and L6: log
17). -/
def fromF32Ok (f : Fmt) : Bool := f != .fp32p

/-- What an FNT reads from its word and registers. -/
structure FntArgs where
  fn : Nat
  slot : Nat
  rnd : Nat
  fused : Bool
  chan : Nat
  dd : Desc
  ds : Desc
  biasOff : Nat
  gainOff : Nat

/-- The operands a word names. -/
def FntArgs.ofWord (t : Tile) (w : W64) : FntArgs :=
  let rc := t.s (fD w)
  ⟨fl w 0 4, fl w 4 4, fl w 8 2, fl w 10 1 == 1, fl w 11 3, Desc.ofWords (t.d (fB w)), Desc.ofWords (t.d (fC w)),
    bits rc 0 32, bits rc 32 32⟩

/-- The format rules of R261, R262 and R30 are broken. -/
def FntArgs.fmtBad (f : FntArgs) : Bool :=
  let src := f.ds.fmt
  let dst := f.dd.fmt
  let dstOk :=
    if f.fused || f.fn == 15 then fromF32Ok dst
    else if src == .l16 then dst.isL || dst == .fp32 else dst == .fp32
  !(src == .l16 || src == .fp32) || !dstOk || !dst.selOk f.rnd

/-- The arrays of the fused form: window offsets and lengths. -/
def FntArgs.arrays (f : FntArgs) : List (Nat × Nat) :=
  if f.fused then [(f.biasOff, 4 * f.ds.n f.chan), (f.gainOff, 4 * f.ds.n f.chan)] else []

/-- The checks of an FNT (R249). DESIGN CHOICE, unsafe (log 64): a fused form whose chan is 5 to 7, which names no
dimension, faults with VE_SHAPE; R262 states no fault for it. -/
def FntArgs.check (f : FntArgs) (s : State) (n : Nat) : Option Nat :=
  s.checkOpnds n [⟨f.dd, .elems⟩] [⟨f.ds, .elems⟩] f.fmtBad (f.dd.ext != f.ds.ext || (f.fused && 4 < f.chan)) eVeShape
    (ins := f.arrays) (alignExtra := f.fused && (f.biasOff % 4 != 0 || f.gainOff % 4 != 0))

/-- x + b rounded to FP32 (R134). -/
def addF32 (x : XVal) (b : Nat) : Nat :=
  let f := Fmt.fp32
  match x with
  | .nar => f.defaultNaN
  | .nan .. => (toF f .rne x 0).code
  | _ =>
    if f.isNaNCode b then f.quiet b
    else
      match x with
      | .inf neg => if f.isInfCode b && f.signBit b != neg then f.defaultNaN else f.inf neg
      | .zero neg => if f.isZeroCode b then f.zero (neg && f.signBit b) else b
      | .fin neg (.alg a _) =>
        if f.isInfCode b then b
        else (roundAlg f .rne ((if neg then a.neg else a).add (f.dyad b).alg) false).1
      | _ => f.defaultNaN

/-- y × g, exact (R134): an invalid product gives the default NaN. -/
def mulExact (y g : Nat) : XVal × Bool :=
  let f := Fmt.fp32
  if f.isNaNCode y || f.isNaNCode g then
    ((if f.isNaNCode y then f.value y 0 else f.value g 0), f.isSNaN y || f.isSNaN g)
  else
    let neg := f.signBit y != f.signBit g
    if f.isInfCode y || f.isInfCode g then
      (if f.isZeroCode y || f.isZeroCode g then (.nan false 0 false, true) else (.inf neg, false))
    else if f.isZeroCode y || f.isZeroCode g then (.zero neg, false)
    else (.fin neg (.alg (Alg.dyadic ((f.dyad y).m * (f.dyad g).m : Nat) ((f.dyad y).e + (f.dyad g).e)) 1), false)

/-- The log of a real L16 element in units of 2^-9, scales included. -/
def elemLam (d : Desc) (c : Nat) (g : Int) : Option Int :=
  if d.fmt = .l16 && !Fmt.l16.isNar c && !Fmt.l16.isZeroL c then some (Fmt.l16.log9 c + d.sc + g) else none

/-- One element of FNT: `code` is its code, `x` its exact scaled value, `g` its group scale, `gd` the destination's. -/
def FntArgs.eval (f : FntArgs) (im : Option FuImage) (s : State) (n code : Nat) (x : XVal) (g gd : Int) (ch u : Nat) :
    ElemRes :=
  let out := fun (v : XVal) (fl : Flags) (via : List FmtCount) =>
    let r := convElem f.dd f.rnd u gd v
    { r with fl := r.fl.or fl, via := via }
  -- a built-in's FP32 result, rounded under the instruction's selector (R130)
  let builtin32 := fun (v : XVal) =>
    match Builtin.ofCode f.fn with
    | some b =>
      let (y, fl) := b.eval v
      let r := toF .fp32 (Rnd.ofSel f.rnd) y 0
      (r.code, r.fl.or fl, ([] : List FmtCount))
    | none => (Fmt.fp32.defaultNaN, ({} : Flags), [])
  if f.fused then
    let bias := s.load (sramBase n + f.biasOff + 4 * ch) 4
    let gain := s.load (sramBase n + f.gainOff + 4 * ch) 4
    let uc := addF32 x bias
    let uv := if x.signaling then x else Fmt.fp32.value uc 0
    let (y, fl, via) := match im with
      | some im => im.eval ⟨uv, if x.signaling then none else some uc, none⟩
      | none => builtin32 uv
    let (p, nv) := mulExact y gain
    out p { fl with nv := fl.nv || (nv && f.dd.fmt.isF) } via
  else
    match im with
    | some im =>
      let f32 := if f.ds.fmt = .fp32 && f.ds.sc = 0 && f.ds.gs = 0 then some code else none
      let (y, fl, via) := im.eval ⟨x, f32, elemLam f.ds code g⟩
      out (Fmt.fp32.value y 0) fl via
    | none =>
      match Builtin.ofCode f.fn with
      | some b => let (y, fl) := b.eval x; out y (if f.dd.fmt.isF then fl else {}) []
      | none => out .nar {} []

/-- An FNT in the function unit (R249, R261, R262). -/
def State.startFnt (s : State) (n : Nat) (o : TOp) : State :=
  let f := FntArgs.ofWord (o.core (s.tile n)) o.issue.word
  let im := if f.fn = 15 then NMap.find? (s.tile n).fu f.slot else none
  let late := if f.fn = 15 && im.isNone then some eFuEmpty else none
  s.runVec n o f.dd (f.check s n) (!f.dd.fmt.isF && f.rnd == 1) (fun seed s =>
    (f.dd.indices.zipIdx).map (fun p => do
      let g ← (s.tile n).elemScale f.ds p.1
      let v ← s.value n f.ds p.1
      let gd ← (s.tile n).elemScale f.dd p.1
      return f.eval im s n (s.elem f.ds p.1) v g gd (p.1.getD f.chan 0) (f.dd.draw seed p.2))) late

/-- Issue of an FNT of one row of the table. -/
def issueFnt (row : W64 → Bool) (i : Issue) (s : State) : Res :=
  issueQ i (fun w => fOp w == 0x8C && row w) State.startFnt s

/-- The plain form of function code `fn`. -/
def plainFnt (fn : Nat) (w : W64) : Bool := fl w 0 4 == fn && fl w 10 1 == 0

/-- FNT exp (R130). -/
def execFntExp (i : Issue) (s : State) : Res := issueFnt (plainFnt 0) i s

/-- FNT exp2 (R130). -/
def execFntExp2 (i : Issue) (s : State) : Res := issueFnt (plainFnt 1) i s

/-- FNT log (R130). -/
def execFntLog (i : Issue) (s : State) : Res := issueFnt (plainFnt 2) i s

/-- FNT log2 (R130). -/
def execFntLog2 (i : Issue) (s : State) : Res := issueFnt (plainFnt 3) i s

/-- FNT reciprocal (R130). -/
def execFntReciprocal (i : Issue) (s : State) : Res := issueFnt (plainFnt 4) i s

/-- FNT reciprocal square root (R130). -/
def execFntRsqrt (i : Issue) (s : State) : Res := issueFnt (plainFnt 5) i s

/-- FNT with a table image (R133). -/
def execFntTable (i : Issue) (s : State) : Res := issueFnt (plainFnt 15) i s

/-- FNT with F = 1, the fused form (R134). -/
def execFntF (i : Issue) (s : State) : Res := issueFnt (fun w => fl w 10 1 == 1) i s

end Sys2Proof.Machine
end

