-- ==== Sys2Proof/Machine/Reduce.lean ====
section
/-! DEFINITION. The reduction unit: RED in its eight operations (spec/04_vector_and_functions.md R124 to R129, R136 to R138;
spec/08_nolpa_tensor_reference.md R263, R264). -/
namespace Sys2Proof.Machine

/-! ## Rows and writes -/

/-- The number of rows of a source (R263). -/
def Desc.rowCount (d : Desc) : Nat := (d.ext.drop 1).foldl (· * ·) 1

/-- The indices of the elements of row `r`. -/
def Desc.row (d : Desc) (r : Nat) : List (List Nat) :=
  (List.range (d.n 0)).map (fun i => i :: coords (d.ext.drop 1) r)

/-- What an instruction writes outside element destinations: address, length in bytes, value. -/
abbrev Wr := Nat × Nat × Nat

/-- Writes made; `sel` says which (R226). -/
def State.putAll (s : State) (ws : List Wr) (sel : Nat → Bool) : State :=
  (ws.zipIdx).foldl (fun s p => if sel p.2 then s.store p.1.1 p.1.2.1 p.1.2.2 else s) s

/-- Conversions on the way counted into the format counters of tile `n` (R38, R110). -/
def State.countVia (s : State) (n : Nat) (l : List FmtCount) : State :=
  s.updTile n (fun t => l.foldl Tile.countConv t)

/-- An instruction whose results are writes: with a data fault, an unspecified choice of them (R226). `via`: what the
conversions of its inputs count. -/
def State.runWrites (s : State) (n seq tok : Nat) (ecc : Ecc) (fault : Option Nat) (ws : List Wr) (fl : Flags)
    (via : List FmtCount := []) : State :=
  let (s, ue) := s.detectT ecc
  let s := s.countVia n via
  match if ue then some cMemUe else fault with
  | none => (s.putAll ws (fun _ => true)).done n seq fl none
  | some c =>
    let k := s.freeCtr
    ((s.putAll ws (fun i => Config.freeBool (k + i))).takeFree ws.length).failT n seq tok c 0 fl

/-- The destination record `j` of size `sz`. -/
def recAt (d : Desc) (sz j : Nat) : Nat := d.base + sz * j

/-! ## MAX and MIN (R124) -/

/-- Whether `b` replaces `a` as the extreme. -/
def better (f : Fmt) (isMax : Bool) (a b : Nat) : Bool :=
  if f.isF then (if isMax then f.below a b else f.below b a)
  else
    let x := LVal.ofCode f a 0
    let y := LVal.ofCode f b 0
    if isMax then lLess x y else lLess y x

/-- The extreme of a row, its index, and flags. -/
def extreme (f : Fmt) (isMax : Bool) (row : List Nat) : Nat × Nat × Flags :=
  let isNan := fun c => if f.isF then f.isNaNCode c else f.isNar c
  let fl : Flags := { nv := f.isF && row.any f.isSNaN }
  match (row.zipIdx).find? (fun p => isNan p.1) with
  | some (c, i) => (if f.isF then f.quiet c else c, i, fl)
  | none =>
    match row.zipIdx with
    | [] => (if f.isF then f.defaultNaN else f.nar, 0xFFFFFFFF, {})
    | p :: ps =>
      let m := ps.foldl (fun m q => if better f isMax m.1 q.1 then q else m) p
      (m.1, m.2, fl)

/-! ## Sums (R125) -/

/-- An FP32 code as FP64: exact, a NaN with its payload and its quiet bit. -/
def widen (c : Nat) : Nat := if Fmt.fp32.isSNaN c then fp32to64 c - 2 ^ 51 else fp32to64 c

/-- What reading an element gives: its code in the format it is read into, flags, and what its conversion counts. -/
structure Loaded where
  code : Nat
  fl : Flags := {}
  via : List FmtCount := []
  deriving DecidableEq, Repr, Inhabited

/-- An exact value read into an IEEE format (Table 1.8). -/
def loadAs (f : Fmt) (v : XVal) : Loaded := let r := toF f .rne v 0; ⟨r.code, r.fl, [r.count f]⟩

/-- An element read as FP64 (R125): an FP32 or FP64 element without scales is read exactly. -/
def State.asF64 (s : State) (n : Nat) (d : Desc) (c : List Nat) : Except Nat Loaded := do
  if d.sc = 0 && d.gs = 0 && d.fmt = .fp64 then return { code := s.elem d c }
  else if d.sc = 0 && d.gs = 0 && d.fmt = .fp32 then return { code := widen (s.elem d c) }
  else return loadAs .fp64 (← s.value n d c)

/-- The lanes' count, sum and sum of squares. -/
structure Lane where
  cnt : Nat
  s : Nat
  q : Nat
  deriving DecidableEq, Repr, Inhabited

/-- One element entered into a lane: `step` gives the new sum and its flags. -/
def laneStep (step : Nat → Nat × Flags) (sq : Nat → Nat × Flags) (l : Lane) : Lane × Flags :=
  let (a, f) := step l.s
  let (b, g) := sq l.q
  (⟨l.cnt + 1, a, b⟩, f.or g)

/-- The tree over the lanes. -/
def laneTree : Nat → List Lane → Flags → Lane × Flags
  | 0, ls, fl => (ls.headD default, fl)
  | k + 1, ls, fl =>
    let h := 2 ^ k
    let pairs := (ls.take h).zip (ls.drop h)
    let out := pairs.map (fun p =>
      let (a, f) := fAdd .fp64 .rne p.1.s p.2.s
      let (b, g) := fAdd .fp64 .rne p.1.q p.2.q
      ((⟨p.1.cnt + p.2.cnt, a, b⟩ : Lane), f.or g))
    laneTree k (out.map (fun x => x.1)) (out.foldl (fun f x => f.or x.2) fl)

/-- The reduction of a row in the order of R125: for each element, the sum's step and the square's. -/
def laneSum (steps : List ((Nat → Nat × Flags) × (Nat → Nat × Flags))) : Lane × Flags :=
  let start : List Lane × Flags := (List.replicate 64 ⟨0, 0, 0⟩, {})
  let (ls, fl) := (steps.zipIdx).foldl (fun (acc : List Lane × Flags) p =>
    let (l, f) := laneStep p.1.1 p.1.2 (acc.1.getD (p.2 % 64) default)
    (setAt acc.1 (p.2 % 64) l, acc.2.or f)) start
  laneTree 6 ls fl

/-- The steps of an element for RED.SUM and RED.MOM. DESIGN CHOICE, unsafe (log 64): the operands of the fused step
are x, x and the sum of squares in that order, which decides whose NaN stays where both are NaN (R26); R125 gives no
order. -/
def momStep (mom : Bool) (x : Nat) : (Nat → Nat × Flags) × (Nat → Nat × Flags) :=
  (fun s => fAdd .fp64 .rne s x, fun q => if mom then fFma .fp64 .rne x x q else (q, {}))

/-! ## MOMFIN (R129) -/

/-- RNE(a / n) for a count n > 0. -/
def fDivCount (a n : Nat) : FRes :=
  let f := Fmt.fp64
  match nanResult f [a] with
  | some x => x
  | none =>
    if f.isInfCode a || f.isZeroCode a then (a, {}) else roundAlg f .rne (f.dyad a).alg false n

/-- Mean, variance and reciprocal deviation of a moment record. -/
def momfin (cnt sum sq eps : Nat) : Nat × Nat × Nat × Flags :=
  let f := Fmt.fp64
  let (mean, var, fl) : Nat × Nat × Flags :=
    if cnt = 0 then (0, 0, {})
    else
      let (mean, f1) := fDivCount sum cnt
      let (q, f2) := fDivCount sq cnt
      let (v, f3) := match nanResult f [q, mean] with
        | some x => x
        | none => fFma f .rne (f.flip mean) mean q
      (mean, if f.isNaNCode v || f.isZeroCode v || !f.signBit v then v else 0, (f1.or f2).or f3)
  let (a, f4) := fAdd f .rne var eps
  let (y, f5) := Builtin.rsqrt.eval (f.value a 0)
  let r := toF .fp32 .rne y 0
  (mean, var, r.code, ((fl.or f4).or f5).or r.fl)

/-! ## The soft maximum (R136 to R138) -/

/-- An element of the soft maximum as FP32, with the flags and the count of its conversion. -/
def softScore (d : Desc) (code : Nat) (v : XVal) : Loaded :=
  if d.fmt = .fp32 && d.sc = 0 && d.gs = 0 then { code := code } else loadAs .fp32 v

/-- p_i (R136 step 3): e^(x - m) in FP32. -/
def softExp (x m : Nat) : Nat × Flags :=
  let f := Fmt.fp32
  match nanResult f [x, m] with
  | some r => r
  | none =>
    if f.isInfCode x || f.isInfCode m then
      if f.isInfCode x && f.isInfCode m && f.signBit x == f.signBit m then invalid f
      else if f.isInfCode x == true && !f.signBit x || f.isInfCode m && f.signBit m then (f.inf false, {})
      else (0, {})
    else
      let d := (f.dyad x).alg.sub (f.dyad m).alg
      if d.sign == 0 then (0x3F800000, {})
      else
        let r := toF f .rne (.fin false (expReal false d)) 0
        (r.code, r.fl)

/-- The result of a row: m, s in FP64, p by position, and flags. -/
def softRow (xs : List (Nat × Bool)) : Nat × Nat × List Nat × Flags :=
  let (m, _, f0) := extreme .fp32 true (xs.map (fun x => x.1))
  let ps := xs.map (fun x => if x.2 then (0, ({} : Flags)) else softExp x.1 m)
  let (l, f1) := laneSum (ps.map (fun p => momStep false (widen p.1)))
  (m, l.s, ps.map (fun p => p.1), (ps.foldl (fun f p => f.or p.2) (f0.or f1)))

/-- y_i (R136 step 5, R137). -/
def softY (p s : Nat) : XVal :=
  let f := Fmt.fp64
  if Fmt.fp32.isNaNCode p then Fmt.fp32.value p 0
  else if f.isNaNCode s then f.value s 0
  else if f.isZeroCode s || Fmt.fp32.isZeroCode p then .zero false
  else
    let x := Fmt.fp32.dyad p
    let y := f.dyad s
    .fin false (.alg (Alg.dyadic x.m (x.e - y.e)) y.m)

/-- y × (dy - g), exact (R138). -/
def softDx (y dy g : Nat) : XVal × Bool :=
  let a := Ext.ofCode .fp32 y
  let b := (Ext.ofCode .fp32 dy).add ((Ext.ofCode .fp64 g).times (-1))
  let nans := (Fmt.fp32.isNaNCode y, Fmt.fp32.isNaNCode dy, Fmt.fp64.isNaNCode g)
  match nans with
  | (true, _, _) => (Fmt.fp32.value y 0, false)
  | (_, true, _) => (Fmt.fp32.value dy 0, false)
  | (_, _, true) => (Fmt.fp64.value g 0, false)
  | _ =>
    match a, b with
    | .num p, .num q => (XVal.ofAlg (p.mul q), false)
    | .inf n, .num q => if q.sign == 0 then (.nan false 0 false, true) else (.inf (n != (q.sign == -1)), false)
    | .num p, .inf n => if p.sign == 0 then (.nan false 0 false, true) else (.inf (n != (p.sign == -1)), false)
    | .inf n, .inf k => (.inf (n != k), false)
    | _, _ => (.nan false 0 false, true)

/-! ## RED performed -/

/-- What a RED reads from its word and registers. -/
structure RedArgs where
  op : Nat
  rnd : Nat
  acc : Bool
  status : Nat
  dd : Desc
  ds : Desc
  dx : Desc
  rs : W64

/-- The operands a word names. -/
def RedArgs.ofWord (t : Tile) (w : W64) : RedArgs :=
  ⟨fl w 0 4, fl w 4 2, fl w 6 1 == 1, fl w 10 22, Desc.ofWords (t.d (fB w)), Desc.ofWords (t.d (fC w)),
    Desc.ofWords (t.d (fD w)), t.s (fD w)⟩

/-- The side word of SOFTMAX (Table 8.6): mask, statistics and status offsets, and whether the mask applies. -/
def RedArgs.maskOff (r : RedArgs) : Nat := bits r.rs 0 22
def RedArgs.statsOff (r : RedArgs) : Nat := bits r.rs 22 19 * 8
def RedArgs.statusOff (r : RedArgs) : Nat := if r.op = 7 then r.status else bits r.rs 41 22
def RedArgs.maskEn (r : RedArgs) : Bool := bit r.rs 63

/-- Bytes of a row's mask. -/
def RedArgs.maskRow (r : RedArgs) : Nat := (r.ds.n 0 + 7) / 8

/-- Destination operand of a RED (Table 8.5). -/
def RedArgs.dst (r : RedArgs) : Opnd :=
  match r.op with
  | 0 | 1 => ⟨r.dd, .record 16 (r.dd.n 0)⟩
  | 2 => ⟨r.dd, .record 8 (r.dd.n 0)⟩
  | 3 => ⟨r.dd, .record 32 (r.dd.n 0)⟩
  | 5 => ⟨r.dd, .record 24 (r.dd.n 0)⟩
  | _ => ⟨r.dd, .elems⟩

/-- Source operands of a RED. -/
def RedArgs.srcs (r : RedArgs) : List Opnd :=
  match r.op with
  | 5 => [⟨r.ds, .record 32 (r.ds.n 0)⟩]
  | 7 => [⟨r.ds, .elems⟩, ⟨r.dx, .elems⟩]
  | _ => [⟨r.ds, .elems⟩]

/-- The format rules of Table 8.5, R20 and R128 are broken. -/
def RedArgs.fmtBad (r : RedArgs) : Bool :=
  let f := r.ds.fmt
  match r.op with
  | 0 | 1 => !(f == .fp32 || f == .fp64 || (f.isL && r.ds.gs == 0))
  | 2 | 3 => !(f == .fp32 || f == .fp64 || f.isL || f.isI)
  | 4 => r.dd.fmt != (if r.acc then .fp64 else .fp32p) || r.dd.sc != r.ds.sc || r.dd.gs != 0 || r.ds.gs != 0
  | 5 => false
  | 6 => !(f == .fp32 || f == .l16) || !fromF32Ok r.dd.fmt || !r.dd.fmt.selOk r.rnd
  | _ => f != .fp32 || r.dx.fmt != .fp32 || !fromF32Ok r.dd.fmt || !r.dd.fmt.selOk r.rnd

/-- The shape rules of R128, R263 and R264 are broken. -/
def RedArgs.shapeBad (r : RedArgs) : Bool :=
  match r.op with
  | 0 | 1 | 2 | 3 => r.dd.n 0 != r.ds.rowCount
  | 4 => r.ds.n 4 < 2 || 64 < r.ds.n 4 || !(r.ds.fmt == .fp32p || (r.acc && r.ds.fmt == .fp64)) ||
      r.dd.ext.take 4 != r.ds.ext.take 4 || r.dd.n 4 != 1
  | 5 => r.dd.n 0 != r.ds.n 0
  | 6 => r.dd.ext != r.ds.ext
  | _ => r.dd.ext != r.ds.ext || r.dx.ext != r.ds.ext

/-- The arrays that the soft maximum reads, by window offset and length: the mask; the status vector. -/
def RedArgs.ins (r : RedArgs) : List (Nat × Nat) :=
  let rows := r.ds.rowCount
  match r.op with
  | 6 => if r.maskEn then [(r.maskOff, rows * r.maskRow)] else []
  | 7 => [(r.statusOff, (rows + 7) / 8)]
  | _ => []

/-- The arrays that it writes: statistics and status vector. -/
def RedArgs.outs (r : RedArgs) : List (Nat × Nat) :=
  let rows := r.ds.rowCount
  match r.op with
  | 6 => [(r.statsOff, 8 * rows), (r.statusOff, (rows + 7) / 8)]
  | _ => []

/-- The checks of a RED (R249). -/
def RedArgs.check (r : RedArgs) (s : State) (n : Nat) : Option Nat :=
  s.checkOpnds n [r.dst] r.srcs r.fmtBad r.shapeBad eVeShape (ins := r.ins) (outs := r.outs)

/-- MAX and MIN performed. -/
def State.redExtreme (s : State) (n seq tok : Nat) (r : RedArgs) (ecc : Ecc) : State :=
  let rows := (List.range r.ds.rowCount).map (fun j => extreme r.ds.fmt (r.op == 0) ((r.ds.row j).map (s.elem r.ds)))
  let ws := (rows.zipIdx).flatMap (fun p => [(recAt r.dd 16 p.2, 8, p.1.1), (recAt r.dd 16 p.2 + 8, 8, p.1.2.1)])
  s.runWrites n seq tok ecc none ws (rows.foldl (fun f p => f.or p.2.2) {})

/-- The sum of a row, or the fault of an element's group scale. -/
def State.redRow (s : State) (n : Nat) (r : RedArgs) (j : Nat) : Except Nat (Lane × Flags × List FmtCount) := do
  let xs ← allOk ((r.ds.row j).map (s.asF64 n r.ds))
  let (l, fl) := laneSum (xs.map (fun x => momStep (r.op == 3) x.code))
  return (l, xs.foldl (fun f x => f.or x.fl) fl, xs.flatMap (fun x => x.via))

/-- SUM and MOM performed (R125, R126). -/
def State.redSum (s : State) (n seq tok : Nat) (r : RedArgs) (ecc : Ecc) : State :=
  let rows := (List.range r.ds.rowCount).map (s.redRow n r)
  let ws := (rows.zipIdx).flatMap (fun p =>
    match p.1 with
    | .error _ => []
    | .ok (l, _, _) =>
      if r.op = 2 then [(recAt r.dd 8 p.2, 8, l.s)]
      else
        let a := recAt r.dd 32 p.2
        [(a, 8, l.cnt), (a + 8, 8, l.s), (a + 16, 8, l.q), (a + 24, 8, 0)])
  let fault := rows.findSome? (fun x => match x with | .error c => some c | .ok _ => none)
  s.runWrites n seq tok ecc fault ws (rows.foldl (fun f p => match p with | .ok x => f.or x.2.1 | .error _ => f) {})
    (rows.flatMap (fun p => match p with | .ok x => x.2.2 | .error _ => []))

/-- The left fold of an element's partials (R128). -/
def State.redFold (s : State) (r : RedArgs) (c : List Nat) : FRes :=
  let f := r.dd.fmt
  let get := fun (j : Nat) =>
    let x := s.elem r.ds (c.take 4 ++ [j])
    if r.acc && r.ds.fmt == .fp32p then widen x else x
  (List.range (r.ds.n 4 - 1)).foldl (fun (acc : FRes) j =>
    let (v, fl) := fAdd f .rne acc.1 (get (j + 1))
    (v, acc.2.or fl)) (get 0, {})

/-- PSUM performed: what it writes into FP32P is a conversion of Table 1.8, and counts into the destination's Contour
(R103). -/
def State.redPsum (s : State) (n seq tok : Nat) (r : RedArgs) (ecc : Ecc) : State :=
  s.runElems n seq tok r.dd ecc (r.dd.indices.map (fun c =>
    let (v, fl) := s.redFold r c
    .ok { code := v, fl := fl, kind := if r.dd.fmt = .fp32p then some (ctrKind (Fmt.fp32p.value v 0) 0) else none }))

/-- MOMFIN performed (R129). -/
def State.redMomfin (s : State) (n seq tok : Nat) (r : RedArgs) (ecc : Ecc) : State :=
  let rs := (List.range (r.ds.n 0)).map (fun j =>
    let a := recAt r.ds 32 j
    momfin (s.load a 8) (s.load (a + 8) 8) (s.load (a + 16) 8) r.rs.toNat)
  let ws := (rs.zipIdx).flatMap (fun p =>
    let a := recAt r.dd 24 p.2
    [(a, 8, p.1.1), (a + 8, 8, p.1.2.1), (a + 16, 8, p.1.2.2.1)])
  s.runWrites n seq tok ecc none ws (rs.foldl (fun f p => f.or p.2.2.2) {})

/-- A row of the soft maximum: statistics, status bit, the elements' results. -/
structure SoftRes where
  m : Nat
  sum : Nat
  status : Bool
  elems : List (Except Nat ElemRes)
  fl : Flags
  via : List FmtCount

/-- One row of SOFTMAX (R136, R137), or the fault of a group scale. -/
def State.softmaxRow (s : State) (n : Nat) (r : RedArgs) (seed : W64) (j : Nat) : Except Nat SoftRes := do
  let cs := r.ds.row j
  let masked := fun (i : Nat) => r.maskEn && s.maskBit (sramBase n + r.maskOff + j * r.maskRow) i
  let xs ← allOk ((cs.zipIdx).map (fun p => do
    if masked p.2 then return (({ code := 0xFE800000 } : Loaded), true)
    else return (softScore r.ds (s.elem r.ds p.1) (← s.value n r.ds p.1), false)))
  let (m, sum, ps, fl) := softRow (xs.map (fun x => (x.1.code, x.2)))
  let rsum := toF .fp32 .rne (Fmt.fp64.value sum 0) 0
  let zero := Fmt.fp64.isZeroCode sum
  let es := ((cs.zip ps).zipIdx).map (fun p => do
    let g ← (s.tile n).elemScale r.dd p.1.1
    return convElem r.dd r.rnd (r.dd.draw seed (j * r.ds.n 0 + p.2)) g (softY p.1.2 sum))
  return ⟨m, rsum.code, zero, es, xs.foldl (fun f x => f.or x.1.fl) (fl.or rsum.fl),
    xs.flatMap (fun x => x.1.via) ++ [rsum.count .fp32]⟩

/-- SOFTMAX performed. -/
def State.redSoftmax (s : State) (n : Nat) (o : TOp) (r : RedArgs) : State :=
  let seq := o.seq
  let tok := fA o.issue.word
  let stoch := !r.dd.fmt.isF && r.rnd == 1
  match r.check s n, if stoch then s.seedOf n o.rng r.dd.tid r.dd.sid else some 0 with
  | some c, _ => s.failT n seq tok c
  | none, none => s.failT n seq tok eRngUnreg (pairDetail eRngUnreg r.dd.tid r.dd.sid)
  | none, some seed =>
    let rows := (List.range r.ds.rowCount).map (s.softmaxRow n r seed)
    let s := if stoch then s.countEvals n ((r.dd.count + 3) / 4) else s
    let es := rows.flatMap (fun x => match x with
      | .ok y => y.elems
      | .error c => List.replicate (r.ds.n 0) (.error c))
    let fl := rows.foldl (fun f x => match x with | .ok y => f.or y.fl | .error _ => f) (resFlags es)
    let stats := (rows.zipIdx).flatMap (fun p => match p.1 with
      | .ok y => [(sramBase n + r.statsOff + 8 * p.2, 4, y.m), (sramBase n + r.statsOff + 8 * p.2 + 4, 4, y.sum)]
      | .error _ => [])
    let setStatus := fun (s : State) (sel : Nat → Bool) => (rows.zipIdx).foldl (fun s p => match p.1 with
      | .ok y => if sel p.2 then s.setMaskBit (sramBase n + r.statusOff) p.2 y.status else s
      | .error _ => s) s
    let slot := countedSlot r.dd es
    let s := s.countVia n (rows.flatMap (fun x => match x with | .ok y => y.via | .error _ => []))
    let (s, ue) := s.detectT o.issue.ecc
    match if ue then some cMemUe else resFault es with
    | none =>
      let s := (s.writeElems n r.dd es (fun _ => true)).putAll stats (fun _ => true)
      (setStatus s (fun _ => true)).done n seq fl (slot (fun _ => true))
    | some c =>
      let k := s.freeCtr
      let k1 := k + es.length
      let k2 := k1 + stats.length
      let s := (s.writeElems n r.dd es (fun i => Config.freeBool (k + i))).putAll stats (fun i => Config.freeBool (k1 + i))
      ((setStatus s (fun i => Config.freeBool (k2 + i / 8))).takeFree (es.length + stats.length + rows.length)).failT
        n seq tok c 0 fl (slot (fun i => Config.freeBool (k + i)))

/-- One row of SOFTMAX_BWD (R138). -/
def State.softBwdRow (s : State) (n : Nat) (r : RedArgs) (seed : W64) (j : Nat) : List (Except Nat ElemRes) :=
  let cs := r.ds.row j
  let one := s.maskBit (sramBase n + r.statusOff) j
  let read := fun (d : Desc) (c : List Nat) => do
    let v ← s.value n d c
    return softScore d (s.elem d c) v
  let scale := fun (c : List Nat) => (s.tile n).elemScale r.dd c
  if one then cs.map (fun c => do
    let g ← scale c
    return convElem r.dd 0 0 g (.zero false))
  else
    match allOk (cs.map (fun c => do
      let y ← read r.ds c
      let d ← read r.dx c
      return (y, d))) with
    | .error c => cs.map (fun _ => .error c)
    | .ok yd =>
      let (l, fl) := laneSum (yd.map (fun p =>
        (fun a => fFma .fp64 .rne (widen p.1.code) (widen p.2.code) a, fun q => (q, {}))))
      let fl := yd.foldl (fun f p => (f.or p.1.fl).or p.2.fl) fl
      ((cs.zip yd).zipIdx).map (fun p => do
        let g ← scale p.1.1
        let (v, nv) := softDx p.1.2.1.code p.1.2.2.code l.s
        let e := convElem r.dd r.rnd (r.dd.draw seed (j * r.ds.n 0 + p.2)) g v
        return { e with fl := (e.fl.or fl).or { nv := nv }, via := p.1.2.1.via ++ p.1.2.2.via })

/-- A RED in the reduction unit (R263). -/
def State.startRed (s : State) (n : Nat) (o : TOp) : State :=
  let r := RedArgs.ofWord (o.core (s.tile n)) o.issue.word
  let seq := o.seq
  let tok := fA o.issue.word
  let ecc := o.issue.ecc
  if r.op = 6 then s.redSoftmax n o r
  else if r.op = 7 then
    s.runVec n o r.dd (r.check s n) (!r.dd.fmt.isF && r.rnd == 1) (fun seed s =>
      (List.range r.ds.rowCount).flatMap (s.softBwdRow n r seed))
  else
    match r.check s n with
    | some c => s.failT n seq tok c
    | none =>
      match r.op with
      | 0 | 1 => s.redExtreme n seq tok r ecc
      | 2 | 3 => s.redSum n seq tok r ecc
      | 4 => s.redPsum n seq tok r ecc
      | _ => s.redMomfin n seq tok r ecc

/-- Issue of a RED with operation `op`. -/
def issueRed (op : Nat) (i : Issue) (s : State) : Res :=
  issueQ i (fun w => fOp w == 0x90 && fl w 0 4 == op) State.startRed s

/-- RED.MAX (R124). -/
def execRedMax (i : Issue) (s : State) : Res := issueRed 0 i s

/-- RED.MIN (R124). -/
def execRedMin (i : Issue) (s : State) : Res := issueRed 1 i s

/-- RED.SUM (R125, R126). -/
def execRedSum (i : Issue) (s : State) : Res := issueRed 2 i s

/-- RED.MOM (R125, R126). -/
def execRedMom (i : Issue) (s : State) : Res := issueRed 3 i s

/-- RED.PSUM (R128). -/
def execRedPsum (i : Issue) (s : State) : Res := issueRed 4 i s

/-- RED.MOMFIN (R129). -/
def execRedMomfin (i : Issue) (s : State) : Res := issueRed 5 i s

/-- RED.SOFTMAX (R136, R137). -/
def execRedSoftmax (i : Issue) (s : State) : Res := issueRed 6 i s

/-- RED.SOFTMAX_BWD (R138). -/
def execRedSoftmaxBwd (i : Issue) (s : State) : Res := issueRed 7 i s

end Sys2Proof.Machine
end

