-- ==== Sys2Proof/Machine/Collect.lean ====
section
/-! DEFINITION. The collective engines (spec/10_links_and_collectives.md R312 to R326; spec/08_nolpa_tensor_reference.md
R269; spec/16_faults_ageing_service.md R443, R444). -/
namespace Sys2Proof.Machine

abbrev stSplit : Nat := 0x10
abbrev stEpoch : Nat := 0x11
abbrev stGroup : Nat := 0x12
abbrev stMismatch : Nat := 0x13
abbrev stDeferred : Nat := 0x15
abbrev stDropped : Nat := 0x16
abbrev stPeerAbort : Nat := 0x17

/-! ## Descriptors (Table 10.9) -/

abbrev cdCount (ws : List W64) : Nat := bits (descWord ws 0x18) 0 32
abbrev cdDtype (ws : List W64) : Nat := bits (descWord ws 0x18) 32 4
abbrev cdNorm (ws : List W64) : Bool := bit (descWord ws 0x18) 36
abbrev cdDrop (ws : List W64) : Bool := bit (descWord ws 0x18) 37
abbrev cdDlEn (ws : List W64) : Bool := bit (descWord ws 0x18) 38
abbrev cdRoot (ws : List W64) : Nat := bits (descWord ws 0x18) 40 12
abbrev cdGroup (ws : List W64) : Nat := bits (descWord ws 0x18) 52 10
abbrev cdTag (ws : List W64) : Nat := bits (ws.headD 0) 16 16
abbrev cdDeadline (ws : List W64) : W64 := descWord ws 0x20

/-- The collective operations (Table 10.8). -/
abbrev coAllreduce : Nat := 0x20
abbrev coReduceScatter : Nat := 0x21
abbrev coAllgather : Nat := 0x22
abbrev coBroadcast : Nat := 0x23
abbrev coAlltoall : Nat := 0x24
abbrev coBarrier : Nat := 0x25

/-- Bytes of an element as contributed (Table 10.7). -/
def inSize : Nat → Nat
  | 0 | 1 => 4
  | 2 => 8
  | 3 => 32
  | _ => 1

/-- Bytes of an element as accumulated, and as a result. -/
def accSize : Nat → Nat
  | 0 => 4
  | 1 | 2 => 8
  | 3 => 32
  | _ => 1

/-- DESC_INVALID (R316, R317). -/
def collInvalid (ws : List W64) : Bool :=
  let op := descOp ws
  let dt := cdDtype ws
  let w := descWord ws 0x18
  !(0x20 ≤ op && op ≤ 0x25) || bits (ws.headD 0) 10 6 != 0 || bit w 39 || bits w 62 2 != 0 ||
  !(if op = coBarrier then true else if op ≤ coReduceScatter then decide (dt ≤ 3) else dt == 4) ||
  (cdNorm ws && !(dt ≤ 2 && op ≤ coReduceScatter)) ||
  (!cdDrop ws && cdDlEn ws && descWord ws 0x30 == 0) ||
  (op != coBarrier && bits (descWord ws 0x08) 60 4 > 1) ||
  ([0x10, 0x28, 0x30].any (fun o => bits (descWord ws o) 60 4 > 1))

/-- Bytes of the result at a destination, before C is known: none for the operations that depend on C or the shard. -/
def contribBytes (ws : List W64) : Nat := cdCount ws * inSize (cdDtype ws)

/-- The local DA of an address word of a collective: a system address must name this device (R317). -/
def State.collDa (s : State) (w : W64) : Option Nat :=
  match s.addrWord w with
  | some (.da, a) => some a
  | _ => none

/-! ## Arithmetic (R315, R319) -/

/-- An element of a contribution in the accumulation format. -/
def toAcc (dt x : Nat) : Nat := if dt = 1 then widen x else if dt = 3 then x % 2 ^ 192 else x

/-- One step of the fold on an element: the accumulator, then a contribution's element. -/
def accAdd (dt acc x : Nat) : Nat :=
  match dt with
  | 0 => (fAdd .fp32 .rne acc x).1
  | 1 => (fAdd .fp64 .rne acc (widen x)).1
  | 2 => (fAdd .fp64 .rne acc x).1
  | _ =>
    (field acc 0 64 + field x 0 64) % 2 ^ 64 + (fAdd .fp64 .rne (field acc 64 64) (field x 64 64)).1 * 2 ^ 64 +
      (fAdd .fp64 .rne (field acc 128 64) (field x 128 64)).1 * 2 ^ 128

/-- Element `i` of bytes whose elements have `sz` bytes. -/
def elemAt (sz : Nat) (bs : List Byte) (i : Nat) : Nat := leAt bs (sz * i) sz

/-- A contribution of `n` elements folded into an accumulated vector; `none` before the first. -/
def foldData (dt n : Nat) (acc : Option (List Byte)) (x : List Byte) : List Byte :=
  (List.range n).flatMap (fun i =>
    let e := elemAt (inSize dt) x i
    toBytes (accSize dt) (match acc with
      | none => toAcc dt e
      | some a => accAdd dt (elemAt (accSize dt) a i) e))

/-- A NaN or an infinity among the elements of bytes in FP32 or FP64 (R319). -/
def anyNonfinite (f : Fmt) (n : Nat) (bs : List Byte) : Bool :=
  (List.range n).any (fun i => let c := elemAt (f.bits / 8) bs i; f.isNaNCode c || f.isInfCode c)

/-- The format of an accumulated element. -/
def accFmt (dt : Nat) : Fmt := if dt = 0 then .fp32 else .fp64

/-- The bounds of shard `r` of an E-element vector over n ranks (R316). -/
def shard (e n r : Nat) : Nat × Nat := (r * e / n, (r + 1) * e / n)

/-- The FP64 sum of squares of one shard, in ascending index with one rounding a step (R319). -/
def shardSq (dt e n r : Nat) (bs : List Byte) : Nat :=
  let (lo, hi) := shard e n r
  (List.range (hi - lo)).foldl (fun s i =>
    let c := elemAt (accSize dt) bs (lo + i)
    let x := if dt = 0 then widen c else c
    (fFma .fp64 .rne x x s).1) 0

/-- sumsq: the shard sums folded in ascending rank order (R319). -/
def sumSquares (dt e n : Nat) (bs : List Byte) : Nat :=
  (List.range n).foldl (fun s r => (fAdd .fp64 .rne s (shardSq dt e n r bs)).1) 0

/-! ## Streams on the links (R320, R321) -/

/-- The stream header of a COLL segment: bytes 0x12 to 0x3F. The flags are norm, late, dl_en, return, abort from bit 0;
their high byte carries the status of a failed comparison (assumption log 32). -/
def CollStream.header (c : CollStream) (eoff : Nat) : List Byte :=
  toBytes 2 c.group ++ toBytes 2 c.tag ++ toBytes 4 c.inst ++ toBytes 4 c.epoch ++ toBytes 1 c.opcode ++
  toBytes 1 c.dtype ++ toBytes 2 (b2n c.norm + c.late % 2 * 2 + b2n c.dlEn * 4 + b2n c.ret * 8 + b2n c.abort * 16 +
    c.status % 256 * 256) ++ toBytes 4 c.count ++ toBytes 4 eoff ++ toBytes 8 c.deadline.toNat ++ toBytes 2 c.root ++
  toBytes 4 c.onTime ++ toBytes 4 c.lateCnt ++ toBytes 4 c.carried

/-- The running counts that follow the header. -/
def CollStream.running (c : CollStream) : List Byte :=
  toBytes 8 c.expected ++ toBytes 8 (b2n c.nonfinite) ++ toBytes 8 c.sumsq.toNat

/-- The logical number of a rank of a group: the member list (R312). -/
def State.member (s : State) (g r : Nat) : Nat := s.load (s.fld (Csr.colGrpMem_list g) + 2 * r) 2

/-- The hub whose engine speaks for a group on this device: that of its lowest partition. -/
def State.groupHub (s : State) (g : Nat) : Nat :=
  (((List.range 32).find? (fun p => bit (s.word (Csr.colGrpPart g)) p)).map hubOf).getD 0

/-- A stream sent to a rank, cut into COLL segments (R297): at most 16,288 bytes of elements each, a whole number of
elements of every type. -/
def State.sendStream (s : State) (c : CollStream) (rank : Nat) : State :=
  let cuts := match cutBytes 16288 (c.data.length + 1) c.data with
    | [] => [[]]
    | l => l
  (cuts.zipIdx).foldl (fun s p =>
    let (xid, s) := s.newXid
    let data := CollStream.running c ++ p.1
    s.sendOut ⟨s.groupHub c.group, s.member c.group rank, s.mkSegment opColl xid 0 data.length 0 0 false data,
      CollStream.header c (p.2 * 16288 / accSize c.dtype), none⟩) s

/-! ## Events of a group (R330) -/

/-- The partitions of a group on this device. -/
def State.groupParts (s : State) (g : Nat) : List Nat :=
  (List.range 32).filter (fun p => bit (s.word (Csr.colGrpPart g)) p)

/-- An event that names a group: to the ring of each of its partitions and to the M level. -/
def State.raiseGroup (s : State) (g code sev : Nat) (d0 d1 : W64) : State :=
  let ev : Event := ⟨code, sev, 1, 3, s.groupHub g, none, d0, d1⟩
  let r := s.recOf ev
  ((s.groupParts g).foldl (fun s p => s.putPart p { r with ev := { ev with part := some p } }) s).putM r false

/-- What an event of a group carries in detail1: the group, and in detail0 the instance and a count (assumption log
32). -/
def groupDetail (g : Nat) : W64 := w64 g

/-! ## The ends of a contribution -/

/-- A contribution taken from the engine with a status: a COLL's status word is written, then its token (R269); a ring
descriptor takes its status. A contribution of a partition in reset leaves nothing (R376). -/
def State.endContrib (s : State) (c : Contrib) (st : Nat) : State :=
  let s := { s with contribs := s.contribs.erase c }
  if c.dead then s
  else
    match c.owner with
    | .mov n seq _ => (s.store (c.da + 4) 4 (st + 2 ^ 31)).endStatus n seq st
    | o => s.endMove o st

/-- The instance entry of a group. -/
def State.inst? (s : State) (g i : Nat) : Option Inst := s.insts.find? (fun x => x.group == g && x.idx == i)

/-- An instance entry changed, or made where there is none. -/
def State.updInst (s : State) (g i : Nat) (f : Inst → Inst) : State :=
  match s.inst? g i with
  | some _ => { s with insts := s.insts.map (fun x => if x.group = g ∧ x.idx = i then f x else x) }
  | none => { s with insts := s.insts ++ [f ⟨g, i, none, 0, false, none, none, false, 0, []⟩] }

/-- Local contributions of an instance. -/
def State.localCount (s : State) (g : Nat) : Nat := s.fld (Csr.colGrpCfg_local_m1 g) + 1

/-- An accepted contribution is finished with; the entry of its instance goes with the last local one (R313). -/
def State.countServed (s : State) (g i : Nat) : State :=
  let s := s.updInst g i (fun x => { x with served := x.served + 1 })
  { s with insts := s.insts.filter (fun x => !(x.group == g && x.idx == i && decide (s.localCount g ≤ x.served))) }

/-- An accepted contribution ends with a status. -/
def State.closeContrib (s : State) (c : Contrib) (st : Nat) : State := (s.endContrib c st).countServed c.group c.inst

/-- An instance ends on this device, with a status and nothing written, for the contributions accepted and for those
still to come (R320, R326, R444); it counts as completed. -/
def State.failInst (s : State) (g i st : Nat) : State :=
  let counted := (s.inst? g i).elim false (fun x => x.counted)
  let s := if counted then s else s.addFld (Csr.colGrpInst_instance g) 1
  let s := s.updInst g i (fun x => { x with folded := true, failed := x.failed.or (some st), counted := true })
  (s.contribs.filter (fun c => c.group = g ∧ c.inst = i)).foldl (fun s c => s.closeContrib c st) s

/-! ## Acceptance (R269, R312, R313, R322, R323) -/

/-- How many contributions a contributor has issued to a group since its entry was written. -/
def State.issuedBy (s : State) (g place : Nat) : Nat :=
  ((s.collSeq.find? (fun e => e.1 == g && e.2.1 == place)).map (fun e => e.2.2)).getD 0

/-- One more. -/
def State.countIssue (s : State) (g place : Nat) : State :=
  let k := s.issuedBy g place
  { s with collSeq := (g, place, k + 1) :: s.collSeq.filter (fun e => !(e.1 == g && e.2.1 == place)) }

/-- The status with which a collective descriptor is turned away before any access is made. -/
def State.collRefused (s : State) (ws : List W64) (p : Nat) : Option Nat :=
  let g := cdGroup ws
  if collInvalid ws then some stInvalid
  else if s.flag (Csr.colGrpCfg_valid g) = false ∨ bit (s.word (Csr.colGrpPart g)) p = false then some stGroup
  else if s.flag (Csr.colGrpCfg_split g) then some stSplit
  else none

/-- The addresses of a collective descriptor and the accesses that they name: kind, address word, bytes, alignment, and
whether it must be package memory (Table 10.9). The size of a result is not known yet. -/
def collAccesses (ws : List W64) : List (Access × W64 × Nat × Nat × Bool) :=
  let opt := fun (w : W64) (x : Access × W64 × Nat × Nat × Bool) => if w = 0 then [] else [x]
  let dt := cdDtype ws
  (if descOp ws = coBarrier then []
    else [(.read, descWord ws 0x08, contribBytes ws, min 8 (inSize dt), false),
      (.write, descWord ws 0x10, 0, min 8 (accSize dt), false)]) ++
  opt (descWord ws 0x28) (.write, descWord ws 0x28, 64, 8, false) ++
  opt (descWord ws 0x30) (.write, descWord ws 0x30, contribBytes ws, 1, true)

/-- Why the accesses of a collective descriptor fail, and the address at fault; the engine makes them at P (R378). -/
def State.collCheck (s : State) (ws : List W64) (p : Nat) : Option (Nat × Nat) :=
  (collAccesses ws).findSome? (fun (k, w, len, al, inPkg) =>
    match s.collDa w with
    | none => some (stInvalid, 0)
    | some a =>
      if a % al ≠ 0 ∨ (inPkg = true ∧ (match region a with | .pkg _ => false | _ => true) = true) then some (stAddr, a)
      else if len = 0 then none
      else (s.accessFail (.loc p true) none (hubOf p) k a len).map (fun st => (st, a)))

/-- Hub `h` has seen edge D in a cycle before the present one (R322). -/
def State.hubPast (s : State) (g h : Nat) (d : W64) : Bool :=
  decide (d.toNat < (s.seenHub h).toNat) || s.collPast.any (fun e => e.1 == h && e.2.1 == g && decide (d.toNat ≤ e.2.2.toNat))

/-- The deadline of a descriptor has passed at hub `h`. -/
def State.pastDeadline (s : State) (g h : Nat) (ws : List W64) : Bool := cdDlEn ws && s.hubPast g h (cdDeadline ws)

/-- A late contribution under DEFER is copied into its defer buffer (R323), unless one of its contributor and tag is
already carried. -/
def State.deferContrib (s : State) (c : Contrib) : State × Bool :=
  let tag := cdTag c.words
  if cdDrop c.words || s.carried.any (fun x => x.group == c.group && x.tag == tag && x.place == c.place) then (s, false)
  else
    let a := (s.collDa (descWord c.words 0x30)).getD 0
    ({ s.writeBytes a c.data with
       carried := s.carried ++ [⟨c.group, c.inst, tag, c.place, cdDtype c.words, cdCount c.words, a⟩] }, true)

/-- The bytes that a contribution's result may reach: those of its shard, or of every contribution where it gathers. -/
def State.resultSpan (s : State) (ws : List W64) : Nat :=
  let g := cdGroup ws
  let n := s.fld (Csr.colGrpCfg_n_m1 g) + 1
  let e := cdCount ws * accSize (cdDtype ws)
  if descOp ws = coReduceScatter then
    let (lo, hi) := shard (cdCount ws) n (s.fld (Csr.colGrpCfg_rank g))
    (hi - lo) * accSize (cdDtype ws)
  else if descOp ws = coAllgather then e * n * s.localCount g
  else if descOp ws = coBarrier then 0
  else e

/-- The hulls that a contribution accepted for a COLL still has to reach: its result, its record and its status (R71).
-/
def State.collHulls (s : State) (c : Contrib) : List (Int × Int) :=
  let hull := fun (w : W64) (n : Nat) => match s.collDa w with
    | some a => [((a : Int), ((a + n : Nat) : Int))]
    | none => []
  hull (descWord c.words 0x10) (s.resultSpan c.words) ++
  (if descWord c.words 0x28 = 0 then [] else hull (descWord c.words 0x28) 64) ++ [(((c.da + 4 : Nat) : Int), ((c.da + 8 : Nat) : Int))]

/-- A contribution accepted: the next of its contributor (R313). One of an instance that has failed ends with its status
(R320). -/
def State.accept (s : State) (c : Contrib) : State :=
  let g := c.group
  let i := s.issuedBy g c.place
  let s := (s.countIssue g c.place).updInst g i (fun x => { x with places := x.places ++ [c.place] })
  let c := { c with inst := i }
  match (s.inst? g i).bind (fun x => x.failed) with
  | some st => s.closeContrib c st
  | none =>
    let late := s.pastDeadline g (hubOf c.part) c.words
    let c := { c with late := late }
    let (s, d) := if late then s.deferContrib c else (s, false)
    let c := { c with deferred := d }
    let s := match c.owner with
      | .mov n seq _ => s.updFlight n seq (fun x => { x with hulls := s.collHulls c })
      | _ => s
    { s with contribs := s.contribs ++ [c] }

/-- A contribution taken by its hub's engine, or turned away with a status (R269, R312). `e` is what error detection
reports on the words that the engine reads. -/
def State.contribute (s : State) (place : Nat) (o : XOwner) (p da : Nat) (ws : List W64) (epoch : Nat) (e : Ecc) : State :=
  let a := (s.collDa (descWord ws 0x08)).getD 0
  let b := (s.collDa (descWord ws 0x30)).getD 0
  let n := if descOp ws = coBarrier then 0 else contribBytes ws
  let c : Contrib := ⟨cdGroup ws, 0, place, o, p, da, ws, epoch, false, false, s.bytes a n, false⟩
  match s.collRefused ws p with
  | some st => s.endContrib c st
  | none =>
    match (if n = 0 then none else s.heldAt (some p) none (hubOf p) a), s.collCheck ws p with
    | some x, _ => (s.holdAt x (.collIn place o p da ws epoch e)).markWaiting o
    | none, some (st, a) => (if st = stProt then s.deny (.loc p true) a else s).endContrib c st
    | none, none =>
      let copies := s.pastDeadline c.group (hubOf p) ws && !cdDrop ws
      let met := if eccWithin e .read a n != .ok then e else if copies then eccWithin e .write b n else .ok
      let (s, ue) := s.detect met (some p)
      if ue.isSome then s.endContrib c stMemUe else s.accept c

/-! ## The fold (R314 to R324) -/

/-- The accepted contributions of an instance in fold order: tiles, then rings, ascending. -/
def State.instContribs (s : State) (g i : Nat) : List Contrib :=
  (s.contribs.filter (fun c => c.group = g ∧ c.inst = i)).mergeSort (fun a b => a.place ≤ b.place)

/-- The stream header that a contribution starts (R320). -/
def Contrib.stream (c : Contrib) : CollStream :=
  let ws := c.words
  ⟨c.group, cdTag ws, c.inst, c.epoch, descOp ws, cdDtype ws, cdNorm ws, b2n (cdDrop ws), cdDlEn ws, false, false, 0,
    cdCount ws, 0, cdDeadline ws, cdRoot ws, 0, 0, 0, 0, false, 0, [], 0, [], 0⟩

/-- The status of the comparison of a contribution with a stream header (R320). -/
def Contrib.compare (c : Contrib) (h : CollStream) : Nat :=
  let x := c.stream
  if x.epoch ≠ h.epoch then stEpoch
  else if x.opcode = h.opcode ∧ x.dtype = h.dtype ∧ x.count = h.count ∧ x.root = h.root ∧ x.norm = h.norm ∧
      x.late = h.late ∧ x.deadline = h.deadline ∧ x.tag = h.tag then stOk
  else stMismatch

/-- The data of one contribution folded into a stream (R315, R319). -/
def foldOne (h : CollStream) (data : List Byte) : CollStream :=
  let first := h.onTime + h.carried = 0
  { h with
    data := foldData h.dtype h.count (if first then none else some h.data) data
    nonfinite := h.nonfinite || (h.norm && anyNonfinite (if h.dtype = 2 then .fp64 else .fp32) h.count data) }

/-- Bytes the spec gives no value to. -/
def State.freeBytes (s : State) (n : Nat) : List Byte × State :=
  ((List.range n).map (fun i => (Config.freeWord (s.freeCtr + i)).setWidth 8), s.takeFree n)

/-- The local contributions carried from earlier instances of a series into this one (R323). -/
def State.carriedFor (s : State) (h : CollStream) : List Carried :=
  s.carried.filter (fun x => x.group == h.group && x.tag == h.tag && decide (x.inst < h.inst))

/-- The bytes of a carried contribution. DESIGN CHOICE, unsafe (log 69): where it has another type or count than the
instance that folds it, the rules give its elements no value, and they are free. -/
def State.carriedBytes (s : State) (h : CollStream) (x : Carried) : List Byte × State :=
  let n := h.count * inSize h.dtype
  if x.dtype = h.dtype ∧ x.count = h.count then (s.bytes x.addr n, s) else s.freeBytes n

/-- The fold of an instance's local contributions into the stream of a reduction (R314): for each place the one
carried, then its own where it is on time. -/
def State.foldReduce (s : State) (h : CollStream) (cs : List Contrib) : CollStream × State :=
  let old := s.carriedFor h
  let places := ((cs.map (fun c => c.place)) ++ (old.map (fun x => x.place))).eraseDups.mergeSort (fun a b => a ≤ b)
  places.foldl (fun (q : CollStream × State) pl =>
    let (h, s) := match old.find? (fun x => x.place == pl) with
      | some x =>
        let (bs, s) := q.2.carriedBytes q.1 x
        let h := foldOne q.1 bs
        ({ h with carried := h.carried + 1 }, s)
      | none => q
    match cs.find? (fun c => c.place == pl && !c.late) with
    | some c =>
      let h := foldOne h c.data
      ({ h with onTime := h.onTime + 1 }, s)
    | none => (h, s)) (h, s)

/-- The contributors of an instance in fold order, where they are known: all of its local contributions have been
accepted, or as many contributors of the group have come as an instance has (R313). -/
def State.contributors (s : State) (g : Nat) (places : List Nat) : Option (List Nat) :=
  let sorted := fun (l : List Nat) => l.eraseDups.mergeSort (fun a b => a ≤ b)
  let all := sorted ((s.collSeq.filter (fun e => e.1 == g)).map (fun e => e.2.1))
  if places.length = s.localCount g then some (sorted places)
  else if all.length = s.localCount g then some all
  else none

/-- `slots` blocks of a gathered result of which some are missing: an open choice where they are not known. -/
def State.spread (s : State) (size : Nat) : Nat → List (List Byte) → List Byte × State
  | 0, _ => ([], s)
  | slots + 1, ds =>
    let gap := decide (ds.length ≤ slots) && (ds.isEmpty || Config.freeBool s.freeCtr)
    let s := s.takeFree 1
    let (b, s) := if gap then s.freeBytes size else (ds.headD [], s)
    let (r, s) := State.spread s size slots (if gap then ds else ds.drop 1)
    (b ++ r, s)

/-- The blocks of this device's contributions in a gathered result, in fold order (Table 10.8): each has its own
place, and one that is late has no stated bytes there (log 69). -/
def State.gatherLocal (s : State) (h : CollStream) (cs : List Contrib) : List Byte × State :=
  let mine := cs.filter (fun c => !c.late)
  match s.contributors h.group (cs.map (fun c => c.place)) with
  | some ps =>
    ps.foldl (fun (q : List Byte × State) pl =>
      let (b, s) := match mine.find? (fun c => c.place == pl) with
        | some c => (c.data, q.2)
        | none => q.2.freeBytes h.count
      (q.1 ++ b, s)) ([], s)
  | none => s.spread h.count (s.localCount h.group) (mine.map (fun c => c.data))

/-- What a device adds to a stream (R314, R316). The carried contributions of the series are used up: one that no
reduction can fold is given back (log 69). -/
def State.foldLocal (s : State) (h : CollStream) (rank : Nat) (cs : List Contrib) : CollStream × State :=
  let old := s.carriedFor h
  let count := (cs.filter (fun c => !c.late)).length
  let (h, s) :=
    if h.opcode ≤ coReduceScatter then s.foldReduce h cs
    else if h.opcode = coBarrier ∨ (h.opcode = coBroadcast ∧ rank ≠ h.root) then ({ h with onTime := h.onTime + count }, s)
    else
      let (bs, s) := s.gatherLocal h cs
      ({ h with
          data := if h.opcode = coBroadcast then bs.take h.count else h.data ++ bs
          onTime := h.onTime + count }, s)
  (h, { s with carried := s.carried.filter (fun x => !old.contains x) })

/-- The result at the last rank (R315, R319): the fold's data, zeros where nothing was folded; for the gathering
operations free bytes in place of what a stream does not bring. -/
def State.finalStream (s : State) (h : CollStream) (n : Nat) : CollStream × State :=
  if h.opcode ≤ coReduceScatter then
    let d := if h.onTime + h.carried = 0 then List.replicate (h.count * accSize h.dtype) 0 else h.data
    let nf := h.norm && (h.nonfinite || anyNonfinite (accFmt h.dtype) h.count d)
    ({ h with data := d, nonfinite := nf, sumsq := if h.norm then w64 (sumSquares h.dtype h.count n d) else 0, ret := true },
      s)
  else if h.opcode = coBarrier then ({ h with ret := true }, s)
  else
    let want := if h.opcode = coBroadcast then h.count else h.expected * h.count
    let (fill, s) := s.freeBytes (want - h.data.length)
    ({ h with data := h.data ++ fill, ret := true }, s)

/-- An instance whose result has come: passed down the list (R321); a failed one ends here at once, its event raised. -/
def State.takeResult (s : State) (h : CollStream) : State :=
  let g := h.group
  let rank := s.fld (Csr.colGrpCfg_rank g)
  let s := if rank = 0 then s else s.sendStream h (rank - 1)
  let s := s.updInst g h.inst (fun x => { x with result := some h, folded := true })
  let bad := if h.status ≠ 0 then h.status
    else if h.opcode = coAlltoall ∧ h.expected ≠ 0 ∧ h.count % h.expected ≠ 0 then stInvalid else stOk
  if bad ≠ stOk then
    let s := s.failInst g h.inst bad
    if bad = stEpoch then s.raiseGroup g 0x0607 sevFault (w64 h.inst) (groupDetail g)
    else if bad = stMismatch then s.raiseGroup g 0x060B sevFault (w64 h.inst) (groupDetail g)
    else s
  else
    let s := s.updInst g h.inst (fun x => { x with counted := true })
    let s := s.addFld (Csr.colGrpInst_instance g) 1
    if h.lateCnt = 0 then s
    else
      (s.addFld (Csr.colGrpInst_late_total g) h.lateCnt).raiseGroup g 0x0608 sevInfo (w64 (h.inst + h.lateCnt * 2 ^ 32))
        (groupDetail g)

/-- The job of every partition of a group aborts (R444), and the group raises PEER_ABORT once. -/
def State.peerAbort (s : State) (g : Nat) : State :=
  let s := if s.peerAborted.contains g then s
    else { s with peerAborted := g :: s.peerAborted }.raiseGroup g 0x0A02 sevWarn 0 (groupDetail g)
  let slots := ((s.groupParts g).filter (fun p => s.flag (Csr.prtPart_assigned_act p))).map
    (fun p => s.fld (Csr.prtPart_job_act p))
  slots.eraseDups.foldl (fun s j => s.abortJob j 0x0A02) s

/-- An instance of an aborted group passed on with the abort flag, both ways, and ended here (R443 step 5, R444). -/
def State.abortInst (s : State) (h : CollStream) : State :=
  let g := h.group
  let rank := s.fld (Csr.colGrpCfg_rank g)
  let n := s.fld (Csr.colGrpCfg_n_m1 g) + 1
  let h := { h with abort := true, data := [] }
  let s := if rank + 1 < n then s.sendStream { h with ret := false } (rank + 1) else s
  let s := if rank = 0 then s else s.sendStream { h with ret := true } (rank - 1)
  s.failInst g h.inst stPeerAbort

/-- The lowest instance of a group whose fold has not run here and for which something has come. -/
def State.nextInst (s : State) (g : Nat) : Option Nat :=
  let seen := (s.contribs.filter (fun c => c.group = g)).map (fun c => c.inst) ++
    (s.insts.filter (fun x => x.group = g)).map (fun x => x.idx)
  (seen.filter (fun i => match s.inst? g i with | some x => !x.folded | none => true)).min?

/-- COLL_FOLD_START (R322): the stream from rank - 1 has arrived, and every local contribution has been accepted or the
edge D seen, in a cycle before this one, by the hub of every contributor: a contribution accepted in that cycle is on
time. A BARRIER waits for every contribution (Table 10.8). The device folds and passes the stream on. -/
def State.foldStart (s : State) (g i : Nat) : State :=
  let rank := s.fld (Csr.colGrpCfg_rank g)
  let n := s.fld (Csr.colGrpCfg_n_m1 g) + 1
  let cs := s.instContribs g i
  let x := (s.inst? g i).getD default
  let head := x.inStream.or (if rank = 0 then (cs.head?).map Contrib.stream else none)
  match head with
  | none =>
    if s.abortGroups.contains g then
      match cs.head? with
      | some c => s.abortInst c.stream
      | none => s
    else s
  | some h =>
    if s.abortGroups.contains g then s.abortInst h
    else
      let seen := h.dlEn && ((s.groupParts g).map hubOf).all (fun hb => s.hubPast g hb h.deadline)
      if cs.length < s.localCount g ∧ (seen = false ∨ h.opcode = coBarrier) then s
      else
        let status := if h.status ≠ 0 then h.status
          else (((cs.map (fun c => c.compare h)).filter (· == stEpoch)).head?.or
            ((cs.map (fun c => c.compare h)).find? (· != stOk))).getD stOk
        let base := h.expected
        let (h', s) := if status = stOk then s.foldLocal h rank cs else (h, s)
        let h' := { h' with
          status := status, expected := h.expected + s.localCount g,
          lateCnt := h.lateCnt + (s.localCount g - (h'.onTime - h.onTime)) }
        let s := s.updInst g i (fun x => { x with folded := true, base := base })
        if rank + 1 < n then s.sendStream h' (rank + 1)
        else
          let (r, s) := if status = stOk then s.finalStream h' n else ({ h' with ret := true }, s)
          s.takeResult r

/-- COLL_FOLD_START. -/
def execCollFoldStart (group : Nat) (s : State) : Res :=
  .next (if group < 1024 ∧ s.flag (Csr.colGrpCfg_valid group) = true ∧ s.flag (Csr.colGrpCfg_split group) = false then
      match s.nextInst group with
      | some i => s.foldStart group i
      | none => s
    else s)

/-- COLL_DEADLINE (R322): the cycle in which a hub has seen its latest tick edge is over for a group's contributions:
what it accepts for that deadline later is late. -/
def execCollDeadline (hub group : Nat) (s : State) : Res :=
  .next (if hub < 4 ∧ group < 1024 then
      { s with collPast := (hub, group, s.seenHub hub) :: s.collPast.filter (fun e => !(e.1 == hub && e.2.1 == group)) }
    else s)

/-! ## Delivery (Table 10.8, R318, R323) -/

/-- The result record (Table 10.10). -/
def CollStream.recordBytes (h : CollStream) : List Byte :=
  toBytes 4 h.expected ++ toBytes 4 h.onTime ++ toBytes 4 h.lateCnt ++ toBytes 4 h.carried ++
  toBytes 4 (b2n (h.norm && h.nonfinite)) ++ toBytes 4 h.epoch ++ toBytes 8 (if h.norm then h.sumsq.toNat else 0) ++
  toBytes 8 h.count ++ List.replicate 24 0

/-- What a contribution's destination receives (Table 10.8): `pos` is its position in fold order. -/
def CollStream.resultFor (h : CollStream) (rank n pos : Nat) : List Byte :=
  if h.opcode = coReduceScatter then
    let (lo, hi) := shard h.count n rank
    sliceBytes h.data (lo * accSize h.dtype) ((hi - lo) * accSize h.dtype)
  else if h.opcode = coAlltoall then
    let b := h.count / h.expected
    (List.range h.expected).flatMap (fun j => sliceBytes h.data (j * h.count + pos * b) b)
  else if h.opcode = coBarrier then []
  else h.data

/-- Bytes of a result written by the collective engine, at P (R377, R378); the status of a write that fails. -/
def State.collWrite (s : State) (p a : Nat) (bs : List Byte) (e : Ecc) : State × Option Nat :=
  if bs.isEmpty then (s, none)
  else
    match s.accessFail (.loc p true) none (hubOf p) .write a bs.length with
    | some st => (if st = stProt then s.deny (.loc p true) a else s, some st)
    | none =>
      let (s, ue) := s.detect (eccWithin e .write a bs.length) (some p)
      if ue.isSome then (s, some stMemUe) else (s.writeBytes a bs, none)

/-- A contribution served from its instance's result: destination, then record, then status (R318, R323). -/
def State.serveContrib (s : State) (h : CollStream) (c : Contrib) (pos : Nat) (e : Ecc) : State :=
  let g := c.group
  let p := c.part
  if c.dead ∨ c.compare h ≠ stOk then s.closeContrib c (c.compare h)
  else
    let out := CollStream.resultFor h (s.fld (Csr.colGrpCfg_rank g)) (s.fld (Csr.colGrpCfg_n_m1 g) + 1) pos
    let dst := (s.collDa (descWord c.words 0x10)).getD 0
    let rec_ := (s.collDa (descWord c.words 0x28)).getD 0
    let record := if descWord c.words 0x28 = 0 then [] else CollStream.recordBytes h
    let meets := fun (a : Nat) (bs : List Byte) => if bs.isEmpty then none else s.heldAt (some p) none (hubOf p) a
    match (meets dst out).or (meets rec_ record) with
    | some x => { s with contribs := s.contribs.erase c }.holdAt x (.collOut h c pos e)
    | none =>
      let (s, f) := s.collWrite p dst out e
      let (s, f) := if f.isSome then (s, f) else s.collWrite p rec_ record e
      s.closeContrib c (f.getD (if !c.late then stOk else if c.deferred then stDeferred else stDropped))

/-- A contribution's own position in fold order (Table 10.8): an open choice while the contributors are not known. -/
def State.positionOf (s : State) (x : Inst) (h : CollStream) (c : Contrib) : Nat :=
  match s.contributors x.group x.places with
  | some ps => x.base + ps.idxOf c.place
  | none => (Config.freeWord s.freeCtr).toNat % max 1 h.expected

/-- The oldest instance of a group with a result of the operation: its contributions served (R316, R323). Its entry goes
once every local contribution, late ones among them, has been. -/
def State.serveInst (s : State) (g op : Nat) (e : Ecc) : State :=
  match s.insts.find? (fun x => x.group == g && x.failed.isNone &&
      (match x.result with | some h => h.opcode == op | none => false) &&
      !(s.instContribs g x.idx).isEmpty) with
  | none => s
  | some x =>
    match x.result with
    | none => s
    | some h =>
      (s.instContribs g x.idx).foldl (fun s c => s.takeFree 1 |>.serveContrib h c (s.positionOf x h c) e) s

/-- ALLREDUCE: each destination receives the fold of all elements. -/
def execAllreduce (group : Nat) (s : State) (ecc : Ecc := .ok) : Res := .next (s.serveInst group coAllreduce ecc)

/-- REDUCE_SCATTER: each destination receives its device's shard. -/
def execReduceScatter (group : Nat) (s : State) (ecc : Ecc := .ok) : Res := .next (s.serveInst group coReduceScatter ecc)

/-- ALLGATHER: each destination receives every contribution in fold order. -/
def execAllgather (group : Nat) (s : State) (ecc : Ecc := .ok) : Res := .next (s.serveInst group coAllgather ecc)

/-- BROADCAST: each destination receives the root's first contribution. -/
def execBroadcast (group : Nat) (s : State) (ecc : Ecc := .ok) : Res := .next (s.serveInst group coBroadcast ecc)

/-- ALLTOALL: each destination receives its block of every contribution. -/
def execAlltoall (group : Nat) (s : State) (ecc : Ecc := .ok) : Res := .next (s.serveInst group coAlltoall ecc)

/-- BARRIER: each contribution completes. -/
def execBarrier (group : Nat) (s : State) (ecc : Ecc := .ok) : Res := .next (s.serveInst group coBarrier ecc)

/-! ## Commands -/

/-- SEG_COLL (R298, R299, R321, R325, R444): discarded where it is too old or a packet of it was missed; the stream
from rank - 1 is held for the fold, the returning result is taken, an abort is passed on. A device with a split group
does nothing with its streams (R326). -/
def execSegColl (st : CollStream) (s : State) : Res :=
  let g := st.group
  if s.tooOld st.sendTick then .next ((List.range (max 1 st.xids.length)).foldl (fun s _ => s.expireSegment (s.groupHub g)) s)
  else if st.xids.any (fun x => s.segBroken st.src x (segClass opColl)) then .next s
  else if 1024 ≤ g ∨ s.flag (Csr.colGrpCfg_valid g) = false ∨ s.flag (Csr.colGrpCfg_split g) = true then .next s
  else if st.abort then
    let rank := s.fld (Csr.colGrpCfg_rank g)
    let n := s.fld (Csr.colGrpCfg_n_m1 g) + 1
    let s := if st.ret then (if rank = 0 then s else s.sendStream st (rank - 1))
      else if rank + 1 < n then s.sendStream st (rank + 1) else s
    .next ((s.failInst g st.inst stPeerAbort).peerAbort g)
  else if st.ret then
    .next (match s.inst? g st.inst with
      | some x => if x.result.isSome || x.failed.isSome then s else s.takeResult st
      | none => s.takeResult st)
  else .next (s.updInst g st.inst (fun x => { x with inStream := some st }))

/-- Where a COLL's descriptor may lie: 64-B aligned, in the tile's own SRAM or local package memory (R269). -/
def collFault (n a : Nat) : Option Nat :=
  if a % 64 ≠ 0 then some cAddrAlign
  else
    match region a, memRange a 64 with
    | .pkg _, true => none
    | .sram m _, true => if m = n then none else some cAddrUnmapped
    | _, _ => some cAddrUnmapped

/-- A tile's COLL names a split group, by a descriptor that it may read: the tile halts before the COLL issues (R326).
-/
def State.splitColl (s : State) (n : Nat) (w : W64) : Bool :=
  let p := partOf n
  let a := ((s.tile n).s (fB w)).toNat
  let g := cdGroup (s.words a 8)
  (collFault n a).isNone && (s.accessFail (.loc p true) none (hubOf p) .read a 64).isNone &&
    s.flag (Csr.colGrpCfg_valid g) && s.flag (Csr.colGrpCfg_split g) && bit (s.word (Csr.colGrpPart g)) p

/-- A COLL's descriptor is read and taken as a contribution (R269): the collective engine acts at P (R378). -/
def State.readColl (s : State) (n seq a epoch : Nat) (e : Ecc) : State :=
  let o : XOwner := .mov n seq none
  let p := partOf n
  match s.heldAt (some p) none (hubOf p) a with
  | some x => s.holdAt x (.collDesc n seq a epoch e)
  | none =>
    match s.accessFail (.loc p true) none (hubOf p) .read a 64 with
    | some st => (if st = stProt then s.deny (.loc p true) a else s).endStatus n seq st
    | none =>
      let (s, ue) := s.detect (eccWithin e .read a 64) (some p)
      let ws := s.words a 8
      if ue.isSome then s.endStatus n seq stMemUe
      else if bits (ws.headD 0) 8 2 ≠ 0 then s.endContrib ⟨cdGroup ws, 0, n, o, p, a, ws, 0, false, false, [], false⟩ stInvalid
      else s.contribute n o p a ws epoch e

/-- The effect of a COLL (R269). -/
def State.startColl (s : State) (n : Nat) (o : TOp) : State :=
  let w := o.issue.word
  let t := o.core (s.tile n)
  let a := (t.s (fB w)).toNat
  let s := s.updFlight n o.seq (fun f => { f with blocked := true })
  match collFault n a with
  | some c => (s.failT n o.seq (fA w) c).updFlight n o.seq (fun f => { f with blocked := false })
  | none => s.readColl n o.seq a (bits t.mode 0 32) o.issue.ecc

/-- COLL (R269, R326). -/
def execColl (i : Issue) (s : State) : Res :=
  let n := i.tile
  let t := s.tile n
  if n < 2048 ∧ t.canIssue = true ∧ t.fetch t.pc = some i.word ∧ i.parity = false ∧ coreOk n i.word = true ∧
      fOp i.word = 0x9C ∧ s.splitColl n i.word = true then
    .next (s.updTile n Tile.requestHalt)
  else issueE i (fun w => fOp w == 0x9C) (fun s n o => s.takeXfer n o.seq) State.startColl s

end Sys2Proof.Machine
end

