-- ==== Sys2Proof/Machine/Served.lean ====
section
/-! DEFINITION. Requests that come from other devices and from the host, served at their home
(spec/10_links_and_collectives.md R194, R298, R299; spec/13_partitions_and_protection.md R377, R382, R383, R388;
spec/06_memory_and_ordering.md R167, R169). -/
namespace Sys2Proof.Machine

/-! ## Segments (R298, R299) -/

/-- An answer sent back to the requester of a segment. -/
def State.answer (s : State) (g : Segment) (op da status : Nat) (data : List Byte) : State :=
  s.sendSegment (hubOf g.part) g.src (s.mkSegment op g.xid da data.length status g.part g.priv data)

/-- The origin of a segment's accesses (R382). -/
def Segment.origin (g : Segment) : Origin := .remote g.src g.part g.priv

/-- The access that a request makes at its home. -/
def segAccess (g : Segment) : Access × Nat :=
  if g.op = opWrite then (.write, g.data.length) else if g.op = opRead then (.read, g.bytes) else (.atomic, 8)

/-- A request answered with a status, nothing done. -/
def State.refuseSegment (s : State) (g : Segment) (st : Nat) : State :=
  s.answer g (if g.op = opRead then opRdata else opAck) g.da st []

/-- The access of a request performed at its home, and its answer: the data of a READ in segments of at most 16,352
bytes; one ACK after the data of a WRITE or the add of a SIGNAL. -/
def State.performSegment (s : State) (g : Segment) : State :=
  if g.op = opWrite then (s.writeBytes g.da g.data).answer g opAck g.da stOk []
  else if g.op = opRead then
    ((cutBytes segData (g.bytes + 1) (s.bytes g.da g.bytes)).zipIdx).foldl (fun s p =>
      s.answer g opRdata (g.da + segData * p.2) stOk p.1) s
  else (s.store g.da 8 (s.load g.da 8 + 1)).answer g opAck g.da stOk []

/-- A request at its home: held at a fenced crossing, answered with the status of its access, or performed. `e` is
what error detection reports on the words that it reads. -/
def State.homeSegment (s : State) (g : Segment) (e : Ecc) : State :=
  let (k, n) := segAccess g
  let hub := hubOf g.part
  match s.heldAt none none hub g.da with
  | some x => s.holdAt x (.seg g e)
  | none =>
    match s.accessFail (Segment.origin g) none hub k g.da n with
    | some st => (if st = stProt then s.deny (Segment.origin g) g.da else s).refuseSegment g st
    | none =>
      let (s, ue) := s.detect (eccWithin e k g.da n) none
      if ue.isSome then s.refuseSegment g stMemUe else s.performSegment g

/-- A request received: discarded and counted when it is past its life (R299), discarded when a packet of it was
missed (R298: the packet's own receipt answers it), or served. -/
def State.serveSegment (s : State) (g : Segment) (e : Ecc) : State :=
  if s.tooOld g.sendTick then s.expireSegment (hubOf g.part % 4)
  else if s.segBroken g.src g.xid (segClass g.op) then s
  else s.homeSegment g e

/-- SEG_WRITE. -/
def execSegWrite (seg : Segment) (s : State) (ecc : Ecc := .ok) : Res := .next (s.serveSegment { seg with op := opWrite } ecc)

/-- SEG_READ. -/
def execSegRead (seg : Segment) (s : State) (ecc : Ecc := .ok) : Res := .next (s.serveSegment { seg with op := opRead } ecc)

/-- SEG_SIGNAL (R194): 1 added to a u64. -/
def execSegSignal (seg : Segment) (s : State) (ecc : Ecc := .ok) : Res := .next (s.serveSegment { seg with op := opSignal } ecc)

/-! ## The host's accesses to memory -/

/-- The partition that a host access concerns (R170): that of a VF. -/
def Who.part? : Who → Option Nat
  | .vf p => some p
  | _ => none

/-- A host read or write (`v`) of memory at its home. A denied read is answered Unsupported Request, a denied write
discarded (R383). DESIGN CHOICE, safe (log 70): no rule gives the answer of a read that meets an uncorrectable error
or cannot reach its home; it is Unsupported Request too, and such a write is discarded. -/
def State.hostMem (s : State) (w : Who) (a size : Nat) (v : Option W64) (e : Ecc) : State :=
  let o := Who.origin w
  let k : Access := if v.isSome then .write else .read
  let refuse := fun (s : State) => if v.isSome then s else s.emit .unsupported
  match s.heldAt (Who.part? w) none 0 a with
  | some x => s.holdAt x (.host w a size v e)
  | none =>
    if !s.grantedRange o k a size then refuse (s.deny o a)
    else if !s.homeReach none 0 a then refuse s
    else
      let (s, ue) := s.detect (eccWithin e k a size) (Who.part? w)
      if ue.isSome then refuse s
      else
        match v with
        | some v => s.store a size v.toNat
        | none => s.emit (.data (s.bytes a size))

end Sys2Proof.Machine
end

