-- ==== Sys2Proof/Machine/Crossings.lean ====
section
/-! DEFINITION. The ends of waiting at a fenced crossing (spec/14_clocks_and_crossings.md R414, R415;
spec/05_tiles_dies_device.md R158; spec/06_memory_and_ordering.md R184). -/
namespace Sys2Proof.Machine

/-- What waited at a crossing goes on once traffic is admitted. -/
def State.goOn (s : State) (h : Held) : State :=
  match h with
  | .move j e => s.runMove j e
  | .signal o e => s.afterData o e
  | .data o a bs => s.lateData o .da a bs .ok
  | .core n i _ => s.answerCore n (.again i)
  | .collDesc n seq a epoch e => s.readColl n seq a epoch e
  | .collIn place o p da ws epoch e => s.contribute place o p da ws epoch e
  | .collOut h c pos e => s.serveContrib h c pos e
  | .seg g e => s.serveSegment g e
  | .host w a size v e => s.hostMem w a size v e

/-- What waited at a crossing ends with a status, nothing delivered. -/
def State.giveUp (s : State) (h : Held) (st : Nat) : State :=
  match h with
  | .move j _ => s.failMove j.owner st
  | .signal o _ | .data o .. => s.failMove o st
  | .core n _ r => s.answerCore n r
  | .collDesc n seq .. => s.endStatus n seq st
  | .collIn place o p da ws epoch _ => s.endContrib ⟨cdGroup ws, 0, place, o, p, da, ws, epoch, false, false, [], false⟩ st
  | .collOut _ c .. => s.closeContrib c st
  | .seg g _ => s.refuseSegment g st
  | .host _ _ _ v _ => if v.isSome then s else s.emit .unsupported

/-- What waits at crossing `x`. -/
def State.waitingAt (s : State) (x : Nat) : List Held := (s.fenced.filter (fun f => f.1 = x)).map (fun f => f.2)

/-- The oldest packet that waits for a fenced port, and the rest of its segment, are dropped: where it is a request of
this device, its transfer ends with RESET_PEER. -/
def State.portTimeout (s : State) (n : Nat) : State :=
  match (s.port n).queue with
  | [] => s
  | q :: _ =>
    let same := fun (x : QPacket) => x.pkt.type == q.pkt.type && x.pkt.src == q.pkt.src && x.pkt.xid == q.pkt.xid &&
      x.pkt.vc / 2 == q.pkt.vc / 2 && (q.pkt.type == ptData || x == q)
    let p := s.port n
    let s := ((p.queue.filter same).foldl (fun s x => s.freeBuffer x.from_) s)
    let s := s.setPort n { s.port n with queue := p.queue.filter (fun x => !same x) }
    match s.segs.find? (fun g => q.pkt.type == ptData && q.from_.isNone && q.pkt.vc / 2 == 0 && g.xid == q.pkt.xid &&
        g.dev == q.pkt.dst) with
    | some g => s.takeAck g stResetPeer .ok
    | none => s

/-- What waits at crossing `x`, run again once it admits traffic. -/
def State.unfence (s : State) (x : Nat) : State :=
  if 76 ≤ x ∧ x < 100 then s.pump (x - 76) [] (s.port (x - 76)).queue
  else (s.waitingAt x).foldl State.goOn { s with fenced := s.fenced.filter (fun f => f.1 ≠ x) }

/-- The oldest transfer that waits at crossing `x` ends with RESET_PEER, nothing delivered (R184, R414). -/
def State.fenceTimeout (s : State) (x : Nat) : State :=
  if 76 ≤ x ∧ x < 100 then s.portTimeout (x - 76)
  else
    match s.fenced.find? (fun f => f.1 == x) with
    | some f => { s with fenced := s.fenced.erase f }.giveUp f.2 stResetPeer
    | none => s

/-- Everything that waits at crossing `x` ends with a status (R158). -/
def State.fenceDrop (s : State) (x st : Nat) : State :=
  (s.waitingAt x).foldl (fun s h => s.giveUp h st) { s with fenced := s.fenced.filter (fun f => f.1 ≠ x) }

/-- A crossing fenced: one side has gone into reset (R414). -/
def State.fenceCrossing (s : State) (x : Nat) : State :=
  { s with admitted := s.admitted.filter (· != x), readyReq := s.readyReq.filter (· != x) }

/-! ## The host's port (R413, R414) -/

/-- The PCIe link goes down: the crossing at the port is fenced, and reads whose data has not come end with
RESET_PEER, as requests not served when the reset began. -/
def State.dropHost (s : State) : State :=
  let s := { s with pcieUp := false, pcieLanes := 0, pcieRate := 0, flrWaits := [] }.fenceCrossing 100
  (s.hostReads.map (fun h => (h.ring, h.idx))).eraseDups.foldl (fun s x => s.failMove (.desc x.1 x.2) stResetPeer) s

end Sys2Proof.Machine
end

