-- ==== Sys2Proof/Machine/Debug.lean ====
section
/-! DEFINITION. Debug halt, resume and step (spec/07_nolpa_programming.md R238 to R242; spec/09_datum_time.md R288). -/
namespace Sys2Proof.Machine

/-- A tile that was in DEBUG at a mode's tick applies the mode current in the device and reports it (R288). -/
def State.applyLate (s : State) (n : Nat) : State :=
  if (s.tile n).modeLate then
    let m := s.word Csr.dtmModeCur
    let s := s.updTile n (fun t => { t with mode := m, modeLate := false })
    s.raise (tileEvent n 0x0307 sevWarn 0 (w64 (bits m 0 32)))
  else s

/-- BREAKPOINT_HIT (R238). -/
def execBreakpointHit (tile : Nat) (s : State) : Res :=
  let t := s.tile tile
  if t.state = tsRunning && t.wait = .none && !t.haltReq && t.atBreakpoint then
    .next (s.setTile tile (t.enterDebug haltBreakpoint))
  else .next s

/-- TC_HALT_REQUEST (R238). -/
def State.haltTile (s : State) (n : Nat) : State := s.updTile n Tile.requestHalt

/-- TC_HALT_REQUEST: a write of 1 to TC_DBG_CTL.halt. -/
def execTcHaltRequest (tile : Nat) (s : State) : Res := .next (if tile < 2048 then s.haltTile tile else s)

/-- The job of partition `p` has aborted and is not cleared (spec/16_faults_ageing_service.md R443). -/
def State.jobAborted (s : State) (p : Nat) : Bool :=
  s.flag (Csr.prtPart_assigned_act p) && bit (s.word Csr.svcJobAbt) (s.fld (Csr.prtPart_job_act p))

/-- A tile in DEBUG goes back to the state it came from (Table 7.2a, R241); the breakpoint at its pc counts as met.
A tile of an aborted job is not resumed (R443). -/
def State.resumeTile (s : State) (n : Nat) : State :=
  if (s.tile n).state = tsDebug ∧ s.jobAborted (partOf n) = false then
    (s.updTile n (fun t =>
      ({ t with bpPassed := true }.setState t.dbgFrom).setFld Csr.tcDbgSts_halted 0)).applyLate n
  else s

/-- A tile in DEBUG enters RUNNING for one instruction (R241). -/
def State.stepTile (s : State) (n : Nat) : State :=
  if (s.tile n).state = tsDebug then
    (s.updTile n (fun t =>
      ({ t with bpPassed := true, stepping := true }.setState tsRunning).setFld Csr.tcDbgSts_halted 0)).applyLate n
  else s

/-- TC_STEP (R241). -/
def execTcStep (tile : Nat) (s : State) : Res := .next (if tile < 2048 then s.stepTile tile else s)

/-- Requests of the move engine of tile `n` that have not returned: those of its core's MOVs and of the descriptors of
the MOVE rings that name it (R239). -/
def State.moverBusy (s : State) (n : Nat) : Bool :=
  (s.tile n).inflight.any (fun f => f.eng == .move && f.blocked) ||
    s.fetched.any (fun f => f.remote && s.ringTile f.ring == some n)

/-- DEBUG_HALT_COMPLETE (R239): every engine has stopped; a move engine stops once its sent requests have returned. -/
def execDebugHaltComplete (tile : Nat) (s : State) : Res :=
  let t := s.tile tile
  if t.state = tsDebug && !t.halted && !s.moverBusy tile then
    .next ((s.setTile tile (t.setFld Csr.tcDbgSts_halted 1)).raise (tileEvent tile 0x0A46 sevInfo 0 0))
  else .next s

/-- The tiles of a partition that a mask names, each changed in turn. -/
def State.forMask (s : State) (p : Nat) (mask : W64) (f : State → Nat → State) : State :=
  ((List.range 64).filter (fun i => bit mask i)).foldl (fun s i => f s (tileOf p i)) s

/-- DBG_PHALT (R242). -/
def execDbgPhalt (part : Nat) (mask : W64) (s : State) : Res :=
  .next (if part < 32 then s.forMask part mask State.haltTile else s)

end Sys2Proof.Machine
end

