-- ==== Sys2Proof/Machine/CsrOps.lean ====
section
/-! DEFINITION. A write of a register word by the types of its fields (spec/00_scope.md R7). -/
namespace Sys2Proof.Machine

/-- A write of `v` to the device register at an offset, by field types alone; a word with an LCK field locks (R7). -/
def State.genWrite (s : State) (off : Nat) (v : W64) : State :=
  match findReg deviceRegs off with
  | none => s
  | some (r, _) =>
    let s' := s.setWord off (r.write (s.locked.contains off) v (s.word off))
    if r.fields.any (fun f => f.ty == .lck) && !s.locked.contains off then { s' with locked := off :: s.locked } else s'

/-- A write of `v` to the register of a tile at an offset, by field types alone. -/
def Tile.genWrite (t : Tile) (off : Nat) (v : W64) : Tile :=
  match findReg tileRegs off with
  | none => t
  | some (r, _) => t.setWord off (r.write false v (t.word off))

end Sys2Proof.Machine
end

