-- ==== Sys2Proof/Machine/Datum.lean ====
section
/-! DEFINITION. The Datum unit: the tick count, its reference, holdover, Relay and mode epochs, and tick edges in the
units (spec/09_datum_time.md R275 to R290). Times are in units of 2^-8 ns. -/
namespace Sys2Proof.Machine

/-! States (Table 9.1). -/
abbrev dsFree : Nat := 0
abbrev dsAcquire : Nat := 1
abbrev dsSlew : Nat := 2
abbrev dsLocked : Nat := 3
abbrev dsHoldover : Nat := 4

/-- The sources of the reference (R276). -/
abbrev srcFree : Nat := 0
abbrev srcPin : Nat := 1
abbrev srcRelay : Nat := 2

/-- An event of the Datum unit (Table 6.15), to the M-level ring (R290). -/
def State.raiseDatum (s : State) (code sev : Nat) : State := s.raiseM (devEvent 2 code sev none 0 0)

/-- The programmed period. -/
def State.period (s : State) : Nat := s.fld Csr.dtmCtl_period_10ns * 2560

/-- P_est (R277): the mean of the last 256 accepted intervals, the programmed period until there are 256. -/
def State.pEst (s : State) : Nat :=
  if s.datum.past.length < 256 then s.period else s.datum.past.sum / 256

/-- The estimate that the state goes by: frozen in HOLDOVER. -/
def State.pNow (s : State) : Nat := if s.fld Csr.dtmSts_state = dsHoldover then s.datum.frozen else s.pEst

/-- The slew limit in parts per million; 0 is treated as 1. -/
def State.slew (s : State) : Nat := max 1 (s.fld Csr.dtmCtl_slew_ppm)

/-- |e| ≤ slew × P_est. -/
def State.withinSlew (s : State) (e : Int) : Bool := decide (e.natAbs * 1000000 ≤ s.slew * s.pNow)

/-- The next interval (R277, Table 9.1), from the offset applied. -/
def State.nextInterval (s : State) (e : Int) : Nat :=
  let st := s.fld Csr.dtmSts_state
  let p : Int := s.pNow
  if st = dsFree then s.period
  else if st = dsSlew ∨ st = dsLocked then
    let lim : Int := s.pNow * s.slew / 1000000
    (clampI (p - lim) (p + lim) (p - e)).toNat
  else s.pNow

/-- DTM_PHASE follows e_n and P_est. -/
def State.showPhase (s : State) : State :=
  (s.setFld Csr.dtmPhase_offset_ns (unsigned 32 (s.datum.e / 256))).setFld Csr.dtmPhase_interval s.pNow

/-- The unit enters a state of Table 9.1. -/
def State.datumState (s : State) (st : Nat) : State :=
  let s := (s.setFld Csr.dtmSts_state st).setFld Csr.dtmSts_holdover (b2n (st = dsHoldover))
  if st = dsLocked then s.raiseDatum 0x0302 sevInfo else s

/-- HOLDOVER is entered (R279): P_est frozen, ticks and bound counted anew. -/
def State.enterHoldover (s : State) : State :=
  let p := s.pNow
  let s := { s with datum := { s.datum with frozen := p, run := 0, limited := false, early := none, empty := 0 } }
  let s := (s.setFld Csr.dtmSts_state dsHoldover).setFld Csr.dtmSts_holdover 1
  let s := ((s.setFld Csr.dtmSts_hold_seen 1).setFld Csr.dtmSts_hold_ticks 0).setFld Csr.dtmHold_bound_ns 2
  s.raiseDatum 0x0301 sevWarn

/-- The drift bound (R279): 2 + ceil(hold_ticks × P_est × wander), P_est in ns. -/
def driftBound (ticks p wander : Nat) : Nat := 2 + (ticks * p * wander + 256000000000 - 1) / 256000000000

/-- The wander in force: 8 × 10^7 ppb while the time base runs on IOSC. DEDUCED (log 70): it does so while REFCLK is
lost, and until H0's HCLK has been switched back to a PLL (spec/14_clocks_and_crossings.md R406). -/
def State.wander (s : State) : Nat :=
  if s.flag Csr.clkSts_lost_state || s.fld (Csr.clkSrc_cur 16) == 2 then 80000000 else s.fld Csr.dtmCtl_wander_ppb

/-- A tick generated in HOLDOVER (R279). -/
def State.holdTick (s : State) : State :=
  let s := s.addFld Csr.dtmSts_hold_ticks 1
  let b := driftBound (s.fld Csr.dtmSts_hold_ticks) s.datum.frozen s.wander
  let s := s.setFld Csr.dtmHold_bound_ns (min (2 ^ 32 - 1) b)
  if s.fld Csr.dtmHold_limit_ns < b ∧ s.datum.limited = false then
    { s with datum := { s.datum with limited := true } }.raiseDatum 0x0303 sevWarn
  else s

/-- DATUM_TICK (R275, R277, R278): the count rises by one, or takes the value loaded; HOLDOVER after two tick intervals
without an accepted edge; the next interval. -/
def execDatumTick (s : State) : Res :=
  if s.frozen then .next s else
  let d := s.datum
  let s := { s with
    count := d.load.getD (s.count + 1)
    collPast := if d.load.isSome then [] else s.collPast }
  let st := s.fld Csr.dtmSts_state
  let empty := if d.edge then 0 else d.empty + 1
  let s := { s with datum := { d with
    load := none, tickAt := d.tickAt + d.next, edge := false, empty := empty, lag := d.lag + 1 } }
  let s := if st = dsHoldover then s.holdTick
    else if (st = dsSlew ∨ st = dsLocked) ∧ 2 ≤ empty then s.enterHoldover
    else s
  let next := s.nextInterval (s.datum.early.getD 0)
  .next { s with datum := { s.datum with next := next, early := none } }.showPhase

/-- An edge is accepted (R277), with its interval where that counts: its offset is applied to the interval in
progress, or to the next where the edge came before its tick. -/
def State.acceptEdge (s : State) (interval : Option Nat) (e : Int) : State :=
  let d := s.datum
  { s with datum := { d with
      past := (interval.toList ++ d.past).take 256, run := d.run + 1, good := true, e := e, edge := true, empty := 0
      lag := if 0 ≤ e then -1 else 0, early := if 0 ≤ e then some e else d.early } }

/-- The offset of an edge that came after its tick, applied to the interval in progress by the state that the edge has
led to. -/
def State.settleEdge (s : State) (e : Int) : State :=
  if 0 ≤ e then s else { s with datum := { s.datum with next := s.nextInterval e } }

/-- The edge is of the tick after that of the latest accepted edge: its interval is one of the reference. -/
def Datum.follows (d : Datum) (e : Int) : Bool := d.good && (if 0 ≤ e then d.lag + 1 else d.lag) == 1

/-- A reference edge (Table 9.1): its interval from the edge before, where there was one of the same source, and the
instant of the local tick it is assigned to minus its own. -/
def State.refEdge (s : State) (interval : Option Nat) (e : Int) : State :=
  let st := s.fld Csr.dtmSts_state
  let p := s.pNow
  if st = dsFree then s
  else if st = dsAcquire ∨ st = dsHoldover then
    match interval with
    | none => s
    | some i =>
      if (((i : Int) - p).natAbs) * 1000 ≤ p then
        let s := s.acceptEdge (some i) e
        let s := if s.datum.run = 16 then s.datumState (if s.withinSlew e then dsLocked else dsSlew) else s
        (s.settleEdge e).showPhase
      else { s with datum := { s.datum with run := 0, good := false } }
  else
    let centre : Int := if st = dsSlew then s.datum.e else 0
    if (e - centre).natAbs * 4 ≤ p then
      let s := s.acceptEdge (if s.datum.follows e then interval else none) e
      let s := if st = dsSlew ∧ s.withinSlew e = true then s.datumState dsLocked
        else if st = dsLocked ∧ s.withinSlew e = false then s.datumState dsSlew
        else s
      (s.settleEdge e).showPhase
    else { s with datum := { s.datum with good := false } }.setFld Csr.dtmSts_edge_err 1

/-- DATUM_REF_EDGE (R276, R277): an edge of DATUM_P/N, the reference while src = PIN. -/
def execDatumRefEdge (interval : Nat) (offset : Int) (s : State) : Res :=
  .next (if s.fld Csr.dtmCtl_src = srcPin then s.refEdge (some interval) offset else s)

/-! ## Registers -/

/-- DTM_CTL written (R276): a reserved src and a period out of range are discarded; a new src moves the unit to
ACQUIRE or FREE, with nothing accepted yet from the new reference. -/
def State.writeDtmCtl (s : State) (v : W64) : State :=
  let old := s.word Csr.dtmCtl
  let v := if bits v 0 2 = 3 then w64 (putField v.toNat 0 2 (bits old 0 2)) else v
  let v := if 100 ≤ bits v 2 17 ∧ bits v 2 17 ≤ 100000 then v else w64 (putField v.toNat 2 17 (bits old 2 17))
  let s := s.genWrite Csr.dtmCtl v
  let src := s.fld Csr.dtmCtl_src
  if src = bits old 0 2 then s
  else
    { s with datum := { s.datum with
      past := [], run := 0, good := false, early := none, edge := false, empty := 0, markAt := none } }.datumState
      (if src = srcFree then dsFree else dsAcquire)

/-- DTM_CTL_WRITE. -/
def execDtmCtlWrite (value : W64) (s : State) : Res := .next (s.writeDtmCtl value)

/-- The count of the next tick loaded (R278): accepted only while aligned = 0. -/
def State.writeDtmLoad (s : State) (v : W64) : State :=
  if s.flag Csr.dtmSts_aligned then s
  else { s with datum := { s.datum with load := some v } }.setFld Csr.dtmSts_aligned 1

/-- The unit has seen no edge of its upstream port yet: the next one ends no interval. -/
def Datum.newSource (d : Datum) : Datum := { d with markAt := none, good := false }

/-- DTM_RELAY written (R283): the markers of every port count again. -/
def State.writeDtmRelay (s : State) (v : W64) : State :=
  { s.genWrite Csr.dtmRelay v with datum := { s.datum.newSource with deaf := [] } }

/-- DTM_RELAY_WRITE. -/
def execDtmRelayWrite (value : W64) (s : State) : Res := .next (s.writeDtmRelay value)

/-! ## Mode epochs -/

/-- Whether a mode is armed. -/
def State.armed (s : State) : Bool := s.flag Csr.dtmModeArm_armed

/-- A rejection (R286). -/
def State.rejectMode (s : State) : State := (s.setFld Csr.dtmModeArm_rej 1).raiseDatum 0x0308 sevWarn

/-- DTM_MODE_PEND or DTM_MODE_T written (R286): discarded and rejected while a mode is armed. -/
def State.writeModeWord (s : State) (off : Nat) (v : W64) : State :=
  if s.armed then s.rejectMode else s.genWrite off v

/-- DTM_MODE_PEND_WRITE. -/
def execDtmModePendWrite (isT : Bool) (value : W64) (s : State) : Res :=
  .next (s.writeModeWord (if isT then Csr.dtmModeT else Csr.dtmModePend) value)

/-- The fields of a mode word lie in their ranges (Table 9.3). -/
def modeInRange (m : W64) : Bool :=
  decide (bits m 52 6 ≤ 20) && decide (bits m 58 6 ≤ 33)

/-- Whether the arm of R286 is accepted. -/
def State.armOk (s : State) : Bool :=
  s.fld Csr.dtmModePend_epoch == (s.fld Csr.dtmModeCur_epoch + 1) % 2 ^ 32 &&
  decide (s.count.toNat + 2 ≤ (s.word Csr.dtmModeT).toNat) && !s.armed && modeInRange (s.word Csr.dtmModePend)

/-- DTM_MODE_ARM written (R286): arm, cancel, and rej by its type. -/
def State.writeModeArm (s : State) (v : W64) : State :=
  let s := s.genWrite Csr.dtmModeArm v
  match bit v 0, bit v 1 with
  | true, true => s.rejectMode
  | true, false => if s.armOk then s.setFld Csr.dtmModeArm_armed 1 else s.rejectMode
  | false, true =>
    if s.armed && decide (s.count.toNat + 1 < (s.word Csr.dtmModeT).toNat) then s.setFld Csr.dtmModeArm_armed 0 else s
  | false, false => s

/-- MODE_ARM. -/
def execModeArm (value : W64) (s : State) : Res := .next (s.writeModeArm value)

/-- MODE_CANCEL. -/
def execModeCancel (value : W64) (s : State) : Res := .next (s.writeModeArm value)

/-- MODE_SEND (R286): at tick edge T - 1 the armed mode goes to every unit. -/
def execModeSend (s : State) : Res :=
  let t := s.word Csr.dtmModeT
  .next (if s.armed && decide (t.toNat ≤ s.count.toNat + 1) then
      { s with modeSent := some (s.word Csr.dtmModePend, t) }
    else s)

/-- MODE_APPLY (R287): at T the armed mode, which has been sent, becomes current. -/
def execModeApply (s : State) : Res :=
  .next (match s.modeSent with
    | some (m, t) =>
      if s.armed && m == s.word Csr.dtmModePend && t == s.word Csr.dtmModeT && decide (t.toNat ≤ s.count.toNat) then
        ((s.setWord Csr.dtmModeCur m).setFld Csr.dtmModeArm_armed 0).raiseDatum 0x0306 sevInfo
      else s
    | none => s)

/-- DTM_PT_CLR written (R289): both counts of every slot of the masked partitions cleared. -/
def State.clearPhases (s : State) (v : W64) : State :=
  ((List.range 32).filter (fun p => bit v p)).foldl (fun s p =>
    (List.range 16).foldl (fun s k => (s.setWord (Csr.dtmPtCycles p k) 0).setWord (Csr.dtmPtTicks p k) 0) s) s

/-- DTM_PT_CLR. -/
def execDtmPtClr (value : W64) (s : State) : Res := .next (s.clearPhases value)

/-! ## Tick edges in the units (R280) -/

/-- The phase slots in which a partition has a RUNNING tile. -/
def State.runningSlots (s : State) (p : Nat) : List Nat :=
  ((((s.tiles.filter (fun e => partOf e.1 == p)).map (fun e => e.2)).filter
    (fun t => t.state == tsRunning)).map (fun t => t.phase)).eraseDups

/-- The tick counts of the phase timers of a partition at an edge its die sees (R289). -/
def State.phaseTicks (s : State) (p : Nat) : State :=
  (s.runningSlots p).foldl (fun s k => s.addFld (Csr.dtmPtTicks_ticks p k) 1) s

/-- The tile-cycle counts of a partition at a TCLK cycle of its die (R289). -/
def State.phaseCycles (s : State) (p : Nat) : State :=
  (s.tiles.filter (fun e => partOf e.1 == p && e.2.state == tsRunning)).foldl
    (fun s e => s.addFld (Csr.dtmPtCycles_cycles p e.2.phase) 1) s

/-- A tile at tick edge T (R287, R288): one in DEBUG is late. -/
def Tile.applyMode (t : Tile) (m : W64) : Tile :=
  if t.state = tsDebug then { t with modeLate := true } else { t with mode := m }

/-- The mode sent, applied to the tiles of a die that now sees T (R287). -/
def State.dieMode (s : State) (d : Nat) (before : W64) : State :=
  match s.modeSent with
  | some (m, t) =>
    if before.toNat < t.toNat ∧ t.toNat ≤ (s.seenDie d).toNat then
      (List.range 128).foldl (fun s i => s.updTile (128 * d + i) (fun t => t.applyMode m)) s
    else s
  | none => s

/-- This device's clock in units of 2^-4 ns, at its latest tick. -/
def State.clock16 (s : State) : W64 := BitVec.ofInt 64 (s.datum.tickAt / 16)

/-- What a HEARTBEAT of a port carries (R300): the marker, this device and its entry, and the times for the delay. -/
def State.heartbeat (s : State) (n : Nat) : Heartbeat :=
  let p := s.here
  let logical := if s.flag Csr.lnkSts_log_valid then s.fld Csr.lnkSts_logical else 0xFFFF
  ⟨s.count, s.word Csr.prtIdent, p, logical, n,
    s.fld (Csr.lnkGazLo_version p), s.clock16, (s.port n).echo, s.clock16 - (s.port n).echoAt, 0⟩

/-- The HEARTBEAT packet of a port (R294, R300): neither sequenced nor retried. -/
def State.sendHeartbeat (s : State) (n : Nat) : State :=
  let (p, q) := (s.port n).stamp (mkPacket ptHeartbeat 6 0 0 0 0 (s.heartbeat n).bytes)
  (s.setPort n p).emit (.packet n q.seal)

/-- The heartbeats of a hub's ports in UP or HELD (R300). -/
def State.heartbeats (s : State) (h : Nat) : State :=
  ((List.range 6).map (fun j => 6 * h + j)).foldl (fun s n =>
    if s.portState n = psUp ∨ s.portState n = psHeld then s.sendHeartbeat n else s) s

end Sys2Proof.Machine
end

