-- ==== Sys2Proof/Machine/Gaz.lean ====
section
/-! DEFINITION. The link layer and the Gazetteer: packets received, port states, heartbeats, entries, reachability, splits,
and substitution (spec/10_links_and_collectives.md R295 to R301, R305 to R308, R325 to
R328; spec/09_datum_time.md R281 to R284; spec/17_startup_and_discovery.md R467 to R469, R474, R477). -/
namespace Sys2Proof.Machine

/-! Discovery states (LNK_DISC.state, Table 17.3). -/
abbrev diIdle : Nat := 0
abbrev diTrain : Nat := 1
abbrev diExchange : Nat := 2
abbrev diFlood : Nat := 3
abbrev diAlign : Nat := 4
abbrev diReady : Nat := 5
abbrev diIsolated : Nat := 6

/-- The kinds of GAZ packets this model floods (assumption log 30). -/
abbrev gzEntry : Nat := 0
abbrev gzClaim : Nat := 1
abbrev gzAligned : Nat := 2
abbrev gzReady : Nat := 3
abbrev gzSubst : Nat := 4

/-! ## The Relay upstream (R281, R284) -/

/-- The positions one usable hop from a set, and passable (R307). -/
def State.ringAround (s : State) (ps : List Nat) : List Nat :=
  (ps.flatMap (fun p => [0, 1, 2].flatMap (fun a => [true, false].filterMap (fun u =>
    let q := s.neighbour p a u
    if (List.range 4).any (s.usable p a u) && s.passable q then some q else none)))).eraseDups

/-- Hops from a set of positions to `t` in the Gazetteer. -/
def State.hopsTo (s : State) (t : Nat) : Nat → List Nat → List Nat → Nat → Option Nat
  | 0, _, _, _ => none
  | fuel + 1, ps, seen, k =>
    if ps.contains t then some k
    else if ps.isEmpty then none
    else
      let next := (s.ringAround ps).filter (fun p => !seen.contains p)
      State.hopsTo s t fuel next (seen ++ next) (k + 1)

/-- Hops from a position to the Origin. -/
def State.originHops (s : State) (p : Nat) : Option Nat :=
  s.hopsTo (s.fld Csr.lnkDisc_origin_phys) positions [p] [p] 0

/-- The position a port faces (R291, R292). -/
def State.facing (s : State) (n : Nat) : Nat := s.neighbour s.here (n % 6 / 2) (n % 2 == 0)

/-- The upstream port of R281 and the hops to the Origin. -/
def State.chooseUpstream (s : State) : Option (Nat × Nat) :=
  match s.originHops s.here with
  | none => none
  | some k =>
    ((List.range 24).find? (fun n => bit (s.word Csr.dtmRelay) (11 + n) && s.portState n == psUp &&
      s.usable s.here (n % 6 / 2) (n % 2 == 0) (n / 6) && decide (s.originHops (s.facing n) = some (k - 1)) &&
      decide (0 < k))).map (fun n => (n, k))

/-- DTM_RELAY takes the choice of R281. -/
def State.setUpstream (s : State) : State :=
  let s := { s with datum := s.datum.newSource }
  match s.chooseUpstream with
  | some (n, k) => ((s.setFld Csr.dtmRelay_upstream n).setFld Csr.dtmRelay_up_valid 1).setFld Csr.dtmRelay_hops k
  | none => s.setFld Csr.dtmRelay_up_valid 0

/-- A link leaves route: where it was the upstream one, another is chosen (R284). -/
def State.upstreamLost (s : State) (n : Nat) : State :=
  if s.fld Csr.dtmCtl_src = srcRelay ∧ s.flag Csr.dtmRelay_up_valid = true ∧ s.fld Csr.dtmRelay_upstream = n then
    s.setUpstream.raiseDatum 0x0305 sevInfo
  else s

/-- A device whose upstream neighbour has no path to the Origin any more in the Gazetteer (R281, R327): another is
chosen from the links still up, if there is one. -/
def State.upstreamCut (s : State) : State :=
  if s.fld Csr.dtmCtl_src = srcRelay ∧ s.flag Csr.dtmRelay_up_valid = true ∧
      (s.originHops (s.facing (s.fld Csr.dtmRelay_upstream))).isNone = true then
    s.setUpstream.raiseDatum 0x0305 sevInfo
  else s

/-! ## The Gazetteer (R305 to R307) -/

/-- An entry flooded (R306). -/
def State.floodEntry (s : State) (but : Option Nat) (p : Nat) : State :=
  s.flood but gzEntry [w64 p, s.word (Csr.lnkGazLo p), s.word (Csr.lnkGazHi p)]

/-- The logical numbers that entries show LIVE. -/
def State.knownDevices (s : State) : List Nat :=
  (s.entries.filter (fun p => s.flag (Csr.lnkGazLo_log_valid p) && s.gazState p == gazLive)).map
    (fun p => s.fld (Csr.lnkGazLo_logical p))

/-- A group is split here when a member of its list is unreachable (R325). -/
def State.groupCut (s : State) (g : Nat) : Bool :=
  (List.range (s.fld (Csr.colGrpCfg_n_m1 g) + 1)).any (fun r =>
    let d := s.member g r
    r != s.fld (Csr.colGrpCfg_rank g) && !(s.flag Csr.lnkSts_log_valid && d == s.fld Csr.lnkSts_logical) && !s.reachable d)

/-- A group splits (R325, R326): its instances end, its partitions' COLL rings stop, and its jobs freeze. -/
def State.splitGroup (s : State) (g : Nat) : State :=
  let s := s.setFld (Csr.colGrpCfg_split g) 1
  let s := s.raiseGroup g 0x0606 sevAbort 0 (groupDetail g)
  let ids := ((s.contribs.filter (fun c => c.group = g)).map (fun c => c.inst) ++
    (s.insts.filter (fun x => x.group = g)).map (fun x => x.idx)).eraseDups
  let s := ids.foldl (fun s i => s.failInst g i stSplit) s
  let s := (s.groupParts g).foldl (fun s p => s.stopRings p (fun k => k == 3)) s
  let slots := ((s.groupParts g).filter (fun p => s.flag (Csr.prtPart_assigned_act p))).map
    (fun p => s.fld (Csr.prtPart_job_act p))
  let s := slots.eraseDups.foldl (fun s j => s.abortJob j 0x0606 false) s
  { s with splitTick := NMap.set (fun _ => none) s.splitTick g (some s.count) }

/-- The valid groups that are not split yet and now are cut. -/
def State.cutGroups (s : State) : List Nat :=
  ((s.csr.filter (fun e => Csr.colGrpCfg 0 ≤ e.1 && e.1 < Csr.colGrpCfg 1024 && e.1 % 32 == 0)).map
    (fun e => (e.1 - Csr.colGrpCfg 0) / 32)).filter (fun g =>
      s.flag (Csr.colGrpCfg_valid g) && !s.flag (Csr.colGrpCfg_split g) && s.groupCut g)

/-- COL_GRP_WRITE (R312, R313, R325, R443): a word of a group entry (0 CFG, 1 PART, 2 MEM) written; the instance count
restarts, split and the abort flag are cleared; a group with a member that is unreachable is split (R325).
COL_GRP_INST holds nothing that software writes. -/
def State.groupWrite (s : State) (g word : Nat) (v : W64) : State :=
  if word < 3 then
    let s := s.genWrite (Csr.colGrpCfg g + 8 * word) v
    let s := (s.setFld (Csr.colGrpInst_instance g) 0).setFld (Csr.colGrpCfg_split g) 0
    let s := { s with
      collSeq := s.collSeq.filter (fun e => e.1 != g)
      insts := s.insts.filter (fun x => x.group != g)
      abortGroups := s.abortGroups.filter (· != g)
      peerAborted := s.peerAborted.filter (· != g)
      splitTick := NMap.set (fun _ => none) s.splitTick g none }
    if s.flag (Csr.colGrpCfg_valid g) && s.groupCut g then s.splitGroup g else s
  else s

/-- COL_GRP_WRITE. -/
def execColGrpWrite (group word : Nat) (value : W64) (s : State) : Res :=
  .next (if group < 1024 then s.groupWrite group word value else s)

/-- This device's own logical number. -/
def State.isOwn (s : State) (d : Nat) : Bool := s.flag Csr.lnkSts_log_valid && d == s.fld Csr.lnkSts_logical

/-- Reachability recomputed after a change of the Gazetteer (R307, R325): `old` is the state before it. A position
that is no longer LIVE or SPARE must flood ALIGNED anew before it counts again (spec/17_startup_and_discovery.md
R473). -/
def State.recompute (s old : State) : State :=
  let s := { s with disc := { s.disc with aligned := s.disc.aligned.filter (fun p => !(old.passable p && !s.passable p)) } }
  let lost := old.knownDevices.filter (fun d => !old.isOwn d && old.reachable d && !s.reachable d)
  let s := lost.foldl (fun s _ => (s.setFld Csr.lnkSts_unreach 1).raiseM (hubUnitEvent 10 0 0x0605 sevWarn 0 0)) s
  let s := s.upstreamCut
  s.cutGroups.foldl State.splitGroup s

/-- The ports of this device that are UP, as its entry shows them. -/
def State.linksMask (s : State) : Nat :=
  (List.range 24).foldl (fun m n => if s.portState n = psUp then m + 2 ^ n else m) 0

/-- This device's own entry after a change of its ports, flooded (R301, R306). -/
def State.ownEntry (s : State) : State :=
  let p := s.here
  let s := (s.setFld (Csr.lnkGazLo_links p) s.linksMask).setFld (Csr.lnkGazLo_version p)
    (s.fld (Csr.lnkGazLo_version p) + 1)
  s.floodEntry none p

/-! ## Port states (R301, Table 10.4) -/

/-- A port starts training with no failed attempt. -/
def State.startTraining (s : State) (n st : Nat) : State :=
  (s.setFld (Csr.lnkPortSts_state n) st).setFld (Csr.lnkPortSts_attempts n) 0

/-- Buffers of port `n` that packets in transit hold at other ports are no longer its concern. -/
def State.forgetBuffers (s : State) (n : Nat) : State :=
  { s with ports := s.ports.map (fun e =>
    (e.1, { e.2 with queue := e.2.queue.map (fun q => if q.from_.any (fun b => b.1 == n) then { q with from_ := none } else q) })) }

/-- A port out of UP or HELD into a state: its replay buffer and what waits for it are discarded, its credits reset
(R301), and its crossing is fenced (spec/14_clocks_and_crossings.md R414). -/
def State.dropPort (s : State) (n st : Nat) : State :=
  let s := (s.port n).queue.foldl (fun s q => s.freeBuffer q.from_) s
  (((s.forgetBuffers n).setPort n {}).startTraining n st).fenceCrossing (76 + n)

/-- A port leaves UP (R301): LINK_DOWN, the own entry changed and flooded, another upstream, reachability. -/
def State.leaveUp (s : State) (n st : Nat) : State :=
  let old := s
  let s := (s.dropPort n st).raiseM (portEvent n 0x0602 sevWarn 0 0)
  ((s.ownEntry).upstreamLost n).recompute old

/-- A port enters UP (R301): 32 credits on each virtual channel (R295), round trips counted anew (DTM_LINKDLY),
LINK_UP, the own entry changed and flooded. -/
def State.enterUp (s : State) (n : Nat) : State :=
  let old := s
  let s := (s.startTraining n psUp).raiseM (portEvent n 0x0601 sevInfo 0 0)
  let s := (s.forgetBuffers n).setFld (Csr.dtmLinkdly_samples n) 0
  let s := s.setPort n { s.port n with heard := s.seenHub (n / 6), used := List.replicate 8 0, owed := List.replicate 8 0 }
  (s.pump n [] (s.port n).queue).ownEntry.recompute old

/-- The logical number of a position (R304). -/
def logicalOf (p : Nat) : Nat := posCoord p 0 + 16 * posCoord p 1 + 256 * posCoord p 2

/-- A position valid under LNK_CTL (R468). -/
def State.posValid (s : State) (p : Nat) : Bool :=
  decide (p < positions) && decide (posCoord p 0 < s.ringLen 0) && decide (posCoord p 1 < s.extent 1) &&
    decide (posCoord p 2 < s.extent 2)

/-- The own entry set LIVE or SPARE (R304, R467, R468): a number that another position holds after a substitution is not
taken again (R478). -/
def State.claimEntry (s : State) : State :=
  let p := s.here
  let s := s.setWord (Csr.lnkGazHi p) (s.word Csr.prtIdent)
  let d := logicalOf p
  let taken := match s.posOfLogical d with | some q => q != p | none => false
  let s := if posCoord p 0 < s.extent 0 ∧ taken = false then
      let s := ((s.setFld (Csr.lnkGazLo_state p) gazLive).setFld (Csr.lnkGazLo_logical p) d).setFld
        (Csr.lnkGazLo_log_valid p) 1
      (s.setFld Csr.lnkSts_logical d).setFld Csr.lnkSts_log_valid 1
    else
      let s := (s.setFld (Csr.lnkGazLo_state p) gazSpare).setFld (Csr.lnkGazLo_log_valid p) 0
      s.setFld Csr.lnkSts_log_valid 0
  s

/-- A device in TRAIN has its first port UP (R467): EXCHANGE, with its own entry set. -/
def State.firstPortUp (s : State) : State :=
  if s.fld Csr.lnkDisc_state = diTrain then
    { s with disc := { s.disc with since := s.count } }.claimEntry.setFld Csr.lnkDisc_state diExchange
  else s

/-- What a newly trained port is told of the Gazetteer and of discovery, so that an arrival receives it (R467, R477). -/
def State.catchUp (s : State) (n : Nat) : State :=
  let send := fun (s : State) (tag : Nat) (args : List W64) =>
    s.sendPacket n (mkPacket ptGaz 6 0 (s.fld Csr.lnkSts_logical) 0 0
      (toBytes 8 tag ++ args.flatMap (fun a => toBytes 8 a.toNat)))
  let s := s.entries.foldl (fun s p => send s gzEntry [w64 p, s.word (Csr.lnkGazLo p), s.word (Csr.lnkGazHi p)]) s
  let s := match s.disc.claim with
    | some (p, c) => send s gzClaim [w64 p, w64 (b2n c)]
    | none => s
  let s := s.disc.aligned.foldl (fun s p => send s gzAligned [w64 p]) s
  match s.disc.lastReady with
  | some t => send s gzReady [t]
  | none => s

/-- A training port comes up HELD, not UP (R328, R468, R477). -/
def State.trainsToHeld (s : State) (n : Nat) : Bool :=
  s.flag Csr.lnkSts_unreach || s.flag Csr.lnkDisc_pos_invalid ||
    (s.portState n == psTraining && s.fld Csr.lnkDisc_state == diReady)

/-- A port trains while its LCLK runs from a PLL (spec/14_clocks_and_crossings.md R406, R407). -/
def State.trains (s : State) (n : Nat) : Bool :=
  decide (n < 24) && (s.portState n == psTraining || s.portState n == psRetrain) && s.fld (Csr.clkSrc_cur (28 + n)) != 2

/-- PORT_TRAINED. -/
def execPortTrained (port : Nat) (s : State) : Res :=
  .next (if s.trains port then
      if s.trainsToHeld port then
        let arrival := s.fld Csr.lnkDisc_state == diReady && !s.flag Csr.lnkSts_unreach
        let s := ((s.startTraining port psHeld).setFld (Csr.dtmLinkdly_samples port) 0).raiseM
          (portEvent port 0x060A sevInfo 0 0)
        (s.setPort port { s.port port with heard := s.seenHub (port / 6), arrival := arrival }).catchUp port
      else ((s.firstPortUp).enterUp port).catchUp port
    else s)

/-- PORT_TRAIN_TIMEOUT (Table 10.4, R469): a failed attempt counts once the join window has closed. -/
def execPortTrainTimeout (port : Nat) (s : State) : Res :=
  .next (if s.trains port then
      let di := s.fld Csr.lnkDisc_state
      if s.flag Csr.lnkDisc_window && decide (diTrain ≤ di) && decide (di ≤ diFlood) then s
      else
        let s := s.addFld (Csr.lnkPortSts_attempts port) 1
        if s.fld (Csr.lnkPortSts_attempts port) = 3 then
          (s.setFld (Csr.lnkPortSts_state port) psFailed).raiseM (portEvent port 0x0603 sevWarn 0 0)
        else s
    else s)

/-- A train command: from DOWN or FAILED (LNK_PORT_CMD). -/
def State.trainPort (s : State) (n : Nat) : State :=
  if s.portState n = psDown ∨ s.portState n = psFailed then
    (s.startTraining n psTraining).setFld (Csr.lnkPortSts_miswire n) 0
  else s

/-- A port taken DOWN from any state. -/
def State.downPort (s : State) (n : Nat) : State :=
  if s.portState n = psUp then s.leaveUp n psDown else s.dropPort n psDown

/-- LNK_PORT_TRAIN. -/
def execLnkPortTrain (port : Nat) (s : State) : Res := .next (if port < 24 then s.trainPort port else s)

/-- LNK_PORT_DISABLE. -/
def execLnkPortDisable (port : Nat) (s : State) : Res := .next (if port < 24 then s.downPort port else s)

/-- LANE_LOCK_LOSS (R301). -/
def execLaneLockLoss (port : Nat) (s : State) : Res :=
  .next (if port < 24 ∧ s.portState port = psUp then s.leaveUp port psRetrain else s)

/-- PORT_SILENT (R300): no good packet for 8 consecutive ticks, as its hub sees them (R285). -/
def execPortSilent (port : Nat) (s : State) : Res :=
  .next (if port < 24 ∧ s.portState port = psUp ∧ 8 ≤ (s.seenHub (port / 6) - (s.port port).heard).toNat then
      s.leaveUp port psRetrain
    else s)

/-! ## Packets received (R295, R296) -/

/-- Retransmission from the oldest unacknowledged packet; after 16 without progress the link enters RETRAIN. -/
def State.replay (s : State) (n : Nat) : State :=
  let p := s.port n
  if p.sent.isEmpty then s
  else if 16 ≤ p.tries then (if s.portState n = psUp then s.leaveUp n psRetrain else s)
  else
    let s := (s.setPort n { p with tries := p.tries + 1 }).addFld (Csr.lnkPortCnt_replays n) 1
    p.sent.foldl (fun s q => s.emit (.packet n q)) s

/-- What an acknowledgement releases from the replay buffer. -/
def Port.acked (p : Port) (ack : Nat) : Port :=
  match p.sent with
  | [] => p
  | q :: _ =>
    let k := (ack + 4096 - q.seqNo) % 4096
    if 0 < k ∧ k ≤ p.sent.length then { p with sent := p.sent.drop k, tries := 0 } else p

/-- Credits that come back. -/
def Port.credited (p : Port) (v n : Nat) : Port := { p with used := p.used.set v (p.used.getD v 0 - n) }

/-- The fields of a header that every accepted packet carries: acknowledgement, credits, nak; waiting packets then go.
-/
def State.linkFields (s : State) (n : Nat) (q : Packet) : State :=
  let s := s.setPort n (((s.port n).acked q.ackNo).credited q.crVc q.crN)
  let s := if q.nak then s.replay n else s
  s.pump n [] (s.port n).queue

/-- A packet discarded (R296): the first after an accepted one is answered with a nak. -/
def State.discardPacket (s : State) (n : Nat) : State :=
  if (s.port n).naked then s else (s.setPort n { s.port n with naked := true }).sendLinkctl n true

/-- The packet was good: the port has been heard. -/
def State.hear (s : State) (n : Nat) : State := s.setPort n { s.port n with heard := s.seenHub (n / 6) }

/-- A sequenced packet accepted in order (R295, R296, R309): an acknowledgement follows within 32 packets. The buffer
of one for this device is free at once; one in transit holds it until it is sent on. -/
def State.acceptPacket (s : State) (n : Nat) (q : Packet) : State :=
  let transit := q.type == ptData && !(s.flag Csr.lnkSts_log_valid && q.dst == s.fld Csr.lnkSts_logical)
  let p := s.port n
  let s := s.setPort n { p with rxSeq := (p.rxSeq + 1) % 4096, naked := false, unacked := p.unacked + 1 }
  let s := if transit then s else s.freeBuffer (some (n, q.vc))
  let s := s.linkFields n q
  let s := if 32 ≤ (s.port n).unacked then s.sendLinkctl n false else s
  if transit then s.routePacket (some n) (n / 6) q
  else if q.type = ptData then s.trackPacket n q
  else s

/-- STEZER_DATA_RX (R296, R309): link-level receipt of a DATA or GAZ packet; what it carries comes with the segment's or
the entry's own command. -/
def execStezerDataRx (port : Nat) (pkt : Packet) (s : State) : Res :=
  .next (if port < 24 ∧ s.carries port pkt.type = true ∧ (pkt.type = ptData ∨ pkt.type = ptGaz) then
      if pkt.good then
        let s := s.hear port
        if pkt.seqNo = (s.port port).rxSeq then s.acceptPacket port pkt else s.discardPacket port
      else (s.addFld (Csr.lnkPortCnt_crc_err port) 1).discardPacket port
    else s)

/-- LINKCTL_RX (R296). -/
def execLinkctlRx (port : Nat) (pkt : Packet) (s : State) : Res :=
  .next (if port < 24 ∧ (s.portState port = psUp ∨ s.portState port = psHeld) ∧ pkt.type = ptLinkctl then
      if pkt.good then (s.hear port).linkFields port pkt else s.addFld (Csr.lnkPortCnt_crc_err port) 1
    else s)

/-- ACK_TIMER (R296): 200 ns since a packet was accepted without an acknowledgement. -/
def execAckTimer (port : Nat) (s : State) : Res :=
  .next (if port < 24 ∧ (s.port port).unacked ≠ 0 then s.sendLinkctl port false else s)

/-- REPLAY_TIMEOUT (R296): no acknowledgement has advanced for 1 µs. -/
def execReplayTimeout (port : Nat) (s : State) : Res := .next (if port < 24 then s.replay port else s)

/-! ## Heartbeats (R282, R283, R292, R300) -/

/-- The one-way delay of a port, measured where the heartbeat echoes a timestamp of this device (R282). -/
def State.measureDelay (s : State) (n : Nat) (hb : Heartbeat) : State :=
  let s := if hb.echo = 0 then s
    else
      let rt := (hb.rx - hb.echo - hb.hold).toNat
      (s.setFld (Csr.dtmLinkdly_delay n) (rt / 2)).addFld (Csr.dtmLinkdly_samples n) 1
  s.setPort n { s.port n with echo := hb.tx, echoAt := hb.rx }

/-- ISOLATED is entered (Table 17.3): no Origin role and no logical number. -/
def State.isolate (s : State) : State :=
  let s := ((s.setFld Csr.lnkDisc_state diIsolated).setFld Csr.lnkDisc_origin 0).setFld Csr.dtmCtl_origin 0
  let s := { s with disc := { s.disc with mine := false } }.setFld Csr.lnkSts_log_valid 0
  if s.here < positions then s.setFld (Csr.lnkGazLo_log_valid s.here) 0 else s

/-- The count of a marker of port `n` differs from the local tick's: that port's markers are ignored from then on
(R283). -/
def State.markMismatch (s : State) (n : Nat) : State :=
  let s := s.setFld Csr.dtmSts_count_mismatch 1
  let s := if s.fld Csr.dtmSts_state = dsHoldover then s else s.enterHoldover
  let s := { s with datum := { s.datum with deaf := n :: s.datum.deaf.filter (· != n) } }.raiseDatum 0x0304 sevDevice
  if s.fld Csr.lnkDisc_state = diFlood then s.isolate else s

/-- A marker of the upstream port (R282): its edge is the instant of arrival minus the one-way delay, assigned to the
nearest local tick. -/
def State.marker (s : State) (n : Nat) (hb : Heartbeat) : State :=
  let d := s.datum
  let edge : Int := ((hb.rx.toNat : Int) - (s.fld (Csr.dtmLinkdly_delay n) : Int)) * 16
  let late : Int := d.tickAt - edge
  let past := decide (-(s.pNow : Int) < 2 * late)
  let e : Int := if past then late else late + d.next
  let at_ : W64 := if past then s.count else d.load.getD (s.count + 1)
  if s.flag Csr.dtmSts_aligned && hb.count != at_ then s.markMismatch n
  else
    { s with datum := { d with markAt := some edge, mark := hb.count } }.refEdge (d.markAt.map (fun m => (edge - m).toNat)) e

/-- A heartbeat that has come with a good CRC (R282, R283, R292, R300). -/
def State.takeHeartbeat (s : State) (port : Nat) (hb : Heartbeat) : State :=
  let s := (s.setFld (Csr.lnkPortSts_peer_phys port) hb.phys).setFld (Csr.lnkPortSts_peer_port port) hb.port
  let want := if port % 2 = 0 then port + 1 else port - 1
  if hb.port ≠ want ∨ hb.phys ≠ s.facing port then (s.downPort port).setFld (Csr.lnkPortSts_miswire port) 1
  else
    let s := s.measureDelay port hb
    let s := if (s.port port).arrival = true ∧ s.gazState hb.phys ≠ gazIsolated then
        let old := s
        (s.setFld (Csr.lnkGazLo_state hb.phys) gazIsolated).recompute old
      else s
    if s.fld Csr.dtmCtl_src = srcRelay ∧ s.flag Csr.dtmRelay_up_valid = true ∧
        s.fld Csr.dtmRelay_upstream = port ∧ bit (s.word Csr.dtmRelay) (11 + port) = true ∧
        s.datum.deaf.contains port = false then
      s.marker port hb
    else s

/-- HEARTBEAT_RX: its header counts as any other's; one with a bad CRC is discarded and counted (R294, R295, R300). -/
def execHeartbeatRx (port : Nat) (pkt : Packet) (s : State) (rx : W64 := 0) : Res :=
  .next (if port < 24 ∧ (s.portState port = psUp ∨ s.portState port = psHeld) ∧ pkt.type = ptHeartbeat then
      if pkt.good then ((s.hear port).linkFields port pkt).takeHeartbeat port (pkt.heartbeat rx)
      else s.addFld (Csr.lnkPortCnt_crc_err port) 1
    else s)

/-! ## Entries received (R306, R474) -/

/-- GAZ_UPDATE, at most once a tick. -/
def State.gazUpdate (s : State) : State :=
  if s.gazTick = some s.count then s
  else { s with gazTick := some s.count }.raiseM (hubUnitEvent 10 0 0x0604 sevInfo 0 0)

/-- GAZ_ENTRY: an entry of a higher version is stored and forwarded; two identities for one position isolate it. -/
def execGazEntry (port pos : Nat) (lo hi : W64) (s : State) : Res :=
  let old := s
  let two := s.gazState pos ≠ gazAbsent ∧ s.gazState pos ≠ gazIsolated ∧ s.word (Csr.lnkGazHi pos) ≠ hi
  .next (if positions ≤ pos then s
    else if two then
      let s := s.setFld (Csr.lnkGazLo_state pos) gazIsolated
      let s := if pos = s.here then
          ((s.setFld Csr.lnkDisc_dup_pos 1).raiseM (devEvent 9 0x0B06 sevDevice none 0 0)).isolate
        else s
      let s := s.flood (some port) gzEntry [w64 pos, lo, hi]
      s.gazUpdate.recompute old
    else if s.fld (Csr.lnkGazLo_version pos) < bits lo 40 24 ∧ pos ≠ s.here then
      let s := (s.setWord (Csr.lnkGazLo pos) lo).setWord (Csr.lnkGazHi pos) hi
      let s := s.floodEntry (some port) pos
      s.gazUpdate.recompute old
    else s)

/-- SPLIT_FREEZE_TIMEOUT (R326): freeze_ticks after the split the RUNNING tiles of the group's partitions are halted. -/
def execSplitFreezeTimeout (group : Nat) (s : State) : Res :=
  .next (match NMap.find? s.splitTick group with
    | some (some t) =>
      if s.fld Csr.colCtl_freeze_ticks ≤ (s.count - t).toNat then
        (s.groupParts group).foldl (fun s p => s.updPart p (fun t => if t.state = tsRunning then t.requestHalt else t))
          { s with splitTick := NMap.set (fun _ => none) s.splitTick group none }
      else s
    | _ => s)

/-! ## Substitution (R308) -/

/-- A substitution held for tick T. -/
def State.holdSubst (s : State) (d p : Nat) (t : W64) : State :=
  { s with substs := s.substs ++ [(d, p, t)] }.setFld Csr.lnkSubst_pending 1

/-- Whether a substitution is accepted. -/
def State.substOk (s : State) (d p : Nat) (t : W64) : Bool :=
  !s.reachable d && s.gazState p == gazSpare && posCoord p 1 == d / 16 % 16 && posCoord p 2 == d / 256 &&
    decide (s.count.toNat + 2 ≤ t.toNat) && !s.flag Csr.lnkSubst_pending

/-- LNK_SUBST written: with go, the command is accepted and flooded, or rejected. -/
def State.writeSubst (s : State) (v : W64) : State :=
  let s := s.genWrite Csr.lnkSubst v
  if bit v 25 then
    let d := s.fld Csr.lnkSubst_logical
    let p := s.fld Csr.lnkSubst_phys
    let t := s.word Csr.lnkSubstT
    if s.substOk d p t then (s.holdSubst d p t).flood none gzSubst [w64 d, w64 p, t]
    else s.setFld Csr.lnkSubst_rej 1
  else s

/-- LNK_SUBST_GO. -/
def execLnkSubstGo (value : W64) (s : State) : Res := .next (s.writeSubst value)

/-- GAZ_SUBST: held, and forwarded the first time it comes. -/
def execGazSubst (port logical phys t : Nat) (s : State) : Res :=
  let x := (logical, phys, w64 t)
  .next (if s.substs.contains x ∨ positions ≤ phys then s
    else (s.holdSubst logical phys (w64 t)).flood (some port) gzSubst [w64 logical, w64 phys, w64 t])

/-- The position that holds a logical number, in whatever state. -/
def State.holderOf (s : State) (d : Nat) : Option Nat :=
  s.entries.find? (fun p => s.flag (Csr.lnkGazLo_log_valid p) && s.gazState p != gazAbsent && s.fld (Csr.lnkGazLo_logical p) == d)

/-- One substitution takes effect. -/
def State.applySubst (s : State) (x : Nat × Nat × W64) : State :=
  let (d, p, _) := x
  let s := match s.holderOf d with
    | some q =>
      let s := s.setFld (Csr.lnkGazLo_state q) gazAbsent
      if q = s.here then s.setFld Csr.lnkSts_log_valid 0 else s
    | none => s
  let s := ((s.setFld (Csr.lnkGazLo_state p) gazLive).setFld (Csr.lnkGazLo_logical p) d).setFld
    (Csr.lnkGazLo_log_valid p) 1
  if p = s.here then (s.setFld Csr.lnkSts_logical d).setFld Csr.lnkSts_log_valid 1 else s

/-- SUBST_APPLY: at tick edge T. -/
def execSubstApply (s : State) : Res :=
  let due := s.substs.filter (fun x => decide (x.2.2.toNat ≤ s.count.toNat))
  let old := s
  .next (if due.isEmpty then s
    else
      let s := due.foldl State.applySubst { s with substs := s.substs.filter (fun x => !due.contains x) }
      (s.setFld Csr.lnkSubst_pending (b2n (!s.substs.isEmpty))).recompute old)

end Sys2Proof.Machine
end

