-- ==== Sys2Proof/Machine/Rails.lean ====
section
/-! DEFINITION. Operating points of the dies, the core rails and steps in progress (spec/15_power_droop_thermal.md R417 to
R419, R454; spec/18_package_pins_electrical.md R487, R488). -/
namespace Sys2Proof.Machine

/-- The power controller's record changed. -/
def State.updPower (s : State) (f : Power → Power) : State := { s with power := f s.power }

/-- The PLL word of an operating point (spec/14_clocks_and_crossings.md Table 14.2), enabled: feedback 100 MHz units,
output divider. -/
def opPll (n : Nat) : W64 :=
  let (fb, post) := match n with
    | 0 => (48, 2) | 1 => (32, 1) | 2 => (40, 1) | 3 => (48, 1) | 4 => (56, 1) | 5 => (32, 0) | 6 => (36, 0) | _ => (40, 0)
  w64 (fb * 2 ^ 2 + post * 2 ^ 26 + 2 ^ 29)

/-- Fields of a PLL word: reference divider, 100 MHz × 2^16 × feedback, output divider. -/
abbrev pllRef (w : W64) : Nat := bits w 0 2 + 1
abbrev pllFb (w : W64) : Nat := 100 * (bits w 2 8 * 65536 + bits w 10 16)
abbrev pllPost (w : W64) : Nat := bits w 26 3

/-- The point a PLL word produces, where its frequency is one of Table 15.1. -/
def State.pllPoint (s : State) (w : W64) : Option Nat :=
  (List.range 8).find? (fun n => s.fld (Csr.pwrOp_mhz n) * 65536 * pllRef w * 2 ^ (pllPost w + 1) == pllFb w)

/-- The PLL that a die's TCLK runs from: A false, B true; none on IOSC. -/
def State.diePll (s : State) (d : Nat) : Option Bool :=
  match s.fld (Csr.clkSrc_cur d) with
  | 0 => some false
  | 1 => some true
  | _ => none

/-- The operating point that a die runs at: that of its current PLL. -/
def State.dieOp (s : State) (d : Nat) : Option Nat :=
  match s.diePll d with
  | some b => s.pllPoint (s.word (if b then Csr.clkPllB d else Csr.clkPllA d))
  | none => none

/-- The ceiling of a planned margin (spec/16_faults_ageing_service.md R453). -/
def State.marginCeiling (s : State) : Int := 30 + 5 * (s.otp.release : Int)

/-- The set voltage of a point in mV by the margin that Survey has planned (R417): a point beyond the ceiling stays at
the ceiling voltage (R454). -/
def State.plannedVoltage (s : State) (n : Nat) : Nat :=
  ((s.fld (Csr.pwrOp_vnom_mv n) : Int) + min (signed 8 (s.fld (Csr.pwrOp_margin_mv n))) s.marginCeiling).toNat

/-- The set voltage in force of a point, and whether it may be used: the plan taken at the latest sample (R454). -/
def State.setVoltage (s : State) (n : Nat) : Nat := (s.power.plan.getD n (0, false)).1
def State.opOn (s : State) (n : Nat) : Bool := (s.power.plan.getD n (0, false)).2

/-- The step of a die in progress. -/
def State.stepOf (s : State) (d : Nat) : Option OpStep := s.power.steps.find? (fun x => x.die == d)

/-- The dies of a group (R418). -/
def groupDies (g : Nat) : List Nat := (List.range 4).map (fun i => 4 * g + i)

/-- The voltage that the point a die runs at requires: a raised margin applies at once, but not during a step of the
die, a lowered one from its next step (R454). -/
def State.dieVolt (s : State) (d : Nat) : Nat :=
  match s.dieOp d with
  | none => 0
  | some n =>
    let x := s.power.volts.getD d (none, 0)
    if x.1 = some n then (if (s.stepOf d).isSome then x.2 else max x.2 (s.setVoltage n)) else s.setVoltage n

/-- The voltage a group rail needs: the highest that the points of its dies, and those they step to, require (R418). -/
def State.railNeed (s : State) (g : Nat) : Nat :=
  (groupDies g).foldl (fun m d =>
    max m (max (s.dieVolt d) (match s.stepOf d with | some x => x.mv | none => 0))) 0

/-- The plan that Survey has left in the registers taken into force, each die keeping the voltage of its point (R454).
-/
def State.takePlan (s : State) : State :=
  s.updPower (fun p => { p with
    plan := (List.range 8).map (fun n => (s.plannedVoltage n, s.flag (Csr.pwrOp_en n)))
    volts := (List.range 16).map (fun d => (s.dieOp d, s.dieVolt d)) })

/-- The set voltage of a rail. -/
def State.rail (s : State) (g : Nat) : Nat := s.power.rails.getD g 720

/-- An AVSBus voltage write (R487). -/
def State.writeRail (s : State) (g mv : Nat) : State :=
  let old := s.rail g
  (s.updPower (fun p => { p with
    rails := p.rails.set g mv, railsWas := p.railsWas.set g old, avsBad := p.avsBad.filter (· != g) })).emit (.avs g mv)

/-- PWR_STS.stepping follows the steps in progress. -/
def State.showStepping (s : State) : State := s.setFld Csr.pwrSts_stepping (b2n (!s.power.steps.isEmpty))

/-- A step of a die ends or is abandoned. -/
def State.endStep (s : State) (d : Nat) : State :=
  (s.updPower (fun p => { p with steps := p.steps.filter (fun x => x.die != d) })).showStepping

/-- A step completes once the die's TCLK runs from the PLL that was programmed for it; the rail is lowered when no die
of the group still needs more (R419). -/
def State.finishStep (s : State) (d : Nat) : State :=
  match s.stepOf d with
  | some x =>
    if s.fld (Csr.clkSrc_cur d) = b2n x.onB then
      let s := (s.endStep d).updPower (fun p => { p with volts := p.volts.set d (some x.point, x.mv) })
      let g := d / 4
      if s.railNeed g < s.rail g then s.writeRail g (s.railNeed g) else s
    else s
  | none => s

end Sys2Proof.Machine
end

