-- ==== Sys2Proof/Machine/Clocks.lean ====
section
/-! DEFINITION. The clock unit and the crossings (spec/14_clocks_and_crossings.md R397 to R416). -/
namespace Sys2Proof.Machine

/-- An event of the clock unit, to the M-level ring (R416). -/
def State.raiseClk (s : State) (code sev : Nat) (d1 : W64) : State := s.raiseM (devEvent 4 code sev none 0 d1)

/-! ## Stages of start-up that the clocks end (spec/17_startup_and_discovery.md Table 17.1) -/

abbrev bsCold : Nat := 0
abbrev bsRefclk : Nat := 1
abbrev bsPll : Nat := 2
abbrev bsRom : Nat := 3
abbrev bsBist : Nat := 4
abbrev bsMemory : Nat := 5
abbrev bsFinish : Nat := 6
abbrev bsReady : Nat := 7
abbrev bsFailed : Nat := 15

/-- A stage entered. The table gives READY no code: CFG_BOOT.stage then shows an open value. -/
def State.setStage (s : State) (n : Nat) : State :=
  if n = bsReady then
    ({ s with stage := n }.setFld Csr.cfgBoot_stage (bits (Config.freeWord s.freeCtr) 0 4)).takeFree 1
  else { s with stage := n }.setFld Csr.cfgBoot_stage n

/-- The firmware runs on the management controller: from the end of stage ROM, unless no image verified. -/
def State.fwRuns (s : State) : Bool := !s.frozen && decide (bsBist ≤ s.stage) && decide (s.stage ≤ bsReady)

/-- The management controller's core starts at the first instruction of the boot ROM (spec/07_nolpa_programming.md
R204; spec/17_startup_and_discovery.md Table 17.1, R461). DESIGN CHOICE, unsafe (log 67): its registers start at their
reset values and its pc at 0, and TC_STATUS.priv, which has no code for M, shows P. -/
def State.startCore (s : State) : State :=
  s.updTile mcCore (fun _ => (Tile.reset.setState tsRunning).setFld Csr.tcStatus_priv 1)

/-- The stages that end when IOSC is stable, REFCLK is qualified, and every domain runs from PLL A with every die-to-die
link up or down. -/
def State.bootAdvance (s : State) : State :=
  let s := if s.stage = bsCold ∧ s.flag Csr.clkSts_iosc_ok = true then (s.setStage bsRefclk).startCore else s
  let s := if s.stage = bsRefclk ∧ s.flag Csr.clkSts_ref_ok = true then s.setStage bsPll else s
  if s.stage = bsPll ∧ (List.range 54).all (fun n => s.fld (Csr.clkSrc_cur n) == 0) = true ∧
      (List.range 44).all (fun k => s.flag (Csr.cfgD2dSts_up k) || s.flag (Csr.cfgD2dSts_down k)) = true then
    s.setStage bsRom
  else s

/-! ## PLLs (R399, R401) -/

/-- The largest PLL output a domain accepts, in units of 1/32 MHz (Table 14.1). -/
def domMax (n : Nat) : Nat :=
  if n < 16 then 64000 else if n < 20 then 38400 else if n < 28 then 32000 else if n < 52 then 53125
  else if n = 52 then 6400 else 3200

/-- A PLL setting that a domain accepts (R401). -/
def pllOk (n : Nat) (w : W64) : Bool :=
  decide (3200 * 65536 * pllRef w ≤ pllFb w) && decide (pllFb w ≤ 6400 * 65536 * pllRef w) && decide (pllPost w < 5) &&
    decide (pllFb w * 32 ≤ domMax n * 65536 * pllRef w * 2 ^ (pllPost w + 1))

/-- The register of a domain's PLL A or B, and its READY bit. -/
def pllReg (n : Nat) (b : Bool) : Nat := if b then Csr.clkPllB n else Csr.clkPllA n
def pllRdy (n : Nat) (b : Bool) : Fld := if b then Csr.clkPllSts_ready_b n else Csr.clkPllSts_ready_a n

/-- A source of a domain is ready to be switched to: IOSC always (R402). -/
def State.srcReady (s : State) (n src : Nat) : Bool :=
  match src with
  | 0 => s.flag (pllRdy n false)
  | 1 => s.flag (pllRdy n true)
  | 2 => true
  | _ => false

/-- The frequency of a source as a fraction: MHz × 2^16 numerator and denominator; IOSC at 50 MHz. -/
def State.srcFreq (s : State) (n src : Nat) : Nat × Nat :=
  if src = 2 then (50 * 65536, 1)
  else
    let w := s.word (pllReg n (src == 1))
    (pllFb w, pllRef w * 2 ^ (pllPost w + 1))

/-- CLK_FWD.active: the output is driven while enabled and FWD runs from a READY PLL (R410). -/
def State.showFwd (s : State) : State :=
  let cur := s.fld (Csr.clkSrc_cur 53)
  s.setFld Csr.clkFwd_active (b2n (s.flag Csr.clkFwd_en && cur < 2 && s.srcReady 53 cur))

/-- A PLL word written (R401). -/
def State.writePll (s : State) (n : Nat) (b : Bool) (v : W64) : State :=
  if s.fld (Csr.clkSrc_cur n) = b2n b ∨ pllOk n v = false then s.setFld (Csr.clkPllSts_cfg_err n) 1
  else (s.genWrite (pllReg n b) v).setFld (pllRdy n b) 0

/-- PLL_WRITE. -/
def execPllWrite (dom : Nat) (b : Bool) (value : W64) (s : State) : Res :=
  .next (if dom < 54 then s.writePll dom b value else s)

/-- PLL_READY (R399): an enabled PLL. -/
def execPllReady (dom : Nat) (b : Bool) (s : State) : Res :=
  .next (if dom < 54 ∧ bit (s.word (pllReg dom b)) 29 = true then s.setFld (pllRdy dom b) 1 else s)

/-! ## Switching (R402 to R405, R430) -/

/-- Stack `k` leaves self-refresh: the accesses it has kept go on (R406). -/
def State.wakeStack (s : State) (k : Nat) : State :=
  if s.selfRefresh.contains k then { s with selfRefresh := s.selfRefresh.filter (· != k) }.unfence (101 + k) else s

/-- A switch completes (R403). A stack in self-refresh whose PCLK runs from a PLL again serves accesses (R406). -/
def State.switchTo (s : State) (n src : Nat) : State :=
  let s := ((s.setFld (Csr.clkSrc_cur n) src).setFld (Csr.clkSrc_pending n) 0).addFld (Csr.clkSrc_switches n) 1
  let s := if 20 ≤ n ∧ n < 28 ∧ src < 2 then s.wakeStack (n - 20) else s
  s.showFwd.bootAdvance

/-- The clock of a die is stretched (spec/15_power_droop_thermal.md R428). -/
def State.stretched (s : State) (n : Nat) : Bool := decide (n < 16) && s.fld (Csr.pwrDroop_div n) != 0

/-- A source would raise a domain's frequency. -/
def State.raises (s : State) (n src : Nat) : Bool :=
  let (a, x) := s.srcFreq n (s.fld (Csr.clkSrc_cur n))
  let (b, y) := s.srcFreq n src
  decide (a * y < b * x)

/-- A request refused (R402). -/
def State.refuseSwitch (s : State) (n : Nat) : State :=
  (s.setFld (Csr.clkSrc_refused n) 1).raiseClk 0x0104 sevInfo (w64 n)

/-- A switch request (R402, R404). One that names the current source changes nothing, a switch that is held least of
all. -/
def State.requestSwitch (s : State) (n sel : Nat) : State :=
  if s.srcReady n sel then
    let held := s.fld (Csr.clkSrc_cur n) == sel && s.flag (Csr.clkSrc_pending n)
    let s := if held then s else s.setFld (Csr.clkSrc_sel n) sel
    if s.fld (Csr.clkSrc_cur n) = sel then s
    else if s.stretched n && s.raises n sel then s.setFld (Csr.clkSrc_pending n) 1
    else s.switchTo n sel
  else s.refuseSwitch n

/-- CLK_SWITCH_REQUEST. -/
def execClkSwitchRequest (dom source : Nat) (s : State) : Res :=
  .next (if dom < 54 then s.requestSwitch dom source else s)

/-- HELD_SWITCH_PROCEED (R404, R430): held again by a new stretch, else re-tested. -/
def execHeldSwitchProceed (dom : Nat) (s : State) : Res :=
  .next (if dom < 54 ∧ s.flag (Csr.clkSrc_pending dom) = true ∧ s.stretched dom = false then
      let sel := s.fld (Csr.clkSrc_sel dom)
      if s.srcReady dom sel then (s.switchTo dom sel).finishStep dom
      else ((s.setFld (Csr.clkSrc_pending dom) 0).refuseSwitch dom).endStep dom
    else s)

/-- A domain whose PLL fails goes to IOSC without a request (R405). -/
def State.toIosc (s : State) (n : Nat) : State :=
  (s.setFld (Csr.clkPllSts_unlock n) 1).switchTo n 2

/-- PLL_UNLOCK (R399, R405): a PLL of a domain leaves its tolerance, or sees no REFCLK edge, and drops READY. Where it
is the current source the domain switches to IOSC, and stays there: a step of the die's operating point is over. -/
def execPllUnlock (pll : Pll) (s : State) : Res :=
  .next (if pll.dom < 54 then
      let s := s.setFld (pllRdy pll.dom pll.b) 0
      if s.fld (Csr.clkSrc_cur pll.dom) = b2n pll.b then
        ((s.toIosc pll.dom).endStep pll.dom).raiseClk 0x0103 sevWarn (w64 pll.dom)
      else s
    else s)

/-! ## The clock monitor (R398, R406 to R408) -/

/-- IOSC_STABLE. -/
def execIoscStable (s : State) : Res := .next (s.setFld Csr.clkSts_iosc_ok 1).bootAdvance

/-- Both PLLs of a domain disabled. -/
def State.stopPlls (s : State) (n : Nat) : State :=
  let off := fun (w : W64) => w64 (putField w.toNat 29 1 0)
  let s := (s.setWord (Csr.clkPllA n) (off (s.word (Csr.clkPllA n)))).setWord (Csr.clkPllB n)
    (off (s.word (Csr.clkPllB n)))
  (s.setFld (pllRdy n false) 0).setFld (pllRdy n true) 0

/-- A loss of REFCLK (R406). -/
def State.loseRefclk (s : State) : State :=
  let s := (List.range 54).foldl (fun s n =>
    (if s.fld (Csr.clkSrc_cur n) < 2 then s.toIosc n else s).stopPlls n) s
  let s := (((s.setFld Csr.clkSts_lost_state 1).setFld Csr.clkFail_lost 1).addFld Csr.clkFail_count 1).setFld
    Csr.clkSts_ref_ok 0
  let s := s.showFwd.raiseClk 0x0101 sevDevice (w64 (s.fld Csr.clkMon_last_count))
  let s := (List.range 24).foldl (fun s n => if s.portState n = psUp then s.leaveUp n psRetrain else s) s
  { s.updPower (fun p => { p with steps := [] }) with selfRefresh := List.range 8 }.showStepping.dropHost

/-- CLKMON_WINDOW (R398, R406, R407). -/
def execClkmonWindow (edges : Nat) (s : State) : Res :=
  .next (if s.flag Csr.clkSts_iosc_ok then
      let s := s.setFld Csr.clkMon_last_count (min 4095 edges)
      if s.fld Csr.clkMon_lo ≤ edges ∧ edges ≤ s.fld Csr.clkMon_hi then
        let s : State := { s.addFld Csr.clkSts_good_windows 1 with badWindows := 0 }
        if s.fld Csr.clkSts_good_windows = 32 ∧ s.flag Csr.clkSts_ref_ok = false then
          let s := { s.setFld Csr.clkSts_ref_ok 1 with refUnqual := false }
          let s := if s.flag Csr.clkSts_lost_state then (s.setFld Csr.clkSts_lost_state 0).raiseClk 0x0102 sevInfo 0 else s
          s.bootAdvance
        else s
      else
        let s : State := { (s.setFld Csr.clkSts_good_windows 0).addFld Csr.clkMon_oor 1 with badWindows := s.badWindows + 1 }
        if s.badWindows = 2 ∧ s.flag Csr.clkSts_ref_ok = true then s.loseRefclk else s
    else s)

/-- REFCLK_UNQUAL_TIMEOUT (R408). -/
def execRefclkUnqualTimeout (s : State) : Res :=
  .next (if s.flag Csr.clkSts_iosc_ok = true ∧ s.flag Csr.clkSts_ref_ok = false ∧ s.flag Csr.clkSts_lost_state = false ∧
      s.refUnqual = false then
      { s with refUnqual := true }.raiseClk 0x0105 sevWarn 0
    else s)

/-! ## Crossings (R414, R415) -/

/-- The reset side of a crossing has left reset: a partition that is READY, a die-to-die link that is up, a port in UP
or HELD, the trained PCIe port. -/
def State.sideOut (s : State) (x : Nat) : Bool :=
  if x < 32 then s.fld (Csr.prtPart_state x) == 0
  else if x < 76 then s.flag (Csr.cfgD2dSts_up (x - 32))
  else if x < 100 then s.portState (x - 76) == psUp || s.portState (x - 76) == psHeld
  else s.pcieUp

/-- CROSSING_BACKPRESSURE_TIMEOUT: the oldest transfer that waits at a fenced crossing ends. -/
def execCrossingBackpressureTimeout (xing : Nat) (s : State) : Res :=
  .next (if xing ≤ 100 then s.fenceTimeout xing else s)

/-- CROSSING_READY_REQUEST. -/
def execCrossingReadyRequest (xing : Nat) (s : State) : Res :=
  .next (if xing ≤ 100 ∧ s.sideOut xing = true ∧ s.admitted.contains xing = false ∧ s.readyReq.contains xing = false then
      { s with readyReq := s.readyReq ++ [xing] }
    else s)

/-- CROSSING_READY_ACK: traffic is admitted; what waited goes on. -/
def execCrossingReadyAck (xing : Nat) (s : State) : Res :=
  .next (if s.readyReq.contains xing then
      let s := { s with readyReq := s.readyReq.filter (· != xing), admitted := s.admitted ++ [xing] }
      s.unfence xing
    else s)

end Sys2Proof.Machine
end

