-- ==== Sys2Proof/Machine/Rings.lean ====
section
/-! DEFINITION. Rings, their contexts, indices and descriptors, LAUNCH, and the registers of event delivery
(spec/06_memory_and_ordering.md R186 to R200, R508; spec/07_nolpa_programming.md R236, R237). -/
namespace Sys2Proof.Machine

abbrev rsDisabled : Nat := 0
abbrev rsRunning : Nat := 1
abbrev rsStopping : Nat := 2
abbrev rsStopped : Nat := 3

/-- Partition states (PRT_PART.state). -/
abbrev ptReady : Nat := 0
abbrev ptResetting : Nat := 1
abbrev ptWithdrawn : Nat := 2

/-- The state of a ring. -/
abbrev State.ringState (s : State) (r : Nat) : Nat := s.fld (Csr.memRingSts_state r)
abbrev State.ringKind (s : State) (r : Nat) : Nat := s.fld (Csr.memRingSts_kind r)

/-! ## Commands (R191) -/

/-- A command discarded: ctx_err of the ring it names. -/
def State.ctxErr (s : State) (r : Nat) : State := s.setFld (Csr.memRingSts_ctx_err r) 1

/-- A LOAD is reading (MEM_RING_CMD.busy). -/
def State.ringBusy (s : State) (p : Nat) : Bool := s.flag (Csr.memRingCmd_busy p)

/-- RING_LOAD (R191): from DISABLED or STOPPED, in a partition that is not withdrawn. -/
def State.ringLoad (s : State) (p i : Nat) : State :=
  let r := 1024 * p + i
  if s.ringBusy p || s.fld (Csr.prtPart_state p) == ptWithdrawn ||
      !(s.ringState r == rsDisabled || s.ringState r == rsStopped) then s.ctxErr r
  else
    let s := { s with loading := NMap.insert s.loading p i }
    s.setFld (Csr.memRingCmd_busy p) 1

/-- RING_LOAD. -/
def execRingLoad (part ring : Nat) (s : State) : Res :=
  .next (if part < 32 ∧ ring < 1024 then s.ringLoad part ring else s)

/-- RING_STOP (R191). -/
def State.ringStop (s : State) (p i : Nat) : State :=
  let r := 1024 * p + i
  if s.ringBusy p || s.ringState r != rsRunning then s.ctxErr r else s.stopRing r

/-- RING_STOP. -/
def execRingStop (part ring : Nat) (s : State) : Res :=
  .next (if part < 32 ∧ ring < 1024 then s.ringStop part ring else s)

/-- Held records that a ring can now take are written (R200). -/
def State.ringAdvanced (s : State) (r : Nat) : State :=
  if s.ringKind r = 4 then s.drainP (r / 1024) 64 else s

/-- RING_RESUME (R191). -/
def State.ringResume (s : State) (p i : Nat) : State :=
  let r := 1024 * p + i
  if s.ringBusy p || s.ringState r != rsStopped then s.ctxErr r
  else (s.setFld (Csr.memRingSts_state r) rsRunning).ringAdvanced r

/-- RING_RESUME. -/
def execRingResume (part ring : Nat) (s : State) : Res :=
  .next (if part < 32 ∧ ring < 1024 then s.ringResume part ring else s)

/-- Package memory that a partition owns: every granule valid, not M-only, and of the partition's job (R186, R187). -/
def State.owns (s : State) (p a len : Nat) : Bool :=
  memRange a len && (match region a with | .pkg _ => true | _ => false) &&
    (List.range ((a + len - 1) / 0x40000000 - a / 0x40000000 + 1)).all (fun i =>
      let w := s.word (Csr.prtGranAct (a / 0x40000000 + i))
      bit w 5 && !bit w 6 && s.inJob p (bits w 0 5))

/-- A ring context entry as R187 admits it for ring `r`: kind and context; a context of kind 0, checked as any other,
has none. -/
def State.parseContext (s : State) (r : Nat) (ws : List W64) : Option (Nat × Option Ring) :=
  let w0 := ws.getD 0 0
  let w1 := ws.getD 1 0
  let kind := bits w0 53 3
  let size := bits w0 48 5
  let evq := 1024 * (r / 1024) + bits w1 16 10
  let bytes := (if kind = 4 then 32 else 64) * 2 ^ size
  let reserved := bits w0 56 8 != 0 || bits w1 6 10 != 0 || bits w1 26 38 != 0 || (ws.drop 2).any (· != 0) ||
    (kind != 2 && bits w1 0 6 != 0)
  if reserved || decide (4 < kind) then none
  else if size < 4 ∨ 16 < size ∨ bits w0 0 48 % bytes ≠ 0 ∨ s.owns (r / 1024) (bits w0 0 48) bytes = false ∨
      (kind ≠ 4 ∧ s.ringKind evq ≠ 4) then none
  else if kind = 0 then some (0, none)
  else some (kind, some ⟨bits w0 0 48, size, bits w1 0 6, evq, 0, []⟩)

/-- 64 bytes read by a ring engine at P (R190, R377): where they come, with no status; `e` is what error detection
reports. -/
def State.ringRead (s : State) (p a : Nat) (e : Ecc) : State × Option Nat :=
  match s.accessFail (.loc p true) none (hubOf p) .read a 64 with
  | some st => (if st = stProt then s.deny (.loc p true) a else s, some st)
  | none =>
    let (s, ue) := s.detect (eccWithin e .read a 64) (some p)
    (s, if ue.isSome then some stMemUe else none)

/-- The DA of the context entry of ring `i` of a partition (R186). -/
def State.contextAt (s : State) (p i : Nat) : Nat := (s.word (Csr.memRctx p) &&& 0xFFFFFFFF0000).toNat + 64 * i

/-- The entry of a LOAD is read and checked; both indices become 0 (R186, R187, R191). -/
def State.loadContext (s : State) (part i : Nat) (ecc : Ecc) : State :=
  let r := 1024 * part + i
  let a := s.contextAt part i
  let s := { s with loading := NMap.erase s.loading part }.setFld (Csr.memRingCmd_busy part) 0
  let (s, fail) := s.ringRead part a ecc
  let ctx := if fail.isSome ∨ s.owns part a 64 = false then none else s.parseContext r (s.words a 8)
  let s := (s.setFld (Csr.memRingIdx_idx r) 0).setFld (Csr.memRingSts_dev_idx r) 0
  match ctx with
    | some (kind, some c) =>
      let s := { s with rings := NMap.insert s.rings r c }
      ((s.setFld (Csr.memRingSts_kind r) kind).setFld (Csr.memRingSts_state r) rsRunning).ringAdvanced r
    | some (_, none) =>
      let s := { s with rings := NMap.erase s.rings r }
      (s.setFld (Csr.memRingSts_kind r) 0).setFld (Csr.memRingSts_state r) rsDisabled
    | none =>
      let s := { s with rings := NMap.erase s.rings r }
      (((s.setFld (Csr.memRingSts_kind r) 0).setFld (Csr.memRingSts_state r) rsDisabled).ctxErr r).raise
        (hubEvent 0 part 0x0508 sevFault (w64 (i * 2 ^ 32)) 0)

/-- RING_LOAD_COMPLETE: the home of the entry has answered. -/
def execRingLoadComplete (part : Nat) (ecc : Ecc) (s : State) : Res :=
  .next (match NMap.find? s.loading part with
    | none => s
    | some i => if (s.heldAt (some part) none (hubOf part) (s.contextAt part i)).isSome then s else s.loadContext part i ecc)

/-! ## Indices (R188, R189) -/

/-- The difference of two 32-bit indices. -/
def idxDiff (a b : Nat) : Nat := (a + 2 ^ 32 - b % 2 ^ 32) % 2 ^ 32

/-- A discarded index write (R189). -/
def State.overrun (s : State) (r : Nat) : State :=
  (s.setFld (Csr.memRingSts_overrun r) 1).raise
    (hubEvent 0 (r / 1024) 0x0507 sevFault (w64 (r % 1024 * 2 ^ 32)) 0)

/-- A sequencer that runs holds the producer index of its coll_ring (spec/12_training_support.md R356). -/
def State.seqHolds (s : State) (r : Nat) : Bool :=
  let p := r / 1024
  (s.fld (Csr.colSeqSts_state p) == 1 || s.fld (Csr.colSeqSts_state p) == 2) &&
    match NMap.find? s.seqs p with
    | some q => bits (descWord q.hdr 0x40) 0 10 == r % 1024
    | none => false

/-- A producer index written to a SUBMIT, MOVE or COLL ring (R189, Table 6.8). -/
def State.publish (s : State) (r v : Nat) : State :=
  let p := s.fld (Csr.memRingIdx_idx r)
  let c := s.fld (Csr.memRingSts_dev_idx r)
  match s.ring? r with
  | none => s
  | some x =>
    if idxDiff v p ≤ 2 ^ x.sizeLog2 - idxDiff p c then s.setFld (Csr.memRingIdx_idx r) v else s.overrun r

/-- A consumer index written to an EVENT ring (R189, R200). -/
def State.consumeRing (s : State) (r v : Nat) : State :=
  let c := s.fld (Csr.memRingIdx_idx r)
  let p := s.fld (Csr.memRingSts_dev_idx r)
  if idxDiff v c ≤ idxDiff p c then (s.setFld (Csr.memRingIdx_idx r) v).ringAdvanced r else s.overrun r

/-- MEM_RING_IDX written (R189): the write is discarded on a DISABLED ring (Table 6.8), and on the collective ring of
a sequencer that runs (spec/12_training_support.md R356). -/
def State.writeIndex (s : State) (r v : Nat) : State :=
  if s.ringState r = rsDisabled ∨ s.seqHolds r = true then s.overrun r
  else if s.ringKind r = 4 then s.consumeRing r v
  else s.publish r v

/-- RING_DOORBELL. -/
def execRingDoorbell (ring : Nat) (value : W64) (s : State) : Res :=
  .next (if ring < 32768 then s.writeIndex ring (bits value 0 32) else s)

/-- EVENT_RING_CONSUME. -/
def execEventRingConsume (ring : Nat) (value : W64) (s : State) : Res :=
  .next (if ring < 32768 then s.writeIndex ring (bits value 0 32) else s)

/-- MEVQ_CONSUME (R189): the M-level ring has no overrun bit; a write outside the range is discarded. -/
def State.consumeM (s : State) (v : Nat) : State :=
  let c := s.fld Csr.memMevqCons_cons
  let p := s.fld Csr.memMevqSts_prod
  if idxDiff v c ≤ idxDiff p c then (s.setFld Csr.memMevqCons_cons v).drainM 64
  else s.raiseM (hubUnitEvent 1 0 0x0507 sevFault 0 0)

/-- MEVQ_CONSUME. -/
def execMevqConsume (value : W64) (s : State) : Res := .next (s.consumeM (bits value 0 32))

/-- MEVQ_CFG_WRITE (R508). -/
def State.mevqCfg (s : State) (v : W64) : State :=
  let size := bits v 48 5
  let base := bits v 0 48
  let bytes := 32 * 2 ^ size
  let on := decide (4 ≤ size ∧ size ≤ 16)
  let inPkg := memRange base bytes && (match region base with | .pkg _ => true | _ => false) &&
    !s.stackFailed base && !s.stackFailed (base + bytes - 1)
  if on && !(base % bytes == 0 && inPkg) then s.setFld Csr.memMevqSts_cfg_err 1
  else
    let changed := base ≠ s.fld Csr.memMevqCfg_base ∨ size ≠ s.fld Csr.memMevqCfg_size_log2
    let s := (s.setFld Csr.memMevqCfg_base base).setFld Csr.memMevqCfg_size_log2 size
    let s := if changed then (s.setFld Csr.memMevqSts_prod 0).setFld Csr.memMevqCons_cons 0 else s
    s.drainM 64

/-- MEVQ_CFG_WRITE. -/
def execMevqCfgWrite (value : W64) (s : State) : Res := .next (s.mevqCfg value)

/-- The bytes a register read of a half returns. -/
def halfBytes (h : Half) (w : W64) : List Byte :=
  match h with
  | .full => toBytes 8 w.toNat
  | .lower => toBytes 4 (bits w 0 32)
  | .upper => toBytes 4 (bits w 32 32)

/-- A read of MEM_PEVQ_LOST: the value, and the count cleared but for a read of the upper half (R200). -/
def State.readPevqLost (s : State) (p : Nat) (h : Half) : State :=
  if h = .upper then s else (s.setFld (Csr.memPevqLost_lost p) 0).setOverflowed p false

/-- PEVQ_LOST_READ. -/
def execPevqLostRead (part : Nat) (half : Half) (s : State) : Res :=
  .next (if part < 32 then (s.emit (.data (halfBytes half (s.word (Csr.memPevqLost part))))).readPevqLost part half else s)

/-- A read of MEM_MEVQ_LOST (R200). -/
def State.readMevqLost (s : State) (h : Half) : State :=
  if h = .upper then s else (s.setFld Csr.memMevqLost_lost 0).setOverflowed ownM false

/-- MEVQ_LOST_READ. -/
def execMevqLostRead (half : Half) (s : State) : Res :=
  .next ((s.emit (.data (halfBytes half (s.word Csr.memMevqLost)))).readMevqLost half)

/-- MEM_TT_CLR (R196). -/
def State.ttClear (s : State) (p : Nat) (v : W64) : State :=
  if bit v 31 then s.setFld (Csr.memTt_high_water p) (s.ttInUse p) else s

/-- MEM_TT_CLR. -/
def execMemTtClr (part : Nat) (value : W64) (s : State) : Res :=
  .next (if part < 32 then s.ttClear part value else s)

/-! ## Fetching (R190, R196) -/

/-- Rings of a partition from which an entry can be fetched: RUNNING, not EVENT, with an entry the doorbell covers. -/
def State.fetchable (s : State) (p : Nat) : List Nat :=
  (s.rings.filter (fun e => e.1 / 1024 = p ∧ s.ringState e.1 = rsRunning ∧ s.ringKind e.1 ≠ 4 ∧
    e.2.fetched ≠ s.fld (Csr.memRingIdx_idx e.1))).map (fun e => e.1)

/-- The next ring in round-robin order after the one served last (R196). -/
def State.nextRing (s : State) (p : Nat) : Option Nat :=
  let rs := s.fetchable p
  match NMap.find? s.lastRing p with
  | some l => (rs.find? (fun r => l < r)).or rs.head?
  | none => rs.head?

/-- The status with which a fetched entry ends before its engine sees it, where it does (Table 6.9, Table 6.10). -/
def fetchStatus (kind : Nat) (ws : List W64) : Option Nat :=
  let op := descOp ws
  if bits (ws.headD 0) 10 6 ≠ 0 then some stInvalid
  else if op = 0 then none
  else if op = 1 ∨ op = 2 then (if kind = 1 ∨ kind = 2 then none else some stInvalid)
  else if op = 0x10 then (if kind = 1 then none else some stInvalid)
  else if 0x20 ≤ op ∧ op ≤ 0x3F then (if kind = 3 then none else some stInvalid)
  else some stInvalid

/-- An entry that holds a tracked transfer (R196). -/
def tracked (ws : List W64) : Bool :=
  let op := descOp ws
  op == 1 || op == 2 || op == 0x10 || (0x20 ≤ op && op ≤ 0x3F)

/-- Fetched collective descriptors that may start are accepted by the collective engine (Table 6.10, R313, R314). -/
def State.acceptColl (s : State) (r : Nat) (e : Ecc) : State :=
  match s.fetched.find? (fun f => f.ring == r && 0x20 ≤ descOp f.words && descOp f.words ≤ 0x3F && s.mayStart f) with
  | none => s
  | some f =>
    let s := s.markWaiting (.desc f.ring f.idx)
    s.contribute (2048 + r) (.desc f.ring f.idx) (r / 1024) 0 f.words f.epoch e

/-- DESC_FETCH (R196): the next entry, read from memory, while a tracked transfer is free. An entry whose read fails
completes with that status; no rule gives the words that such a read returns, and they are free. -/
def State.fetchDesc (s : State) (p : Nat) (e : Ecc) : State :=
  if s.fld (Csr.prtPart_state p) ≠ ptReady ∨ s.linkDown (24 + p / 2) = true ∨ 8192 ≤ s.ttInUse p then s
  else
    match s.nextRing p with
    | none => s
    | some r =>
      match s.ring? r with
      | none => s
      | some c =>
        let a := c.base + 64 * (c.fetched % 2 ^ c.sizeLog2)
        if (s.heldAt (some p) none (hubOf p) a).isSome then s
        else
          let (s, fail) := s.ringRead p a e
          let (ws, s) := if fail.isSome then ((List.range 8).map (fun k => Config.freeWord (s.freeCtr + k)), s.takeFree 8)
            else (s.words a 8, s)
          let tr := fail.isNone && tracked ws
          let s := if tr then s.ttAcquire p else s
          let f : Fetched := ⟨r, c.fetched, ws, fail.or (fetchStatus (s.ringKind r) ws), false, tr, false,
            s.fld Csr.dtmModeCur_epoch⟩
          let c := { c with fetched := (c.fetched + 1) % 2 ^ 32 }
          let s := { s with
            rings := NMap.insert s.rings r c, lastRing := NMap.insert s.lastRing p r, fetched := s.fetched ++ [f] }
          s.acceptColl r e

/-- DESC_FETCH. -/
def execDescFetch (part : Nat) (ecc : Ecc) (s : State) : Res :=
  .next (if part < 32 then s.fetchDesc part ecc else s)

/-- DESC_NOP (R192): completes at once. -/
def execDescNop (ring : Nat) (s : State) : Res :=
  .next (match s.startable ring 0 with
    | some f => s.endMove (.desc f.ring f.idx) stOk
    | none => s)

/-! ## LAUNCH (R236, R237) -/

/-- The tile prepared and RUNNING at an entry (R237): `phase` is its phase slot. -/
def Tile.launch (t : Tile) (entry : Nat) (arg : W64) (rank count : Nat) (priv : Bool) (tvec : W64) (phase : Nat) : Tile :=
  let t := { t with
    sreg := [], dreg := [], kreg := [], ibuf := [], fills := [], fetchErr := [], pc := entry, phase := phase,
    wait := .none, bpPassed := false }
  let t := ((t.setS 1 arg).setS 2 (w64 rank)).setS 3 (w64 count)
  let t := ((t.setFld Csr.tcStatus_priv (b2n priv)).setFld Csr.tcStatus_epriv (b2n priv)).genWrite Csr.tcTvec tvec
  let t := (((t.setWord Csr.tcEpc 0).setWord Csr.tcCause 0).setWord Csr.tcTval 0).setWord Csr.tcInstret 0
  (t.setState tsRunning).boundary

/-- The named tiles of a partition launched, each with its rank among them (R237, R346). -/
def State.launchTiles (s : State) (p : Nat) (tiles : W64) (entry : Nat) (arg : W64) (priv : Bool) (tvec : W64)
    (phase : Nat) : State :=
  let named := (List.range 64).filter (fun i => bit tiles i)
  (named.zipIdx).foldl (fun s x =>
    s.updTile (tileOf p x.1) (fun t => t.launch entry arg x.2 named.length priv tvec phase)) s

/-- A sequencer that runs holds the tiles of its mask (spec/12_training_support.md R347). -/
def State.seqTiles (s : State) (p : Nat) : W64 :=
  if s.fld (Csr.colSeqSts_state p) = 1 ∨ s.fld (Csr.colSeqSts_state p) = 2 then
    match NMap.find? s.seqs p with
    | some q => descWord q.hdr 0x08
    | none => 0
  else 0

/-- The status of a LAUNCH, before any tile starts. -/
def State.launchCheck (s : State) (p : Nat) (ws : List W64) : Nat :=
  let tiles := descWord ws 0x08
  let entry := descWord ws 0x10
  let named := (List.range 64).filter (fun i => bit tiles i)
  if tiles = 0 ∨ bits entry 0 3 ≠ 0 ∨ bits entry 48 16 ≠ 0 ∨ bits (descWord ws 0x20) 1 63 ≠ 0 ∨ descWord ws 0x30 ≠ 0 then
    stInvalid
  else if tiles &&& s.seqTiles p ≠ 0 ∨ named.any (fun i => (s.tile (tileOf p i)).state != tsIdle) then stBusy
  else stOk

/-- LAUNCH. -/
def execLaunch (ring : Nat) (s : State) : Res :=
  .next (match s.startable ring 0x10 with
    | none => s
    | some f =>
      let p := ring / 1024
      let ws := f.words
      let st := s.launchCheck p ws
      let s := if st = stOk then
          s.launchTiles p (descWord ws 0x08) (descWord ws 0x10).toNat (descWord ws 0x18) (bit (descWord ws 0x20) 0)
            (descWord ws 0x28) 0
        else s
      s.endMove (.desc f.ring f.idx) st)

/-! ## Completion (R188, R192, R195) -/

/-- The consumer index past every entry from it that has completed (R188). -/
def advanceIdx (done : List Nat) : Nat → Nat → Nat
  | 0, i => i
  | n + 1, i => if done.contains i then advanceIdx done n ((i + 1) % 2 ^ 32) else i

/-- A sequencer keeps the status of an entry it has posted (spec/12_training_support.md R358). -/
def State.noteDone (s : State) (r i st : Nat) : State :=
  if s.seqHolds r then
    match NMap.find? s.seqs (r / 1024) with
    | some q =>
      let note := fun (e : Nat × Option Nat) => if e.1 = i then (e.1, some st) else e
      { s with seqs := NMap.insert s.seqs (r / 1024) { q with posted := q.posted.map note, gate := q.gate.map note } }
    | none => s
  else s

/-- A finished descriptor completes: status word, event, consumer index, its transfer released. -/
def State.completeDesc (s : State) (f : Fetched) (st : Nat) : State :=
  let r := f.ring
  let p := r / 1024
  let s := { s with fetched := s.fetched.erase f }
  match s.ring? r with
  | none => s
  | some c =>
    let h := f.words.headD 0
    let d0 := w64 (st + bits h 16 16 * 2 ^ 16 + r % 1024 * 2 ^ 32)
    let d1 := descWord f.words 0x38
    let s := (s.store (c.base + 64 * (f.idx % 2 ^ c.sizeLog2) + 4) 4 (st + 2 ^ 31)).noteDone r f.idx st
    let s := if st ≠ stOk then s.raiseXfer c.evq (hubEvent 0 p 0x0509 sevFault d0 d1)
      else if bit h 8 then s.raiseXfer c.evq (hubEvent 0 p 0x050A sevInfo d0 d1) else s
    let idx := s.fld (Csr.memRingSts_dev_idx r)
    let done := f.idx :: c.doneIdx
    let idx' := advanceIdx done (done.length + 1) idx
    let s := { s with rings := NMap.insert s.rings r { c with
      doneIdx := done.filter (fun i => idxDiff idx' i == 0 || decide (2 ^ 31 ≤ idxDiff idx' i)) } }
    let s := s.setFld (Csr.memRingSts_dev_idx r) idx'
    let s := if s.ringState r = rsStopping ∧ s.fetched.any (fun g => g.ring == r) = false then
        s.setFld (Csr.memRingSts_state r) rsStopped else s
    let s := if f.tracked then s.ttRelease p else s
    s.acceptColl r .ok

/-- DESC_COMPLETE: the oldest finished descriptor of a ring. -/
def execDescComplete (ring : Nat) (s : State) : Res :=
  .next (match s.fetched.find? (fun f => f.ring == ring && f.status.isSome) with
    | some f => s.completeDesc f (f.status.getD 0)
    | none => s)

end Sys2Proof.Machine
end

