-- ==== Sys2Proof/Machine/Part.lean ====
section
/-! DEFINITION. Partition reset and withdrawal, row re-maps, die-to-die links, replacement requests, and the upkeep of
memory (spec/13_partitions_and_protection.md R373 to R376; spec/05_tiles_dies_device.md R146 to R149, R158;
spec/16_faults_ageing_service.md R446 to R450; spec/06_memory_and_ordering.md R168, R169). -/
namespace Sys2Proof.Machine

/-- An event of a partition as a whole, raised at H0 (R396). -/
def State.raisePart (s : State) (p code sev : Nat) : State := s.raise (devEvent 5 code sev (some p) 0 0)

/-! ## Replacement reasons (R450, Table 16.2) -/

/-- A reason set: the first time, REPLACE_REQUEST. -/
def State.setReason (s : State) (b : Nat) : State :=
  if bit (s.word Csr.svcRepl) b then s
  else
    (s.setFld Csr.svcRepl_reasons (s.fld Csr.svcRepl_reasons + 2 ^ b)).raiseM (devEvent 0 0x0A06 sevDevice none 0 0)

/-- SVC_REPL_SET written: each bit sets its reason. -/
def State.writeReplSet (s : State) (v : W64) : State :=
  ((List.range 4).filter (fun b => bit v b)).foldl State.setReason s

/-- SVC_REPL_SET. -/
def execSvcReplSet (value : W64) (s : State) : Res := .next (s.writeReplSet value)

/-! ## Holding a partition in reset (R376 steps 1 to 4) -/

/-- A transfer belongs to a partition. -/
def XOwner.ofPart (p : Nat) : XOwner → Bool
  | .mov n _ _ => partOf n == p
  | .desc r _ => r / 1024 == p

/-- A tile held in RESET: its engines stopped, nothing of what was in flight completes. -/
def Tile.hold (t : Tile) : Tile :=
  ({ t with
    wait := .none, haltReq := false, stepping := false, bpPassed := false, fills := [], mq := [], convs := [], tq := []
    chains := [], ovfSlots := [], inflight := [] }.setState tsReset).setFld Csr.tcDbgSts_halted 0

/-- What waits at a crossing belongs to partition `p`: its transfers, and the accesses of its tile cores. -/
def Held.ofPart (p : Nat) (h : Held) : Bool :=
  match h with
  | .core n .. => partOf n == p
  | _ => h.owner.any (XOwner.ofPart p)

/-- What waits at crossings for partition `p` is gone; a contribution among it counts as served in its instance. -/
def State.dropHeld (s : State) (p : Nat) : State :=
  let gone := s.fenced.filter (fun f => f.2.ofPart p)
  gone.foldl (fun s f => match f.2 with
    | .collOut _ c .. => s.countServed c.group c.inst
    | _ => s) { s with fenced := s.fenced.filter (fun f => !f.2.ofPart p) }

/-- Steps 1 to 4: fetching stops, tiles are held in RESET with their chains discarded, transfers send nothing further
and write nothing, contributions accepted stay in their instances but reach no destination here, and the crossing is
fenced. -/
def State.holdPartition (s : State) (p : Nat) : State :=
  let s := if s.fld (Csr.colSeqSts_state p) = 1 ∨ s.fld (Csr.colSeqSts_state p) = 2 then
      s.setFld (Csr.colSeqSts_state p) 3 else s
  let s := (List.range 64).foldl (fun s i => s.discardChains (tileOf p i)) s
  let s := s.updPart p Tile.hold
  let s := (s.dropRequests (XOwner.ofPart p)).dropHeld p
  { s.fenceCrossing p with
    seqs := NMap.erase s.seqs p
    seqAborting := NMap.erase s.seqAborting p
    fetched := s.fetched.filter (fun f => f.ring / 1024 != p)
    hostReads := s.hostReads.filter (fun h => h.ring / 1024 != p)
    staged := s.staged.filter (fun e => !e.1.ofPart p)
    loading := NMap.erase s.loading p
    contribs := s.contribs.map (fun c => if c.part = p then { c with dead := true } else c) }

/-- Every ring of a partition DISABLED, its context gone. -/
def State.disableRings (s : State) (p : Nat) : State :=
  let lo := Csr.memRingIdx (1024 * p)
  let hi := Csr.memRingIdx (1024 * (p + 1))
  { s with rings := NMap.clear s.rings (1024 * p) (1024 * (p + 1)), csr := NMap.clear s.csr lo hi }

/-- A partition reset begins (R376): ignored while RESETTING or WITHDRAWN. -/
def State.startReset (s : State) (p : Nat) : State :=
  if s.fld (Csr.prtPart_state p) = ptReady then
    let s := (s.setFld (Csr.prtPart_state p) ptResetting).holdPartition p
    { s with resetPhase := NMap.insert s.resetPhase p 1 }
  else s

/-- PART_RESET. -/
def execPartReset (part : Nat) (s : State) : Res := .next (if part < 32 then s.startReset part else s)

/-- A Function Level Reset of the VF of partition `p` (R376). It completes when the reset in progress reaches READY,
or at once where the partition is withdrawn. DESIGN CHOICE, safe (log 71): that of an FLR which starts the reset
completes then too. -/
def State.flrPart (s : State) (p : Nat) : State :=
  if s.fld (Csr.prtPart_state p) = ptWithdrawn then s.emit .ack
  else { s.startReset p with flrWaits := s.flrWaits ++ [p] }

/-- A Function Level Reset of the PF: its PCIe state alone (R388). PRESUMED, unsafe (log 71): VF Enable is part of
that state, as PCI Express has it, and the answer is a completion. -/
def State.flrPf (s : State) : State := { s with vfEnable := false }.emit .ack

/-- The Function Level Resets of partition `p` complete. -/
def State.flrDone (s : State) (p : Nat) : State :=
  (s.flrWaits.filter (· == p)).foldl (fun s _ => s.emit .ack) { s with flrWaits := s.flrWaits.filter (· != p) }

/-- FLR of a function (R376, R387, R388). -/
def execFlr (who : Who) (s : State) : Res :=
  .next (match who with
    | .vf p => if p < 32 then s.flrPart p else s
    | .pf => s.flrPf
    | .m => s)

/-! ## Step 5 -/

/-- The tile test (R446): run where a fault is attributed; `failed` are the tiles that fail it. -/
def State.tileTest (s : State) (p : Nat) (failed : W64) : State :=
  let attr := s.word (Csr.svcFltAttr p)
  if attr = 0 then s
  else
    let hard := attr &&& failed
    let s := (s.setWord (Csr.svcFltHard p) hard).setWord (Csr.svcFltAttr p) 0
    s.raise (devEvent 0 0x0A04 sevInfo (some p) attr hard)

/-- A per-partition register that a reset returns to its reset value; SVC_FLT_HARD keeps the outcome of the last test.
-/
def partReg (p off : Nat) : Bool :=
  match csrOwner off with
  | some (q, _) => q == p && off != Csr.svcFltHard p && off != Csr.svcFltAttr p
  | none => false

/-- A tile after a reset: RNG_TILE_EVAL counts since cold reset. -/
def Tile.fresh (t : Tile) : Tile := Tile.reset.setWord Csr.rngTileEval (t.word Csr.rngTileEval)

/-- Step 5: the test, then everything of the partition zeroed or returned to reset. -/
def State.zeroPartition (s : State) (p : Nat) (failed : W64) : State :=
  let s := s.tileTest p failed
  let s := (List.range 64).foldl (fun s i => s.zeroMem (sramBase (tileOf p i)) sramSize) s
  let mode := s.word Csr.dtmModeCur
  let s := s.updPart p (fun t => { Tile.fresh t with mode := mode })
  let s := s.disableRings p
  { s with
    csr := s.csr.filter (fun e => !partReg p e.1)
    registry := NMap.erase s.registry p
    rngQueue := NMap.erase s.rngQueue p
    rngArr := NMap.erase s.rngArr p
    lastRing := NMap.erase s.lastRing p
    held := NMap.erase s.held p
    lostMark := NMap.erase s.lostMark p
    overflowed := NMap.erase s.overflowed p
    resetPhase := NMap.insert s.resetPhase p 2 }

/-- A re-map that a repair of partition `p` has inserted in its reset is not done (spec/16_faults_ageing_service.md
R448). -/
def State.remapHolds (s : State) (p : Nat) : Bool :=
  s.repairing.contains p && s.remaps.any (fun x => 2 * x.1 + x.2.1 / 4 == p)

/-- PART_RESET_ZERO: once a re-map that a repair inserted is done. -/
def execPartResetZero (part : Nat) (failed : W64) (s : State) : Res :=
  .next (if NMap.find? s.resetPhase part = some 1 ∧ s.remapHolds part = false then
      s.zeroPartition part failed
    else s)

/-- Step 6: READY, tiles IDLE, PART_RESET_DONE, and the repair it belonged to done. -/
def State.finishReset (s : State) (p : Nat) : State :=
  let s := { s with resetPhase := NMap.erase s.resetPhase p }
  let s := (s.setFld (Csr.prtPart_state p) ptReady).updPart p (fun t => t.setState tsIdle)
  let s := (s.raisePart p 0x0903 sevInfo).flrDone p
  if s.repairing.contains p then { s with repairing := s.repairing.filter (· != p) }.setFld Csr.svcRepair_done 1 else s

/-- PART_RESET_DONE. -/
def execPartResetDone (part : Nat) (s : State) : Res :=
  .next (if NMap.find? s.resetPhase part = some 2 then s.finishReset part else s)

/-! ## Withdrawal (R375, R447) -/

/-- A partition withdrawn until cold reset. -/
def State.withdraw (s : State) (p : Nat) : State :=
  if s.fld (Csr.prtPart_state p) = ptWithdrawn then s
  else
    let s := ((s.holdPartition p).disableRings p).setFld (Csr.prtPart_state p) ptWithdrawn
    let s := { s with resetPhase := NMap.erase s.resetPhase p }
    ((s.addFld Csr.svcRepl_withdrawn 1).raisePart p 0x0904 sevDevice).flrDone p

/-- PART_WITHDRAW: a withdrawal by PRT_PART.withdraw sets SVC_REPL.spares. -/
def State.writeWithdraw (s : State) (p : Nat) : State :=
  if s.fld (Csr.prtPart_state p) = ptWithdrawn then s else (s.withdraw p).setReason 0

/-- PART_WITHDRAW. -/
def execPartWithdraw (part : Nat) (s : State) : Res := .next (if part < 32 then s.writeWithdraw part else s)

/-! ## Row re-maps (R146 to R149) -/

/-- The partition that owns a row of a die. -/
def rowPart (d y : Nat) : Nat := 2 * d + y / 4

/-- A re-map accepted: it runs by REMAP_SWITCH and REMAP_DONE. -/
def State.startRemap (s : State) (d y b : Nat) : State := { s with remaps := s.remaps ++ [(d, y, b)] }

/-- The write of CFG_TILE_MAP is accepted (R148). -/
def State.remapOk (s : State) (d y b : Nat) : Bool :=
  let p := rowPart d y
  !s.flag (Csr.prtPart_assigned_act p) && (List.range 64).all (fun i => (s.tile (tileOf p i)).state == tsReset) &&
    s.fld (Csr.cfgTileMap_factory d y) == 16 && decide (b ≤ 16)

/-- CFG_TILE_MAP written (R148): a write that is not accepted is discarded whole, and sets refused. -/
def State.writeTileMap (s : State) (d y : Nat) (v : W64) : State :=
  if s.remapOk d y (bits v 0 5) then
    ((s.genWrite (Csr.cfgTileMap d y) v).setFld (Csr.cfgTileMap_bypass d y) (s.fld (Csr.cfgTileMap_bypass d y))).startRemap
      d y (bits v 0 5)
  else s.setFld (Csr.cfgTileMap_refused d y) 1

/-- CFG_TILE_MAP_WRITE. -/
def execCfgTileMapWrite (die row : Nat) (value : W64) (s : State) : Res :=
  .next (if die < 16 ∧ row < 8 then s.writeTileMap die row value else s)

/-- REMAP_SWITCH (R149 steps 2 and 3): the row switches to the new bypass, and its SRAM is zeroed. -/
def execRemapSwitch (die row : Nat) (s : State) : Res :=
  match s.remaps.find? (fun x => x.1 == die && x.2.1 == row) with
  | none => .next s
  | some x =>
    if s.switched.contains (die, row) then .next s
    else
      let s := s.setFld (Csr.cfgTileMap_bypass die row) x.2.2
      let s := s.setFld (Csr.cfgTileMap_spare_free die row)
        (b2n (x.2.2 == 16 && s.fld (Csr.cfgTileMap_factory die row) == 16))
      let s := (List.range 16).foldl (fun s x => s.zeroMem (sramBase (128 * die + 16 * row + x)) sramSize) s
      .next { s with switched := s.switched ++ [(die, row)] }

/-- REMAP_DONE (R149 step 4): the oldest re-map of the row, whose multiplexers have switched, is done; one accepted
after it follows. -/
def execRemapDone (die row : Nat) (s : State) : Res :=
  .next (if s.switched.contains (die, row) then
      let s := { s with
        switched := s.switched.filter (· != (die, row))
        remaps := s.remaps.eraseP (fun x => x.1 == die && x.2.1 == row) }
      (s.setFld (Csr.cfgTileMap_done die row) 1).raise (devEvent 0 0x0A22 sevInfo (some (rowPart die row)) 0 0)
    else s)

/-- Whether SVC_REPAIR is accepted (R448). -/
def State.repairOk (s : State) (p y b : Nat) : Bool :=
  let d := p / 2
  !s.flag (Csr.prtPart_assigned_act p) && s.fld (Csr.prtPart_state p) == ptReady && y / 4 == p % 2 &&
    s.fld (Csr.cfgTileMap_factory d y) == 16 && s.fld (Csr.cfgTileMap_bypass d y) == 16 && decide (b ≤ 15)

/-- SVC_REPAIR written: with go, refused, or a partition reset with the re-map inserted (R448). -/
def State.writeRepair (s : State) (v : W64) : State :=
  let s := s.genWrite Csr.svcRepair v
  if bit v 13 then
    let p := s.fld Csr.svcRepair_part
    let y := s.fld Csr.svcRepair_row
    let b := s.fld Csr.svcRepair_pos
    if s.repairOk p y b then { s.startReset p with repairing := s.repairing ++ [p] }.startRemap (p / 2) y b
    else (s.setFld Csr.svcRepair_refused 1).raise (devEvent 0 0x0A05 sevWarn (some p) 0 0)
  else s

/-- SVC_REPAIR. -/
def execSvcRepair (value : W64) (s : State) : Res := .next (s.writeRepair value)

/-! ## Die-to-die links (R158, Table 5.7) -/

/-- The hub that an event of a link names: that of a link between a die and its hub. DESIGN CHOICE, unsafe (log 65):
no rule gives a compute-die link a hub, and a hub-ring link joins two; the record names 0, and k - 40. -/
def linkHub (k : Nat) : Nat := if k < 24 then 0 else if k < 40 then (k - 24) / 4 else k - 40

/-- A retraining attempt starts: counted and reported. -/
def State.d2dAttempt (s : State) (k : Nat) : State :=
  (s.addFld (Csr.cfgD2dSts_attempts k) 1).raise (linkEvent k 0x0A20 sevInfo (linkHub k) none)

/-- D2D_RETRY_FAIL: a link that is up has a flit retry fail and retrains. Its crossing is fenced, and traffic for it
is held back there (R158, R414). -/
def execD2dRetryFail (link : Nat) (s : State) : Res :=
  .next (if link < 44 ∧ s.flag (Csr.cfgD2dSts_up link) = true then
      let s := (s.addFld (Csr.cfgD2dSts_retries link) 1).setFld (Csr.cfgD2dSts_up link) 0
      ({ s with d2dFails := NMap.erase s.d2dFails link }.fenceCrossing (32 + link)).d2dAttempt link
    else s)

/-- A link taken down (R158, Table 5.7): everything held back at it ends with D2D_UNREACH. DESIGN CHOICE, safe (log
65): the record of D2D_DOWN has room for one partition and that of a die's link to its hub concerns two; it names
none, and goes to the M-level ring alone. -/
def State.takeDown (s : State) (k : Nat) : State :=
  let s := (s.setFld (Csr.cfgD2dSts_down k) 1).fenceDrop (32 + k) stUnreach
  let parts := if 24 ≤ k ∧ k < 40 then [2 * (k - 24), 2 * (k - 24) + 1] else []
  let s := s.raise (linkEvent k 0x0A21 sevFault (linkHub k) none)
  let s := parts.foldl (fun s p => s.abortPart p 0x0A21) s
  let s := parts.foldl State.withdraw s
  s.setReason 1

/-- D2D_RETRAIN_DONE: an attempt ends, the first training of start-up among them; one that succeeds comes with the
lanes that lane repair replaced as the link initialised (R150); after three failures the link is down. Traffic follows
the handshake of R415. -/
def execD2dRetrainDone (link : Nat) (trained : Option Nat) (s : State) : Res :=
  .next (if link < 44 ∧ s.flag (Csr.cfgD2dSts_up link) = false ∧ s.flag (Csr.cfgD2dSts_down link) = false then
      match trained with
      | some lanes =>
        (({ s with d2dFails := NMap.erase s.d2dFails link }.setFld (Csr.cfgD2dSts_up link) 1).setFld
          (Csr.cfgD2dSts_lanes_repaired link) lanes).bootAdvance
      | none =>
        let n := NMap.get (fun _ => 0) s.d2dFails link + 1
        if n < 3 then { s with d2dFails := NMap.insert s.d2dFails link n }.d2dAttempt link
        else ({ s with d2dFails := NMap.erase s.d2dFails link }.takeDown link).bootAdvance
    else s)

/-! ## Upkeep of memory (R168, R169) -/

/-- SRAM_SCRUB (R168): the tile's next line in ascending window offset is read; `ecc` is what error detection reports
on it. A corrected error is counted and reported; an uncorrectable one raises MEM_UE for a line that a partition owns.
-/
def execSramScrub (tile : Nat) (ecc : Ecc) (s : State) : Res :=
  .next (if tile < 2048 ∧ s.flag Csr.memCtl_sram_scrub = true then
      let line := (s.tile tile).scrubLine
      let s := s.updTile tile (fun t => { t with scrubLine := (line + 1) % 49152 })
      match eccWithin ecc .read (sramBase tile + 64 * line) 64 with
      | .ok => s
      | .corrected a => s.memCe a
      | .uncorrectable a => if s.flag (Csr.prtPart_assigned_act (partOf tile)) then s.memUe a none else s
    else s)

/-- HBM_REFRESH (R169): refresh keeps every byte as it is and shows in no state. -/
def execHbmRefresh (_stack : Nat) (s : State) : Res := .next s

/-- HBM_ECS (R169): error check and scrub of a stack. -/
def execHbmEcs (stack : Nat) (ecc : Ecc) (s : State) : Res :=
  .next (match ecc with
    | .ok => s
    | .corrected a => if region a = .pkg stack then s.memCe a else s
    | .uncorrectable a => if region a = .pkg stack then s.memUe a none else s)

/-- Every stack has finished training: stage MEMORY ends (Table 17.1). -/
def State.memoryDone (s : State) : State :=
  if s.stage = bsMemory ∧ (List.range 8).all (fun k => s.flag (Csr.memHbmSts_trained k) || s.flag (Csr.memHbmSts_failed k)) = true
  then s.setStage bsFinish else s

/-- HBM_TRAINED (spec/17_startup_and_discovery.md Table 17.1, Table 16.2): a stack that fails sets a replacement
reason. -/
def execHbmTrained (stack : Nat) (ok : Bool) (s : State) : Res :=
  .next (if stack < 8 ∧ s.flag (Csr.memHbmSts_trained stack) = false ∧ s.flag (Csr.memHbmSts_failed stack) = false then
      (if ok then s.setFld (Csr.memHbmSts_trained stack) 1
        else (s.setFld (Csr.memHbmSts_failed stack) 1).setReason 3).memoryDone
    else s)

end Sys2Proof.Machine
end

