-- ==== Sys2Proof/Machine/Discovery.lean ====
section
/-! DEFINITION. Discovery of the atlas: the Origin, alignment of the counts and READY
(spec/17_startup_and_discovery.md R467 to R478). -/
namespace Sys2Proof.Machine

/-- A discovery event (R480). -/
def State.raiseDisc (s : State) (code sev : Nat) : State := s.raiseM (devEvent 9 code sev none 0 0)

/-- The state of discovery. -/
abbrev State.discState (s : State) : Nat := s.fld Csr.lnkDisc_state
def State.setDisc (s : State) (st : Nat) : State := s.setFld Csr.lnkDisc_state st

/-- Discovery's record changed. -/
def State.updDisc (s : State) (f : Disc → Disc) : State := { s with disc := f s.disc }

/-- The claim held, as LNK_DISC shows it. -/
def State.holdClaim (s : State) (p : Nat) (closed : Bool) : State :=
  (s.updDisc (fun d => { d with claim := some (p, closed) })).setFld Csr.lnkDisc_origin_phys p

/-- src written in DTM_CTL, the rest as it stands. -/
def State.writeSrc (s : State) (src : Nat) : State :=
  s.writeDtmCtl (w64 (putField (s.word Csr.dtmCtl).toNat 0 2 src))

/-- A device in FLOOD that holds another's claim takes its reference from the upstream port (R472). -/
def State.followOrigin (s : State) : State :=
  match s.disc.claim with
  | some (p, _) => if s.discState = diFlood ∧ p ≠ s.here then s.setUpstream.writeSrc srcRelay else s
  | none => s

/-- FLOOD is entered. -/
def State.enterFlood (s : State) : State := (s.setDisc diFlood).followOrigin

/-- FLOOD as a component of one (R476): the own entry set. -/
def State.floodAlone (s : State) : State :=
  let s := s.claimEntry
  (s.setFld (Csr.lnkGazLo_version s.here) (s.fld (Csr.lnkGazLo_version s.here) + 1)).enterFlood

/-- Every port that is DOWN or FAILED trains. -/
def State.trainAll (s : State) : State := (List.range 24).foldl State.trainPort s

/-- An atlas of one position (R476). -/
def State.soleAtlas (s : State) : Bool := s.ringLen 0 == 1 && s.extent 1 == 1 && s.extent 2 == 1

/-- LNK_DISC.start written (R467, R468, R476, R478). -/
def State.startDiscovery (s : State) : State :=
  let st := s.discState
  if st = diIdle then
    if s.posValid s.here then
      let s := (s.setDisc diTrain).trainAll
      if s.soleAtlas then s.floodAlone else s
    else (((s.setFld Csr.lnkDisc_pos_invalid 1).isolate).trainAll).raiseDisc 0x0B05 sevDevice
  else if st = diIsolated then
    if s.posValid s.here ∧ s.flag Csr.lnkDisc_dup_pos = false then
      let old := s
      let s := (s.setFld Csr.lnkDisc_pos_invalid 0).updDisc (fun d => { d with since := s.count, readyAt := none })
      (s.claimEntry.setDisc diExchange).ownEntry.recompute old
    else s
  else if st = diReady then s.updDisc (fun d => { d with again := 1 })
  else s

/-- LNK_DISC_START. -/
def execLnkDiscStart (s : State) : Res := .next s.startDiscovery

/-- LNK_DISC written: start, and its W1C fields. -/
def State.writeDisc (s : State) (v : W64) : State :=
  let s := s.genWrite Csr.lnkDisc v
  if bit v 4 then s.startDiscovery else s

/-- DISC_EXCHANGE_TIMEOUT (R467): two ticks after the first port came UP. -/
def execDiscExchangeTimeout (s : State) : Res :=
  .next (if s.discState = diExchange ∧ 2 ≤ (s.count - s.disc.since).toNat then s.enterFlood else s)

/-- JOIN_WINDOW_CLOSE (R469, R476, R478): 10 s after DEVICE_READY, or after a start on a READY device. -/
def execJoinWindowClose (s : State) : Res :=
  let s := (s.setFld Csr.lnkDisc_window 0).updDisc (fun d => { d with again := if d.again = 1 then 2 else d.again })
  .next (if s.discState = diTrain ∧ (List.range 24).all (fun n => s.portState n != psUp) = true then s.floodAlone else s)

/-- The lowest position LIVE or SPARE in the Gazetteer. -/
def State.lowest (s : State) : Option Nat := s.entries.find? s.passable

/-- A claim held that keeps this device from claiming: closed, or of a lower position. -/
def State.outClaimed (s : State) : Bool :=
  match s.disc.claim with
  | some (p, closed) => closed || decide (p < s.here)
  | none => false

/-- GAZ_QUIET (R471): the lowest position claims. -/
def execGazQuiet (s : State) : Res :=
  .next (if s.discState = diFlood ∧ s.lowest = some s.here ∧ s.outClaimed = false ∧ s.disc.mine = false then
      let s := (s.holdClaim s.here false).updDisc (fun d => { d with mine := true })
      s.flood none gzClaim [w64 s.here, 0]
    else s)

/-- A claim that takes the place of the one held: the first, a lower one, or the closing of it; nothing challenges a
closed claim. -/
def State.betterClaim (s : State) (p : Nat) (closed : Bool) : Bool :=
  match s.disc.claim with
  | none => true
  | some (q, c) => !c && (decide (p < q) || closed)

/-- GAZ_CLAIM (R471): a lower claim withdraws this device's own. -/
def execGazClaim (port pos : Nat) (closed : Bool) (s : State) : Res :=
  .next (if pos < positions ∧ s.betterClaim pos closed = true then
      let s := s.holdClaim pos closed
      let s := if s.disc.mine ∧ pos ≠ s.here then
          ((s.updDisc (fun d => { d with mine := false })).setFld Csr.lnkDisc_origin 0).setFld Csr.dtmCtl_origin 0
        else s
      (s.flood (some port) gzClaim [w64 pos, w64 (b2n closed)]).followOrigin
    else s)

/-- ALIGNED flooded, and ALIGN entered (R472); the Origin's claim closes (R471). -/
def State.enterAlign (s : State) : State :=
  let p := s.here
  let s := s.updDisc (fun d => { d with aligned := if d.aligned.contains p then d.aligned else d.aligned ++ [p] })
  let s := (s.setDisc diAlign).flood none gzAligned [w64 p]
  if s.flag Csr.lnkDisc_origin then (s.holdClaim p true).flood none gzClaim [w64 p, 1] else s

/-- DTM_LOAD written (spec/09_datum_time.md R278): a device in FLOOD whose count it aligns floods ALIGNED and enters
ALIGN (R472). -/
def State.loadCount (s : State) (v : W64) : State :=
  let t := s.writeDtmLoad v
  if s.flag Csr.dtmSts_aligned = false ∧ s.discState = diFlood then t.enterAlign else t

/-- DTM_LOAD. -/
def execDtmLoad (value : W64) (s : State) : Res := .next (s.loadCount value)

/-- ORIGIN_ELECTED (R471, R472): the claim has stood; an Origin that kept its count loads nothing. -/
def execOriginElected (s : State) : Res :=
  .next (if s.disc.mine = true ∧ s.discState = diFlood ∧ s.flag Csr.lnkDisc_origin = false then
      let s := ((s.setFld Csr.dtmCtl_origin 1).setFld Csr.lnkDisc_origin 1).raiseDisc 0x0B07 sevInfo
      let s := s.writeSrc srcPin
      if s.flag Csr.dtmSts_aligned then s.enterAlign else s
    else s)

/-- DATUM_ABSENT (R472): the Origin has not accepted 16 consecutive edges within 20 ms. -/
def execDatumAbsent (s : State) : Res :=
  .next (if s.flag Csr.lnkDisc_origin = true ∧ s.discState = diFlood ∧ s.fld Csr.dtmCtl_src = srcPin ∧
      s.fld Csr.dtmSts_state = dsAcquire then
      (s.writeSrc srcFree).raiseDisc 0x0B08 sevWarn
    else s)

/-- GAZ_ALIGNED (R472). -/
def execGazAligned (port pos : Nat) (s : State) : Res :=
  .next (if pos < positions ∧ s.disc.aligned.contains pos = false then
      let s := s.updDisc (fun d => { d with aligned := d.aligned ++ [pos] })
      (s.flood (some port) gzAligned [w64 pos]).followOrigin
    else s)

/-- The Datum unit has accepted 16 consecutive edges. -/
def State.acquired (s : State) : Bool := s.fld Csr.dtmSts_state == dsSlew || s.fld Csr.dtmSts_state == dsLocked

/-- DISC_ALIGN (R472): the Origin by its own ticks, any other device by the markers that follow its upstream's
ALIGNED; one that kept its count loads nothing. -/
def execDiscAlign (s : State) : Res :=
  .next (if s.discState ≠ diFlood then s
    else if s.flag Csr.lnkDisc_origin then
      if s.acquired ∨ s.fld Csr.dtmCtl_src = srcFree then
        let t0 := s.word Csr.lnkDiscT0
        if s.flag Csr.dtmSts_aligned then s.enterAlign else s.loadCount (if t0 = 0 then s.count + 1 else t0)
      else s
    else if s.fld Csr.dtmCtl_src = srcRelay ∧ s.acquired = true ∧ s.flag Csr.dtmRelay_up_valid = true then
      if s.flag Csr.dtmSts_aligned then s.enterAlign
      else if s.disc.aligned.contains (s.facing (s.fld Csr.dtmRelay_upstream)) then s.loadCount (s.datum.mark + 1)
      else s
    else s)

/-- The expected positions (R468). -/
def State.expected (s : State) : List Nat :=
  (List.range (s.extent 2)).flatMap (fun z => (List.range (s.extent 1)).flatMap (fun y =>
    (List.range (s.extent 0)).map (fun x => posAt x y z)))

/-- The first condition of R473. -/
def State.allAligned (s : State) : Bool :=
  s.expected.all (fun p => s.gazState p == gazLive) &&
    (s.entries.filter s.passable).all (fun p => s.disc.aligned.contains p)

/-- T_r held (R473). -/
def State.holdReady (s : State) (tr : W64) : State :=
  (s.updDisc (fun d => { d with readyAt := some tr, lastReady := some tr })).setWord Csr.lnkDiscTr tr

/-- DISC_READY_FLOOD (R473, R478). -/
def execDiscReadyFlood (s : State) : Res :=
  let first := s.discState == diAlign && s.disc.readyAt.isNone && (s.allAligned || !s.flag Csr.lnkDisc_window)
  let again := s.discState == diReady && ((s.disc.again == 1 && s.allAligned) || s.disc.again == 2)
  .next (if s.flag Csr.lnkDisc_origin && (first || again) then
      let per := max 1 (s.fld Csr.dtmCtl_period_10ns)
      let tr := s.count + 2 + w64 ((120000 + per - 1) / per)
      ((s.updDisc (fun d => { d with again := 0 })).holdReady tr).flood none gzReady [tr]
    else s)

/-- Tick edge T_r is seen (R473, R478): ready, HELD links UP, unreach cleared; a device that was not READY raises
SYSTEM_READY. -/
def State.systemReady (s : State) : State :=
  let was := s.discState == diReady
  let s := s.updDisc (fun d => { d with readyAt := none, again := 0 })
  let s := ((s.setFld Csr.lnkSts_ready 1).setFld Csr.lnkSts_unreach 0).setDisc diReady
  let s := (List.range 24).foldl (fun s n =>
    if s.portState n = psHeld then (s.setPort n { s.port n with arrival := false }).enterUp n else s) s
  if was then s else s.raiseDisc 0x0B09 sevInfo

/-- GAZ_READY (R473, R477): a device not yet aligned is a late arrival and isolates itself. T_r is compared with the
count that the discovery logic in H0 sees (spec/09_datum_time.md R280). -/
def execGazReady (port tr : Nat) (s : State) : Res :=
  let t := w64 tr
  let st := s.discState
  .next (if s.disc.lastReady = some t then s
    else if st = diAlign ∨ st = diReady then
      let s := (s.holdReady t).flood (some port) gzReady [t]
      if st = diAlign ∧ t.toNat ≤ (s.seenHub 0).toNat then
        ((s.setFld Csr.lnkDisc_late_ready 1).raiseDisc 0x0B0B sevWarn).systemReady
      else s
    else
      let s := (s.updDisc (fun d => { d with lastReady := some t })).flood (some port) gzReady [t]
      if st = diTrain ∨ st = diExchange ∨ st = diFlood then s.isolate.raiseDisc 0x0B0A sevWarn else s)

/-- SYSTEM_READY (R473, R478). -/
def execSystemReady (s : State) : Res :=
  .next (match s.disc.readyAt with
    | some t =>
      if (s.discState = diAlign ∨ s.discState = diReady) ∧ t.toNat ≤ (s.seenHub 0).toNat then s.systemReady else s
    | none => s)

end Sys2Proof.Machine
end

