-- ==== Sys2Proof/Machine/Fill.lean ====
section
/-! DEFINITION. The block Hadamard rotation and the fills from Bearing streams (spec/03_output_conversion.md R99 to R101;
spec/08_nolpa_tensor_reference.md R265, R270). -/
namespace Sys2Proof.Machine

/-! ## HAD -/

/-- A butterfly stage with distance `h` on a block (R100). -/
def hadStage (xs : List Nat) (h : Nat) : List Nat × Flags :=
  let rs := (List.range xs.length).map (fun i =>
    if i % (2 * h) < h then fAdd .fp32 .rne (xs.getD i 0) (xs.getD (i + h) 0)
    else fSub .fp32 .rne (xs.getD (i - h) 0) (xs.getD i 0))
  (rs.map (fun r => r.1), rs.foldl (fun f r => f.or r.2) {})

/-- A block of n = 2^k elements rotated. -/
def hadBlock (k : Nat) (xs : List Nat) : List Nat × Flags :=
  (List.range k).foldl (fun (acc : List Nat × Flags) j =>
    let (ys, fl) := hadStage acc.1 (2 ^ j)
    (ys, acc.2.or fl)) (xs, {})

/-- What a HAD reads from its word and registers. -/
structure HadArgs where
  k : Nat
  dim : Nat
  dd : Desc
  ds : Desc
  tid : Nat
  sid : Nat

/-- The operands a word names. -/
def HadArgs.ofWord (t : Tile) (w : W64) : HadArgs :=
  let rc := t.s (fD w)
  ⟨5 + fl w 0 2, fl w 2 3, Desc.ofWords (t.d (fB w)), Desc.ofWords (t.d (fC w)), bits rc 0 32, bits rc 32 32⟩

/-- The checks of a HAD (R249, R265). -/
def HadArgs.check (h : HadArgs) (s : State) (n : Nat) : Option Nat :=
  s.checkOpnds n [⟨h.dd, .elems⟩] [⟨h.ds, .elems⟩]
    (!(h.ds.fmt == .fp32 || h.ds.fmt == .l16) || h.dd.fmt != .fp32)
    (4 < h.dim || h.ds.n h.dim % 2 ^ h.k != 0 || h.dd.ext != h.ds.ext || h.dd.sc != h.ds.sc - 256 * (h.k : Int)) eVeShape

/-- An input element as FP32 (R100): its tensor scale stays with the descriptor, its group scale applies. -/
def HadArgs.input (h : HadArgs) (s : State) (n : Nat) (c : List Nat) : Except Nat Loaded := do
  let g ← (s.tile n).elemScale h.ds c
  let x := s.elem h.ds c
  return if h.ds.fmt = .fp32 && h.ds.gs = 0 then { code := x } else loadAs .fp32 ((h.ds.fmt.value x 0).scale g)

/-- A rotated element written into the destination: with group scales it is converted by R37, and counts (R38, R103). -/
def HadArgs.out (h : HadArgs) (c : Nat) (g : Int) (x : Loaded) (fl : Flags) : ElemRes :=
  if h.dd.gs = 0 then { code := c, fl := fl.or x.fl, via := x.via }
  else
    let v := Fmt.fp32.value c 0
    let r := toF .fp32 .rne v g
    { code := r.code, kind := some (ctrKind v g), ovf := r.ovf, unf := r.unf, fl := (fl.or x.fl).or r.fl, via := x.via }

/-- The elements of a block along `dim`, from indices `c` with 0 there. -/
def HadArgs.places (h : HadArgs) (c : List Nat) (b : Nat) : List (List Nat) :=
  (List.range (2 ^ h.k)).map (fun i => setAt c h.dim (b * 2 ^ h.k + i))

/-- One block: the results with their indices. -/
def HadArgs.block (h : HadArgs) (s : State) (n : Nat) (seed : W64) (c : List Nat) (b : Nat) :
    List (List Nat × Except Nat ElemRes) :=
  let ps := h.places c b
  match allOk (ps.map (h.input s n)) with
  | .error e => ps.map (fun p => (p, .error e))
  | .ok xs =>
    let signed := (xs.zipIdx).map (fun x => if drawSign seed h.tid h.sid b x.2 then Fmt.fp32.flip x.1.code else x.1.code)
    let (ys, fl) := hadBlock h.k signed
    (ps.zip (ys.zip xs)).map (fun p => (p.1, do
      let g ← (s.tile n).elemScale h.dd p.1
      return h.out p.2.1 g p.2.2 fl))

/-- Every block of the tensor. -/
def HadArgs.blocks (h : HadArgs) (s : State) (n : Nat) (seed : W64) : List (List Nat × Except Nat ElemRes) :=
  (h.ds.indices.filter (fun c => c.getD h.dim 0 == 0)).flatMap (fun c =>
    (List.range (h.ds.n h.dim / 2 ^ h.k)).flatMap (h.block s n seed c))

/-- A HAD in the vector engine (R265): one evaluation for each block index. -/
def State.startHad (s : State) (n : Nat) (o : TOp) : State :=
  let seq := o.seq
  let tok := fA o.issue.word
  let h := HadArgs.ofWord (o.core (s.tile n)) o.issue.word
  match h.check s n, s.seedOf n o.rng h.tid h.sid with
  | some c, _ => s.failT n seq tok c
  | none, none => s.failT n seq tok eRngUnreg (pairDetail eRngUnreg h.tid h.sid)
  | none, some seed =>
    let rs := h.blocks s n seed
    let es := rs.map (fun r => r.2)
    let fl := resFlags es
    let (s, ue) := (s.countEvals n (h.ds.n h.dim / 2 ^ h.k)).detectT o.issue.ecc
    match if ue then some cMemUe else resFault es with
    | none => (s.writeAt n h.dd rs (fun _ => true)).done n seq fl (countedSlot h.dd es (fun _ => true))
    | some c =>
      let k := s.freeCtr
      let sel := fun j => Config.freeBool (k + j)
      ((s.writeAt n h.dd rs sel).takeFree rs.length).failT n seq tok c 0 fl (countedSlot h.dd es sel)

/-- HAD (R265). -/
def execHad (i : Issue) (s : State) : Res := issueQ i (fun w => fOp w == 0x94) State.startHad s

/-! ## RNG -/

/-- An RNG in the Bearing unit (R270): RAW, UNIFORM or BERN. -/
def State.startRng (s : State) (n : Nat) (o : TOp) : State :=
  let w := o.issue.word
  let seq := o.seq
  let tok := fA w
  let t := o.core (s.tile n)
  let mode := fl w 0 2
  let dd := Desc.ofWords (t.d (fB w))
  let rb := (t.s (fC w)).toNat
  let e := dd.count
  let view : View := match mode with | 0 => .raw | 1 => .elems | _ => .mask e
  let fmtBad := match mode with
    | 0 => !(dd.fmt == .fp32 || dd.fmt == .fp32p)
    | 1 => !fromF32Ok dd.fmt
    | _ => false
  let first := s.checkOpnds n [⟨dd, view⟩] [] fmtBad (decide (2 ^ 62 < rb + (e + 3) / 4)) eVeShape
  match first, s.seedOf n o.rng dd.tid dd.sid with
  | some c, _ => s.failT n seq tok c
  | none, none => s.failT n seq tok eRngUnreg (pairDetail eRngUnreg dd.tid dd.sid)
  | none, some seed =>
    let s := s.countEvals n ((e + 3) / 4)
    let word := drawRng seed dd.tid dd.sid rb
    match mode with
    | 0 => s.runElems n seq tok dd o.issue.ecc ((List.range e).map (fun j => .ok { code := word j }))
    | 1 => s.runElems n seq tok dd o.issue.ecc ((dd.indices.zipIdx).map (fun p => do
        let g ← (s.tile n).elemScale dd p.1
        let u : Nat := word p.2 / 2 ^ 8
        return convElem dd 0 0 g (if u = 0 then .zero false else .fin false (.alg (Alg.dyadic (u : Int) (-24)) 1))))
    | _ =>
      let thr := bits (t.s (fD w)) 0 32
      s.runMask n seq tok dd.base o.issue.ecc ((List.range e).map (fun j => (decide (word j < thr), {})))

/-- Issue of an RNG in one mode. -/
def issueRng (mode : Nat) (i : Issue) (s : State) : Res :=
  issueQ i (fun w => fOp w == 0xA0 && fl w 0 2 == mode) State.startRng s

/-- RNG in RAW mode (R270). -/
def execRngRaw (i : Issue) (s : State) : Res := issueRng 0 i s

/-- RNG in UNIFORM mode (R270). -/
def execRngUniform (i : Issue) (s : State) : Res := issueRng 1 i s

/-- RNG in BERN mode (R270). -/
def execRngBern (i : Issue) (s : State) : Res := issueRng 2 i s

end Sys2Proof.Machine
end

