-- ==== Sys2Proof/Machine/Engines.lean ====
section
/-! DEFINITION. The start of the instructions that wait in the engines' queues, and completion
(spec/07_nolpa_programming.md R223, R225, R239; spec/08_nolpa_tensor_reference.md R245). -/
namespace Sys2Proof.Machine

/-- A waiting instruction starts in its engine. -/
def State.startOp (s : State) (n : Nat) (o : TOp) : State :=
  let w := o.issue.word
  match fOp w with
  | 0x84 => s.startCvt n o
  | 0x88 => s.startVop n o
  | 0x89 => s.startLadd n o
  | 0x8C => s.startFnt n o
  | 0x90 => s.startRed n o
  | 0x94 => s.startHad n o
  | 0x98 => match fl w 0 2 with
    | 0 => s.startCopy n o
    | 1 => s.startSrf n o
    | _ => s.startFuslot n o
  | 0x9C => s.startColl n o
  | 0xA0 => s.startRng n o
  | 0xA4 => s.startHist n o
  | _ => s

/-- The next instruction that waits for an engine starts, where it need not wait any longer. -/
def State.startNext (s : State) (n : Nat) (e : Engine) : State :=
  if e = .matrix then s.drainMatrix n 8
  else
    match (s.tile n).tq.find? (fun o => wordEngine o.issue.word == e) with
    | some o =>
      if s.mustWait n o then s else (s.updTile n (fun t => { t with tq := t.tq.erase o })).startOp n o
    | none => s

/-- T_COMPLETION (R225): an engine that is not halted starts what waits for it, and the oldest instruction that it has
performed completes; tokens are signalled while the tile is halted too (R241). -/
def execTCompletion (tile engine : Nat) (s : State) : Res :=
  match engineOf engine with
  | none => .next s
  | some e =>
    if (s.tile tile).state = tsReset then .next s
    else
      let s := if (s.tile tile).enginesRun then s.startNext tile e else s
      .next (match (s.tile tile).oldestDone e with
        | some f => s.completeT tile f
        | none => s)

end Sys2Proof.Machine
end

