-- ==== Sys2Proof/Machine/Scalar.lean ====
section
/-! DEFINITION. The S class: scalar instructions (spec/07_nolpa_programming.md R213, Table 7.5). -/
namespace Sys2Proof.Machine

/-- Leading zeros of the low `n` bits. -/
def clz64 : Nat → W64 → Nat
  | 0, _ => 0
  | n + 1, a => if a.getLsbD n then 0 else clz64 n a + 1

/-- Set bits among the low `n`. -/
def popc64 : Nat → W64 → Nat
  | 0, _ => 0
  | n + 1, a => b2n (a.getLsbD n) + popc64 n a

/-- rd written and the pc advanced. -/
def State.writeS (s : State) (n : Nat) (w : W64) (v : W64) : State :=
  s.updTile n (fun t => (t.setS (fA w) v).advance (pcNext t.pc w))

/-- An instruction rd := f ra rb. -/
def scalarR (op : Nat) (f : W64 → W64 → W64) (i : Issue) (s : State) : Res :=
  issue i (fun w => fOp w == op) (fun n s =>
    let t := s.tile n
    s.writeS n i.word (f (t.s (fB i.word)) (t.s (fC i.word)))) s

/-- An instruction rd := f ra. -/
def scalarU (op : Nat) (f : W64 → W64) (i : Issue) (s : State) : Res :=
  issue i (fun w => fOp w == op) (fun n s => s.writeS n i.word (f ((s.tile n).s (fB i.word)))) s

/-- An instruction rd := f ra sext(imm32). -/
def scalarI (op : Nat) (f : W64 → W64 → W64) (i : Issue) (s : State) : Res :=
  issue i (fun w => fOp w == op) (fun n s =>
    s.writeS n i.word (f ((s.tile n).s (fB i.word)) (simm i.word))) s

/-- ADD: the sum modulo 2^64. -/
def opAdd (a b : W64) : W64 := a + b

/-- ADD (R213). -/
def execAdd (i : Issue) (s : State) : Res := scalarR 0x01 opAdd i s

/-- SUB: the difference modulo 2^64. -/
def opSub (a b : W64) : W64 := a - b

/-- SUB (R213). -/
def execSub (i : Issue) (s : State) : Res := scalarR 0x02 opSub i s

/-- MUL: the low 64 bits of the product. -/
def opMul (a b : W64) : W64 := a * b

/-- MUL (R213). -/
def execMul (i : Issue) (s : State) : Res := scalarR 0x03 opMul i s

/-- MULH: the high 64 bits of the signed product. -/
def opMulh (a b : W64) : W64 := BitVec.ofInt 64 (a.toInt * b.toInt / (2 ^ 64 : Nat))

/-- MULH (R213). -/
def execMulh (i : Issue) (s : State) : Res := scalarR 0x04 opMulh i s

/-- MULHU: the high 64 bits of the unsigned product. -/
def opMulhu (a b : W64) : W64 := w64 (a.toNat * b.toNat / 2 ^ 64)

/-- MULHU (R213). -/
def execMulhu (i : Issue) (s : State) : Res := scalarR 0x05 opMulhu i s

/-- DIV: the signed quotient, truncated toward zero; all ones on division by zero. -/
def opDiv (a b : W64) : W64 := if b = 0 then BitVec.allOnes 64 else BitVec.ofInt 64 (a.toInt.tdiv b.toInt)

/-- DIV (R213). -/
def execDiv (i : Issue) (s : State) : Res := scalarR 0x06 opDiv i s

/-- DIVU: the unsigned quotient; all ones on division by zero. -/
def opDivu (a b : W64) : W64 := if b = 0 then BitVec.allOnes 64 else w64 (a.toNat / b.toNat)

/-- DIVU (R213). -/
def execDivu (i : Issue) (s : State) : Res := scalarR 0x07 opDivu i s

/-- REM: the signed remainder, with the sign of ra; ra on division by zero. -/
def opRem (a b : W64) : W64 := if b = 0 then a else BitVec.ofInt 64 (a.toInt.tmod b.toInt)

/-- REM (R213). -/
def execRem (i : Issue) (s : State) : Res := scalarR 0x08 opRem i s

/-- REMU: the unsigned remainder; ra on division by zero. -/
def opRemu (a b : W64) : W64 := if b = 0 then a else w64 (a.toNat % b.toNat)

/-- REMU (R213). -/
def execRemu (i : Issue) (s : State) : Res := scalarR 0x09 opRemu i s

/-- AND: bitwise AND. -/
def opAnd (a b : W64) : W64 := a &&& b

/-- AND (R213). -/
def execAnd (i : Issue) (s : State) : Res := scalarR 0x0A opAnd i s

/-- OR: bitwise OR. -/
def opOr (a b : W64) : W64 := a ||| b

/-- OR (R213). -/
def execOr (i : Issue) (s : State) : Res := scalarR 0x0B opOr i s

/-- XOR: bitwise XOR. -/
def opXor (a b : W64) : W64 := a ^^^ b

/-- XOR (R213). -/
def execXor (i : Issue) (s : State) : Res := scalarR 0x0C opXor i s

/-- SLL: left shift by rb[5:0]. -/
def opSll (a b : W64) : W64 := a <<< (b.toNat % 64)

/-- SLL (R213). -/
def execSll (i : Issue) (s : State) : Res := scalarR 0x0D opSll i s

/-- SRL: logical right shift. -/
def opSrl (a b : W64) : W64 := a >>> (b.toNat % 64)

/-- SRL (R213). -/
def execSrl (i : Issue) (s : State) : Res := scalarR 0x0E opSrl i s

/-- SRA: arithmetic right shift. -/
def opSra (a b : W64) : W64 := a.sshiftRight (b.toNat % 64)

/-- SRA (R213). -/
def execSra (i : Issue) (s : State) : Res := scalarR 0x0F opSra i s

/-- SLT: 1 on a signed less-than. -/
def opSlt (a b : W64) : W64 := w64 (b2n (a.slt b))

/-- SLT (R213). -/
def execSlt (i : Issue) (s : State) : Res := scalarR 0x10 opSlt i s

/-- SLTU: 1 on an unsigned less-than. -/
def opSltu (a b : W64) : W64 := w64 (b2n (a.ult b))

/-- SLTU (R213). -/
def execSltu (i : Issue) (s : State) : Res := scalarR 0x11 opSltu i s

/-- MIN: the signed minimum. -/
def opMin (a b : W64) : W64 := if a.slt b then a else b

/-- MIN (R213). -/
def execMin (i : Issue) (s : State) : Res := scalarR 0x12 opMin i s

/-- MAX: the signed maximum. -/
def opMax (a b : W64) : W64 := if a.slt b then b else a

/-- MAX (R213). -/
def execMax (i : Issue) (s : State) : Res := scalarR 0x13 opMax i s

/-- MINU: the unsigned minimum. -/
def opMinu (a b : W64) : W64 := if a.ult b then a else b

/-- MINU (R213). -/
def execMinu (i : Issue) (s : State) : Res := scalarR 0x14 opMinu i s

/-- MAXU: the unsigned maximum. -/
def opMaxu (a b : W64) : W64 := if a.ult b then b else a

/-- MAXU (R213). -/
def execMaxu (i : Issue) (s : State) : Res := scalarR 0x15 opMaxu i s

/-- CLZ: leading zeros, 64 for 0. -/
def opClz (a : W64) : W64 := w64 (clz64 64 a)

/-- CLZ (R213). -/
def execClz (i : Issue) (s : State) : Res := scalarU 0x16 opClz i s

/-- POPC: set bits. -/
def opPopc (a : W64) : W64 := w64 (popc64 64 a)

/-- POPC (R213). -/
def execPopc (i : Issue) (s : State) : Res := scalarU 0x17 opPopc i s

/-- ADDI: ra + sext(imm32). -/
def opAddi (a i : W64) : W64 := a + i

/-- ADDI (R213). -/
def execAddi (i : Issue) (s : State) : Res := scalarI 0x18 opAddi i s

/-- ANDI: AND with sext(imm32). -/
def opAndi (a i : W64) : W64 := a &&& i

/-- ANDI (R213). -/
def execAndi (i : Issue) (s : State) : Res := scalarI 0x19 opAndi i s

/-- ORI: OR with sext(imm32). -/
def opOri (a i : W64) : W64 := a ||| i

/-- ORI (R213). -/
def execOri (i : Issue) (s : State) : Res := scalarI 0x1A opOri i s

/-- XORI: XOR with sext(imm32). -/
def opXori (a i : W64) : W64 := a ^^^ i

/-- XORI (R213). -/
def execXori (i : Issue) (s : State) : Res := scalarI 0x1B opXori i s

/-- SLLI: left shift by imm32[5:0]. -/
def opSlli (a i : W64) : W64 := a <<< (i.toNat % 64)

/-- SLLI (R213). -/
def execSlli (i : Issue) (s : State) : Res := scalarI 0x1C opSlli i s

/-- SRLI: logical right shift by imm32[5:0]. -/
def opSrli (a i : W64) : W64 := a >>> (i.toNat % 64)

/-- SRLI (R213). -/
def execSrli (i : Issue) (s : State) : Res := scalarI 0x1D opSrli i s

/-- SRAI: arithmetic right shift by imm32[5:0]. -/
def opSrai (a i : W64) : W64 := a.sshiftRight (i.toNat % 64)

/-- SRAI (R213). -/
def execSrai (i : Issue) (s : State) : Res := scalarI 0x1E opSrai i s

/-- SLTI: 1 when ra < sext(imm32), signed. -/
def opSlti (a i : W64) : W64 := w64 (b2n (a.slt i))

/-- SLTI (R213). -/
def execSlti (i : Issue) (s : State) : Res := scalarI 0x1F opSlti i s

/-- LIH: imm32 in the upper half, the low half of ra below. -/
def opLih (a i : W64) : W64 := (i <<< 32) ||| (a &&& 0xFFFFFFFF)

/-- LIH (R213). -/
def execLih (i : Issue) (s : State) : Res := scalarI 0x20 opLih i s

/-- DGETW (R213): a word of a d register. -/
def execDgetw (i : Issue) (s : State) : Res :=
  issue i (fun w => fOp w == 0x30) (fun n s =>
    s.writeS n i.word ((s.tile n).dw (fB i.word) (fl i.word 0 3))) s

/-- DSETW (R213): a word of a d register written. -/
def execDsetw (i : Issue) (s : State) : Res :=
  issue i (fun w => fOp w == 0x31) (fun n s => s.updTile n (fun t =>
    (t.setDw (fA i.word) (fl i.word 0 3) (t.s (fB i.word))).advance (pcNext t.pc i.word))) s

/-- DMOV (R213): a d register copied. -/
def execDmov (i : Issue) (s : State) : Res :=
  issue i (fun w => fOp w == 0x32) (fun n s => s.updTile n (fun t =>
    (t.setD (fA i.word) (t.d (fB i.word))).advance (pcNext t.pc i.word))) s

/-- A descriptor's first word with its base advanced modulo 2^48 (DADDB). -/
def addBase (w v : W64) : W64 := (w &&& ~~~0xFFFFFFFFFFFF) ||| ((w + v) &&& 0xFFFFFFFFFFFF)

/-- DADDB (R213): a d register copied with base + rs modulo 2^48. -/
def execDaddb (i : Issue) (s : State) : Res :=
  issue i (fun w => fOp w == 0x33) (fun n s => s.updTile n (fun t =>
    let ws := t.d (fB i.word)
    (t.setD (fA i.word) (ws.set 0 (addBase (ws.headD 0) (t.s (fC i.word))))).advance (pcNext t.pc i.word))) s

/-- NOP (R213). -/
def execNop (i : Issue) (s : State) : Res :=
  issue i (fun w => fOp w == 0x3F) (fun n s => s.updTile n (fun t => t.advance (pcNext t.pc i.word))) s

/-- LIX (R213): a 64-bit immediate. -/
def execLix (i : Issue) (s : State) : Res :=
  issue i (fun w => fOp w == 0xF0) (fun n s => s.writeS n i.word i.imm) s

/-- ADDX (R213): ra plus a 64-bit immediate. -/
def execAddx (i : Issue) (s : State) : Res :=
  issue i (fun w => fOp w == 0xF1) (fun n s => s.writeS n i.word ((s.tile n).s (fB i.word) + i.imm)) s

/-! ## Branches (R214, Table 7.6) -/

/-- The pc displaced by 8 × sext(off32), in 64 bits. -/
def branchTarget (base : W64) (w : W64) : W64 := base + 8 * simm w

/-- A branch to a target (R214): a misaligned or over-wide target makes the branch take the exception; else rd, where
given, takes pc + 8. -/
def State.branchTo (s : State) (n : Nat) (target : W64) (rd : Option Nat) : State :=
  if bits target 0 3 ≠ 0 then s.except n cAddrAlign target
  else if bits target 48 16 ≠ 0 then s.except n cAddrUnmapped target
  else s.updTile n (fun t =>
    let t' := match rd with
      | some r => t.setS r (w64 ((t.pc + 8) % 2 ^ 48))
      | none => t
    t'.advance target.toNat)

/-- A conditional branch (R214). -/
def branchIf (op : Nat) (c : W64 → W64 → Bool) (i : Issue) (s : State) : Res :=
  issue i (fun w => fOp w == op) (fun n s =>
    let t := s.tile n
    if c (t.s (fB i.word)) (t.s (fC i.word)) then s.branchTo n (branchTarget (w64 t.pc) i.word) none
    else s.updTile n (fun t => t.advance (pcNext t.pc i.word))) s

/-- JAL (R214). -/
def execJal (i : Issue) (s : State) : Res :=
  issue i (fun w => fOp w == 0x40) (fun n s =>
    s.branchTo n (branchTarget (w64 (s.tile n).pc) i.word) (some (fA i.word))) s

/-- JALR (R214): the target uses the old ra. -/
def execJalr (i : Issue) (s : State) : Res :=
  issue i (fun w => fOp w == 0x41) (fun n s =>
    s.branchTo n (branchTarget ((s.tile n).s (fB i.word)) i.word) (some (fA i.word))) s

/-- BEQ (R214). -/
def execBeq (i : Issue) (s : State) : Res := branchIf 0x42 (fun a b => a == b) i s

/-- BNE (R214). -/
def execBne (i : Issue) (s : State) : Res := branchIf 0x43 (fun a b => a != b) i s

/-- BLT (R214). -/
def execBlt (i : Issue) (s : State) : Res := branchIf 0x44 (fun a b => a.slt b) i s

/-- BGE (R214). -/
def execBge (i : Issue) (s : State) : Res := branchIf 0x45 (fun a b => !a.slt b) i s

/-- BLTU (R214). -/
def execBltu (i : Issue) (s : State) : Res := branchIf 0x46 (fun a b => a.ult b) i s

/-- BGEU (R214). -/
def execBgeu (i : Issue) (s : State) : Res := branchIf 0x47 (fun a b => !a.ult b) i s

/-- JX (R214): a jump to a 64-bit immediate. -/
def execJx (i : Issue) (s : State) : Res :=
  issue i (fun w => fOp w == 0xF2) (fun n s => s.branchTo n i.imm none) s

end Sys2Proof.Machine
end

