-- ==== Sys2Proof/Machine/Prt.lean ====
section
/-! DEFINITION. The Cadastre's commit, denial reads, the installation binding, the limited-change settings and the SPDM
responder (spec/13_partitions_and_protection.md R382 to R395; spec/15_power_droop_thermal.md R436). -/
namespace Sys2Proof.Machine

/-! ## Commit (R384, R385) -/

/-- A write of the shadow copy, or of go, while a commit is in progress (R385). -/
def State.busyErr (s : State) : State := s.setFld Csr.prtCommit_busy_err 1

/-- The check point of stack `k` takes the shadow entries of its granules. -/
def State.switchStack (s : State) (k : Nat) : State :=
  (List.range 64).foldl (fun s i =>
    let g := 64 * k + i
    s.setWord (Csr.prtGranAct g) (s.word (Csr.prtGran g))) s

/-- The energy record of a job slot at the commit that changes its validity (spec/15_power_droop_thermal.md R436). -/
def State.jobEnergy (s : State) (j : Nat) (was now : Bool) : State :=
  if !was && now then
    (((s.setWord (Csr.pwrJobeEnergyUj j) 0).setWord (Csr.pwrJobePtick j) 0).setWord (Csr.pwrJobeStart j) s.count).setWord
      (Csr.pwrJobeEnd j) 0
  else if was && !now then s.setWord (Csr.pwrJobeEnd j) s.count
  else s

/-- The check points at H0 and at the tiles take the shadow's assignments and job slots. -/
def State.switchH0 (s : State) : State :=
  let s := (List.range 32).foldl (fun s p =>
    (s.setFld (Csr.prtPart_job_act p) (s.fld (Csr.prtPart_job p))).setFld (Csr.prtPart_assigned_act p)
      (s.fld (Csr.prtPart_assigned p))) s
  (List.range 32).foldl (fun s j =>
    let was := s.flag (Csr.prtJobAct_valid j)
    let s := (s.setWord (Csr.prtJobAct j) (s.word (Csr.prtJob j))).setWord (Csr.prtJobActPeers j)
      (s.word (Csr.prtJobPeers j))
    s.jobEnergy j was (s.flag (Csr.prtJobAct_valid j))) s

/-- Check point `k` switches: stacks 0 to 7, then H0. -/
def State.switchPoint (s : State) (k : Nat) : State := if k < 8 then s.switchStack k else s.switchH0

/-- The assignments and job slots of the active copy at H0. -/
def State.activeCopy (s : State) : Cadastre :=
  ⟨(List.range 32).map (fun p => (s.fld (Csr.prtPart_job_act p), s.flag (Csr.prtPart_assigned_act p))),
    (List.range 32).map (fun j => (s.flag (Csr.prtJobAct_valid j), s.fld (Csr.prtJobActPeers_peers j)))⟩

/-- PRT_COMMIT written (R384): each check point replaces its whole copy in a cycle of its own, by an open choice at
once or by the end; the copy it replaces is kept for those that are to come. -/
def State.writeCommit (s : State) (v : W64) : State :=
  let busy := s.committing
  let s := s.genWrite Csr.prtCommit v
  if bit v 0 then
    if busy then s.busyErr
    else
      let s := { s with cadOld := s.activeCopy, commitAt := s.freeCtr }
      let s := (s.setFld Csr.prtCommit_busy 1).takeFree (9 + 2048)
      (List.range 9).foldl (fun s i => if s.hasSwitched i then s.switchPoint i else s) s
  else s

/-- PRT_COMMIT. -/
def execPrtCommit (value : W64) (s : State) : Res := .next (s.writeCommit value)

/-- COMMIT_DONE: every check point has switched. -/
def execCommitDone (s : State) : Res :=
  .next (if s.committing then
      let s := (List.range 9).foldl State.switchPoint s
      let gen := s.fld Csr.prtCommit_gen
      ((s.setFld Csr.prtCommit_busy 0).setFld Csr.prtCommit_gen (gen + 1)).raiseM (devEvent 5 0x0902 sevInfo none 0 0)
    else s)

/-- A word of the shadow copy written: PRT_GRAN or PRT_JOB. -/
def State.writeShadow (s : State) (off : Nat) (v : W64) : State :=
  if s.committing then s.busyErr else s.genWrite off v

/-- PRT_PART written: job and assigned, then reset and withdraw. -/
def State.writePart (s : State) (p : Nat) (v : W64) : State :=
  let s := s.writeShadow (Csr.prtPart p) v
  let s := if bit v 14 then s.startReset p else s
  if bit v 15 then s.writeWithdraw p else s

/-! ## Denials (R383) -/

/-- PRT_DENY read: count is cleared by an 8-byte read or a read of the upper half. -/
def State.readDeny (s : State) (h : Half) : State := if h = .lower then s else s.setFld Csr.prtDeny_count 0

/-- PRT_DENY_READ. -/
def execPrtDenyRead (half : Half) (s : State) : Res :=
  .next ((s.emit (.data (halfBytes half (s.word Csr.prtDeny)))).readDeny half)

/-! ## The installation binding (R390, R391) -/

/-- The binding that the host's system identity and the strapped position spell. -/
def State.presentBinding (s : State) : W64 := w64 (s.fld Csr.prtSysid_sysid * 2 ^ 13 + s.fld Csr.lnkSts_phys)

/-- PRT_SYSID written, once: the binding is checked. -/
def State.writeSysid (s : State) (v : W64) : State :=
  if s.locked.contains Csr.prtSysid then s
  else
    let s := s.genWrite Csr.prtSysid v
    if s.otp.bound = some s.presentBinding then
      (s.setFld Csr.prtBindSts_state 1).raiseM (devEvent 0 0x0906 sevInfo none 0 0)
    else (s.setFld Csr.prtBindSts_state 2).raiseM (devEvent 0 0x0905 sevDevice none 0 0)

/-- PRT_SYSID_WRITE. -/
def execPrtSysidWrite (value : W64) (s : State) : Res := .next (s.writeSysid value)

/-! ## Limited-change settings (R392 to R395) -/

/-- Writes of a setting that remain. -/
def Otp.remaining (o : Otp) : Nat → Nat
  | 1 => 32 - o.bindUsed
  | 2 => 8 - o.surveyUsed
  | 3 => 16 - o.revokeUsed
  | _ => 0

/-- A value within Table 13.4; a release must exceed the current one (spec/16_faults_ageing_service.md R455). -/
def Otp.valueOk (o : Otp) (id : Nat) (v : W64) : Bool :=
  match id with
  | 1 => decide (v.toNat < 2 ^ 61)
  | 2 => decide (o.release < v.toNat) && decide (v.toNat ≤ 6)
  | 3 => decide (v.toNat < 32)
  | _ => false

/-- The count of a setting decremented. -/
def Otp.use (o : Otp) (id : Nat) : Otp :=
  match id with
  | 1 => { o with bindUsed := o.bindUsed + 1 }
  | 2 => { o with surveyUsed := o.surveyUsed + 1 }
  | _ => { o with revokeUsed := o.revokeUsed + 1 }

/-- A setting programmed. -/
def Otp.program (o : Otp) (id : Nat) (v : W64) : Otp :=
  match id with
  | 1 => { o with bound := some v }
  | 2 => { o with release := v.toNat }
  | _ => { o with revoked := o.revoked ++ [v.toNat] }

/-- A change is in progress. -/
def State.changing (s : State) : Bool := s.flag Csr.prtLcsSts_busy || s.otp.log.any (fun e => !e.done)

/-- A change is accepted (R393). -/
def State.changeOk (s : State) (id : Nat) (v : W64) : Bool :=
  decide (1 ≤ id) && decide (id ≤ 3) && decide (0 < s.otp.remaining id) && s.otp.valueOk id v &&
    decide (s.otp.log.length < 4096) && !s.changing

/-- The value a setting holds before a change; a key revocation has none, and the entry's word is open. -/
def State.oldValue (s : State) (id : Nat) : W64 × State :=
  match id with
  | 1 => (s.otp.bound.getD 0, s)
  | 2 => (w64 s.otp.release, s)
  | _ => (Config.freeWord s.freeCtr, s.takeFree 1)

/-- PRT_LCS_CMD written (R393) by an actor of R395, 0 the management controller, 1 the PF over MCTP or DOE, 2 the
factory: step 1, or a refusal. -/
def State.writeLcs (s : State) (actor : Nat) (v : W64) : State :=
  let id := bits v 0 3
  let x := s.word Csr.prtLcsVal
  if bit v 3 && s.hold == 0 && !s.frozen then
    if s.changeOk id x then
      let (old, s) := s.oldValue id
      let e : LogEntry := ⟨s.count, id, actor, s.fwKey, false, false, old, x⟩
      { s with otp := { s.otp.use id with log := s.otp.log ++ [e] } }.setFld Csr.prtLcsSts_busy 1
    else (s.setFld Csr.prtLcsSts_refused 1).raiseM (devEvent 8 0x0908 sevWarn none 0 0)
  else s

/-- PRT_LCS_CMD. -/
def execPrtLcsCmd (value : W64) (s : State) (actor : Nat := 0) : Res := .next (s.writeLcs actor value)

/-- The entry in progress completed with an outcome. -/
def completeLog (log : List LogEntry) (interrupted : Bool) : List LogEntry :=
  log.map (fun e => if e.done then e else { e with done := true, interrupted := interrupted })

/-- The change in progress. -/
def Otp.started (o : Otp) : Option LogEntry := o.log.find? (fun e => !e.done)

/-- LCS_PROGRAM_DONE (R393 steps 2 to 4): a binding that matches makes the state BOUND at once (R391). -/
def execLcsProgramDone (s : State) : Res :=
  .next (match if s.frozen then none else s.otp.started with
    | none => s
    | some e =>
      let o := s.otp.program e.setting e.new
      let s := { s with otp := { o with log := completeLog o.log false } }.setFld Csr.prtLcsSts_busy 0
      let s := s.raiseM (devEvent 8 0x0907 sevInfo none 0 0)
      if e.setting = 1 ∧ s.fld Csr.prtBindSts_state ≠ 0 ∧ e.new = s.presentBinding then s.setFld Csr.prtBindSts_state 1
      else s)

/-- The words of a Logbook entry (R395). -/
def LogEntry.words (e : LogEntry) (n : Nat) : List W64 :=
  [e.datum, w64 (e.setting + e.actor * 2 ^ 8 + b2n e.interrupted * 2 ^ 16 + n % 2 ^ 16 * 2 ^ 24 + e.key % 256 * 2 ^ 40),
    e.old, e.new]

/-- PRT_LOG_DATA word `w` (R395): of the entry that PRT_LOG_IDX names, zero beyond log_used. -/
def State.logWord (s : State) (w : Nat) : W64 :=
  let i := s.fld Csr.prtLogIdx_idx
  match s.otp.log[i]? with
  | some e => (e.words i).getD w 0
  | none => 0

/-- PRT_OTP_CNT as it reads. -/
def State.otpCount (s : State) : W64 :=
  w64 (s.otp.remaining 1 + s.otp.remaining 2 * 2 ^ 6 + s.otp.remaining 3 * 2 ^ 10 + s.otp.log.length * 2 ^ 15)

/-! ## SPDM (R389) -/

/-- Response codes of DMTF SPDM. -/
abbrev spDigests : Nat := 0x01
abbrev spCertificate : Nat := 0x02
abbrev spChallengeAuth : Nat := 0x03
abbrev spVersion : Nat := 0x04
abbrev spMeasurements : Nat := 0x60
abbrev spCapabilities : Nat := 0x61
abbrev spAlgorithms : Nat := 0x63
abbrev spKeyExchange : Nat := 0x64
abbrev spFinish : Nat := 0x65
abbrev spHeartbeat : Nat := 0x68
abbrev spEndSession : Nat := 0x6C
abbrev spError : Nat := 0x7F

/-- Error codes of DMTF SPDM: InvalidRequest, InvalidSession, UnexpectedRequest, DecryptError, SessionLimitExceeded. -/
abbrev seInvalid : Nat := 0x01
abbrev seSession : Nat := 0x02
abbrev seUnexpected : Nat := 0x04
abbrev seDecrypt : Nat := 0x06
abbrev seLimit : Nat := 0x0A

/-- A response, on the transport of its request. -/
def State.spdmAnswer (s : State) (via : Transport) (code : Nat) (bs : List Byte) : State := s.emit (.spdm via code bs)

/-- An ERROR response. -/
def State.spdmError (s : State) (via : Transport) (e : Nat) : State := s.spdmAnswer via spError (toBytes 1 e)

/-- A transport carries requests: SMBus always, the two on PCIe while the port's link is trained and, for DOE, the
configuration space is ready (spec/17_startup_and_discovery.md R466). -/
def State.carriesSpdm (s : State) (via : Transport) : Bool :=
  match via with
  | .smbus => true
  | .vdm => s.pcieUp
  | .doe => s.pcieUp && s.pcieCfg

/-- A request that the firmware takes while it runs. -/
def State.spdmUp (s : State) (via : Transport) (f : State → State) : State :=
  if s.fwRuns && s.carriesSpdm via then f s else s

/-- GET_VERSION: negotiation starts afresh, sessions end. The device answers version 1.3. -/
def execGetVersion (s : State) (via : Transport := .smbus) : Res :=
  .next (s.spdmUp via (fun s => { s with spdm := { version := true } }.spdmAnswer via spVersion (toBytes 1 0x13)))

/-- The capability flags of SPDM 1.3 for the requests of R389: CERT, CHAL, MEAS with signature, ENCRYPT, MAC, KEY_EX
and HBEAT. PRESUMED, unsafe (log 71): their places are DMTF's. -/
abbrev spdmFlags : Nat := 0x22D6

/-- The algorithms of R389 in DMTF's selection fields: ECDSA P-384, SHA-384, secp384r1, AES-256-GCM. PRESUMED, unsafe
(log 71). -/
def spdmAlgorithms : List Byte := toBytes 4 0x80 ++ toBytes 4 0x02 ++ toBytes 2 0x10 ++ toBytes 2 0x02

/-- GET_CAPABILITIES. -/
def execGetCapabilities (s : State) (via : Transport := .smbus) : Res :=
  .next (s.spdmUp via (fun s =>
    if s.spdm.version then
      { s with spdm := { s.spdm with caps := true } }.spdmAnswer via spCapabilities
        (toBytes 4 spdmFlags ++ Config.crypto spCapabilities [])
    else s.spdmError via seUnexpected))

/-- NEGOTIATE_ALGORITHMS: P-384 with SHA-384, secp384r1, AES-256-GCM, where the requester supports them. -/
def execNegotiateAlgorithms (supported : Bool) (s : State) (via : Transport := .smbus) : Res :=
  .next (s.spdmUp via (fun s =>
    if s.spdm.caps then
      if supported then
        { s with spdm := { s.spdm with algs := true } }.spdmAnswer via spAlgorithms
          (spdmAlgorithms ++ Config.crypto spAlgorithms [])
      else s.spdmError via seInvalid
    else s.spdmError via seUnexpected))

/-- A request that needs the algorithms negotiated. -/
def State.spdmReq (s : State) (via : Transport) (ok : State → State) : State :=
  s.spdmUp via (fun s => if s.spdm.algs then ok s else s.spdmError via seUnexpected)

/-- The identity chain of slot 0, whose leaf carries PRT_IDENT. -/
def State.chainBytes (s : State) : List Byte := Config.crypto spCertificate (toBytes 8 (s.word Csr.prtIdent).toNat)

/-- GET_DIGESTS: slot 0 only. -/
def execGetDigests (s : State) (via : Transport := .smbus) : Res :=
  .next (s.spdmReq via (fun s => s.spdmAnswer via spDigests (toBytes 1 1 ++ sha384 s.chainBytes)))

/-- GET_CERTIFICATE: a portion of the slot 0 chain. -/
def execGetCertificate (slot offset length : Nat) (s : State) (via : Transport := .smbus) : Res :=
  .next (s.spdmReq via (fun s =>
    if slot = 0 then s.spdmAnswer via spCertificate ((s.chainBytes.drop offset).take length) else s.spdmError via seInvalid))

/-- CHALLENGE: a signed response over the nonce. -/
def execChallenge (slot : Nat) (nonce : W64) (s : State) (via : Transport := .smbus) : Res :=
  .next (s.spdmReq via (fun s =>
    if slot = 0 then s.spdmAnswer via spChallengeAuth (Config.crypto spChallengeAuth (toBytes 8 nonce.toNat ++ s.chainBytes))
    else s.spdmError via seInvalid))

/-- The bytes of every Logbook entry. -/
def State.logBytes (s : State) : List Byte :=
  (s.otp.log.zipIdx).flatMap (fun p => (LogEntry.words p.1 p.2).flatMap (fun w => toBytes 8 w.toNat))

/-- Measurement blocks 1 to 6. -/
def State.measurement (s : State) : Nat → List Byte
  | 1 => Config.crypto spMeasurements (toBytes 1 1)
  | 2 => Config.crypto spMeasurements (toBytes 1 2 ++ toBytes 4 (s.fld Csr.cfgBoot_version))
  | 3 => toBytes 1 (s.fld Csr.cfgDevId_grade) ++ toBytes 1 (s.fld Csr.cfgDevId_step_major) ++
      toBytes 1 (s.fld Csr.cfgDevId_step_minor) ++ toBytes 2 (s.fld Csr.prtFit_class)
  | 4 => toBytes 8 (s.otp.bound.getD 0).toNat ++ toBytes 1 (s.fld Csr.prtBindSts_state)
  | 5 => toBytes 1 (s.otp.remaining 1) ++ toBytes 1 (s.otp.remaining 2) ++ toBytes 1 (s.otp.remaining 3)
  | 6 => toBytes 2 s.otp.log.length ++ sha384 s.logBytes
  | _ => []

/-- GET_MEASUREMENTS: one block, or all of them (0xFF). -/
def execGetMeasurements (block : Nat) (s : State) (via : Transport := .smbus) : Res :=
  .next (s.spdmReq via (fun s =>
    if 1 ≤ block ∧ block ≤ 6 then s.spdmAnswer via spMeasurements (toBytes 1 block ++ s.measurement block)
    else if block = 0 then s.spdmAnswer via spMeasurements (toBytes 1 6)
    else if block = 0xFF then
      s.spdmAnswer via spMeasurements ([1, 2, 3, 4, 5, 6].flatMap (fun (b : Nat) => toBytes 1 b ++ s.measurement b))
    else s.spdmError via seInvalid))

/-- KEY_EXCHANGE: up to 4 sessions; the response names the session. -/
def execKeyExchange (slot : Nat) (exchange : W64) (s : State) (via : Transport := .smbus) : Res :=
  .next (s.spdmReq via (fun s =>
    if slot ≠ 0 then s.spdmError via seInvalid
    else
      match (List.range 4).find? (fun n => !s.spdm.sessions.any (fun x => x.1 == n)) with
      | none => s.spdmError via seLimit
      | some n =>
        { s with spdm := { s.spdm with sessions := s.spdm.sessions ++ [(n, false)] } }.spdmAnswer via spKeyExchange
          (toBytes 2 n ++ Config.crypto spKeyExchange (toBytes 8 exchange.toNat))))

/-- The session list with one left out. -/
def State.dropSession (s : State) (n : Nat) : State :=
  { s with spdm := { s.spdm with sessions := s.spdm.sessions.filter (fun x => x.1 != n) } }

/-- FINISH: the handshake's verification ends it one way or the other. -/
def execFinish (session : Nat) (verified : Bool) (s : State) (via : Transport := .smbus) : Res :=
  .next (s.spdmReq via (fun s =>
    if s.spdm.sessions.contains (session, false) then
      if verified then
        let s := s.dropSession session
        { s with spdm := { s.spdm with sessions := s.spdm.sessions ++ [(session, true)] } }.spdmAnswer via spFinish
          (Config.crypto spFinish (toBytes 2 session))
      else (s.dropSession session).spdmError via seDecrypt
    else s.spdmError via seSession))

/-- HEARTBEAT of a session. -/
def execSpdmHeartbeat (session : Nat) (s : State) (via : Transport := .smbus) : Res :=
  .next (s.spdmReq via (fun s =>
    if s.spdm.sessions.contains (session, true) then s.spdmAnswer via spHeartbeat [] else s.spdmError via seSession))

/-- END_SESSION. -/
def execEndSession (session : Nat) (s : State) (via : Transport := .smbus) : Res :=
  .next (s.spdmReq via (fun s =>
    if s.spdm.sessions.contains (session, true) then (s.dropSession session).spdmAnswer via spEndSession []
    else s.spdmError via seSession))

end Sys2Proof.Machine
end

