-- ==== Sys2Proof/Machine/Registry.lean ====
section
/-! DEFINITION. The stream registries and their commands (spec/11_random_streams.md R334 to R337, R342). -/
namespace Sys2Proof.Machine

/-- The queue of a partition set, with the count that RNG_REG_STS shows: the first 64 are queued, the writes behind
them are held back until there is room (R337). -/
def State.setRngQueue (s : State) (p : Nat) (q : List Nat) : State :=
  { s with rngQueue := NMap.set (fun _ => []) s.rngQueue p q }.setFld (Csr.rngRegSts_queued p) (min 64 q.length)

/-- The oldest command of a partition leaves its queue to be performed: the instructions that issued before it arrived
and have not started keep what their pair resolves to before it (R340). -/
def State.popRng (s : State) (p : Nat) (q : List Nat) : State :=
  ((List.range 64).foldl (fun s i => s.updTile (tileOf p i) (fun t => t.keepSeeds (s.resolve p) (s.rngDone p))) s).setRngQueue
    p q

/-- The entries of a registry set, with the count that RNG_REG_STS shows. -/
def State.setStreams (s : State) (p : Nat) (es : List Stream) : State :=
  { s with registry := NMap.set (fun _ => []) s.registry p es }.setFld (Csr.rngRegSts_used p) es.length

/-- RNG_REG_CMD written (R335, R337): the write is never discarded, and with 64 commands queued it waits for room. -/
def State.writeRngCmd (s : State) (p : Nat) (v : W64) : State :=
  { s.setRngQueue p (s.rngQueued p ++ [bits v 5 43 * 32]) with
    rngArr := NMap.set (fun _ => 0) s.rngArr p (s.rngArrived p + 1) }

/-- The record lies in package memory or tile SRAM that the partition owns (R335). -/
def State.recordOk (s : State) (p a : Nat) : Bool :=
  match region a with
  | .pkg _ => s.owns p a 32
  | .sram n _ => partOf n == p && memRange a 32
  | _ => false

/-- A registry emptied, its counts cleared (R334). -/
def State.emptyStreams (s : State) (p : Nat) : State := (s.setStreams p []).setWord (Csr.rngRegCnt p) 0

/-- Result status of Table 11.3. -/
abbrev rgOk : Nat := 0
abbrev rgAlias : Nat := 1
abbrev rgFull : Nat := 2
abbrev rgNotFound : Nat := 3
abbrev rgInvalid : Nat := 4

/-- The record has a reserved op or a reserved bit set (R336). -/
def recordBad (w2 w3 : Nat) : Bool :=
  field w2 0 3 > 3 || field w2 4 28 != 0 || field w2 40 23 != 0 || field w3 16 48 != 0 ||
    (field w2 3 1 == 1 && field w2 0 3 != 0)

/-- The entry of a pair. -/
def Stream.has (tid sid : Nat) (e : Stream) : Bool := e.tid == tid && e.sid == sid

/-- The status word stored with done, in one store (R335). -/
def State.answerRecord (s : State) (a status : Nat) : State :=
  s.store (a + 0x14) 4 (status + 2 ^ 31)

/-- An event of the registry (R342). -/
def State.raiseRng (s : State) (p code sev a : Nat) (pair : W64) : State := s.raise (hubEvent 6 p code sev (w64 a) pair)

/-- REGISTER (Table 11.4). -/
def State.registerStream (s : State) (p a : Nat) (replay : Bool) (tid sid : Nat) (seed : W64) : State :=
  let es := s.streams p
  let pair := w64 (tid + sid * 2 ^ 32)
  match es.find? (Stream.has tid sid) with
  | none =>
    if 4096 ≤ es.length then (s.answerRecord a rgFull).raiseRng p 0x0703 sevWarn a pair
    else ((s.setStreams p (es ++ [⟨tid, sid, seed, 0⟩])).store (a + 0x18) 2 0).answerRecord a rgOk
  | some e =>
    if replay ∧ e.seed = seed then
      let n := min 0xFFFF (e.replays + 1)
      let s := s.setStreams p (es.map (fun x => if x.has tid sid then { x with replays := n } else x))
      ((s.addFld (Csr.rngRegCnt_replay p) 1).store (a + 0x18) 2 n).answerRecord a rgOk
    else
      (((s.addFld (Csr.rngRegCnt_alias p) 1).store (a + 0x18) 2 e.replays).answerRecord a rgAlias).raiseRng p 0x0701
        sevWarn a pair

/-- RELEASE. -/
def State.releaseStream (s : State) (p a tid sid : Nat) : State :=
  let es := s.streams p
  if es.any (Stream.has tid sid) then
    (s.setStreams p (es.filter (fun e => !e.has tid sid))).answerRecord a rgOk
  else s.answerRecord a rgNotFound

/-- LOOKUP. -/
def State.lookupStream (s : State) (p a tid sid : Nat) : State :=
  match (s.streams p).find? (Stream.has tid sid) with
  | some e => ((s.store (a + 8) 8 e.seed.toNat).store (a + 0x18) 2 e.replays).answerRecord a rgOk
  | none => s.answerRecord a rgNotFound

/-- The hub performs the oldest command of a partition where its op is `op`; one that R336 makes INVALID is performed
whichever of the four commands comes for it. -/
def State.registryCmd (s : State) (p op : Nat) (run : State → Nat → State) : State :=
  match s.rngQueued p with
  | [] => s
  | a :: q =>
    if s.recordOk p a then
      let pair := w64 (s.load a 8)
      if recordBad (s.load (a + 0x10) 8) (s.load (a + 0x18) 8) then
        ((s.popRng p q).answerRecord a rgInvalid).raiseRng p 0x0704 sevFault a pair
      else if field (s.load (a + 0x10) 4) 0 3 = op then run (s.popRng p q) a
      else s
    else (s.popRng p q).raiseRng p 0x0704 sevFault a 0

/-- RNG_REGISTER. -/
def execRngRegister (part : Nat) (s : State) : Res :=
  .next (s.registryCmd part 0 (fun s a => s.registerStream part a (field (s.load (a + 0x10) 4) 3 1 == 1)
    (s.load a 4) (s.load (a + 4) 4) (w64 (s.load (a + 8) 8))))

/-- RNG_RELEASE. -/
def execRngRelease (part : Nat) (s : State) : Res :=
  .next (s.registryCmd part 1 (fun s a => s.releaseStream part a (s.load a 4) (s.load (a + 4) 4)))

/-- RNG_LOOKUP. -/
def execRngLookup (part : Nat) (s : State) : Res :=
  .next (s.registryCmd part 2 (fun s a => s.lookupStream part a (s.load a 4) (s.load (a + 4) 4)))

/-- RNG_CLEAR. -/
def execRngClear (part : Nat) (s : State) : Res :=
  .next (s.registryCmd part 3 (fun s a => (s.emptyStreams part).answerRecord a rgOk))

end Sys2Proof.Machine
end

