-- ==== Sys2Proof/Machine/Power.lean ====
section
/-! DEFINITION. The power controller, the current limit, droop and heat (spec/15_power_droop_thermal.md R417 to R440). -/
namespace Sys2Proof.Machine

/-- An event of the power controller (Table 6.15), to the M-level ring, with a copy for each partition concerned
(R440). -/
def State.raisePower (s : State) (code sev : Nat) (ps : List Nat) (d1 : W64) : State :=
  let s := ps.foldl (fun s p => s.putPart p (s.recOf (devEvent 1 code sev (some p) 0 d1))) s
  s.raiseM (devEvent 1 code sev none 0 d1)

/-- The partitions on a compute die; a hub die carries none. -/
def dieParts (d : Nat) : List Nat := if d < 16 then [2 * d, 2 * d + 1] else []

/-! ## The cap and its window (R421, R422) -/

/-- Ticks that remain in the window, from the count as the power controller in H0 sees it (spec/09_datum_time.md R280,
R285). -/
def State.windowLeft (s : State) : Nat :=
  s.fld Csr.pwrWin_eff - (s.seenHub 0).toNat % max 1 (s.fld Csr.pwrWin_eff)

/-- The time that remains in the window, in units of 10 ns. -/
def State.timeLeft (s : State) : Nat := s.windowLeft * s.fld Csr.dtmCtl_period_10ns

/-- PWR_CAP written (R421): clamped, and the budget of the window in progress recomputed. -/
def State.writeCap (s : State) (v : W64) : State :=
  let x := bits v 0 16
  let c := min 6400 (max 2400 x)
  let s := s.setFld Csr.pwrCap_limit_w c
  let s := if c ≠ x then s.setFld Csr.pwrFlags_cap_clamped 1 else s
  let s := if x < 2400 then s.raisePower 0x0201 sevWarn [] 0 else s
  s.updPower (fun p => { p with budget := p.uj * 800 + c * s.timeLeft })

/-- PWR_CAP_WRITE. -/
def execPwrCapWrite (value : W64) (s : State) : Res := .next (s.writeCap value)

/-- The effective length of the windows that PWR_WIN.ticks and the tick period give: from 1 ms to 10 s, in whole
ticks. -/
def State.effective (s : State) : Nat :=
  let p := max 1 (s.fld Csr.dtmCtl_period_10ns)
  min (1000000000 / p) (max ((100000 + p - 1) / p) (s.fld Csr.pwrWin_ticks))

/-- PWR_WIN written: its effective length waits for its edge (R422). -/
def State.writeWin (s : State) (v : W64) : State := s.genWrite Csr.pwrWin v

/-- PWR_WIN_WRITE. -/
def execPwrWinWrite (value : W64) (s : State) : Res := .next (s.writeWin value)

/-- A window begins at the present tick edge with effective length `w`. -/
def State.newWindow (s : State) (w : Nat) : State :=
  let s := s.setFld Csr.pwrWin_eff w
  let s := (s.setFld Csr.pwrTel_window ((s.seenHub 0).toNat / w)).setFld Csr.pwrTel_avg_w 0
  let b := s.fld Csr.pwrCap_limit_w * w * s.fld Csr.dtmCtl_period_10ns
  s.updPower (fun p => { p with
    uj := 0, sum := 0, n := 0, budget := b, edge := some (s.seenHub 0), unmet := false })

/-- POWER_WINDOW_EDGE (R422): a tick edge, as the power controller sees it, that is a multiple of the length that
PWR_WIN.ticks and the tick period give, or until then of the present one. -/
def execPowerWindowEdge (s : State) : Res :=
  .next (if s.power.edge = some (s.seenHub 0) then s
    else
      let eff := s.fld Csr.pwrWin_eff
      if (s.seenHub 0).toNat % s.effective = 0 then s.newWindow s.effective
      else if 0 < eff ∧ (s.seenHub 0).toNat % eff = 0 then s.newWindow eff
      else s)

/-! ## The ladder (R423, R424, Table 15.3) -/

/-- The classes in the order in which they give way: 0 compute, 1 memory, 2 links. -/
def State.classes (s : State) : List Nat :=
  let rank := fun c => match c with
    | 0 => s.fld Csr.pwrPrio_compute
    | 1 => s.fld Csr.pwrPrio_memory
    | _ => s.fld Csr.pwrPrio_links
  (List.range 4).flatMap (fun r => [0, 1, 2].filter (fun c => rank c == r))

/-- PWR_PRIO written (R424): equal ranks are discarded. -/
def State.writePrio (s : State) (v : W64) : State :=
  if bits v 0 2 = bits v 2 2 ∨ bits v 0 2 = bits v 4 2 ∨ bits v 2 2 = bits v 4 2 then s.setFld Csr.pwrFlags_prio_err 1
  else s.genWrite Csr.pwrPrio v

/-- PWR_PRIO_WRITE. -/
def execPwrPrioWrite (value : W64) (s : State) : Res := .next (s.writePrio value)

/-- A point may be selected (R418). -/
def State.opEnabled (s : State) (n : Nat) : Bool := s.opOn n && decide (n ≤ s.fld Csr.dtmModeCur_op_max)

/-- The highest point that may be selected at or below `n`; OP0 where none is. -/
def State.opAtMost (s : State) (n : Nat) : Nat := (((List.range (n + 1)).filter s.opEnabled).getLast?).getD 0

/-- The next point below `n` that Survey has not disabled: a step goes one point down, be it still above op_max (R418,
R419). -/
def State.opBelow (s : State) (n : Nat) : Nat :=
  (((List.range n).filter s.opOn).getLast?).getD 0

/-- The next point above `n` that may be selected. -/
def State.opAbove (s : State) (n : Nat) : Option Nat := (List.range 8).find? (fun m => decide (n < m) && s.opEnabled m)

/-- A class stands at its floor. -/
def State.atFloor (s : State) : Nat → Bool
  | 0 => s.fld Csr.pwrSts_op == 0 && s.fld Csr.pwrSts_duty == 4
  | 1 => s.fld Csr.pwrSts_mem == 2
  | _ => s.fld Csr.pwrSts_paced == 1

/-- A class stands at its top rung. -/
def State.atTop (s : State) : Nat → Bool
  | 0 => s.fld Csr.pwrSts_duty == 0 && (s.opAbove (s.fld Csr.pwrSts_op)).isNone
  | 1 => s.fld Csr.pwrSts_mem == 0
  | _ => s.fld Csr.pwrSts_paced == 0

/-- A class one rung down. -/
def State.rungDown (s : State) : Nat → State
  | 0 =>
    if 0 < s.fld Csr.pwrSts_op then s.setFld Csr.pwrSts_op (s.opAtMost (s.fld Csr.pwrSts_op - 1))
    else s.setFld Csr.pwrSts_duty (s.fld Csr.pwrSts_duty + 1)
  | 1 => s.setFld Csr.pwrSts_mem (s.fld Csr.pwrSts_mem + 1)
  | _ => s.setFld Csr.pwrSts_paced 1

/-- A class one rung up. -/
def State.rungUp (s : State) : Nat → State
  | 0 =>
    if 0 < s.fld Csr.pwrSts_duty then s.setFld Csr.pwrSts_duty (s.fld Csr.pwrSts_duty - 1)
    else match s.opAbove (s.fld Csr.pwrSts_op) with
      | some n => s.setFld Csr.pwrSts_op n
      | none => s
  | 1 => s.setFld Csr.pwrSts_mem (s.fld Csr.pwrSts_mem - 1)
  | _ => s.setFld Csr.pwrSts_paced 0

/-- The power estimated after a class's next rung up, in units of 2^-8 of the sample. -/
def State.upRatio (s : State) (c : Nat) : Nat :=
  if c = 0 ∧ s.fld Csr.pwrSts_duty = 0 then
    match s.opAbove (s.fld Csr.pwrSts_op) with
    | some n => s.fld (Csr.pwrOp_up_ratio n)
    | none => 288
  else 288

/-- The decision of a sample (R423). -/
def State.ladderMove (s : State) (sample : Nat) : State :=
  let e := s.power.uj * 800
  let r := s.timeLeft
  if s.power.budget < e + sample * r then
    match s.classes.find? (fun c => !s.atFloor c) with
    | some c => s.rungDown c
    | none => s
  else
    match s.classes.reverse.find? (fun c => !s.atTop c) with
    | some c => if (e * 256 + sample * s.upRatio c * r) * 100 ≤ 98 * s.power.budget * 256 then s.rungUp c else s
    | none => s

/-- CAP_UNMET (R426): once a window. -/
def State.capUnmet (s : State) (sample : Nat) : State :=
  if (s.atFloor 0 && s.atFloor 1 && s.atFloor 2) ∧ s.fld Csr.pwrCap_limit_w < sample ∧ s.power.unmet = false then
    ((s.updPower (fun p => { p with unmet := true })).setFld Csr.pwrFlags_cap_unmet 1).raisePower 0x0202 sevWarn []
      (w64 sample)
  else s

/-! ## Heat (R431 to R434) -/

/-- The temperature last reported by source `i`, in units of 1/8 °C. -/
def State.temp (s : State) (i : Nat) : Int := signed 16 (s.fld (Csr.pwrTemp_temp i))

/-- The throttle threshold in units of 1/8 °C, `k` degrees lower. -/
def State.throttleAt (s : State) (k : Int) : Int := ((s.fld Csr.pwrTherm_throttle_c : Int) - k) * 8

/-- The thermal ceiling of a die one rung down: the rungs are the points that may be selected, from op_max. -/
def State.ceilingDown (s : State) (d : Nat) : State :=
  let op := s.opAtMost (s.fld (Csr.pwrTemp_ceil_op d))
  if 0 < op then s.setFld (Csr.pwrTemp_ceil_op d) (s.opAtMost (op - 1))
  else (s.setFld (Csr.pwrTemp_ceil_op d) 0).setFld (Csr.pwrTemp_ceil_duty d) (min 4 (s.fld (Csr.pwrTemp_ceil_duty d) + 1))

/-- The thermal ceiling of a die one rung up. -/
def State.ceilingUp (s : State) (d : Nat) : State :=
  let duty := s.fld (Csr.pwrTemp_ceil_duty d)
  if 0 < duty then s.setFld (Csr.pwrTemp_ceil_duty d) (duty - 1)
  else match s.opAbove (s.fld (Csr.pwrTemp_ceil_op d)) with
    | some n => s.setFld (Csr.pwrTemp_ceil_op d) n
    | none => s

/-- Samples in a row at which a die was cool. -/
def State.coolOf (s : State) (d : Nat) : Nat := NMap.get (fun _ => 0) s.power.cool d
def State.setCool (s : State) (d n : Nat) : State :=
  s.updPower (fun p => { p with cool := NMap.set (fun _ => 0) p.cool d n })

/-- The forced state of a die ends below throttle_c: its ceiling stands at OP0 duty 1/16 (R432). -/
def State.releaseForced (s : State) (d : Nat) : State :=
  if s.power.forced.contains d && s.temp d < s.throttleAt 0 then
    let s := s.updPower (fun p => { p with forced := p.forced.filter (· != d) })
    if d < 16 then ((s.setFld (Csr.pwrTemp_ceil_op d) 0).setFld (Csr.pwrTemp_ceil_duty d) 4).setCool d 0 else s
  else s

/-- A die at a sample (R431, R432): its ceiling, and its crossing of throttle_c. -/
def State.heatDie (s : State) (d : Nat) : State :=
  let t := s.temp d
  let s := s.releaseForced d
  let s := if 16 ≤ d then
      if s.throttleAt 0 ≤ t then
        s.updPower (fun p => { p with hubHot := if p.hubHot.contains (d - 16) then p.hubHot else p.hubHot ++ [d - 16] })
      else if t ≤ s.throttleAt 3 then s.updPower (fun p => { p with hubHot := p.hubHot.filter (· != d - 16) })
      else s
    else if s.throttleAt 0 ≤ t then (s.ceilingDown d).setCool d 0
    else if t ≤ s.throttleAt 3 then
      if 9 ≤ s.coolOf d then (s.ceilingUp d).setCool d 0 else s.setCool d (s.coolOf d + 1)
    else s.setCool d 0
  if s.throttleAt 0 ≤ t then
    if s.power.hot.contains d then s
    else ((s.updPower (fun p => { p with hot := p.hot ++ [d] })).setFld Csr.pwrFlags_therm_warn 1).raisePower 0x0204 sevWarn
      (dieParts d) (w64 d)
  else if t < s.throttleAt 3 then s.updPower (fun p => { p with hot := p.hot.filter (· != d) })
  else s

/-- A stack at a sample (R434). -/
def State.heatStack (s : State) (k : Nat) : State :=
  let t := s.temp (20 + k)
  let c : Int := s.fld Csr.pwrTherm_hbm_c
  if c * 8 ≤ t then
    if s.power.stackHot.contains k then s
    else (s.updPower (fun p => { p with stackHot := p.stackHot ++ [k] })).raisePower 0x0206 sevWarn [] (w64 k)
  else if t ≤ (c - 5) * 8 then s.updPower (fun p => { p with stackHot := p.stackHot.filter (· != k) })
  else s

/-- The temperatures of a sample stored, with the highest of the dies. -/
def State.storeTemps (s : State) (ts : List Int) : State :=
  let s := (List.range 28).foldl (fun s i => s.setFld (Csr.pwrTemp_temp i) (unsigned 16 (ts.getD i 0))) s
  let top := (List.range 20).foldl (fun m i => if s.temp m < s.temp i then i else m) 0
  (s.setFld Csr.pwrTherm_tj_max (s.fld (Csr.pwrTemp_temp top))).setFld Csr.pwrTherm_hottest top

/-! ## Steps (R418, R419, R454) -/

/-- The point the controller steps a die towards: the lowest of the ladder, the ceiling and op_max. -/
def State.dieTarget (s : State) (d : Nat) : Nat :=
  s.opAtMost (min (s.fld Csr.pwrSts_op) (s.fld (Csr.pwrTemp_ceil_op d)))

/-- A step of a die starts: where the rail must rise it is written, and the idle PLL is programmed. -/
def State.startStep (s : State) (d n : Nat) (b : Bool) : State :=
  let g := d / 4
  let v := s.setVoltage n
  let old := s.rail g
  if old < v ∧ s.power.avsBad.contains g = true then s
  else
    let s := if old < v then s.writeRail g v else s
    let s := s.updPower (fun p => { p with steps := p.steps ++ [⟨d, n, b, old, v⟩] })
    ((s.setWord (pllReg d b) (opPll n)).setFld (pllRdy d b) 0).showStepping

/-- The step that a die needs, one point towards its target: none while one is in progress, while REFCLK is lost or on
IOSC. -/
def State.stepDie (s : State) (d : Nat) : State :=
  if (s.stepOf d).isSome || s.flag Csr.clkSts_lost_state || s.power.forced.contains d then s
  else
    match s.dieOp d, s.diePll d with
    | some n, some b =>
      let t := s.dieTarget d
      if t < n then s.startStep d (s.opBelow n) (!b)
      else if n < t then s.startStep d ((s.opAbove n).getD n) (!b)
      else s
    | _, _ => s

/-- The steps that dies need, where the controller takes decisions. -/
def State.stepDies (s : State) : State :=
  if s.flag Csr.pwrCtl_en then
    let s := s.setFld Csr.pwrSts_op (s.opAtMost (s.fld Csr.pwrSts_op))
    (List.range 16).foldl State.stepDie s
  else s

/-- A raised margin for a die's point raises its rail at once (R454). -/
def State.raiseRails (s : State) : State :=
  (List.range 4).foldl (fun s g =>
    if s.rail g < s.railNeed g ∧ s.power.avsBad.contains g = false ∧ s.flag Csr.clkSts_lost_state = false ∧
        s.flag Csr.pwrCtl_en = true then
      s.writeRail g (s.railNeed g)
    else s) s

/-- POWER_SAMPLE (R420, R423, R431, R435, R436, R454). -/
def State.sample (s : State) (x : PowerReading) : State :=
  let s := s.takePlan
  let s := s.setWord Csr.pwrEnergy (s.word Csr.pwrEnergy + w64 x.uj)
  let s := (List.range 32).foldl (fun s j =>
    if s.flag (Csr.prtJobAct_valid j) then
      s.setWord (Csr.pwrJobeEnergyUj j) (s.word (Csr.pwrJobeEnergyUj j) + w64 x.uj)
    else s) s
  let s := s.updPower (fun p => { p with uj := p.uj + x.uj, sum := p.sum + x.sample, n := p.n + 1 })
  let s := s.setFld Csr.pwrTel_sample_w (min 0xFFFF x.sample)
  let s := s.setFld Csr.pwrTel_avg_w (min 0xFFFF (s.power.sum / max 1 s.power.n))
  let s := s.storeTemps x.temps
  let s := (List.range 20).foldl State.heatDie s
  let s := (List.range 8).foldl State.heatStack s
  let s := s.capUnmet x.sample
  let s := if s.flag Csr.pwrCtl_en then s.ladderMove x.sample else s
  s.raiseRails.stepDies

/-- POWER_SAMPLE. -/
def execPowerSample (reading : PowerReading) (s : State) : Res := .next (s.sample reading)

/-- OP_STEP_SWITCH (R419): the rail has settled and the idle PLL is READY. -/
def execOpStepSwitch (die : Nat) (s : State) : Res :=
  .next (match s.stepOf die with
    | some x =>
      if s.flag (pllRdy die x.onB) then ((s.requestSwitch die (b2n x.onB)).finishStep die).raiseRails.stepDies else s
    | none => s)

/-- AVS_TIMEOUT (spec/18_package_pins_electrical.md R488): the latest voltage write to the rail has failed twice. The
rail stands where it was, and the steps of its group that need more are abandoned. -/
def execAvsTimeout (rail : Nat) (s : State) : Res :=
  .next (if rail < 4 then
      let was := s.power.railsWas.getD rail 720
      let s := s.updPower (fun p => { p with
        steps := p.steps.filter (fun x => !(x.die / 4 == rail && decide (was < x.mv))), rails := p.rails.set rail was
        avsBad := if p.avsBad.contains rail then p.avsBad else p.avsBad ++ [rail] })
      s.showStepping.raisePower 0x0207 sevWarn [] (w64 rail)
    else s)

/-! ## The comparators (R427, R432, R433) -/

/-- Counters of the current limit. -/
def State.overOf (s : State) (g : Nat) : Nat := NMap.get (fun _ => 0) s.power.overs g
def State.underOf (s : State) (g : Nat) : Nat := NMap.get (fun _ => 0) s.power.under g

/-- A group enters the current limit (R427). -/
def State.enterLimit (s : State) (g : Nat) : State :=
  let s := (s.updPower (fun p => { p with limited := p.limited ++ [g], under := NMap.erase p.under g })).addFld
    (Csr.pwrIlim_events g) 1
  if NMap.get (fun _ => none) s.power.ilimTick g = some (s.seenHub 0) then s
  else
    (s.updPower (fun p => { p with ilimTick := NMap.set (fun _ => none) p.ilimTick g (some (s.seenHub 0)) })).raisePower
      0x0203 sevInfo ((groupDies g).flatMap dieParts) (w64 g)

/-- ILIM_SAMPLE (R427): two samples above the limit enter it; 10 µs after the first at or below, it is released. -/
def State.ilim (s : State) (g amps : Nat) : State :=
  let above := decide (s.fld (Csr.pwrIlim_limit_a g) < amps)
  let n := if above then min 2 (s.overOf g + 1) else 0
  let s := s.updPower (fun p => { p with overs := NMap.set (fun _ => 0) p.overs g n })
  if s.power.limited.contains g then
    let u := s.underOf g
    let u := if u = 0 ∧ above = true then 0 else u + 1
    if 11 ≤ u then
      s.updPower (fun p => { p with limited := p.limited.filter (· != g), under := NMap.erase p.under g })
    else s.updPower (fun p => { p with under := NMap.set (fun _ => 0) p.under g u })
  else if n = 2 then s.enterLimit g
  else s

/-- ILIM_SAMPLE. -/
def execIlimSample (rail amps : Nat) (s : State) : Res := .next (if rail < 4 then s.ilim rail amps else s)

/-- THERMAL_CRIT (R432): the die is forced to OP0 at duty 1/16 by its comparator. DESIGN CHOICE, unsafe (log 72): no
rule says how the comparator reaches OP0; the idle PLL is programmed for it, and TCLK follows by R402 once that PLL is
READY. -/
def execThermalCrit (die : Nat) (s : State) : Res :=
  .next (if die < 20 ∧ s.power.forced.contains die = false then
      let s := (s.updPower (fun p => { p with forced := p.forced ++ [die] })).endStep die
      let s := match (if die < 16 then s.diePll die else none) with
        | some b => s.startStep die 0 (!b)
        | none => s
      (s.setFld Csr.pwrFlags_therm_crit 1).raisePower 0x0205 sevDevice (dieParts die) (w64 die)
    else s)

/-- THERMAL_TRIP (R433): THERMTRIP_N is asserted; every clock stops, and nothing else is driven until PWR_OK falls. -/
def execThermalTrip (die : Nat) (s : State) : Res :=
  .next (if die < 20 ∧ s.tripped = false then { s.emit (.pin "THERMTRIP_N" false) with tripped := true } else s)

/-! ## Droop (R428, R429) -/

/-- The thresholds of a die in mV. -/
def State.shallow (s : State) (d : Nat) : Nat := 20 + 5 * s.fld (Csr.pwrDroop_shallow d)
def State.deep (s : State) (d : Nat) : Nat := 20 + 5 * s.fld (Csr.pwrDroop_deep d)

/-- The set voltage that a die's detector compares with (R428): its group rail's, and during a rail ramp of a step the
lower of the old and the new. -/
def State.droopBase (s : State) (d : Nat) : Nat :=
  (s.power.steps.filter (fun x => x.die / 4 == d / 4 && decide (x.old < x.mv))).foldl (fun m x => min m x.old)
    (s.rail (d / 4))

/-- DROOP_DETECT (R428): the die's core voltage is `mv`. -/
def State.droop (s : State) (d mv : Nat) : State :=
  let below := s.droopBase d - mv
  let div := s.fld (Csr.pwrDroop_div d)
  let enter := fun (s : State) => if div = 0 then s.addFld (Csr.pwrDroop_entries d) 1 else s
  if s.deep d < below then (if div = 2 then s else (enter s).setFld (Csr.pwrDroop_div d) 2)
  else if s.shallow d < below ∧ div = 0 then (enter s).setFld (Csr.pwrDroop_div d) 1
  else s

/-- DROOP_DETECT. -/
def execDroopDetect (die mv : Nat) (s : State) : Res := .next (if die < 16 then s.droop die mv else s)

/-- DROOP_HOLD_EXPIRE (R429): the die's core voltage is `mv` when its hold count expires. -/
def execDroopHoldExpire (die mv : Nat) (s : State) : Res :=
  .next (if die < 16 ∧ s.fld (Csr.pwrDroop_div die) ≠ 0 then
      let below := s.droopBase die - mv
      s.setFld (Csr.pwrDroop_div die) (if s.deep die < below then 2 else if s.shallow die < below then 1 else 0)
    else s)

/-- PWR_DROOP written (R428, R429): thresholds and hold count within their ranges. -/
def State.writeDroop (s : State) (d : Nat) (v : W64) : State :=
  let s := s.genWrite (Csr.pwrDroop d) v
  let sh := min 20 (s.fld (Csr.pwrDroop_shallow d))
  let dp := min 20 (max (sh + 2) (s.fld (Csr.pwrDroop_deep d)))
  let h := min 4096 (max 64 (s.fld (Csr.pwrDroop_hold d)))
  ((s.setFld (Csr.pwrDroop_shallow d) sh).setFld (Csr.pwrDroop_deep d) dp).setFld (Csr.pwrDroop_hold d) h

/-- PWR_THERM written (R431). -/
def State.writeTherm (s : State) (v : W64) : State :=
  let s := s.genWrite Csr.pwrTherm v
  s.setFld Csr.pwrTherm_throttle_c (min 100 (max 85 (s.fld Csr.pwrTherm_throttle_c)))

/-! ## Throttle reasons (R437, Table 15.5) -/

/-- The rung of a point and a duty among the compute rungs, counted down from OP7. -/
def rung (op duty : Nat) : Nat := 7 - op + duty

/-- Whether reason `r` is active on partition `p`. A point that Survey has disabled is not held back by the cap ladder
(R454). -/
def State.reason (s : State) (p r : Nat) : Bool :=
  let d := p / 2
  let h := hubOf p
  match r with
  | 0 =>
    s.fld Csr.pwrSts_op < s.opAtMost (s.fld Csr.dtmModeCur_op_max) || s.fld Csr.pwrSts_duty != 0 || s.fld Csr.pwrSts_mem != 0 ||
      s.fld Csr.pwrSts_paced != 0
  | 1 =>
    let cap := rung (s.fld Csr.pwrSts_op) (s.fld Csr.pwrSts_duty)
    decide (cap < rung (s.fld (Csr.pwrTemp_ceil_op d)) (s.fld (Csr.pwrTemp_ceil_duty d))) ||
      (s.power.forced.contains d && decide (cap < rung 0 4)) || s.power.hubHot.contains h ||
      s.power.stackHot.contains (2 * h) || s.power.stackHot.contains (2 * h + 1)
  | 2 => s.fld (Csr.pwrDroop_div d) != 0
  | 3 => s.power.limited.contains (d / 4)
  | _ => s.fld (Csr.clkSrc_cur d) == 2

/-- The reasons active on a partition counted at a tick edge. -/
def State.reasonTicks (s : State) (p : Nat) : State :=
  (List.range 5).foldl (fun s r => if s.reason p r then s.addFld (Csr.pwrThrTicks_ticks p r) 1 else s) s

/-- The reasons active on a partition counted at a TCLK cycle. -/
def State.reasonCycles (s : State) (p : Nat) : State :=
  (List.range 5).foldl (fun s r => if s.reason p r then s.addFld (Csr.pwrThrCycles_cycles p r) 1 else s) s

/-- PWR_THR_CLR written. -/
def State.clearReasons (s : State) (p : Nat) (v : W64) : State :=
  if bit v 0 then
    (List.range 5).foldl (fun s r => (s.setWord (Csr.pwrThrTicks p r) 0).setWord (Csr.pwrThrCycles p r) 0) s
  else s

/-- PWR_THR_CLR. -/
def execPwrThrClr (part : Nat) (value : W64) (s : State) : Res :=
  .next (if part < 32 then s.clearReasons part value else s)

/-- The partition-ticks of each valid job slot at a tick edge (R436). -/
def State.jobTicks (s : State) : State :=
  (List.range 32).foldl (fun s j =>
    if s.flag (Csr.prtJobAct_valid j) then
      s.setWord (Csr.pwrJobePtick j) (s.word (Csr.pwrJobePtick j) + w64 (s.jobParts j).length)
    else s) s

end Sys2Proof.Machine
end

