-- ==== Sys2Proof/Machine/Service.lean ====
section
/-! DEFINITION. Survey, the platform sensors and firmware update (spec/16_faults_ageing_service.md R452 to R454;
spec/15_power_droop_thermal.md R439; spec/17_startup_and_discovery.md R463). -/
namespace Sys2Proof.Machine

/-! ## Survey -/

/-- A Survey starts, where none runs. -/
def State.startSurvey (s : State) : State := s.setFld Csr.svcSurvCtl_busy 1

/-- SURVEY_RUN: run written 1. -/
def execSurveyRun (s : State) : Res := .next s.startSurvey

/-- SURVEY_PERIODIC: the period elapses, unless it is 0. -/
def execSurveyPeriodic (s : State) : Res :=
  .next (if s.fld Csr.svcSurvCtl_period_ticks = 0 then s else s.startSurvey)

/-- SVC_SURV_CTL written. -/
def State.writeSurvCtl (s : State) (v : W64) : State :=
  let s := s.genWrite Csr.svcSurvCtl v
  if bit v 48 then s.startSurvey else s

/-- The need of point `n` on die `d` (R452). -/
def State.need (s : State) (d n : Nat) : Int := signed 8 (bits (s.word (Csr.svcSurvNeed d)) (8 * n) 8)

/-- A die takes no part in planning once both its partitions are withdrawn. -/
def State.dieOut (s : State) (d : Nat) : Bool :=
  s.fld (Csr.prtPart_state (2 * d)) == ptWithdrawn && s.fld (Csr.prtPart_state (2 * d + 1)) == ptWithdrawn

/-- The planned margin of a point (R453); none where no die takes part. -/
def State.planned (s : State) (n : Nat) : Option Int :=
  match (List.range 16).filter (fun d => !s.dieOut d) with
  | [] => none
  | ds => some (ds.foldl (fun m d => max m (s.need d n)) (-30))

/-- The needs of a Survey recorded; a value beyond 8 bits is held at their end. -/
def State.storeNeeds (s : State) (needs : List (List Int)) : State :=
  (List.range 16).foldl (fun s d =>
    match needs[d]? with
    | some row => s.setWord (Csr.svcSurvNeed d) (w64 ((List.range 8).foldl (fun w n =>
        w + unsigned 8 (clampI (-127) 127 (row.getD n 0)) * 2 ^ (8 * n)) 0))
    | none => s) s

/-- Dies that exhaust OP0 withdrawn (Table 16.3). -/
def State.dropDies (s : State) : State :=
  (List.range 16).foldl (fun s d =>
    if !s.dieOut d && s.marginCeiling < s.need d 0 then
      ((s.withdraw (2 * d)).withdraw (2 * d + 1)).setReason 2
    else s) s

/-- The margin of a point planned, with SURVEY_REPLAN where it changes. -/
def State.planPoint (s : State) (n : Nat) : State :=
  match s.planned n with
  | none => s
  | some m =>
    let old := s.fld (Csr.pwrOp_margin_mv n)
    let new := unsigned 8 m
    if new = old then s
    else (s.setFld (Csr.pwrOp_margin_mv n) new).raiseM (devEvent 3 0x0A07 sevInfo none 0
      (w64 (n + old * 2 ^ 8 + new * 2 ^ 16)))

/-- A point is exhausted (R453). -/
def State.exhausted (s : State) (n : Nat) : Bool := s.marginCeiling < signed 8 (s.fld (Csr.pwrOp_margin_mv n))

/-- A point enabled or disabled, with OP_DISABLED where it changes: one at or above an exhausted point is disabled. -/
def State.enablePoint (s : State) (n : Nat) : State :=
  let en := b2n (!(List.range (n + 1)).any (fun m => 1 ≤ m && s.exhausted m))
  if en = s.fld (Csr.pwrOp_en n) then s
  else (s.setFld (Csr.pwrOp_en n) en).raiseM (devEvent 3 0x0A08 sevWarn none 0 0)

/-- SURVEY_COMPLETE (R452, R453): the new margins reach the rails at the next sample (R454). -/
def State.endSurvey (s : State) (needs : List (List Int)) : State :=
  let s := (s.storeNeeds needs).dropDies
  let s := (List.range 8).foldl State.planPoint s
  let s := (List.range 8).foldl State.enablePoint s
  let s := if (List.range 6).any (fun n => 1 ≤ n && s.exhausted n) then s.setReason 2 else s
  ((s.setFld Csr.svcSurvCtl_busy 0).setFld Csr.svcSurvSts_last s.count.toNat).addFld Csr.svcSurvSts_count 1

/-- SURVEY_COMPLETE. -/
def execSurveyComplete (needs : List (List Int)) (s : State) : Res :=
  .next (if s.flag Csr.svcSurvCtl_busy then s.endSurvey needs else s)

/-! ## PLDM (R439, Table 15.6) -/

/-- The answer to a PLDM request: its completion code and bytes. -/
def State.pldm (s : State) (code : Nat) (bs : List Byte) : State := s.emit (.message code bs)

/-- The reading of a sensor, as its bytes. -/
def State.reading (s : State) (n : Nat) : List Byte :=
  let v : Int := match n with
    | 1 => s.fld Csr.pwrTel_sample_w / 8
    | 2 => (s.word Csr.pwrEnergy).toNat / 1000000
    | 3 => s.fld Csr.pwrCap_limit_w / 8
    | 4 => signed 16 (s.fld Csr.pwrTherm_tj_max) / 8
    | 33 => if s.power.forced.isEmpty then (if s.power.hot.isEmpty then 0 else 1) else 2
    | 34 => b2n s.power.unmet
    | _ => s.temp (n - 5) / 8
  toBytes 8 (unsigned 64 v)

/-- GET_SENSOR_READING: a sensor that has been disabled answers its state without a value. -/
def execGetSensorReading (sensor : Nat) (s : State) : Res :=
  .next (if s.fwRuns then
      if 1 ≤ sensor ∧ sensor ≤ 34 then
        if s.sensorsOff.contains sensor then s.pldm 0 (toBytes 1 1) else s.pldm 0 (toBytes 1 0 ++ s.reading sensor)
      else s.pldm 0x80 []
    else s)

/-- SET_NUMERIC_SENSOR_ENABLE: sensors 1 to 32 are numeric. -/
def execSetNumericSensorEnable (sensor : Nat) (enable : Bool) (s : State) : Res :=
  .next (if s.fwRuns then
      if 1 ≤ sensor ∧ sensor ≤ 32 then
        let off := s.sensorsOff.filter (· != sensor)
        { s with sensorsOff := if enable then off else off ++ [sensor] }.pldm 0 []
      else s.pldm 0x80 []
    else s)

/-- PLDM_GET_PDR: one record for each sensor; record 0 asks for the first. -/
def execPldmGetPdr (record : Nat) (s : State) : Res :=
  .next (if s.fwRuns then
      let n := if record = 0 then 1 else record
      if n ≤ 34 then s.pldm 0 (toBytes 4 (if n = 34 then 0 else n + 1) ++ toBytes 2 n ++ toBytes 1 (b2n (33 ≤ n)))
      else s.pldm 0x82 []
    else s)

/-! ## Firmware update (R463) -/

/-- PLDM_FW_UPDATE: the firmware writes only the slot it was not loaded from, the boot ROM in stage FAILED slot A. -/
def execPldmFwUpdate (image : FwImage) (s : State) : Res :=
  .next (if (s.stage = bsFailed ∧ s.hold = 0 ∧ s.frozen = false) ∨ (s.fwRuns = true ∧ s.fld Csr.cfgBoot_slot = 1) then
      { s with flashA := some image }.pldm 0 []
    else if s.fwRuns then { s with flashB := some image }.pldm 0 []
    else s)

/-- ACTIVATE_FIRMWARE: the image is chosen by version at the next warm or cold reset; nothing changes before it. -/
def execActivateFirmware (s : State) : Res := .next (if s.fwRuns || (s.stage == bsFailed && s.hold == 0) then s.pldm 0 [] else s)

end Sys2Proof.Machine
end

