-- ==== Sys2Proof/Machine/Ticks.lean ====
section
/-! DEFINITION. What each unit runs at the tick edge it sees (spec/09_datum_time.md R280, R287 to R289, R300;
spec/15_power_droop_thermal.md R418, R436, R437). -/
namespace Sys2Proof.Machine

/-- The copy of the count that a unit holds set: compute die d at d, hub h at 16 + h. -/
def State.setSeen (s : State) (u : Nat) : State := { s with seen := NMap.set (fun _ => 0) s.seen u s.count }

/-- A compute die sees the present count: a mode sent for it becomes current in its tiles, phase timers and throttle
reasons of its partitions count. -/
def State.dieTick (s : State) (d : Nat) : State :=
  let before := s.seenDie d
  let s := (s.setSeen d).dieMode d before
  [2 * d, 2 * d + 1].foldl (fun s p => (s.phaseTicks p).reasonTicks p) s

/-- The wait that a tick edge finds the sequencer of partition `p` in is counted (spec/12_training_support.md R349,
R358, COL_SEQ_WAIT): in wait_sig, or for collectives, the gate and the update. -/
def State.seqWaitTick (s : State) (p : Nat) : State :=
  let on := (s.fld (Csr.colSeqSts_state p) == 1 || s.fld (Csr.colSeqSts_state p) == 2) &&
    !NMap.get (fun _ => false) s.seqAborting p
  match NMap.find? s.seqs p with
  | none => s
  | some q =>
    if !on then s
    else
      match q.todo, q.at_ with
      | .wait _ :: _, _ => if q.since.isSome && !q.launched then s.addFld (Csr.colSeqWait_in_ticks p) 1 else s
      | _, .coll | _, .gate | _, .update => s.addFld (Csr.colSeqWait_coll_ticks p) 1
      | _, _ => s

/-- A hub sees the present count: its ports send heartbeats, the waits of its sequencers count; H0 counts
partition-ticks and steps dies towards a new op_max. -/
def State.hubTick (s : State) (h : Nat) : State :=
  let s := (s.setSeen (16 + h)).heartbeats h
  let s := (List.range 8).foldl (fun s i => s.seqWaitTick (8 * h + i)) s
  if h = 0 then s.jobTicks.stepDies else s

/-- TICK_EDGE_SEEN. -/
def execTickEdgeSeen (unit : TickUnit) (s : State) : Res :=
  .next (if s.frozen then s else match unit with
    | .die d => if d < 16 ∧ s.seenDie d ≠ s.count then s.dieTick d else s
    | .hub h => if h < 4 ∧ s.seenHub h ≠ s.count then s.hubTick h else s)

end Sys2Proof.Machine
end

