-- ==== Sys2Proof/Machine/Update.lean ====
section
/-! DEFINITION. The near-memory update engine (spec/12_training_support.md R355, R362, R364 to R367). -/
namespace Sys2Proof.Machine

/-! ## Accesses of the sequencers and the update engines (R343; spec/13_partitions_and_protection.md R377, R378) -/

/-- An access made at P of the partition: whether it is performed, a denial reported. -/
def State.seqAccess (s : State) (p : Nat) (k : Access) (a n : Nat) : State × Bool :=
  match s.accessFail (.loc p true) none (hubOf p) k a n with
  | some st => (if st = stProt then s.deny (.loc p true) a else s, false)
  | none => (s, true)

/-- A value read. DESIGN CHOICE, safe (log 73): no rule says what a sequencer has from a read that is not performed,
and it is free. -/
def State.seqLoad (s : State) (p a n : Nat) : State × Nat :=
  let (s, ok) := s.seqAccess p .read a n
  if ok then (s, s.load a n) else (s.takeFree 1, bits (Config.freeWord s.freeCtr) 0 (8 * n))

/-- Words read, as `seqLoad` reads one. -/
def State.seqWords (s : State) (p a n : Nat) : State × List W64 :=
  let (s, ok) := s.seqAccess p .read a (8 * n)
  if ok then (s, s.words a n)
  else (s.takeFree n, (List.range n).map (fun i => Config.freeWord (s.freeCtr + i)))

/-- A value stored, where the store is granted. -/
def State.seqStore (s : State) (p a n v : Nat) : State :=
  let (s, ok) := s.seqAccess p .write a n
  if ok then s.store a n v else s

/-- Bytes stored, where the store is granted. -/
def State.seqWrite (s : State) (p a : Nat) (bs : List Byte) : State :=
  let (s, ok) := s.seqAccess p .write a bs.length
  if ok then s.writeBytes a bs else s

/-! ## Group scales (R355) -/

/-- floor(log2) of the largest finite magnitude among FP32 codes; none without a finite non-zero one. -/
def groupExp (cs : List Nat) : Option Int :=
  cs.foldl (fun m c =>
    let d := Fmt.fp32.dyad c
    if field c 23 8 = 255 ∨ d.m = 0 then m
    else
      let e : Int := d.m.log2 + d.e
      some (match m with | some x => max x e | none => e)) none

/-- es of a group, for T. -/
def groupShift (t : Int) (cs : List Nat) : Int :=
  match groupExp cs with
  | some e => clampI (-31) 31 (e + 1 - t)
  | none => 0

/-- The L16 entry of a group scale. -/
def scaleCode (es : Int) : Nat := (16384 + 512 * es).toNat

/-- An FP32 element converted under a group scale with truncation. -/
def shortCode (f : Fmt) (es : Int) (c : Nat) : Nat := (toL f none (Fmt.fp32.value c 0) (512 * es)).code

/-- A master's code in the working copy. DEDUCED, unsafe (log 73): a non-finite one gives NaR (R367), an infinity too,
to which R31 alone would give the largest magnitude. -/
def copyCode (f : Fmt) (es : Int) (c : Nat) : Nat := shortCode f es (if field c 23 8 = 255 then 0x7FC00000 else c)

/-- T of R355. -/
def Fmt.reach : Fmt → Int
  | .l8 => 8
  | _ => 16

/-! ## Update descriptors (Table 12.7) -/

/-- An update descriptor as its words give it. -/
structure UpdDesc where
  ws : List W64
  deriving DecidableEq, Repr, Inhabited

abbrev UpdDesc.w (u : UpdDesc) : Nat := (u.ws.getD 0 0).toNat
abbrev UpdDesc.g (u : UpdDesc) : Nat := (u.ws.getD 1 0).toNat
abbrev UpdDesc.m (u : UpdDesc) : Nat := (u.ws.getD 2 0).toNat
abbrev UpdDesc.v (u : UpdDesc) : Nat := (u.ws.getD 3 0).toNat
abbrev UpdDesc.wc (u : UpdDesc) : Nat := (u.ws.getD 4 0).toNat
abbrev UpdDesc.wcs (u : UpdDesc) : Nat := (u.ws.getD 5 0).toNat
abbrev UpdDesc.k (u : UpdDesc) : Nat := bits (u.ws.getD 6 0) 0 32
abbrev UpdDesc.n (u : UpdDesc) : Nat := bits (u.ws.getD 6 0) 32 32
abbrev UpdDesc.flags (u : UpdDesc) : W64 := u.ws.getD 7 0
abbrev UpdDesc.mom (u : UpdDesc) : Bool := bit u.flags 4
abbrev UpdDesc.rescale (u : UpdDesc) : Bool := bit u.flags 5
abbrev UpdDesc.rec_ (u : UpdDesc) : Nat := (u.ws.getD 8 0).toNat
abbrev UpdDesc.consts (u : UpdDesc) : Nat := (u.ws.getD 9 0).toNat
abbrev UpdDesc.beta1 (u : UpdDesc) : Nat := bits (u.ws.getD 10 0) 0 32
abbrev UpdDesc.om1 (u : UpdDesc) : Nat := bits (u.ws.getD 10 0) 32 32
abbrev UpdDesc.beta2 (u : UpdDesc) : Nat := bits (u.ws.getD 11 0) 0 32
abbrev UpdDesc.om2 (u : UpdDesc) : Nat := bits (u.ws.getD 11 0) 32 32
abbrev UpdDesc.eps (u : UpdDesc) : Nat := bits (u.ws.getD 12 0) 0 32

/-- The working copy's format, none without one; and its group size. -/
def UpdDesc.fmt (u : UpdDesc) : Option Fmt :=
  match bits u.flags 0 2 with
  | 1 => some .l8
  | 2 => some .l8w
  | 3 => some .l12
  | _ => none
def UpdDesc.gs (u : UpdDesc) : Nat := 16 * 2 ^ bits u.flags 2 2

/-- Elements of the tensor. -/
def UpdDesc.count (u : UpdDesc) : Nat := u.k * u.n

/-- The address of the descriptor breaks 128-B alignment, or its fields break Table 12.7. -/
def UpdDesc.bad (u : UpdDesc) (da : Nat) : Bool :=
  da % 128 != 0 || u.k % 128 != 0 || u.n % 32 != 0 || (bits u.flags 2 2 == 0 && bits u.flags 0 2 != 0) ||
    bits u.flags 6 58 != 0 || bits (u.ws.getD 12 0) 32 32 != 0 || (u.ws.drop 13).any (· != 0)

/-- The runs of memory that a descriptor reads and writes, with whether it writes them (R343). -/
def UpdDesc.spans (u : UpdDesc) (t : Nat) : List (Nat × Nat × Bool) :=
  let mb := if u.mom then u.count + u.count / 128 * 2 else 4 * u.count
  [(u.w, 4 * u.count, true), (u.g, 4 * u.count, false), (u.m, mb, true), (u.v, mb, true), (u.consts + 16 * t, 16, false)] ++
  (if u.rescale then [(u.rec_, 64, false)] else []) ++
  (match u.fmt with
   | some f => if u.wc = 0 then [] else
      [(u.wc, u.count * f.bits / 8, true), (u.wcs, u.count / u.gs * 2, true)]
   | none => [])

/-- Every run of a descriptor lies in package memory that the partition owns. -/
def State.updOwned (s : State) (p t : Nat) (u : UpdDesc) : Bool :=
  (u.spans t).all (fun x => x.2.1 == 0 || s.owns p x.1 x.2.1)

/-- The accesses of a descriptor checked at P, each denial reported: whether every one is granted. -/
def State.updGranted (s : State) (p t : Nat) (u : UpdDesc) : State × Bool :=
  ((u.spans t).filter (fun x => x.2.1 != 0)).foldl (fun (r : State × Bool) x =>
    let (s, ok) := r.1.seqAccess p .read x.1 x.2.1
    let (s, ok') := if ok && x.2.2 then s.seqAccess p .write x.1 x.2.1 else (s, ok)
    (s, r.2 && ok')) (s, true)

/-- What a descriptor leaves that is applied in part: each byte that it writes is as it was, or free. -/
def State.updPartial (s : State) (p t : Nat) (u : UpdDesc) : State :=
  ((u.spans t).filter (fun x => x.2.2)).foldl (fun s x =>
    if (s.accessFail (.loc p true) none (hubOf p) .write x.1 x.2.1).isSome then s
    else
      let k := s.freeCtr
      (s.writeBytes x.1 ((s.bytes x.1 x.2.1).zipIdx.map (fun b =>
        if Config.freeBool (k + b.2) then b.1 else (Config.freeWord (k + b.2)).truncate 8))).takeFree x.2.1) s

/-! ## Moments (R365, R366) -/

/-- A moment element as FP32: stored so, or as L8 under its block scale. -/
def State.moment (s : State) (u : UpdDesc) (base i : Nat) : Nat :=
  if u.mom then
    let sc := Fmt.l16.log9 (s.load (base + u.count + 2 * (i / 128)) 2)
    (toF .fp32 .rne ((Fmt.l8.value (s.load (base + i) 1) 0).scale sc) 0).code
  else s.load (base + 4 * i) 4

/-- Moments written back from their FP32 values. -/
def State.storeMoments (s : State) (u : UpdDesc) (base : Nat) (cs : List Nat) : State :=
  if u.mom then
    (List.range (u.count / 128)).foldl (fun s b =>
      let blk := (cs.drop (128 * b)).take 128
      let es := groupShift 8 blk
      (s.writeBytes (base + 128 * b) (blk.map (fun c => BitVec.ofNat 8 (shortCode .l8 es c)))).store
        (base + u.count + 2 * b) 2 (scaleCode es)) s
  else s.writeBytes base (cs.flatMap (toBytes 4))

/-! ## One element (R365) -/

/-- FP32 operations under roundTiesToEven. -/
def mul32 (a b : Nat) : Nat := (fMul .fp32 .rne a b).1
def div32 (a b : Nat) : Nat := (fDiv .fp32 .rne a b).1
def fma32 (a b c : Nat) : Nat := (fFma .fp32 .rne a b c).1
def sqrt32 (a : Nat) : Nat := (fSqrt .fp32 .rne a).1

/-- The new moments and master of an element: q, the constants a, k and d, then m, v, g and w. -/
def updElem (u : UpdDesc) (q a k d : Nat) (m v g w : Nat) : Nat × Nat × Nat :=
  let gi := mul32 q g
  let m' := fma32 u.beta1 m (mul32 u.om1 gi)
  let v' := fma32 u.beta2 v (mul32 u.om2 (mul32 gi gi))
  let den := fma32 (sqrt32 v') k u.eps
  (m', v', fma32 (Fmt.fp32.flip a) (div32 m' den) (mul32 d w))

/-! ## One descriptor -/

/-- c_l (R362): of the layer's result record. -/
def State.layerFactor (s : State) (c rec_ : Nat) : Nat :=
  let got := s.load (rec_ + 4) 4 + s.load (rec_ + 12) 4
  if got = 0 then c
  else
    let d := Fmt.fp32.dyad c
    (roundAlg .fp32 .rne (Alg.dyadic (d.m * s.load rec_ 4 : Nat) d.e) false got).1

/-- The bytes of a working copy in linear order (spec/01_log_numbers.md R16). -/
def packCodes (f : Fmt) : List Nat → List Byte
  | a :: b :: r => if f = .l12 then toBytes 3 (a + b * 2 ^ 12) ++ packCodes f r
    else toBytes 1 a ++ toBytes 1 b ++ packCodes f r
  | [a] => toBytes (f.granule) a
  | [] => []

/-- The working copy and its group scales written from the masters (R355). -/
def State.storeCopy (s : State) (u : UpdDesc) (f : Fmt) (ws : List Nat) : State :=
  let gn := u.k / u.gs
  let groups := (List.range (u.count / u.gs)).map (fun i => (ws.drop (u.gs * i)).take u.gs)
  let shifts := groups.map (groupShift f.reach)
  let codes := (groups.zip shifts).flatMap (fun x => x.1.map (copyCode f x.2))
  let s := s.writeBytes u.wc (packCodes f codes)
  (shifts.zipIdx).foldl (fun s x =>
    let row := x.2 / gn
    s.store (u.wcs + 2 * ((row / 32 * gn + x.2 % gn) * 32 + row % 32)) 2 (scaleCode x.1)) s

/-- One descriptor of a batch applied: `c` the gradient factor, `t` the steps applied before. -/
def State.applyUpd (s : State) (p : Nat) (n : W64) (c t : Nat) (u : UpdDesc) : State :=
  let q := if u.rescale then s.layerFactor c u.rec_ else c
  let a := s.load (u.consts + 16 * t) 4
  let k := s.load (u.consts + 16 * t + 4) 4
  let d := s.load (u.consts + 16 * t + 8) 4
  let out := (List.range u.count).map (fun i =>
    updElem u q a k d (s.moment u u.m i) (s.moment u u.v i) (s.load (u.g + 4 * i) 4) (s.load (u.w + 4 * i) 4))
  let ws := out.map (fun x => x.2.2)
  let s := s.writeBytes u.w (ws.flatMap (toBytes 4))
  let s := (s.storeMoments u u.m (out.map (fun x => x.1))).storeMoments u u.v (out.map (fun x => x.2.1))
  let s := match u.fmt with
    | some f => if u.wc = 0 then s else s.storeCopy u f ws
    | none => s
  let s := s.addFld (Csr.colUpdCnt_params p) u.count
  if ws.any (fun w => field w 23 8 = 255) then s.raise (hubEvent 4 p 0x0808 sevWarn 0 n) else s

end Sys2Proof.Machine
end

