-- ==== Sys2Proof/Machine/Training.lean ====
section
/-! DEFINITION. The stage sequencers, and the end of a tile's program (spec/12_training_support.md R343 to R351, R356 to
R363, R369 to R372; spec/07_nolpa_programming.md R231, R232). -/
namespace Sys2Proof.Machine

/-! States and activities (COL_SEQ_STS). -/
abbrev sqIdle : Nat := 0
abbrev sqRunning : Nat := 1
abbrev sqStopping : Nat := 2
abbrev sqStopped : Nat := 3
abbrev sqFrozen : Nat := 4
abbrev sqFaulted : Nat := 5
abbrev saForward : Nat := 0
abbrev saBackward : Nat := 1
abbrev saColl : Nat := 2
abbrev saGate : Nat := 3
abbrev saUpdate : Nat := 4
abbrev saEval : Nat := 5
abbrev saWait : Nat := 6

/-! ## The schedule header and the layer table (Tables 12.1, 12.2) -/

/-- Bits of a word of the header at a byte offset. -/
def hdrBits (h : List W64) (off lo w : Nat) : Nat := bits (descWord h off) lo w

abbrev Seq.stage (q : Seq) : Nat := hdrBits q.hdr 0 0 6
abbrev Seq.stages (q : Seq) : Nat := hdrBits q.hdr 0 6 6 + 1
abbrev Seq.mbs (q : Seq) : Nat := hdrBits q.hdr 0 12 12 + 1
abbrev Seq.kind (q : Seq) : Nat := hdrBits q.hdr 0 32 2
abbrev Seq.contrib (q : Seq) : Bool := bit (descWord q.hdr 0) 34
abbrev Seq.priv (q : Seq) : Bool := bit (descWord q.hdr 0) 35
abbrev Seq.tiles (q : Seq) : W64 := descWord q.hdr 0x08
abbrev Seq.sig (q : Seq) (which : Nat) : Nat := (descWord q.hdr (0x10 + 8 * which)).toNat
abbrev Seq.record (q : Seq) : Nat := (descWord q.hdr 0x30).toNat
abbrev Seq.gateDa (q : Seq) : Nat := (descWord q.hdr 0x38).toNat
abbrev Seq.ring (q : Seq) (p : Nat) : Nat := 1024 * p + hdrBits q.hdr 0x40 0 10
abbrev Seq.straggle (q : Seq) : Nat := hdrBits q.hdr 0x40 32 32
abbrev Seq.gradScale (q : Seq) : Nat := hdrBits q.hdr 0x48 0 32
abbrev Seq.clip (q : Seq) : Nat := hdrBits q.hdr 0x48 32 32
abbrev Seq.steps (q : Seq) : Nat := hdrBits q.hdr 0x58 0 32
abbrev Seq.phase (q : Seq) (k : Nat) : Nat := hdrBits q.hdr 0x58 (32 + 4 * k) 4
abbrev Seq.align (q : Seq) : Nat := hdrBits q.hdr 0x68 0 32
abbrev Seq.evalLen (q : Seq) : Nat := hdrBits q.hdr 0x68 32 32
abbrev Seq.every (q : Seq) : Nat := hdrBits q.hdr 0x70 0 16
abbrev Seq.evalMbs (q : Seq) : Nat := hdrBits q.hdr 0x70 16 12 + 1
abbrev Seq.step0 (q : Seq) : W64 := descWord q.hdr 0x78
abbrev Seq.layer (q : Seq) (l : Nat) : List W64 := q.layers.getD l []

abbrev lrColl (r : List W64) : Nat := (descWord r 0x18).toNat
abbrev lrUpd (r : List W64) : Nat := (descWord r 0x20).toNat
abbrev lrCount (r : List W64) : Nat := bits (descWord r 0x28) 0 16
abbrev lrKeep (r : List W64) : Bool := bit (descWord r 0x28) 16
abbrev lrAux (r : List W64) : Bool := bit (descWord r 0x28) 17

/-- An entry DA that R237 admits. -/
def entryOk (w : W64) : Bool := bits w 0 3 == 0 && bits w 48 16 == 0

/-- Memory that a sequencer may read or write: package memory that the partition owns (R343). -/
def State.seqOwns (s : State) (p a n : Nat) : Bool := s.owns p a n

/-- A program entry that the partition owns: in its package memory, or in the SRAM of one of its tiles. -/
def State.ownsEntry (s : State) (p : Nat) (w : W64) : Bool :=
  match region w.toNat with
  | .sram n _ => partOf n == p
  | _ => s.owns p w.toNat 8

/-- An entry of a layer record: of R237's form, and owned where it is named. DEDUCED (log 38): a record names every
entry that its kind uses, and every other one that is not 0. -/
def State.entryNamed (s : State) (p : Nat) (used : Bool) (w : W64) : Bool :=
  entryOk w && ((!used && w == 0) || s.ownsEntry p w)

/-- A layer record that Table 12.2 admits for a kind, and whose named addresses the partition owns. -/
def State.layerOk (s : State) (p kind : Nat) (r : List W64) : Bool :=
  s.entryNamed p true (descWord r 0) && s.entryNamed p (kind != 2) (descWord r 8) &&
    s.entryNamed p (kind != 2 && !lrKeep r) (descWord r 0x10) &&
    bits (descWord r 0x28) 18 46 == 0 && descWord r 0x30 == 0 && descWord r 0x38 == 0 &&
    (lrColl r == 0 || s.seqOwns p (lrColl r) 64) &&
    (lrUpd r == 0 || (if kind = 0 then s.entryNamed p true (descWord r 0x20)
      else s.seqOwns p (lrUpd r) (128 * max 1 (lrCount r))))

/-- A gate descriptor that R360 admits. -/
def gateOk (ws : List W64) : Bool :=
  descOp ws == coAllreduce && cdDtype ws == 2 && cdCount ws == 1 && cdNorm ws && !cdDlEn ws &&
    bits (descWord ws 0x08) 60 4 == 0 && bits (descWord ws 0x10) 60 4 == 0 && descWord ws 0x28 != 0

/-- A header that R344 admits, with its layers. -/
def State.headerOk (s : State) (p : Nat) (h : List W64) (ls : List (List W64)) : Bool :=
  let b := hdrBits h
  let st := b 0 0 6
  let last := b 0 6 6
  let kind := b 0 32 2
  let owned := fun (off n : Nat) => descWord h off == 0 || s.seqOwns p (descWord h off).toNat n
  let gs := b 0x48 0 32
  let cn := b 0x48 32 32
  let gate := (descWord h 0x38).toNat
  decide (st ≤ last) && kind != 3 && b 0 36 28 == 0 && b 0x40 10 22 == 0 && b 0x58 52 12 == 0 && b 0x70 28 36 == 0 &&
  descWord h 0x08 != 0 &&
  (descWord h 0x10 == 0) == (st == 0) && (descWord h 0x18 == 0) == (st == last) &&
  !Fmt.fp32.signBit gs && !Fmt.fp32.isZeroCode gs && field gs 23 8 != 255 &&
  (!Fmt.fp32.signBit cn || Fmt.fp32.isZeroCode cn) && field cn 23 8 != 255 &&
  (b 0x70 0 16 == 0 || b 0x68 0 32 != 0) &&
  owned 0x10 8 && owned 0x18 8 && owned 0x20 8 &&
  (descWord h 0x28).toNat % 64 == 0 && s.seqOwns p (descWord h 0x30).toNat 64 &&
  ls.all (s.layerOk p kind) && gate % 64 == 0 && ((kind == 2 && gate == 0) || s.seqOwns p gate 64) &&
  (kind == 2 || gateOk (s.words gate 8))

/-! ## The order of a step (R345) -/

/-- A forward pass of a micro-batch, of kind F (0) or E (4). -/
def Seq.fwd (q : Seq) (m k : Nat) : List SeqAct :=
  (if 0 < q.stage then [.wait 0] else []) ++
  (q.layers.zipIdx).flatMap (fun x => (if lrAux x.1 then [.wait 2] else []) ++ [.launch k m x.2])

/-- A backward pass of a micro-batch. -/
def Seq.bwd (q : Seq) (m : Nat) : List SeqAct :=
  (if q.stage + 1 < q.stages then [.wait 1] else []) ++
  (q.layers.zipIdx).reverse.flatMap (fun x =>
    (if lrKeep x.1 then [] else [.launch 1 m x.2]) ++ [.launch 2 m x.2] ++
    (if m + 1 = q.mbs ∧ lrColl x.1 ≠ 0 then [.post x.2] else []))

/-- The warm-up forwards. -/
def Seq.warm (q : Seq) : Nat := min (q.stages - 1 - q.stage) q.mbs

/-- Pass `b` of a step: warm-up forwards, then forwards and backwards in turn, then the remaining backwards; a FORWARD
sequencer runs forwards only. -/
def Seq.pass (q : Seq) (b : Nat) : Option (List SeqAct) :=
  let w := q.warm
  let m := q.mbs
  if q.kind = 2 then (if b < m then some (q.fwd b 0) else none)
  else if b < w then some (q.fwd b 0)
  else if b - w < 2 * (m - w) then
    (if (b - w) % 2 = 0 then some (q.fwd (w + (b - w) / 2) 0) else some (q.bwd ((b - w) / 2)))
  else if b < 2 * m then some (q.bwd (b - m))
  else none

/-! ## Small operations -/

/-- The sequencer of a partition. -/
def State.seq? (s : State) (p : Nat) : Option Seq := NMap.find? s.seqs p
def State.setSeq (s : State) (p : Nat) (q : Seq) : State := { s with seqs := NMap.insert s.seqs p q }

/-- The state of a sequencer. -/
def State.seqState (s : State) (p : Nat) : Nat := s.fld (Csr.colSeqSts_state p)

/-- A sequencer that goes on: RUNNING or STOPPING, with no abort taken. -/
def State.seqOn (s : State) (p : Nat) : Bool :=
  (s.seqState p == sqRunning || s.seqState p == sqStopping) && !NMap.get (fun _ => false) s.seqAborting p

/-- The tiles of a mask, by their number in the device. -/
def maskTiles (p : Nat) (m : W64) : List Nat := ((List.range 64).filter (fun i => bit m i)).map (tileOf p)

/-- Every tile of a sequencer is IDLE. -/
def State.seqIdle (s : State) (p : Nat) (q : Seq) : Bool := (maskTiles p q.tiles).all (fun n => (s.tile n).state == tsIdle)

/-- An event of a sequencer (R372). -/
def State.raiseSeq (s : State) (p code sev : Nat) (n : W64) : State := s.raise (hubEvent 5 p code sev 0 n)

/-- The count as the hub of partition `p` sees it (spec/09_datum_time.md R280). -/
def State.seqCount (s : State) (p : Nat) : W64 := s.seenHub (hubOf p)

/-- An activity shown. -/
def State.seqActivity (s : State) (p a : Nat) : State := s.setFld (Csr.colSeqSts_activity p) a

/-- A sequencer leaves RUNNING or STOPPING. -/
def State.seqEnd (s : State) (p st : Nat) : State :=
  { s with seqAborting := NMap.set (fun _ => false) s.seqAborting p false }.setFld (Csr.colSeqSts_state p) st

/-- The ring has room for another entry. -/
def State.postRoom (s : State) (r : Nat) : Bool :=
  match s.ring? r with
  | some c => decide (idxDiff (s.fld (Csr.memRingIdx_idx r)) (s.fld (Csr.memRingSts_dev_idx r)) < 2 ^ c.sizeLog2)
  | none => false

/-- The descriptor at `a` copied into the next entry of a ring, and the producer index advanced (R356); its index. -/
def State.postEntry (s : State) (r a : Nat) : State × Nat :=
  match s.ring? r with
  | some c =>
    let i := s.fld (Csr.memRingIdx_idx r)
    let (s, ws) := s.seqWords (r / 1024) a 8
    let s := s.seqWrite (r / 1024) (c.base + 64 * (i % 2 ^ c.sizeLog2)) (ws.flatMap (fun w => toBytes 8 w.toNat))
    (s.publish r ((i + 1) % 2 ^ 32), i)
  | none => (s, 0)

/-- The step record begun before the step's first launch (R363). -/
def State.beginRecord (s : State) (p : Nat) (q : Seq) : State :=
  s.seqWrite p q.record ([q.n, q.applied, w64 q.skipped, 0, 0, 0, s.seqCount p, 0].flatMap (fun w => toBytes 8 w.toNat))

/-- The outcome of a step. -/
def State.outcome (s : State) (p : Nat) (q : Seq) (o : Nat) : State :=
  (s.seqStore p q.record 8 q.n.toNat).seqStore p (q.record + 0x14) 4 o

/-- A step that a failed collective or gate ends (R358). -/
def State.seqFreeze (s : State) (p : Nat) (q : Seq) : State :=
  ((s.outcome p q 3).seqEnd p sqFrozen).raiseSeq p 0x0804 sevWarn q.n

/-! ## From one action to the next -/

/-- The evaluation window that begins after the present tick (R370). -/
def Seq.window (q : Seq) (count : W64) : W64 :=
  let a : Int := q.align
  let c : Int := count.toNat
  let t0 : Int := (descWord q.hdr 0x60).toNat
  w64 (c + a - (c - t0) % a).toNat

/-- The next step, or the end of the run. -/
def State.nextStep (s : State) (p : Nat) (q : Seq) : State :=
  let runs := q.runs + 1
  let q := { q with
    runs := runs, at_ := .acts, blk := 0, todo := [], since := none, posted := [], gate := none, started := false }
  if s.seqState p = sqStopping ∨ (q.steps ≠ 0 ∧ q.steps ≤ runs) then (s.setSeq p q).seqEnd p sqStopped
  else (s.setSeq p { q with n := q.n + 1 }).setWord (Csr.colSeqStep p) (q.n + 1)

/-- After a step's record is complete: the evaluation when it is due (R370), or the next step. -/
def State.afterStep (s : State) (p : Nat) (q : Seq) : State :=
  if q.every ≠ 0 ∧ ((q.n - q.step0).toNat + 1) % q.every = 0 then
    let w := q.window (s.seqCount p)
    (s.setSeq p { q with at_ := .evalWait w, blk := 0, todo := [], since := none, overran := false }).seqActivity p saEval
  else s.nextStep p q

/-- The record completed (R363): `applied` when the step was applied, then t_end and STEP_DONE. -/
def State.closeStep (s : State) (p : Nat) (q : Seq) (applied : Bool) : State :=
  let q := if applied then { q with applied := q.applied + 1 } else q
  let s := if applied then s.seqStore p (q.record + 0x08) 8 q.applied.toNat else s
  let s := (s.seqStore p (q.record + 0x38) 8 (s.seqCount p).toNat).raiseSeq p 0x0809 sevInfo q.n
  s.afterStep p q

/-- The sequencer moves on while nothing of it runs: posts are made, a wait begins, the next pass is taken up, a phase
ends. -/
def State.seqNext (s : State) (p : Nat) : Nat → State
  | 0 => s
  | fuel + 1 =>
    if !s.seqOn p then s
    else
      match s.seq? p with
      | none => s
      | some q =>
        if q.launched then s
        else
          match q.todo with
          | .post l :: rest =>
            let r := q.ring p
            if s.postRoom r then
              let (s, i) := s.postEntry r (lrColl (q.layer l))
              State.seqNext (s.setSeq p { q with todo := rest, posted := q.posted ++ [(i, none)] }) p fuel
            else s
          | .wait _ :: _ =>
            let q := if q.since.isNone then { q with since := some (s.seqCount p), straggled := false } else q
            (s.setSeq p q).seqActivity p saWait
          | .launch .. :: _ => s
          | [] =>
            match q.at_ with
            | .acts =>
              match q.pass q.blk with
              | some acts => State.seqNext (s.setSeq p { q with todo := acts, blk := q.blk + 1 }) p fuel
              | none =>
                if q.kind = 2 then State.seqNext ((s.outcome p q 2).closeStep p q false) p fuel
                else (s.setSeq p { q with at_ := .coll }).seqActivity p saColl
            | .eval _ =>
              if q.blk < q.evalMbs then
                State.seqNext (s.setSeq p { q with todo := q.fwd q.blk 4, blk := q.blk + 1 }) p fuel
              else State.seqNext (s.nextStep p q) p fuel
            | _ => s

/-- Fuel for `seqNext`: a pass holds at least one launch, so few moves are made at a time. -/
abbrev seqFuel : Nat := 8

/-! ## Commands (R344, R350) -/

/-- SEQ_START: the header and the layer table are read and checked (R344). -/
def State.seqStart (s : State) (p : Nat) : State :=
  if s.seqState p = sqRunning ∨ s.seqState p = sqStopping then s
  else
    let a := s.fld (Csr.colSeqBase_hdr p) * 128
    let h := s.words a 16
    let la := (descWord h 0x28).toNat
    let n := hdrBits h 0 24 8 + 1
    let (s, ok) := if s.seqOwns p a 128 && s.seqOwns p la (64 * n) then
        let (s, ok) := s.seqAccess p .read a 128
        let (s, ok') := s.seqAccess p .read la (64 * n)
        (s, ok && ok')
      else (s, false)
    let ls := (List.range n).map (fun l => s.words (la + 64 * l) 8)
    if ok && s.headerOk p h ls then
      let rc := (descWord h 0x30).toNat
      let (s, applied) := s.seqLoad p (rc + 8) 8
      let (s, skipped) := s.seqLoad p (rc + 0x10) 4
      let q : Seq := {
        hdr := h, layers := ls, at_ := .acts, blk := 0, todo := [], n := descWord h 0x78, runs := 0, cf := 0, cb := 0
        ca := 0, since := none, straggled := false, launched := false, started := false, posted := [], gate := none
        overran := false, applied := w64 applied, skipped := skipped }
      let s := ((s.setWord (Csr.colSeqStep p) q.n).setWord (Csr.colSeqWait p) 0).setWord (Csr.colSeqCnt p) 0
      (((s.setSeq p q).setFld (Csr.colSeqSts_state p) sqRunning).seqActivity p saForward).seqNext p seqFuel
    else
      ((s.setFld (Csr.colSeqSts_state p) sqIdle).setFld (Csr.colSeqSts_cfg_err p) 1).raiseSeq p 0x0801 sevFault
        (s.word (Csr.colSeqStep p))

/-- SEQ_START. -/
def execSeqStart (part : Nat) (s : State) : Res := .next (if part < 32 then s.seqStart part else s)

/-- SEQ_STOP: allowed while RUNNING. -/
def State.seqStop (s : State) (p : Nat) : State :=
  if s.seqState p = sqRunning then s.setFld (Csr.colSeqSts_state p) sqStopping else s

/-- SEQ_STOP. -/
def execSeqStop (part : Nat) (s : State) : Res := .next (if part < 32 then s.seqStop part else s)

/-- SEQ_ABORT: allowed while RUNNING or STOPPING. -/
def execSeqAbort (part : Nat) (s : State) : Res := .next (if part < 32 then s.abortSequencer part else s)

/-- COL_SEQ_CTL written. -/
def State.writeSeqCtl (s : State) (p : Nat) (v : W64) : State :=
  let s := if bit v 0 then s.seqStart p else s
  let s := if bit v 1 then s.seqStop p else s
  if bit v 2 then s.abortSequencer p else s

/-- SEQ_ABORT_COMPLETE (R350): every tile of the mask is IDLE or in DEBUG. -/
def execSeqAbortComplete (part : Nat) (s : State) : Res :=
  .next (match s.seq? part with
    | some q =>
      if NMap.get (fun _ => false) s.seqAborting part = true ∧
          (maskTiles part q.tiles).all (fun n => (s.tile n).state == tsIdle || (s.tile n).state == tsDebug) = true then
        (s.outcome part q 3).seqEnd part sqStopped
      else s
    | none => s)

/-! ## Launches and waits (R346, R348, R349) -/

/-- The activity of a launch of a kind. -/
def kindActivity : Nat → Nat
  | 0 => saForward
  | 3 => saUpdate
  | 4 => saEval
  | _ => saBackward

/-- The program of a launch (Table 12.2). -/
def Seq.entry (q : Seq) (k l : Nat) : W64 :=
  let r := q.layer l
  match k with
  | 1 => descWord r 0x10
  | 2 => descWord r 0x08
  | 3 => descWord r 0x20
  | _ => descWord r 0

/-- The launch argument (Table 12.3). -/
def Seq.arg (q : Seq) (k m l : Nat) : W64 := w64 (m + l * 2 ^ 16 + k * 2 ^ 24 + bits q.n 0 32 * 2 ^ 32)

/-- SEQ_LAUNCH: once every tile is IDLE. -/
def execSeqLaunch (part : Nat) (s : State) : Res :=
  let s := if part < 32 then s.seqNext part seqFuel else s
  .next (match s.seq? part with
    | some q =>
      match q.todo with
      | .launch k m l :: rest =>
        if s.seqOn part && !q.launched && s.seqIdle part q then
          let s := if q.started then s else s.beginRecord part q
          let s := s.setSeq part { q with todo := rest, launched := true, started := true }
          let s := ((s.seqActivity part (kindActivity k)).setFld (Csr.colSeqSts_mb part) m).setFld
            (Csr.colSeqSts_layer part) l
          s.launchTiles part q.tiles (q.entry k l).toNat (q.arg k m l) q.priv (descWord q.hdr 0x50) (q.phase k)
        else s
      | _ => s
    | none => s)

/-- Inputs consumed of a signal. -/
def Seq.consumed (q : Seq) (which : Nat) : Nat := match which with | 0 => q.cf | 1 => q.cb | _ => q.ca

/-- A signal word has reached the count awaited, as a read at P finds it (R343). -/
def State.signalMet (s : State) (p : Nat) (q : Seq) (which : Nat) : Bool :=
  (s.accessFail (.loc p true) none (hubOf p) .read (q.sig which) 8).isNone &&
    q.sig which != 0 && decide (q.consumed which + 1 ≤ s.load (q.sig which) 8)

/-- SEQ_SIGNAL_WAIT_MET. A read that is denied is reported, and the wait goes on. -/
def execSeqSignalWaitMet (part : Nat) (s : State) : Res :=
  .next (match s.seq? part with
    | some q =>
      match q.todo with
      | .wait w :: rest =>
        if s.seqOn part && !q.launched then
          if s.signalMet part q w then
            let q' := { q with
              todo := rest, since := none, cf := q.cf + b2n (w == 0), cb := q.cb + b2n (w == 1), ca := q.ca + b2n (w == 2) }
            (s.setSeq part q').seqNext part seqFuel
          else (s.seqAccess part .read (q.sig w) 8).1
        else s
      | _ => s
    | none => s)

/-- SEQ_STRAGGLER_DEADLINE (R349): the hub sees the deadline edge of a wait that is not met. -/
def execSeqStragglerDeadline (part : Nat) (s : State) : Res :=
  .next (match s.seq? part with
    | some q =>
      match q.todo, q.since with
      | .wait w :: _, some t =>
        if s.seqOn part && !q.launched && !q.straggled && q.straggle != 0 && !s.signalMet part q w &&
            decide (t.toNat + q.straggle ≤ (s.seenHub (hubOf part)).toNat) then
          ((s.setSeq part { q with straggled := true }).addFld (Csr.colSeqCnt_stragglers part) 1).raiseSeq part 0x0802
            sevInfo q.n
        else s
      | _, _ => s
    | none => s)

/-! ## The end of a step (R358 to R363) -/

/-- The result record that a collective descriptor names. -/
def State.recordOf (s : State) (ws : List W64) : Option Nat :=
  let w := descWord ws 0x28
  if w = 0 then none else s.collDa w

/-- The records of the layers that have a collective, in ascending order. -/
def State.stepRecords (s : State) (p : Nat) (q : Seq) : State × List Nat :=
  (q.layers.filter (fun r => lrColl r != 0)).foldl (fun (x : State × List Nat) r =>
    let (s, ws) := x.1.seqWords p (lrColl r) 8
    (s, x.2 ++ (s.recordOf ws).toList)) (s, [])

/-- The gate value (R359): of each record, nonfinite and sumsq. -/
def State.gateValue (s : State) (p : Nat) (q : Seq) : State × Nat :=
  let (s, rs) := s.stepRecords p q
  rs.foldl (fun (x : State × Nat) a =>
    let (s, nonfinite) := x.1.seqLoad p (a + 0x10) 4
    if nonfinite = 1 then (s, Fmt.fp64.inf false)
    else if q.contrib then
      let (s, sumsq) := s.seqLoad p (a + 0x18) 8
      (s, (fAdd .fp64 .rne x.2 sumsq).1)
    else (s, x.2)) (s, 0)

/-- The late and carried counts of a step's records, summed (Table 12.5). -/
def State.lateCounts (s : State) (p : Nat) (q : Seq) : State × Nat × Nat :=
  let (s, rs) := s.stepRecords p q
  rs.foldl (fun (x : State × Nat × Nat) a =>
    let (s, late) := x.1.seqLoad p (a + 8) 4
    let (s, carried) := s.seqLoad p (a + 12) 4
    (s, x.2.1 + late, x.2.2 + carried)) (s, 0, 0)

/-- Statuses with which a step goes on. -/
def goodStatus (st : Nat) : Bool := st == stOk || st == stDeferred || st == stDropped

/-- SEQ_COLL_DONE (R358, R359): every posted entry is done; the gate value is formed and posted, or the step freezes. -/
def execSeqCollDone (part : Nat) (s : State) : Res :=
  let s := if part < 32 then s.seqNext part seqFuel else s
  .next (match s.seq? part with
    | some q =>
      if s.seqOn part && q.at_ == .coll && q.posted.all (fun e => e.2.isSome) then
        if q.posted.all (fun e => goodStatus (e.2.getD 0)) then
          if s.postRoom (q.ring part) then
            let (s, ws) := s.seqWords part q.gateDa 8
            let (s, v) := s.gateValue part q
            let s := s.seqStore part (bits (descWord ws 0x08) 0 60) 8 v
            let (s, i) := s.postEntry (q.ring part) q.gateDa
            (s.setSeq part { q with at_ := .gate, gate := some (i, none) }).seqActivity part saGate
          else s
        else s.seqFreeze part q
      else s
    | none => s)

/-- c (R362): γ where κ is 0, whatever S is, and else for S finite and not negative; otherwise the spec states no
value. -/
def State.gradFactor (s : State) (gamma kappa sg : Nat) : Nat × State :=
  let g := Fmt.fp32.dyad gamma
  let k := Fmt.fp32.dyad kappa
  let x := Fmt.fp64.dyad sg
  if k.m = 0 then (gamma, s)
  else if Fmt.fp64.isNaNCode sg || Fmt.fp64.isInfCode sg || (x.neg && x.m != 0) then
    ((bits (Config.freeWord s.freeCtr) 0 32), s.takeFree 1)
  else
    let past := Alg.sign ((Alg.dyadic (g.m * g.m * x.m : Nat) (2 * g.e + x.e)).sub
      (Alg.dyadic (k.m * k.m : Nat) (2 * k.e)))
    if past ≤ 0 then (gamma, s)
    else ((roundF .fp32 .rne false (.root (Alg.dyadic (k.m * k.m : Nat) (2 * k.e - x.e)) x.m) 0).code, s)

/-- The update descriptors of an applied step, in order, with their addresses (R364). -/
def State.batch (s : State) (p : Nat) (q : Seq) : State × List (Nat × UpdDesc) :=
  ((q.layers.filter (fun r => lrUpd r != 0)).flatMap (fun r =>
    (List.range (lrCount r)).map (fun i => lrUpd r + 128 * i))).foldl (fun (x : State × List (Nat × UpdDesc)) a =>
      let (s, ws) := x.1.seqWords p a 16
      (s, x.2 ++ [(a, ⟨ws⟩)])) (s, [])

/-- A descriptor of a batch that met no memory error: applied, or, where an access of it is denied, applied in part.
DESIGN CHOICE, safe (log 73): no rule says what else a denied access of a batch brings. -/
def State.runUpd (s : State) (p : Nat) (n : W64) (c t : Nat) (u : UpdDesc) : State :=
  let (s, ok) := s.updGranted p t u
  if ok then s.applyUpd p n c t u else s.updPartial p t u

/-- Whether a word with an error is one that a descriptor reads. -/
def UpdDesc.reads (u : UpdDesc) (t : Nat) (e : Ecc) : Bool :=
  (u.spans t).any (fun x => eccWithin e .read x.1 x.2.1 != .ok)

/-- A batch that has met an uncorrectable word is applied in part (R364): a descriptor that reads it in part, each
other one whole or not, by an open choice. -/
def State.partBatch (s : State) (p : Nat) (n : W64) (c t : Nat) (ds : List (Nat × UpdDesc)) (e : Ecc) : State :=
  ds.foldl (fun s d =>
    if d.2.reads t e then s.updPartial p t d.2
    else if Config.freeBool s.freeCtr then (s.takeFree 1).runUpd p n c t d.2 else s.takeFree 1) s

/-- The update phase begins: a batch checked and applied, or the update programs (R364, R369). `e` is what error
detection reports on the words that the batch reads. -/
def State.beginUpdate (s : State) (p : Nat) (q : Seq) (c : Nat) (e : Ecc) : State :=
  let s := s.seqActivity p saUpdate
  let q := { q with at_ := .update }
  if q.kind = 0 then
    let acts := ((q.layers.zipIdx).filter (fun x => lrUpd x.1 != 0)).map (fun x => SeqAct.launch 3 0 x.2)
    (s.setSeq p { q with todo := acts }).seqNext p seqFuel
  else
    let t := q.applied.toNat
    let (s, ds) := s.batch p q
    if ds.any (fun d => d.2.bad d.1 || !s.updOwned p t d.2) then
      ((s.raise (hubEvent 4 p 0x0807 sevFault 0 q.n)).outcome p q 3).seqEnd p sqFaulted
    else
      let s := (s.setFld (Csr.colUpdSts_busy p) 1).setFld (Csr.colUpdSts_remaining p) ds.length
      let (s, ue) := (s.setSeq p q).detect (if ds.any (fun d => d.2.reads t e) then e else .ok) (some p)
      if ue.isSome then s.partBatch p q.n c t ds e else ds.foldl (fun s d => s.runUpd p q.n c t d.2) s

/-- SEQ_GATE_DONE (R360, R361, R363). -/
def execSeqGateDone (part : Nat) (ecc : Ecc) (s : State) : Res :=
  .next (match s.seq? part with
    | some q =>
      match q.gate with
      | some (_, some st) =>
        if s.seqOn part && q.at_ == .gate then
          if st = stOk then
            let (s, ws) := s.seqWords part q.gateDa 8
            let (s, nonfinite) := s.seqLoad part ((s.recordOf ws).getD 0 + 0x10) 4
            let (s, sg) := s.seqLoad part (bits (descWord ws 0x10) 0 60) 8
            let (s, late, carried) := s.lateCounts part q
            let tail := fun (s : State) (o skipped c : Nat) =>
              let put := fun (s : State) (off n v : Nat) => s.seqStore part (q.record + off) n v
              put (put (put (put (put (put s 0x10 4 skipped) 0x14 4 o) 0x18 8 sg) 0x20 4 c) 0x24 4 late) 0x28 4 carried
            if nonfinite = 1 then
              let q := { q with skipped := (q.skipped + 1) % 2 ^ 32 }
              let s := (tail s 1 q.skipped 0).addFld (Csr.colSeqCnt_skipped part) 1
              ((s.raiseSeq part 0x0803 sevWarn q.n).closeStep part q false).seqNext part seqFuel
            else
              let (c, s) := s.gradFactor q.gradScale q.clip sg
              (tail s 0 q.skipped c).beginUpdate part q c ecc
          else s.seqFreeze part q
        else s
      | _ => s
    | none => s)

/-- SEQ_UPDATE_DONE (R363, R364): the update engine has ended its batch, be the sequencer aborted meanwhile, or the
update programs have run; the step of a sequencer that goes on is complete. -/
def execSeqUpdateDone (part : Nat) (s : State) : Res :=
  let s := if part < 32 then (s.setFld (Csr.colUpdSts_busy part) 0).setFld (Csr.colUpdSts_remaining part) 0 else s
  .next (match s.seq? part with
    | some q =>
      if s.seqOn part && q.at_ == .update && q.todo.isEmpty && !q.launched then
        (s.closeStep part { q with since := none } true).seqNext part seqFuel
      else s
    | none => s)

/-! ## Evaluation (R370) -/

/-- EVAL_WINDOW_START: the hub sees the window's edge. -/
def execEvalWindowStart (part : Nat) (s : State) : Res :=
  .next (match s.seq? part with
    | some q =>
      match q.at_ with
      | .evalWait w =>
        if s.seqOn part && decide (w.toNat ≤ (s.seenHub (hubOf part)).toNat) then
          (s.setSeq part { q with at_ := .eval w, blk := 0, since := none }).seqNext part seqFuel
        else s
      | _ => s
    | none => s)

/-- EVAL_OVERRUN: once. -/
def execEvalOverrun (part : Nat) (s : State) : Res :=
  .next (match s.seq? part with
    | some q =>
      match q.at_ with
      | .eval w =>
        if s.seqOn part && !q.overran && decide (w.toNat + q.evalLen ≤ (s.seenHub (hubOf part)).toNat) then
          (s.setSeq part { q with overran := true }).raiseSeq part 0x0806 sevWarn q.n
        else s
      | _ => s
    | none => s)

/-! ## The end of a tile's program -/

/-- A sequencer's launch is complete once every tile of its mask is IDLE again (R346). -/
def State.launchDone (s : State) (p : Nat) : State :=
  match s.seq? p with
  | some q =>
    if s.seqOn p && q.launched && s.seqIdle p q then (s.setSeq p { q with launched := false }).seqNext p seqFuel else s
  | none => s

/-- A tile leaves DEBUG: where it is IDLE again, a launch may be complete (R346; spec/07_nolpa_programming.md R241). -/
def State.resumed (s : State) (n : Nat) : State := (s.resumeTile n).launchDone (partOf n)

/-- TC_RESUME (R241). -/
def execTcResume (tile : Nat) (s : State) : Res := .next (if tile < 2048 then s.resumed tile else s)

/-- DBG_PRESUME (R242). -/
def execDbgPresume (part : Nat) (mask : W64) (s : State) : Res :=
  .next (if part < 32 then s.forMask part mask State.resumed else s)

/-- HALT_COMPLETE (R232): every T-class instruction of the tile has completed. -/
def execHaltComplete (tile : Nat) (s : State) : Res :=
  let t := s.tile tile
  match t.wait with
  | .halt code report =>
    if t.state = tsRunning && t.inflight.isEmpty then
      let s := s.discardChains tile
      let s := if report then s.raise (tileEvent tile 0x0A47 sevInfo 0 (w64 code)) else s
      .next ((s.updTile tile (fun t => ({ t with wait := .none }.setState tsIdle).boundary)).launchDone (partOf tile))
    else .next s
  | _ => .next s

/-- A tile of a running sequencer's mask has double-faulted (R351). -/
def State.seqFault (s : State) (n : Nat) : State :=
  let p := partOf n
  match s.seq? p with
  | some q =>
    if (s.seqState p == sqRunning || s.seqState p == sqStopping) && bit q.tiles (n % 64) then
      (s.seqEnd p sqFaulted).raiseSeq p 0x0805 sevFault q.n
    else s
  | none => s

/-- DOUBLE_FAULT_IDLE (R231): the engines have drained; chains are discarded, the tile is IDLE with dfault set, and
TC_DOUBLE aborts the job. -/
def execDoubleFaultIdle (tile : Nat) (s : State) : Res :=
  let t := s.tile tile
  match t.wait with
  | .dfault =>
    if t.state = tsRunning && t.inflight.isEmpty then
      let s := s.discardChains tile
      let s := s.updTile tile (fun t => ({ t with wait := .none }.setState tsIdle).setFld Csr.tcStatus_dfault 1)
      let d1 := w64 (t.fld Csr.tcCause_code + t.fld Csr.tcEpc_epc * 2 ^ 16)
      .next ((s.seqFault tile).raiseAbort (tileEvent tile 0x0A45 sevAbort 0 d1))
    else .next s
  | _ => .next s

end Sys2Proof.Machine
end

