-- ==== Sys2Proof/Machine/Startup.lean ====
section
/-! DEFINITION. Resets and device-local start-up (spec/14_clocks_and_crossings.md R413; spec/17_startup_and_discovery.md
R460 to R466; spec/18_package_pins_electrical.md R490, R503, R504). -/
namespace Sys2Proof.Machine

/-- Bits [lo + w - 1 : lo] of `old` in place of those of `v`. -/
def keepBits (old v : W64) (lo w : Nat) : W64 := w64 (putField v.toNat lo w (bits old lo w))

/-! ## Cold reset (R6, R413, R490) -/

/-- Every field at its Reset value; OTP with the Logbook, the flash, the lands and the TAP are as before. -/
def State.coldState (s : State) : State :=
  { State.reset with
    pending := s.pending, out := s.out, freeCtr := s.freeCtr, otp := s.otp, flashA := s.flashA, flashB := s.flashB
    tapIr := s.tapIr, hold := 1 }

/-- COLD_RESET: held until PWR_OK rises. -/
def execColdReset (s : State) : Res := .next s.coldState

/-! ## Warm reset (R6, R413) -/

/-- A device register word after a warm reset: the blocks and fields that are kept, the counts that run since cold
reset, and RWS and OTP fields keep their value; the others take the reset value, which for a planned margin is what
Survey gave it, and no Survey runs (R6, R461). -/
def warmWord (off : Nat) (w : W64) : W64 :=
  if (0x100000 ≤ off ∧ off < 0x200000) ∨ (0x300000 ≤ off ∧ off < 0x400000) then w
  else
    match findReg deviceRegs off with
    | none => 0
    | some (r, ix) =>
      let v := r.warm ix w
      match r.reg with
      | .pwrEnergy | .svcRepl | .cfgD2dSts | .colUpdCnt => w
      | .memSramCe => keepBits w v 0 32
      | .pwrOp => keepBits w v 22 8
      | .cfgTileMap => keepBits v w 11 2
      | .lnkSts => keepBits w v 13 13
      | .prtPart => if bits w 12 2 = ptWithdrawn then keepBits w v 12 2 else v
      | .prtCommit | .memHbmSts | .pwrDroop => keepBits w v 32 32
      | .svcSurvSts => keepBits w v 48 16
      | _ => v

/-- The device register words after a warm reset. -/
def warmCsr : NMap W64 → NMap W64
  | [] => []
  | (o, w) :: m =>
    let v := warmWord o w
    if v = deviceReset o then warmCsr m else (o, v) :: warmCsr m

/-- The tiles after a warm reset. -/
def warmTiles : NMap Tile → NMap Tile
  | [] => []
  | (n, t) :: m =>
    let v := t.fresh
    if v = Tile.reset then warmTiles m else (n, v) :: warmTiles m

/-- The stage that start-up resumes at after a warm reset: ROM (R461). DEDUCED (log 74): stage FAILED ends with a cold
reset alone (Table 17.1), and a warm one leaves it. -/
def State.romStage (s : State) : Nat := if s.stage = bsFailed then bsFailed else bsRom

/-- What the power controller keeps through a warm reset: the rails, in regulation (R413), and the plan of margins,
since no Survey runs (R461). -/
def Power.warm (p : Power) : Power := { rails := p.rails, railsWas := p.railsWas, plan := p.plan, volts := p.volts }

/-- The device in warm reset: the clock unit, the Datum unit and the die-to-die links run on, and a limited change in
progress with them. -/
def State.warmState (s : State) : State :=
  { State.reset with
    pending := s.pending, out := s.out, freeCtr := s.freeCtr, otp := s.otp, flashA := s.flashA, flashB := s.flashB
    tapIr := s.tapIr, resetLow := s.resetLow, csr := warmCsr s.csr, tiles := warmTiles s.tiles
    count := s.count, datum := s.datum, modeSent := s.modeSent, seen := s.seen, cycles := s.cycles
    badWindows := s.badWindows, refUnqual := s.refUnqual, d2dFails := s.d2dFails
    admitted := s.admitted.filter (fun x => decide (32 ≤ x) && decide (x < 76))
    readyReq := s.readyReq.filter (fun x => decide (32 ≤ x) && decide (x < 76))
    selfRefresh := s.selfRefresh, power := s.power.warm, h0Failed := s.h0Failed
    hold := 2, cold := false, stage := s.romStage }

/-- A boundary-scan instruction that holds the device in warm reset (R503). -/
def scanIr (ir : Nat) : Bool := [0x00, 0x03, 0x04, 0x08, 0x09].contains ir

/-- The hold of a warm reset ends, and start-up resumes (R461). -/
def State.leaveHold (s : State) : State :=
  if s.hold = 2 ∧ s.resetLow = false ∧ scanIr s.tapIr = false then
    ({ s.warmState with hold := 0 }.setStage s.romStage).startCore
  else s

/-- WARM_RESET: RESET_N has no effect while PWR_OK is low or THERMTRIP_N is asserted (R490). -/
def execWarmReset (s : State) : Res :=
  .next (if s.frozen then s else { s.warmState with resetLow := true })

/-- RESET_N_RELEASE. -/
def execResetNRelease (s : State) : Res :=
  .next (if s.frozen then s else { s with resetLow := false }.leaveHold)

/-! ## The start of a cold start-up (R394, R460) -/

/-- A change that power failed in: the old value stays, the count stays consumed, the entry is completed INTERRUPTED. -/
def State.endInterrupted (s : State) : State :=
  match s.otp.started with
  | none => s
  | some _ =>
    { s with otp := { s.otp with log := completeLog s.otp.log true } }.raiseM (devEvent 8 0x0909 sevWarn none 0 0)

/-- STARTUP_BEGIN: PWR_OK rises in cold reset; the position strap is sampled. -/
def execStartupBegin (pos : Nat) (s : State) : Res :=
  .next (if s.hold = 1 ∨ s.stage = bsCold then
      let s := ({ s.coldState with hold := 0 }.setFld Csr.lnkSts_phys pos).endInterrupted
      if scanIr s.tapIr then s.warmState else s
    else s)

/-! ## Firmware (R462, R463) -/

/-- `n` bytes of an image from offset `off`, and the little-endian number in them. -/
def imageBytes (f : FwImage) (off n : Nat) : List Byte := (f.bytes.drop off).take n
def imageNat (f : FwImage) (off n : Nat) : Nat := ofBytes (imageBytes f off n)

/-- Fields of the header (Table 17.2): version, key index and length of the body. -/
abbrev imageVersion (f : FwImage) : Nat := imageNat f 4 4
abbrev imageKey (f : FwImage) : Nat := imageNat f 8 1
abbrev imageLength (f : FwImage) : Nat := imageNat f 0xC 4

/-- The header of Table 17.2 stands, with every reserved byte zero (R462 step 1). -/
def headerStands (f : FwImage) : Bool :=
  imageBytes f 0 4 == [0x45, 0x4C, 0x32, 0x30] && imageBytes f 9 3 == List.replicate 3 0 &&
    imageBytes f 0xA0 0x160 == List.replicate 0x160 0

/-- A slot verifies under the five conditions of R462. -/
def State.verifies (s : State) (f : FwImage) : Bool :=
  headerStands f && decide (imageKey f < 32) && !s.otp.revoked.contains (imageKey f) &&
    decide (imageLength f ≤ 2 * 2 ^ 20 - 512) &&
    Config.ecdsaP384 (imageKey f) (sha384 (imageBytes f 0 0x40)) (imageBytes f 0x40 96) &&
    sha384 (imageBytes f 0x200 (imageLength f)) == imageBytes f 0x10 48

/-- The firmware of slot `b` loaded, and started `fwUs` µs from PWR_OK or the release of RESET_N. -/
def State.loadFw (s : State) (b fallback : Bool) (f : FwImage) (fwUs : Nat) : State :=
  let s := ((s.setFld Csr.cfgBoot_slot (b2n b)).setFld Csr.cfgBoot_version (imageVersion f)).setFld Csr.cfgBoot_fallback
    (b2n fallback)
  let s := { s.setFld Csr.cfgBootT_fw_us fwUs with fwKey := imageKey f }
  (if fallback then s.raiseM (devEvent 7 0x0B02 sevWarn none 0 0) else s).setStage bsBist

/-- The boot ROM's choice between the slots. -/
def State.selectSlot (s : State) (a b : FwImage) (fwUs : Nat) : State :=
  let okA := s.verifies a
  let okB := s.verifies b
  let s := (s.setFld Csr.cfgBoot_a_ok (b2n okA)).setFld Csr.cfgBoot_b_ok (b2n okB)
  if okA && (!okB || decide (imageVersion b ≤ imageVersion a)) then
    s.loadFw false (!okB && decide (imageVersion a < imageVersion b)) a fwUs
  else if okB then s.loadFw true (!okA && decide (imageVersion b < imageVersion a)) b fwUs
  else (s.setStage bsFailed).raiseM (devEvent 7 0x0B01 sevDevice none 0 0)

/-- BOOT_SLOT_SELECT: what the flash holds, or has been written with since. -/
def execBootSlotSelect (a b : FwImage) (s : State) (fwUs : Nat := 0) : Res :=
  .next (if s.stage = bsRom ∧ s.hold = 0 then s.selectSlot (s.flashA.getD a) (s.flashB.getD b) fwUs else s)

/-! ## Self-test (R464) -/

/-- BIST_COMPLETE: the dies whose self-test failed, C0 to C15 then H0 to H3, and the physical tiles that failed. -/
def State.endBist (s : State) (dieFail : Nat) (tiles : List (Nat × Nat × Nat)) : State :=
  let s := s.zeroMem 0x010000000000 0x400000000
  let s : State := { (s.setFld Csr.cfgBist_die_fail dieFail).setFld Csr.cfgBist_tiles tiles.length with bistTiles := tiles }
  let s := if dieFail % 2 ^ 20 ≠ 0 ∨ tiles ≠ [] then
      s.raiseM (devEvent 0 0x0B03 sevWarn none (w64 (dieFail % 2 ^ 20)) (w64 tiles.length))
    else s
  if field dieFail 16 1 = 1 then { s with h0Failed := true }
  else
    let s := s.setStage bsMemory
    (if s.cold then s.startSurvey else s).memoryDone

/-- BIST_COMPLETE. -/
def execBistComplete (dieFail : Nat) (tiles : List (Nat × Nat × Nat)) (s : State) : Res :=
  .next (if s.stage = bsBist ∧ s.hold = 0 then s.endBist dieFail tiles else s)

/-! ## The end of start-up (R465) -/

/-- A failed physical tile that its row does not bypass: its partition is withdrawn (step 2). -/
def State.dropTile (s : State) (x : Nat × Nat × Nat) : State :=
  if s.fld (Csr.cfgTileMap_bypass x.1 x.2.1) = x.2.2 then s else s.writeWithdraw (rowPart x.1 x.2.1)

/-- The dies that failed their self-test: the partitions withdrawn and the stacks failed (step 3). -/
def State.dropDie (s : State) (d : Nat) : State :=
  if field (s.fld Csr.cfgBist_die_fail) d 1 = 0 then s
  else if d < 16 then (s.writeWithdraw (2 * d)).writeWithdraw (2 * d + 1)
  else
    let h := d - 16
    let s := (List.range 8).foldl (fun s i => s.writeWithdraw (8 * h + i)) s
    let s := (s.setFld (Csr.memHbmSts_failed (2 * h)) 1).setFld (Csr.memHbmSts_failed (2 * h + 1)) 1
    (s.setFld (Csr.memHbmSts_trained (2 * h)) 0).setFld (Csr.memHbmSts_trained (2 * h + 1)) 0

/-- A partition that is not withdrawn brought to READY, its tiles IDLE and in the mode that is current (step 6). -/
def State.bringUp (s : State) (p : Nat) : State :=
  if s.fld (Csr.prtPart_state p) = ptWithdrawn then s
  else
    let m := s.word Csr.dtmModeCur
    (s.setFld (Csr.prtPart_state p) ptReady).updPart p (fun t => { t.setState tsIdle with mode := m })

/-- The firmware's last work of stage FINISH, and READY; the re-applied fault record, re-maps, LNK_CTL and the M-level
ring are writes of its own before this. -/
def State.finishBoot (s : State) (t : StartTimes) : State :=
  let s := s.bistTiles.foldl State.dropTile s
  let s := (List.range 20).foldl State.dropDie s
  let s := s.setFld Csr.pwrCtl_en 1
  let s := (List.range 32).foldl State.bringUp s
  let s := s.setFld Csr.cfgBootT_ready_us t.readyUs
  let s := s.raiseM (devEvent 0 0x0B04 sevInfo none 0 0)
  ((s.setStage bsReady).setFld Csr.lnkDisc_window 1).startDiscovery

/-- DEVICE_READY. -/
def execDeviceReady (rec : StartTimes) (s : State) : Res :=
  .next (if s.stage = bsFinish ∧ s.hold = 0 ∧ s.flag Csr.svcSurvCtl_busy = false then s.finishBoot rec else s)

/-! ## The PCIe port (R413, R466) -/

/-- PERST_ASSERT: link, configuration space and function state of the PF and VFs; host reads that wait end. -/
def State.perst (s : State) : State := { s.dropHost with pcieCfg := false, vfEnable := false }

/-- PERST_ASSERT. -/
def execPerstAssert (s : State) : Res := .next s.perst

/-- Widths and rates of the port, in units of 0.5 GT/s (spec/13_partitions_and_protection.md R387). -/
def pcieWidths : List Nat := [1, 4, 8, 16]
def pcieRates : List Nat := [5, 10, 16, 32, 64, 128]

/-- A free choice among the values of a list. -/
def freeOf (xs : List Nat) (k : Nat) : Nat := xs.getD ((Config.freeWord k).toNat % xs.length) 0

/-- PCIE_TRAINING_START: H0's HCLK runs from a READY PLL; the link trains to a width and a rate of R387, which the
other end has a part in and no rule gives: free values (log 71). Traffic follows the handshake of the crossing (R415).
-/
def execPcieTrainingStart (s : State) : Res :=
  let cur := s.fld (Csr.clkSrc_cur 16)
  .next (if cur < 2 ∧ s.srcReady 16 cur = true ∧ s.frozen = false ∧ s.hold = 0 ∧ s.pcieUp = false then
      { s with
        pcieUp := true, freeCtr := s.freeCtr + 2
        pcieLanes := freeOf pcieWidths s.freeCtr, pcieRate := freeOf pcieRates (s.freeCtr + 1) }
    else s)

/-- CONFIGURATION_REQUEST: the configuration space is ready at an open instant within 100 ms of training; a request
that sets VF Enable is accepted with the normal completion. -/
def execConfigurationRequest (vfEnable : Option Bool) (s : State) : Res :=
  .next (if s.pcieUp then
      let s : State := if s.pcieCfg then s
        else { s with pcieCfg := Config.freeBool s.freeCtr, freeCtr := s.freeCtr + 1 }
      if s.pcieCfg then { s with vfEnable := vfEnable.getD s.vfEnable }.emit .ack else s.emit .retry
    else s)

/-! ## ALERT_N (R504) -/

/-- ALERT_N is driven low while a condition of Table 18.9 holds; while PWR_OK is low or THERMTRIP_N is asserted it is
released (R491; spec/15_power_droop_thermal.md R433). -/
def State.alert (s : State) : Bool :=
  !s.frozen && (s.flag Csr.clkFail_lost || s.refUnqual || !s.power.forced.isEmpty || s.stage == bsFailed || s.h0Failed)

end Sys2Proof.Machine
end

