-- ==== Sys2Proof/Machine/Router.lean ====
section
/-! DEFINITION. Reads and writes of the device CSR space and of the per-tile CSR spaces, each register by its own rule
(spec/00_scope.md R7 to R9; spec/05_tiles_dies_device.md R146, R159, R160; spec/06_memory_and_ordering.md R171;
spec/07_nolpa_programming.md R240; spec/02_products_and_sums.md R82). -/
namespace Sys2Proof.Machine

/-! ## Halves of a word -/

/-- The half of a word that an access of 4 or 8 bytes takes. -/
def halfOf (a size : Nat) : Half := if size = 8 then .full else if a % 8 = 0 then .lower else .upper

/-- Bits of a word that a half holds: lowest and width. -/
def halfSpan : Half → Nat × Nat
  | .full => (0, 64)
  | .lower => (0, 32)
  | .upper => (32, 32)

/-- Whether software may write something in a half of a register. -/
def RegRow.writable (r : RegRow) (h : Half) : Bool :=
  let (lo, w) := halfSpan h
  r.fields.any (fun f => !(f.ty == .ro || f.ty == .otp) && decide (f.lo < lo + w) && decide (lo < f.lo + f.w))

/-- The bits of a register that read back what was written. -/
def RegRow.held (r : RegRow) : W64 :=
  r.fields.foldl (fun m f =>
    if f.ty == .rw || f.ty == .rws || f.ty == .lck then m ||| w64 ((2 ^ f.w - 1) * 2 ^ f.lo) else m) 0

/-- The word that a write of a half amounts to: what reads back keeps its value in the other half, the rest gets zero.
-/
def mergeHalf (held old v : W64) : Half → W64
  | .full => v
  | .lower => (v &&& 0xFFFFFFFF) ||| (old &&& held &&& 0xFFFFFFFF00000000)
  | .upper => (v <<< 32) ||| (old &&& held &&& 0xFFFFFFFF)

/-! ## Device registers -/

/-- The halted tiles of a partition (DBG_PHALTED). -/
def State.haltedMask (s : State) (p : Nat) : W64 :=
  w64 ((List.range 64).foldl (fun m i => m + b2n (s.tile (tileOf p i)).halted * 2 ^ i) 0)

/-- The word at an aligned device CSR offset as it reads; unassigned offsets read zero (R9). -/
def State.csrView (s : State) (off : Nat) : W64 :=
  let w := s.word off
  match findReg deviceRegs off with
  | none => 0
  | some (r, ix) =>
    match r.reg with
    | .dtmCount => s.count
    | .prtBindSts => w64 (putField w.toNat 2 61 (s.otp.bound.getD 0).toNat)
    | .prtOtpCnt => s.otpCount
    | .prtLogData => s.logWord (ix.headD 0)
    | .svcReserve => w64 (s.marginCeiling.toNat + s.otp.release * 2 ^ 8)
    | .dbgPhalted => s.haltedMask (ix.headD 0)
    | _ => w

/-- What a read of a register does to it: counts that a read clears. -/
def State.csrTouch (s : State) (off : Nat) (h : Half) : State :=
  match findReg deviceRegs off with
  | none => s
  | some (r, ix) =>
    match r.reg with
    | .prtDeny => s.readDeny h
    | .memPevqLost => s.readPevqLost (ix.headD 0) h
    | .memMevqLost => s.readMevqLost h
    | _ => s

/-- A command of MEM_RING_CMD. -/
def State.ringCmd (s : State) (p : Nat) (v : W64) : State :=
  let i := bits v 0 10
  match bits v 10 2 with
  | 1 => s.ringLoad p i
  | 2 => s.ringStop p i
  | 3 => s.ringResume p i
  | _ => s

/-- A write of LNK_PORT_CMD. -/
def State.portCmd (s : State) (n : Nat) (v : W64) : State :=
  let s := if bit v 0 then s.trainPort n else s
  if bit v 1 then s.downPort n else s

/-- A write of CLK_SRC: refused by its type, and the switch request of sel. -/
def State.writeSrcSel (s : State) (n : Nat) (v : W64) : State :=
  let s := if bit v 3 then s.setFld (Csr.clkSrc_refused n) 0 else s
  s.requestSwitch n (bits v 0 2)

/-- A write of the whole word of a device register. -/
def State.regWrite (s : State) (r : Reg) (ix : List Nat) (off : Nat) (v : W64) : State :=
  let n := ix.headD 0
  match r with
  | .cfgTileMap => s.writeTileMap n (ix.getD 1 0) v
  | .clkFwd => (s.genWrite off v).showFwd
  | .clkPllA => s.writePll n false v
  | .clkPllB => s.writePll n true v
  | .clkSrc => s.writeSrcSel n v
  | .pwrCap => s.writeCap v
  | .pwrWin => s.writeWin v
  | .pwrPrio => s.writePrio v
  | .pwrDroop => s.writeDroop n v
  | .pwrTherm => s.writeTherm v
  | .pwrThrClr => s.clearReasons n v
  | .dtmCtl => s.writeDtmCtl v
  | .dtmLoad => s.loadCount v
  | .dtmRelay => s.writeDtmRelay v
  | .dtmModePend | .dtmModeT => s.writeModeWord off v
  | .dtmModeArm => s.writeModeArm v
  | .dtmPtClr => s.clearPhases v
  | .rngRegCmd => s.writeRngCmd n v
  | .lnkSubst => s.writeSubst v
  | .lnkDisc => s.writeDisc v
  | .lnkPortCmd => s.portCmd n v
  | .colGrpCfg => s.groupWrite n 0 v
  | .colGrpPart => s.groupWrite n 1 v
  | .colGrpMem => s.groupWrite n 2 v
  | .colSeqCtl => s.writeSeqCtl n v
  | .memRingCmd => s.ringCmd n v
  | .memTt => s.ttClear n v
  | .memMevqCfg => s.mevqCfg v
  | .memMevqCons => s.consumeM (bits v 0 32)
  | .memRingIdx => s.writeIndex n (bits v 0 32)
  | .prtCommit => s.writeCommit v
  | .prtSysid => s.writeSysid v
  | .prtPart => s.writePart n v
  | .prtGran | .prtJob | .prtJobPeers => s.writeShadow off v
  | .prtLcsCmd => s.writeLcs 0 v
  | .svcReplSet => s.writeReplSet v
  | .svcRepair => s.writeRepair v
  | .svcSurvCtl => s.writeSurvCtl v
  | .dbgPhalt => s.forMask n v State.haltTile
  | .dbgPresume => s.forMask n v State.resumed
  | _ => s.genWrite off v

/-- A write of 4 or 8 bytes to the device CSR space; unassigned offsets and halves that hold nothing writable discard
it. -/
def State.csrStore (s : State) (off size : Nat) (v : W64) : State :=
  let o := alignDown off 8
  let h := halfOf off size
  match findReg deviceRegs o with
  | none => s
  | some (r, ix) => if r.writable h then s.regWrite r.reg ix o (mergeHalf r.held (s.word o) v h) else s

/-! ## Per-tile registers -/

/-- The physical position of a logical tile in its row (R146). -/
def State.physical (s : State) (n : Nat) : Nat :=
  let x := n % 16
  if x < s.fld (Csr.cfgTileMap_bypass (n / 128) (n % 128 / 16)) then x else x + 1

/-- CFG_FU_SLOT of a slot (Table 5.9, spec/04_vector_and_functions.md R131). -/
def Tile.slotWord (t : Tile) (k : Nat) : W64 :=
  match NMap.find? t.fu k with
  | none => 0
  | some i => w64 (1 + b2n i.logmag * 2 + i.sym % 4 * 2 ^ 2 + i.loMode % 4 * 2 ^ 4 + i.hiMode % 4 * 2 ^ 6 +
      (i.segs.length - 1) % 1024 * 2 ^ 8 + i.id % 2 ^ 32 * 2 ^ 32)

/-- DBG_GRAT_CTL, DBG_GRAT_CNT and DBG_GRAT_KEY of a slot (R82). A chain that ACC_OVERFLOW faulted shows faulted until
an OVERWRITE opens the next one, gone or not. DESIGN CHOICE, unsafe (log 64): R82 does not say whether such a chain
counts as open, and it shows open 1 while the slot holds it; nor what the fields of a slot without a chain read, and
they read 0. -/
def Tile.chainWord (t : Tile) (slot k : Nat) : W64 :=
  match NMap.find? t.chains slot with
  | none => if k = 0 ∧ t.ovfSlots.contains slot = true then 2 else 0
  | some c =>
    match k with
    | 0 => w64 (1 + b2n c.faulted * 2 + b2n c.stoch * 4 + c.preset % 4 * 2 ^ 3 + c.replays % 4 * 2 ^ 5 +
        c.rowBase % 512 * 2 ^ 7 + c.rows % 1024 * 2 ^ 16 + (c.spillS - 1) % 2 ^ 16 * 2 ^ 26 +
        c.spillBase / 256 % 2 ^ 14 * 2 ^ 42)
    | 1 => w64 (c.blocks % 2 ^ 24 + min (2 ^ 32 - 1) c.drops * 2 ^ 32)
    | _ => w64 (c.tid % 2 ^ 32 + c.sid % 2 ^ 32 * 2 ^ 32)

/-- Two running sums of DBG_GRAT_ACC at an offset from its start. -/
def Tile.accWord (t : Tile) (o : Nat) : W64 :=
  w64 (t.run (o / 128) (o % 128 / 4) + t.run (o / 128) (o % 128 / 4 + 1) * 2 ^ 32)

/-- The word at an aligned offset of a tile's CSR space as it reads. -/
def State.tcsrView (s : State) (n off : Nat) : W64 :=
  let t := s.tile n
  let debug := fun (w : W64) => if t.state = tsDebug then w else 0
  let halted := fun (w : W64) => if t.halted then w else 0
  if 0x100 ≤ off ∧ off < 0x200 then debug (t.s ((off - 0x100) / 8))
  else if 0x200 ≤ off ∧ off < 0x1200 then debug (t.dw ((off - 0x200) / 64) ((off - 0x200) % 64 / 8))
  else if 0x1200 ≤ off ∧ off < 0x1300 then debug (t.k ((off - 0x1200) / 8))
  else if off = 0x1300 then debug (w64 t.pc)
  else if 0x10000 ≤ off then halted (t.accWord (off - 0x10000))
  else
    match findReg tileRegs off with
    | none => 0
    | some (r, ix) =>
      match r.reg with
      | .cfgTileId => w64 (n / 128 + n % 128 * 2 ^ 4 + s.physical n * 2 ^ 11 + partOf n * 2 ^ 16)
      | .tcCycle => w64 (NMap.get (fun _ => 0) s.cycles (n / 128))
      | .cfgFuSlot => t.slotWord (ix.headD 0)
      | .dbgGratCtl => halted (t.chainWord (ix.headD 0) 0)
      | .dbgGratCnt => halted (t.chainWord (ix.headD 0) 1)
      | .dbgGratKey => halted (t.chainWord (ix.headD 0) 2)
      | .dbgGratBin => halted (BitVec.ofInt 64 (NMap.get (fun _ => 0) t.bins (64 * ix.headD 0 + ix.getD 1 0)))
      | _ => t.word off

/-- A running sum written in debug halt. -/
def Tile.setRunAt (t : Tile) (o v : Nat) : Tile := t.setRun (o / 128) (o % 128 / 4) (v % 2 ^ 32)

/-- A write of DBG_GRAT_ACC: one running sum, or two. -/
def Tile.writeAcc (t : Tile) (o : Nat) (v : W64) : Half → Tile
  | .full => (t.setRunAt o (bits v 0 32)).setRunAt (o + 4) (bits v 32 32)
  | .lower => t.setRunAt o (bits v 0 32)
  | .upper => t.setRunAt (o + 4) (bits v 0 32)

/-- A write of a debug window in DEBUG (R240). -/
def Tile.writeWindow (t : Tile) (off : Nat) (v : W64) (h : Half) : Tile :=
  let all := BitVec.allOnes 64
  if off < 0x200 then
    let r := (off - 0x100) / 8
    t.setS r (mergeHalf all (t.s r) v h)
  else if off < 0x1200 then
    let d := (off - 0x200) / 64
    let k := (off - 0x200) % 64 / 8
    if t.pendingRegs.contains d then t else t.setDw d k (mergeHalf all (t.dw d k) v h)
  else if off = 0x1300 then
    { t with pc := alignDown (bits (mergeHalf all (w64 t.pc) v h) 0 48) 8, bpPassed := false }
  else t

/-- A write of TC_DBG_CTL (R238, R241). -/
def State.writeDbgCtl (s : State) (n : Nat) (v : W64) : State :=
  let s := s.updTile n (fun t => t.genWrite Csr.tcDbgCtl v)
  let s := if bit v 0 then s.haltTile n else s
  let s := if bit v 1 then s.resumed n else s
  if bit v 2 then s.stepTile n else s

/-- A write of the whole word of a tile's register. -/
def State.tregWrite (s : State) (n : Nat) (r : Reg) (ix : List Nat) (off : Nat) (v : W64) : State :=
  match r with
  | .tcDbgCtl => s.writeDbgCtl n v
  | .tcEpc => s.updTile n (fun t => t.genWrite off (v &&& ~~~7))
  | .cfgCtrClr => s.updTile n (fun t => t.writeCtrClr (ix.headD 0) v)
  | .cfgFmtcClr => s.updTile n (fun t => t.writeFmtcClr v)
  | _ => s.updTile n (fun t => t.genWrite off v)

/-- A write of 4 or 8 bytes to a tile's CSR space. -/
def State.tcsrStore (s : State) (n off size : Nat) (v : W64) : State :=
  let o := alignDown off 8
  let h := halfOf off size
  if 0x100 ≤ o ∧ o ≤ 0x1300 then
    s.updTile n (fun t => if t.state = tsDebug then t.writeWindow o v h else t)
  else if 0x10000 ≤ o then
    s.updTile n (fun t => if t.halted then t.writeAcc (o - 0x10000) v h else t)
  else
    match findReg tileRegs o with
    | none => s
    | some (r, ix) =>
      if r.writable h then s.tregWrite n r.reg ix o (mergeHalf r.held ((s.tile n).word o) v h) else s

/-! ## Accesses by device address -/

/-- A CSR access that R171 accepts: 4 or 8 bytes, aligned. -/
def csrAligned (a size : Nat) : Bool := (size == 4 || size == 8) && a % size == 0

/-- The part of a word that an access of 4 or 8 bytes reads. -/
def takeHalf (w : W64) : Half → W64
  | .full => w
  | .lower => w64 (bits w 0 32)
  | .upper => w64 (bits w 32 32)

/-- A CSR read at a device address, the value and the state after it. -/
def State.ioRead (s : State) (a size : Nat) : W64 × State :=
  match region a with
  | .csr off =>
    let o := alignDown off 8
    (takeHalf (s.csrView o) (halfOf off size), s.csrTouch o (halfOf off size))
  | .tcsr n off => (takeHalf (s.tcsrView n (alignDown off 8)) (halfOf off size), s)
  | _ => (0, s)

/-- A CSR write at a device address. -/
def State.ioWrite (s : State) (a size : Nat) (v : W64) : State :=
  match region a with
  | .csr off => s.csrStore off size v
  | .tcsr n off => s.tcsrStore n off size v
  | _ => s

/-- A device address in the device or a per-tile CSR space. -/
def isCsr (a : Nat) : Bool :=
  match region a with
  | .csr _ | .tcsr .. => true
  | _ => false

/-- A device address in the PRT block. -/
def inPrt (a : Nat) : Bool := decide (csrBase + 0x800000 ≤ a) && decide (a < csrBase + 0x900000)

/-! ## The host's accesses (R378, R383, R387, R388; spec/17_startup_and_discovery.md R466) -/

/-- The device runs: out of reset, with its clocks. -/
def State.running (s : State) : Bool := s.hold == 0 && !s.frozen

/-- The function that makes an access answers BARs at all: the link is up and its crossing admits traffic (R415); a
VF's partition is not withdrawn (R375). DESIGN CHOICE, safe (log 70): a request waits at the port until the crossing
admits it, and a command that brings one earlier has no effect. -/
def State.answers (s : State) (w : Who) : Bool :=
  s.running && s.pcieUp && s.admits 100 && (match w with
    | .m => false
    | .pf => true
    | .vf p => decide (p < 32) && s.fld (Csr.prtPart_state p) != ptWithdrawn)

/-- Until DEVICE_READY only BAR0 of the PF answers, and only what R378 gives it without pf_m; a VF needs VF Enable. -/
def State.barOpen (s : State) (w : Who) (k : Access) (a : Nat) : Bool :=
  match w with
  | .m => true
  | .pf => s.stage == bsReady || (match region a with
      | .csr off => { s with csr := NMap.erase s.csr Csr.prtCtl }.csrOk .pf k (alignDown off 8)
      | _ => false)
  | .vf _ => s.stage == bsReady && s.vfEnable

/-- The device address of an access through a BAR, where it lies in the BAR. -/
def barAddr (bar off size : Nat) : Option Nat :=
  match bar with
  | 0 => if off + size ≤ 0x1000000 then some (csrBase + off) else none
  | 2 => if off + size ≤ 0x8000000000 then some off else none
  | 4 => if off + size ≤ 0x10000000 then some (0x021000000000 + off) else none
  | _ => none

/-- Whether the home takes the access: package memory, or a CSR access of 4 or 8 bytes. -/
def homeTakes (a size : Nat) : Bool :=
  match region a with
  | .pkg _ => memRange a size
  | .csr _ | .tcsr .. => csrAligned a size
  | _ => false

/-- An offset of the CSR window of the BAR past the last block, which holds no register (R9). -/
def pastCsr (a : Nat) : Bool := decide (csrBase + 0xB00000 ≤ a) && decide (a < csrBase + 0x1000000)

/-- HOST_BAR_READ: `e` is what error detection reports on package memory. -/
def State.hostRead (s : State) (w : Who) (a size : Nat) (e : Ecc) : State :=
  let o := Who.origin w
  if !s.barOpen w .read a then s.emit .unsupported
  else if pastCsr a && s.isM o then s.emit (.data (toBytes size 0))
  else if !homeTakes a size then s.emit .unsupported
  else if !isCsr a then s.hostMem w a size none e
  else if !s.grantedRange o .read a size then (s.deny o a).emit .unsupported
  else if !s.homeReach none 0 a then s.emit .unsupported
  else
    let (v, s) := s.ioRead a size
    s.emit (.data (toBytes size v.toNat))

/-- HOST_BAR_READ. -/
def execHostBarRead (who : Who) (bar offset size : Nat) (s : State) (ecc : Ecc := .ok) : Res :=
  .next (if s.answers who then
      match barAddr bar offset size with
      | some a => s.hostRead who a size ecc
      | none => s.emit .unsupported
    else s)

/-- HOST_BAR_WRITE: a posted write; what is not admitted is discarded. -/
def State.hostPut (s : State) (w : Who) (a size : Nat) (v : W64) (e : Ecc) : State :=
  let o := Who.origin w
  if !s.barOpen w .write a || !homeTakes a size then s
  else if !isCsr a then s.hostMem w a size (some v) e
  else if !s.grantedRange o .write a size then s.deny o a
  else if !s.homeReach none 0 a then s
  else s.ioWrite a size v

/-- HOST_BAR_WRITE. -/
def execHostBarWrite (who : Who) (bar offset size : Nat) (value : W64) (s : State) (ecc : Ecc := .ok) : Res :=
  .next (if s.answers who then
      match barAddr bar offset size with
      | some a => s.hostPut who a size value ecc
      | none => s
    else s)

/-! ## REGISTER_WRITE (R7) -/

/-- A write of a CSR: by management firmware, or by a host function through its BAR. -/
def State.registerWrite (s : State) (w : Who) (a size : Nat) (v : W64) : State :=
  if s.running ∧ isCsr a = true ∧ csrAligned a size = true then
    match w with
    | .m => s.ioWrite a size v
    | _ => if s.answers w then s.hostPut w a size v .ok else s
  else s

/-- REGISTER_WRITE. -/
def execRegisterWrite (who : Who) (addr size : Nat) (value : W64) (s : State) : Res :=
  .next (s.registerWrite who addr size value)

/-! ## CSRR and CSRW (spec/07_nolpa_programming.md R203, R220) -/

/-- The offset of a CSRR or CSRW. -/
def csrField (w : W64) : Nat := fl w 3 14 * 8

/-- The offsets that CSRR reads at J (R203). -/
def csrAtJ (off : Nat) : Bool :=
  off == Csr.cfgTileId || off == Csr.tcStatus || off == Csr.tcCycle || off == Csr.tcInstret

/-- CSRR. On the management controller, which is no tile and has no TCLK, CFG_TILE_ID and TC_CYCLE are free values
(log 67). -/
def execCsrr (i : Issue) (s : State) : Res :=
  issue i (fun w => fOp w == 0xD3) (fun n s =>
    let off := csrField i.word
    if n = mcCore ∧ (off = Csr.cfgTileId ∨ off = Csr.tcCycle) then
      (s.takeFree 1).writeS n i.word (Config.freeWord s.freeCtr)
    else if (s.tile n).priv || csrAtJ off then s.writeS n i.word (s.tcsrView n off)
    else s.except n cPriv i.word) s

/-- CSRW: the write, and then the pc. -/
def execCsrw (i : Issue) (s : State) : Res :=
  issue i (fun w => fOp w == 0xD4) (fun n s =>
    let t := s.tile n
    if t.priv then
      (s.updTile n (fun t => t.advance (pcNext t.pc i.word))).tcsrStore n (csrField i.word) 8 (t.s (fB i.word))
    else s.except n cPriv i.word) s

end Sys2Proof.Machine
end

