-- ==== Sys2Proof/Machine/MemAcc.lean ====
section
/-! DEFINITION. The M class: loads, stores and atomics of the tile core (spec/07_nolpa_programming.md R215, R216, R229;
spec/06_memory_and_ordering.md R163, R167, R171, R178 to R180). -/
namespace Sys2Proof.Machine

/-- The address of an M-class access (R215). -/
def Tile.mAddr (t : Tile) (w : W64) : W64 := t.s (fB w) + soff24 w

/-- The size that mod[1:0] names. -/
def mSize (w : W64) : Nat := 2 ^ (fMod w % 4)

/-- The faults that the tile core finds in an access itself, in the order of Table 7.11. -/
def mLocalFault (a : W64) (size : Nat) (atomic : Bool) : Option Nat :=
  let n := a.toNat
  let big := decide (2 ^ 48 ≤ n)
  if n % size ≠ 0 ∨ (big = false ∧ isCsr n = true ∧ size < 4) then some cAddrAlign
  else if atomic then if big || !memRange n size then some cAtomicTarget else none
  else if big || region n == .unmapped || !(memRange n size || isCsr n) then some cAddrUnmapped
  else none

/-- The faults that the home finds (Table 7.11): the Cadastre's denial, the cells of an open chain. -/
def State.mHomeFault (s : State) (n : Nat) (k : Access) (a size : Nat) : Option Nat :=
  if !s.granted (s.tileOrigin n) k a then some cProtDenied
  else if s.cellsBar k a size then some cAccSpill
  else none

/-- The tile core waits for the home's answer. -/
def State.mWait (s : State) (n : Nat) (w : W64) (r : MemWait) : State :=
  s.updTile n (fun t => { t with wait := .mem (pcNext t.pc w) r })

/-- The value of a read of 1 to 8 bytes at its home. -/
def State.readHome (s : State) (a size : Nat) : W64 × State :=
  if isCsr a then s.ioRead a size else (w64 (s.load a size), s)

/-- A write of 1 to 8 bytes at its home. -/
def State.writeHome (s : State) (a size : Nat) (v : W64) : State :=
  if isCsr a then s.ioWrite a size v else s.store a size v.toNat

/-- A value of `size` bytes extended to 64 bits. -/
def extend (size : Nat) (sign : Bool) (v : W64) : W64 :=
  if sign then BitVec.ofInt 64 (signed (8 * size) v.toNat) else w64 (v.toNat % 2 ^ (8 * size))

/-- An M-class access as an instruction makes it: its size and kind, whether its home reads the word it serves (R167),
the access at its home, and the answer of one that is not delivered. -/
structure CoreAccess where
  size : Nat
  kind : Access
  reads : Bool
  serve : State → Nat → MemWait × State
  lost : State → MemWait × State

/-- A load's answer that no rule fixes. -/
def State.openLoad (s : State) (rd : Nat) : MemWait × State := (.load rd (Config.freeWord s.freeCtr), s.takeFree 1)

/-- An access that has reached its home: the faults of the home, then what error detection reports, then the access
(R229). One whose route has a link down both ways cannot be delivered: the rules give it no exception, and it
completes with open data and changes nothing. -/
def State.serveAccess (s : State) (n : Nat) (i : Issue) (c : CoreAccess) (a : W64) : MemWait × State :=
  let da := a.toNat
  match s.mHomeFault n c.kind da c.size with
  | some f => (.fault f a, if f = cProtDenied then s.deny (s.tileOrigin n) da else s)
  | none =>
    if !s.homeReach (coreDie n) 0 da then c.lost s
    else
      let (s, ue) := if c.reads ∧ isCsr da = false then s.detect i.ecc (corePart n) (s.tokenDetail n 0) else (s, none)
      if ue.isSome then (.fault cMemUe a, s) else c.serve s da

/-- An access on its way: it waits at a fenced crossing, or reaches its home
(spec/14_clocks_and_crossings.md R414). -/
def State.sendAccess (s : State) (n : Nat) (i : Issue) (c : CoreAccess) (a : W64) : MemWait × State :=
  match s.heldAt (corePart n) (coreDie n) 0 a.toNat with
  | some x =>
    let (r, s) := c.lost s
    (.held, s.holdAt x (.core n i r))
  | none => s.serveAccess n i c a

/-- An M-class access of core `n` (R215, R216): faults found by the core are taken at once, faults of the home when it
answers. -/
def State.access (s : State) (n : Nat) (i : Issue) (c : CoreAccess) : State :=
  let a := (s.tile n).mAddr i.word
  match mLocalFault a c.size (c.kind == .atomic) with
  | some f => s.except n f a
  | none =>
    let (r, s) := s.sendAccess n i c a
    s.mWait n i.word r

/-- Issue of an M-class instruction, given its access as the word and the core's registers say it. -/
def issueM (isRow : W64 → Bool) (acc : W64 → Tile → CoreAccess) (i : Issue) (s : State) : Res :=
  issue i isRow (fun n s => s.access n i (acc i.word (s.tile n))) s

/-! ## Loads and stores (R215) -/

/-- The access of LD. -/
def ldAccess (w : W64) (_ : Tile) : CoreAccess where
  size := mSize w
  kind := .read
  reads := true
  serve s a :=
    let (v, s) := s.readHome a (mSize w)
    (.load (fA w) (extend (mSize w) (bit w 26) v), s)
  lost s := s.openLoad (fA w)

/-- LD. -/
def execLd (i : Issue) (s : State) : Res := issueM (fun w => fOp w == 0x60) ldAccess i s

/-- The access of ST. -/
def stAccess (w : W64) (t : Tile) : CoreAccess where
  size := mSize w
  kind := .write
  reads := mSize w < 8
  serve s a := (.store, s.writeHome a (mSize w) (t.s (fC w)))
  lost s := (.store, s)

/-- ST. -/
def execSt (i : Issue) (s : State) : Res := issueM (fun w => fOp w == 0x61) stAccess i s

/-- The access of DLD: eight 8-byte accesses. -/
def dldAccess (w : W64) (_ : Tile) : CoreAccess where
  size := 64
  kind := .read
  reads := true
  serve s a :=
    let (ws, s) := (List.range 8).foldl (fun (p : List W64 × State) k =>
      let (v, s) := p.2.readHome (a + 8 * k) 8
      (p.1 ++ [v], s)) ([], s)
    (.desc (fA w) ws, s)
  lost s := (.desc (fA w) ((List.range 8).map (fun k => Config.freeWord (s.freeCtr + k))), s.takeFree 8)

/-- DLD. -/
def execDld (i : Issue) (s : State) : Res := issueM (fun w => fOp w == 0x64) dldAccess i s

/-- The access of DST: eight 8-byte accesses. -/
def dstAccess (w : W64) (t : Tile) : CoreAccess where
  size := 64
  kind := .write
  reads := false
  serve s a := (.store, (List.range 8).foldl (fun s k => s.writeHome (a + 8 * k) 8 ((t.d (fA w)).getD k 0)) s)
  lost s := (.store, s)

/-- DST. -/
def execDst (i : Issue) (s : State) : Res := issueM (fun w => fOp w == 0x65) dstAccess i s

/-! ## Atomics (R178 to R180, Table 6.5) -/

/-- The width in bytes of an AMO. -/
def amoSize (op : Nat) : Nat := if op = 1 ∨ op = 4 ∨ op = 6 then 8 else 4

/-- The value that an AMO writes, of the old value and the operand. -/
def amoNew (op : Nat) (old b : W64) : W64 :=
  let lo := fun (x : W64) => x.toNat % 2 ^ 32
  let i := fun (x : W64) => signed 32 x.toNat
  match op with
  | 0 => w64 ((lo old + lo b) % 2 ^ 32)
  | 1 => old + b
  | 2 => w64 (fAdd .fp32 .rne (lo old) (lo b)).1
  | 3 => if i old < i b then w64 (lo b) else w64 (lo old)
  | 4 => if old.slt b then b else old
  | 5 => if i b < i old then w64 (lo b) else w64 (lo old)
  | 6 => if b.slt old then b else old
  | 7 => w64 (fMax .fp32 (lo old) (lo b)).1
  | _ => w64 (fMin .fp32 (lo old) (lo b)).1

/-- The access of an AMO, which sign-extends the old value of an integer operation (Table 7.7). -/
def amoAccess (op : Nat) (sign : Bool) (w : W64) (t : Tile) : CoreAccess where
  size := amoSize op
  kind := .atomic
  reads := true
  serve s a :=
    let old := w64 (s.load a (amoSize op))
    (.load (fA w) (extend (amoSize op) sign old), s.store a (amoSize op) (amoNew op old (t.s (fC w))).toNat)
  lost s := s.openLoad (fA w)

/-- An AMO: `sign` says that the old value is sign-extended. -/
def amo (op : Nat) (sign : Bool) (i : Issue) (s : State) : Res :=
  issueM (fun w => fOp w == 0x62 && fMod w % 16 == op) (amoAccess op sign) i s

/-- AMO add i32. -/
def execAmoAddI32 (i : Issue) (s : State) : Res := amo 0 true i s

/-- AMO add i64. -/
def execAmoAddI64 (i : Issue) (s : State) : Res := amo 1 true i s

/-- AMO FP32 add. -/
def execAmoFadd (i : Issue) (s : State) : Res := amo 2 false i s

/-- AMO maximum i32. -/
def execAmoMaxI32 (i : Issue) (s : State) : Res := amo 3 true i s

/-- AMO maximum i64. -/
def execAmoMaxI64 (i : Issue) (s : State) : Res := amo 4 true i s

/-- AMO minimum i32. -/
def execAmoMinI32 (i : Issue) (s : State) : Res := amo 5 true i s

/-- AMO minimum i64. -/
def execAmoMinI64 (i : Issue) (s : State) : Res := amo 6 true i s

/-- AMO FP32 maximum. -/
def execAmoFmax (i : Issue) (s : State) : Res := amo 7 false i s

/-- AMO FP32 minimum. -/
def execAmoFmin (i : Issue) (s : State) : Res := amo 8 false i s

/-- The access of CAS: the low bits of expected are compared and those of new are stored (R178). -/
def casAccess (w : W64) (t : Tile) : CoreAccess :=
  let size := if fMod w % 16 = 1 then 8 else 4
  { size := size
    kind := .atomic
    reads := true
    serve := fun s a =>
      let old := s.load a size
      (.load (fA w) (extend size true (w64 old)),
        if old = (t.s (fC w)).toNat % 2 ^ (8 * size) then s.store a size (t.s (fD w)).toNat else s)
    lost := fun s => s.openLoad (fA w) }

/-- CAS (R178). -/
def execCas (i : Issue) (s : State) : Res := issueM (fun w => fOp w == 0x63) casAccess i s

/-! ## The home's answer -/

/-- The access of an M-class word. -/
def wordAccess (w : W64) : Tile → CoreAccess :=
  match fOp w with
  | 0x60 => ldAccess w
  | 0x61 => stAccess w
  | 0x62 => amoAccess (fMod w % 16) (fMod w % 16 != 2 && fMod w % 16 < 7) w
  | 0x63 => casAccess w
  | 0x64 => dldAccess w
  | _ => dstAccess w

/-- What the answer of a home writes. -/
def MemWait.apply (r : MemWait) (t : Tile) : Tile :=
  match r with
  | .load rd v => t.setS rd v
  | .desc d ws => t.setD d ws
  | .store | .fault .. | .held | .again _ => t

/-- The answer of a home reaches the core: the result is written and issue resumes, or the fault is taken. -/
def Tile.endAccess (t : Tile) (pc : Nat) (r : MemWait) : Tile :=
  match r with
  | .fault c a => { t with wait := .none }.takeException c false a
  | .held | .again _ => { t with wait := .mem pc r }
  | _ => (r.apply { t with wait := .none }).advance pc

/-- MEM_ACCESS_COMPLETE: the home has answered. An access that waited at a crossing goes on to its home first. -/
def execMemAccessComplete (tile : Nat) (s : State) : Res :=
  .next (match (s.tile tile).wait with
    | .mem _ .held => s
    | .mem pc (.again i) =>
      let t := s.tile tile
      let (r, s) := s.sendAccess tile i (wordAccess i.word t) (t.mAddr i.word)
      s.updTile tile (fun t => t.endAccess pc r)
    | .mem pc r => s.updTile tile (fun t => t.endAccess pc r)
    | _ => s)

end Sys2Proof.Machine
end

