-- ==== Sys2Proof/Machine/Pins.lean ====
section
/-! DEFINITION. The JTAG port, its bridge and the SMBus address (spec/18_package_pins_electrical.md R499, R501 to R503;
spec/07_nolpa_programming.md R242; spec/13_partitions_and_protection.md R386). -/
namespace Sys2Proof.Machine

/-- The instruction codes of Table 18.8. -/
abbrev irExtest : Nat := 0x00
abbrev irSample : Nat := 0x01
abbrev irIdcode : Nat := 0x02
abbrev irClamp : Nat := 0x03
abbrev irHighz : Nat := 0x04
abbrev irExtestPulse : Nat := 0x08
abbrev irExtestTrain : Nat := 0x09
abbrev irBridge : Nat := 0x20
abbrev irBypass : Nat := 0xFF

/-- The identification register. -/
def State.idcode (s : State) : Nat :=
  s.fld Csr.cfgDevId_step_major * 2 ^ 28 + 0x0E20 * 2 ^ 12 + 0x41D * 2 + 1

/-- What Capture-DR loads into the bridge register (R502). -/
def State.bridgeCapture (s : State) : Nat :=
  let b := s.bridge
  b.da % 2 ^ 48 + b2n b.done * 2 ^ 48 + b2n b.err * 2 ^ 49 + b.data.toNat * 2 ^ 50

/-- A TAP instruction loaded (R501, R503): the register shifts out its captured 0b0000_0001; a boundary-scan instruction
holds the device in warm reset, any other ends that hold. -/
def State.loadIr (s : State) (ir : Nat) : State :=
  let s := { s with tapIr := ir }.emit (.data (toBytes 1 1))
  if s.frozen then s
  else if scanIr ir then (if s.hold = 2 then s else s.warmState)
  else s.leaveHold

/-- TAP_EXTEST. -/
def execTapExtest (s : State) : Res := .next (s.loadIr irExtest)

/-- TAP_SAMPLE_PRELOAD: the boundary register alone; the device works on. -/
def execTapSamplePreload (s : State) : Res := .next (s.loadIr irSample)

/-- TAP_IDCODE: the identification register is captured. -/
def execTapIdcode (s : State) : Res :=
  let s := s.loadIr irIdcode
  .next (s.emit (.data (toBytes 4 s.idcode)))

/-- TAP_CLAMP. -/
def execTapClamp (s : State) : Res := .next (s.loadIr irClamp)

/-- TAP_HIGHZ. -/
def execTapHighz (s : State) : Res := .next (s.loadIr irHighz)

/-- TAP_EXTEST_PULSE. -/
def execTapExtestPulse (s : State) : Res := .next (s.loadIr irExtestPulse)

/-- TAP_EXTEST_TRAIN. -/
def execTapExtestTrain (s : State) : Res := .next (s.loadIr irExtestTrain)

/-- TAP_BRIDGE: the bridge register is captured. -/
def execTapBridge (s : State) : Res :=
  let s := s.loadIr irBridge
  .next (s.emit (.data (toBytes 15 s.bridgeCapture)))

/-- TAP_BYPASS: BYPASS and every other code. -/
def execTapBypass (s : State) : Res := .next (s.loadIr irBypass)

/-- TEST_LOGIC_RESET: IDCODE is selected, and a hold of boundary scan ends. -/
def execTestLogicReset (s : State) : Res :=
  let s : State := { s with tapIr := irIdcode }
  .next (if s.frozen then s else s.leaveHold)

/-- An access of the bridge is carried (R242, R386, R502): the device runs with jtag_bridge set, the DA lies in CSR
space, its alignment obeys R171, and it is no write of the PRT block. -/
def State.bridgeOk (s : State) (da size : Nat) (write : Bool) : Bool :=
  s.running && s.flag Csr.dbgCtl_jtag_bridge && isCsr da && csrAligned da size && !(write && inPrt da)

/-- An M-level CSR access by the bridge: done at once; a discarded one errs and reads as zero. -/
def State.bridgeAccess (s : State) (dr : BitVec 120) : State :=
  let x := dr.toNat
  let da := field x 0 48
  let write := field x 48 1 == 1
  let size := if field x 49 1 = 1 then 8 else 4
  if s.bridgeOk da size write then
    if write then { s.ioWrite da size (w64 (field x 50 64)) with bridge := ⟨da, true, false, 0⟩ }
    else
      let (v, s) := s.ioRead da size
      { s with bridge := ⟨da, true, false, v⟩ }
  else { s with bridge := ⟨da, true, true, 0⟩ }

/-- JTAG_BRIDGE_ACCESS: Update-DR while BRIDGE is loaded. -/
def execJtagBridgeAccess (dr : BitVec 120) (s : State) : Res :=
  .next (if s.tapIr = irBridge then s.bridgeAccess dr else s)

/-- SMBUS_ARP: the device answers with its unique identifier and takes the 7-bit address assigned (R499). -/
def execSmbusArp (address : Nat) (s : State) : Res :=
  .next (if s.running then
      { s with smbus := address % 2 ^ 7 }.emit (.message address (toBytes 8 (s.word Csr.prtIdent).toNat))
    else s)

end Sys2Proof.Machine
end

