-- ==== Sys2Proof/Machine/Dispatch.lean ====
section
/-! DEFINITION. The meaning of every command: one arm for each row of spec/opcode_table.json. -/
namespace Sys2Proof.Machine

/-- The effect of a command on everything but the queue. -/
def exec (i : Instr) (s : State) : Host.Outcome State Fault Refusal :=
  match i with
  | .registerWrite who addr size value => Sys2Proof.Machine.execRegisterWrite who addr size value s
  | .coldReset => Sys2Proof.Machine.execColdReset s
  | .startupBegin pos => Sys2Proof.Machine.execStartupBegin pos s
  | .warmReset => Sys2Proof.Machine.execWarmReset s
  | .resetNRelease => Sys2Proof.Machine.execResetNRelease s
  | .perstAssert => Sys2Proof.Machine.execPerstAssert s
  | .pcieTrainingStart => Sys2Proof.Machine.execPcieTrainingStart s
  | .ioscStable => Sys2Proof.Machine.execIoscStable s
  | .clkmonWindow edges => Sys2Proof.Machine.execClkmonWindow edges s
  | .refclkUnqualTimeout => Sys2Proof.Machine.execRefclkUnqualTimeout s
  | .pllWrite dom b value => Sys2Proof.Machine.execPllWrite dom b value s
  | .pllReady dom b => Sys2Proof.Machine.execPllReady dom b s
  | .pllUnlock pll => Sys2Proof.Machine.execPllUnlock pll s
  | .clkSwitchRequest dom source => Sys2Proof.Machine.execClkSwitchRequest dom source s
  | .heldSwitchProceed dom => Sys2Proof.Machine.execHeldSwitchProceed dom s
  | .crossingBackpressureTimeout xing => Sys2Proof.Machine.execCrossingBackpressureTimeout xing s
  | .crossingReadyRequest xing => Sys2Proof.Machine.execCrossingReadyRequest xing s
  | .crossingReadyAck xing => Sys2Proof.Machine.execCrossingReadyAck xing s
  | .mxw x => Sys2Proof.Machine.execMxw x s
  | .mxwLoadStart tile => Sys2Proof.Machine.execMxwLoadStart tile s
  | .mxmOpen x => Sys2Proof.Machine.execMxmOpen x s
  | .mxmAdd x => Sys2Proof.Machine.execMxmAdd x s
  | .outputConversion tile slot => Sys2Proof.Machine.execOutputConversion tile slot s
  | .cfgCtrClr tile slot value => Sys2Proof.Machine.execCfgCtrClr tile slot value s
  | .cfgFmtcClr tile value => Sys2Proof.Machine.execCfgFmtcClr tile value s
  | .cvt x => Sys2Proof.Machine.execCvt x s
  | .fadd x => Sys2Proof.Machine.execFadd x s
  | .fsub x => Sys2Proof.Machine.execFsub x s
  | .fmul x => Sys2Proof.Machine.execFmul x s
  | .fma x => Sys2Proof.Machine.execFma x s
  | .fdiv x => Sys2Proof.Machine.execFdiv x s
  | .fsqrt x => Sys2Proof.Machine.execFsqrt x s
  | .fmin x => Sys2Proof.Machine.execFmin x s
  | .fmax x => Sys2Proof.Machine.execFmax x s
  | .fcmpEq x => Sys2Proof.Machine.execFcmpEq x s
  | .fcmpLt x => Sys2Proof.Machine.execFcmpLt x s
  | .fcmpLe x => Sys2Proof.Machine.execFcmpLe x s
  | .fcmpUn x => Sys2Proof.Machine.execFcmpUn x s
  | .lmul x => Sys2Proof.Machine.execLmul x s
  | .ldiv x => Sys2Proof.Machine.execLdiv x s
  | .lrcp x => Sys2Proof.Machine.execLrcp x s
  | .lsqrt x => Sys2Proof.Machine.execLsqrt x s
  | .lrsqrt x => Sys2Proof.Machine.execLrsqrt x s
  | .lcmpEq x => Sys2Proof.Machine.execLcmpEq x s
  | .lcmpLt x => Sys2Proof.Machine.execLcmpLt x s
  | .lcmpLe x => Sys2Proof.Machine.execLcmpLe x s
  | .lcmpUn x => Sys2Proof.Machine.execLcmpUn x s
  | .iaddW x => Sys2Proof.Machine.execIaddW x s
  | .isubW x => Sys2Proof.Machine.execIsubW x s
  | .imulW x => Sys2Proof.Machine.execImulW x s
  | .andW x => Sys2Proof.Machine.execAndW x s
  | .orW x => Sys2Proof.Machine.execOrW x s
  | .xorW x => Sys2Proof.Machine.execXorW x s
  | .sllW x => Sys2Proof.Machine.execSllW x s
  | .srlW x => Sys2Proof.Machine.execSrlW x s
  | .sraW x => Sys2Proof.Machine.execSraW x s
  | .iminW x => Sys2Proof.Machine.execIminW x s
  | .imaxW x => Sys2Proof.Machine.execImaxW x s
  | .icmpEqW x => Sys2Proof.Machine.execIcmpEqW x s
  | .icmpLtW x => Sys2Proof.Machine.execIcmpLtW x s
  | .icmpLtuW x => Sys2Proof.Machine.execIcmpLtuW x s
  | .iaddD x => Sys2Proof.Machine.execIaddD x s
  | .isubD x => Sys2Proof.Machine.execIsubD x s
  | .andD x => Sys2Proof.Machine.execAndD x s
  | .orD x => Sys2Proof.Machine.execOrD x s
  | .xorD x => Sys2Proof.Machine.execXorD x s
  | .sllD x => Sys2Proof.Machine.execSllD x s
  | .srlD x => Sys2Proof.Machine.execSrlD x s
  | .sraD x => Sys2Proof.Machine.execSraD x s
  | .sel x => Sys2Proof.Machine.execSel x s
  | .perm x => Sys2Proof.Machine.execPerm x s
  | .ladd x => Sys2Proof.Machine.execLadd x s
  | .laddSub x => Sys2Proof.Machine.execLaddSub x s
  | .fntExp x => Sys2Proof.Machine.execFntExp x s
  | .fntExp2 x => Sys2Proof.Machine.execFntExp2 x s
  | .fntLog x => Sys2Proof.Machine.execFntLog x s
  | .fntLog2 x => Sys2Proof.Machine.execFntLog2 x s
  | .fntReciprocal x => Sys2Proof.Machine.execFntReciprocal x s
  | .fntRsqrt x => Sys2Proof.Machine.execFntRsqrt x s
  | .fntTable x => Sys2Proof.Machine.execFntTable x s
  | .fntF x => Sys2Proof.Machine.execFntF x s
  | .redMax x => Sys2Proof.Machine.execRedMax x s
  | .redMin x => Sys2Proof.Machine.execRedMin x s
  | .redSum x => Sys2Proof.Machine.execRedSum x s
  | .redMom x => Sys2Proof.Machine.execRedMom x s
  | .redPsum x => Sys2Proof.Machine.execRedPsum x s
  | .redMomfin x => Sys2Proof.Machine.execRedMomfin x s
  | .redSoftmax x => Sys2Proof.Machine.execRedSoftmax x s
  | .redSoftmaxBwd x => Sys2Proof.Machine.execRedSoftmaxBwd x s
  | .had x => Sys2Proof.Machine.execHad x s
  | .movCopy x => Sys2Proof.Machine.execMovCopy x s
  | .movSrf x => Sys2Proof.Machine.execMovSrf x s
  | .movFuslot x => Sys2Proof.Machine.execMovFuslot x s
  | .coll x => Sys2Proof.Machine.execColl x s
  | .rngRaw x => Sys2Proof.Machine.execRngRaw x s
  | .rngUniform x => Sys2Proof.Machine.execRngUniform x s
  | .rngBern x => Sys2Proof.Machine.execRngBern x s
  | .histRead x => Sys2Proof.Machine.execHistRead x s
  | .histMerge x => Sys2Proof.Machine.execHistMerge x s
  | .histAdapt x => Sys2Proof.Machine.execHistAdapt x s
  | .phase x => Sys2Proof.Machine.execPhase x s
  | .tCompletion tile engine => Sys2Proof.Machine.execTCompletion tile engine s
  | .add x => Sys2Proof.Machine.execAdd x s
  | .sub x => Sys2Proof.Machine.execSub x s
  | .mul x => Sys2Proof.Machine.execMul x s
  | .mulh x => Sys2Proof.Machine.execMulh x s
  | .mulhu x => Sys2Proof.Machine.execMulhu x s
  | .div x => Sys2Proof.Machine.execDiv x s
  | .divu x => Sys2Proof.Machine.execDivu x s
  | .rem x => Sys2Proof.Machine.execRem x s
  | .remu x => Sys2Proof.Machine.execRemu x s
  | .and x => Sys2Proof.Machine.execAnd x s
  | .or x => Sys2Proof.Machine.execOr x s
  | .xor x => Sys2Proof.Machine.execXor x s
  | .sll x => Sys2Proof.Machine.execSll x s
  | .srl x => Sys2Proof.Machine.execSrl x s
  | .sra x => Sys2Proof.Machine.execSra x s
  | .slt x => Sys2Proof.Machine.execSlt x s
  | .sltu x => Sys2Proof.Machine.execSltu x s
  | .min x => Sys2Proof.Machine.execMin x s
  | .max x => Sys2Proof.Machine.execMax x s
  | .minu x => Sys2Proof.Machine.execMinu x s
  | .maxu x => Sys2Proof.Machine.execMaxu x s
  | .clz x => Sys2Proof.Machine.execClz x s
  | .popc x => Sys2Proof.Machine.execPopc x s
  | .addi x => Sys2Proof.Machine.execAddi x s
  | .andi x => Sys2Proof.Machine.execAndi x s
  | .ori x => Sys2Proof.Machine.execOri x s
  | .xori x => Sys2Proof.Machine.execXori x s
  | .slli x => Sys2Proof.Machine.execSlli x s
  | .srli x => Sys2Proof.Machine.execSrli x s
  | .srai x => Sys2Proof.Machine.execSrai x s
  | .slti x => Sys2Proof.Machine.execSlti x s
  | .lih x => Sys2Proof.Machine.execLih x s
  | .dgetw x => Sys2Proof.Machine.execDgetw x s
  | .dsetw x => Sys2Proof.Machine.execDsetw x s
  | .dmov x => Sys2Proof.Machine.execDmov x s
  | .daddb x => Sys2Proof.Machine.execDaddb x s
  | .nop x => Sys2Proof.Machine.execNop x s
  | .lix x => Sys2Proof.Machine.execLix x s
  | .addx x => Sys2Proof.Machine.execAddx x s
  | .jal x => Sys2Proof.Machine.execJal x s
  | .jalr x => Sys2Proof.Machine.execJalr x s
  | .beq x => Sys2Proof.Machine.execBeq x s
  | .bne x => Sys2Proof.Machine.execBne x s
  | .blt x => Sys2Proof.Machine.execBlt x s
  | .bge x => Sys2Proof.Machine.execBge x s
  | .bltu x => Sys2Proof.Machine.execBltu x s
  | .bgeu x => Sys2Proof.Machine.execBgeu x s
  | .jx x => Sys2Proof.Machine.execJx x s
  | .ld x => Sys2Proof.Machine.execLd x s
  | .st x => Sys2Proof.Machine.execSt x s
  | .amoAddI32 x => Sys2Proof.Machine.execAmoAddI32 x s
  | .amoAddI64 x => Sys2Proof.Machine.execAmoAddI64 x s
  | .amoFadd x => Sys2Proof.Machine.execAmoFadd x s
  | .amoMaxI32 x => Sys2Proof.Machine.execAmoMaxI32 x s
  | .amoMaxI64 x => Sys2Proof.Machine.execAmoMaxI64 x s
  | .amoMinI32 x => Sys2Proof.Machine.execAmoMinI32 x s
  | .amoMinI64 x => Sys2Proof.Machine.execAmoMinI64 x s
  | .amoFmax x => Sys2Proof.Machine.execAmoFmax x s
  | .amoFmin x => Sys2Proof.Machine.execAmoFmin x s
  | .cas x => Sys2Proof.Machine.execCas x s
  | .dld x => Sys2Proof.Machine.execDld x s
  | .dst x => Sys2Proof.Machine.execDst x s
  | .memAccessComplete tile => Sys2Proof.Machine.execMemAccessComplete tile s
  | .wtk x => Sys2Proof.Machine.execWtk x s
  | .wtkRelease tile => Sys2Proof.Machine.execWtkRelease tile s
  | .fence x => Sys2Proof.Machine.execFence x s
  | .fenceComplete tile => Sys2Proof.Machine.execFenceComplete tile s
  | .tks x => Sys2Proof.Machine.execTks x s
  | .ecall x => Sys2Proof.Machine.execEcall x s
  | .eret x => Sys2Proof.Machine.execEret x s
  | .brk x => Sys2Proof.Machine.execBrk x s
  | .csrr x => Sys2Proof.Machine.execCsrr x s
  | .csrw x => Sys2Proof.Machine.execCsrw x s
  | .iflush x => Sys2Proof.Machine.execIflush x s
  | .ipf x => Sys2Proof.Machine.execIpf x s
  | .halt x => Sys2Proof.Machine.execHalt x s
  | .haltComplete tile => Sys2Proof.Machine.execHaltComplete tile s
  | .doubleFaultIdle tile => Sys2Proof.Machine.execDoubleFaultIdle tile s
  | .ibufFillComplete tile line ecc => Sys2Proof.Machine.execIbufFillComplete tile line ecc s
  | .breakpointHit tile => Sys2Proof.Machine.execBreakpointHit tile s
  | .tcHaltRequest tile => Sys2Proof.Machine.execTcHaltRequest tile s
  | .tcResume tile => Sys2Proof.Machine.execTcResume tile s
  | .tcStep tile => Sys2Proof.Machine.execTcStep tile s
  | .debugHaltComplete tile => Sys2Proof.Machine.execDebugHaltComplete tile s
  | .dbgPhalt part mask => Sys2Proof.Machine.execDbgPhalt part mask s
  | .dbgPresume part mask => Sys2Proof.Machine.execDbgPresume part mask s
  | .sramScrub tile ecc => Sys2Proof.Machine.execSramScrub tile ecc s
  | .hbmRefresh stack => Sys2Proof.Machine.execHbmRefresh stack s
  | .hbmEcs stack ecc => Sys2Proof.Machine.execHbmEcs stack ecc s
  | .hbmTrained stack ok => Sys2Proof.Machine.execHbmTrained stack ok s
  | .ringLoad part ring => Sys2Proof.Machine.execRingLoad part ring s
  | .ringLoadComplete part ecc => Sys2Proof.Machine.execRingLoadComplete part ecc s
  | .ringStop part ring => Sys2Proof.Machine.execRingStop part ring s
  | .ringResume part ring => Sys2Proof.Machine.execRingResume part ring s
  | .ringDoorbell ring value => Sys2Proof.Machine.execRingDoorbell ring value s
  | .eventRingConsume ring value => Sys2Proof.Machine.execEventRingConsume ring value s
  | .mevqConsume value => Sys2Proof.Machine.execMevqConsume value s
  | .mevqCfgWrite value => Sys2Proof.Machine.execMevqCfgWrite value s
  | .pevqLostRead part half => Sys2Proof.Machine.execPevqLostRead part half s
  | .mevqLostRead half => Sys2Proof.Machine.execMevqLostRead half s
  | .memTtClr part value => Sys2Proof.Machine.execMemTtClr part value s
  | .descFetch part ecc => Sys2Proof.Machine.execDescFetch part ecc s
  | .descNop ring => Sys2Proof.Machine.execDescNop ring s
  | .descCopy ring ecc => Sys2Proof.Machine.execDescCopy ring ecc s
  | .descFill ring ecc => Sys2Proof.Machine.execDescFill ring s ecc
  | .launch ring => Sys2Proof.Machine.execLaunch ring s
  | .descComplete ring => Sys2Proof.Machine.execDescComplete ring s
  | .hostReadCompletion ring data ecc => Sys2Proof.Machine.execHostReadCompletion ring data s ecc
  | .hostBarRead who bar offset size ecc => Sys2Proof.Machine.execHostBarRead who bar offset size s ecc
  | .hostBarWrite who bar offset size value ecc => Sys2Proof.Machine.execHostBarWrite who bar offset size value s ecc
  | .cfgTileMapWrite die row value => Sys2Proof.Machine.execCfgTileMapWrite die row value s
  | .remapSwitch die row => Sys2Proof.Machine.execRemapSwitch die row s
  | .remapDone die row => Sys2Proof.Machine.execRemapDone die row s
  | .d2dRetryFail link => Sys2Proof.Machine.execD2dRetryFail link s
  | .d2dRetrainDone link trained => Sys2Proof.Machine.execD2dRetrainDone link trained s
  | .datumTick => Sys2Proof.Machine.execDatumTick s
  | .datumRefEdge interval offset => Sys2Proof.Machine.execDatumRefEdge interval offset s
  | .tickEdgeSeen unit => Sys2Proof.Machine.execTickEdgeSeen unit s
  | .dtmCtlWrite value => Sys2Proof.Machine.execDtmCtlWrite value s
  | .dtmLoad value => Sys2Proof.Machine.execDtmLoad value s
  | .dtmRelayWrite value => Sys2Proof.Machine.execDtmRelayWrite value s
  | .dtmModePendWrite isT value => Sys2Proof.Machine.execDtmModePendWrite isT value s
  | .modeArm value => Sys2Proof.Machine.execModeArm value s
  | .modeCancel value => Sys2Proof.Machine.execModeCancel value s
  | .modeSend => Sys2Proof.Machine.execModeSend s
  | .modeApply => Sys2Proof.Machine.execModeApply s
  | .dtmPtClr value => Sys2Proof.Machine.execDtmPtClr value s
  | .stezerDataRx port pkt => Sys2Proof.Machine.execStezerDataRx port pkt s
  | .linkctlRx port pkt => Sys2Proof.Machine.execLinkctlRx port pkt s
  | .ackTimer port => Sys2Proof.Machine.execAckTimer port s
  | .replayTimeout port => Sys2Proof.Machine.execReplayTimeout port s
  | .heartbeatRx port pkt rx => Sys2Proof.Machine.execHeartbeatRx port pkt s rx
  | .portSilent port => Sys2Proof.Machine.execPortSilent port s
  | .portTrained port => Sys2Proof.Machine.execPortTrained port s
  | .portTrainTimeout port => Sys2Proof.Machine.execPortTrainTimeout port s
  | .lnkPortTrain port => Sys2Proof.Machine.execLnkPortTrain port s
  | .lnkPortDisable port => Sys2Proof.Machine.execLnkPortDisable port s
  | .gazEntry port pos lo hi => Sys2Proof.Machine.execGazEntry port pos lo hi s
  | .splitFreezeTimeout group => Sys2Proof.Machine.execSplitFreezeTimeout group s
  | .lnkSubstGo value => Sys2Proof.Machine.execLnkSubstGo value s
  | .gazSubst port logical phys t => Sys2Proof.Machine.execGazSubst port logical phys t s
  | .substApply => Sys2Proof.Machine.execSubstApply s
  | .segWrite seg ecc => Sys2Proof.Machine.execSegWrite seg s ecc
  | .segRead seg ecc => Sys2Proof.Machine.execSegRead seg s ecc
  | .segSignal seg ecc => Sys2Proof.Machine.execSegSignal seg s ecc
  | .segColl st => Sys2Proof.Machine.execSegColl st s
  | .segAck seg ecc => Sys2Proof.Machine.execSegAck seg s ecc
  | .segRdata seg ecc => Sys2Proof.Machine.execSegRdata seg s ecc
  | .segmentLostTimeout xid => Sys2Proof.Machine.execSegmentLostTimeout xid s
  | .allreduce group ecc => Sys2Proof.Machine.execAllreduce group s ecc
  | .reduceScatter group ecc => Sys2Proof.Machine.execReduceScatter group s ecc
  | .allgather group ecc => Sys2Proof.Machine.execAllgather group s ecc
  | .broadcast group ecc => Sys2Proof.Machine.execBroadcast group s ecc
  | .alltoall group ecc => Sys2Proof.Machine.execAlltoall group s ecc
  | .barrier group ecc => Sys2Proof.Machine.execBarrier group s ecc
  | .collFoldStart group => Sys2Proof.Machine.execCollFoldStart group s
  | .collDeadline hub group => Sys2Proof.Machine.execCollDeadline hub group s
  | .colGrpWrite group word value => Sys2Proof.Machine.execColGrpWrite group word value s
  | .rngRegister part => Sys2Proof.Machine.execRngRegister part s
  | .rngRelease part => Sys2Proof.Machine.execRngRelease part s
  | .rngLookup part => Sys2Proof.Machine.execRngLookup part s
  | .rngClear part => Sys2Proof.Machine.execRngClear part s
  | .seqStart part => Sys2Proof.Machine.execSeqStart part s
  | .seqStop part => Sys2Proof.Machine.execSeqStop part s
  | .seqAbort part => Sys2Proof.Machine.execSeqAbort part s
  | .seqAbortComplete part => Sys2Proof.Machine.execSeqAbortComplete part s
  | .seqLaunch part => Sys2Proof.Machine.execSeqLaunch part s
  | .seqSignalWaitMet part => Sys2Proof.Machine.execSeqSignalWaitMet part s
  | .seqStragglerDeadline part => Sys2Proof.Machine.execSeqStragglerDeadline part s
  | .seqCollDone part => Sys2Proof.Machine.execSeqCollDone part s
  | .seqGateDone part ecc => Sys2Proof.Machine.execSeqGateDone part ecc s
  | .seqUpdateDone part => Sys2Proof.Machine.execSeqUpdateDone part s
  | .evalWindowStart part => Sys2Proof.Machine.execEvalWindowStart part s
  | .evalOverrun part => Sys2Proof.Machine.execEvalOverrun part s
  | .partReset part => Sys2Proof.Machine.execPartReset part s
  | .flr part => Sys2Proof.Machine.execFlr part s
  | .partResetZero part failed => Sys2Proof.Machine.execPartResetZero part failed s
  | .partResetDone part => Sys2Proof.Machine.execPartResetDone part s
  | .partWithdraw part => Sys2Proof.Machine.execPartWithdraw part s
  | .prtCommit value => Sys2Proof.Machine.execPrtCommit value s
  | .commitDone => Sys2Proof.Machine.execCommitDone s
  | .prtDenyRead half => Sys2Proof.Machine.execPrtDenyRead half s
  | .prtSysidWrite value => Sys2Proof.Machine.execPrtSysidWrite value s
  | .prtLcsCmd value actor => Sys2Proof.Machine.execPrtLcsCmd value s actor
  | .lcsProgramDone => Sys2Proof.Machine.execLcsProgramDone s
  | .getVersion via => Sys2Proof.Machine.execGetVersion s via
  | .getCapabilities via => Sys2Proof.Machine.execGetCapabilities s via
  | .negotiateAlgorithms supported via => Sys2Proof.Machine.execNegotiateAlgorithms supported s via
  | .getDigests via => Sys2Proof.Machine.execGetDigests s via
  | .getCertificate slot offset length via => Sys2Proof.Machine.execGetCertificate slot offset length s via
  | .challenge slot nonce via => Sys2Proof.Machine.execChallenge slot nonce s via
  | .getMeasurements block via => Sys2Proof.Machine.execGetMeasurements block s via
  | .keyExchange slot exchange via => Sys2Proof.Machine.execKeyExchange slot exchange s via
  | .finish session verified via => Sys2Proof.Machine.execFinish session verified s via
  | .spdmHeartbeat session via => Sys2Proof.Machine.execSpdmHeartbeat session s via
  | .endSession session via => Sys2Proof.Machine.execEndSession session s via
  | .getSensorReading sensor => Sys2Proof.Machine.execGetSensorReading sensor s
  | .setNumericSensorEnable sensor enable => Sys2Proof.Machine.execSetNumericSensorEnable sensor enable s
  | .pldmGetPdr record => Sys2Proof.Machine.execPldmGetPdr record s
  | .pldmFwUpdate image => Sys2Proof.Machine.execPldmFwUpdate image s
  | .activateFirmware => Sys2Proof.Machine.execActivateFirmware s
  | .powerSample reading => Sys2Proof.Machine.execPowerSample reading s
  | .opStepSwitch die => Sys2Proof.Machine.execOpStepSwitch die s
  | .powerWindowEdge => Sys2Proof.Machine.execPowerWindowEdge s
  | .pwrCapWrite value => Sys2Proof.Machine.execPwrCapWrite value s
  | .pwrWinWrite value => Sys2Proof.Machine.execPwrWinWrite value s
  | .pwrPrioWrite value => Sys2Proof.Machine.execPwrPrioWrite value s
  | .pwrThrClr part value => Sys2Proof.Machine.execPwrThrClr part value s
  | .ilimSample rail amps => Sys2Proof.Machine.execIlimSample rail amps s
  | .droopDetect die below => Sys2Proof.Machine.execDroopDetect die below s
  | .droopHoldExpire die below => Sys2Proof.Machine.execDroopHoldExpire die below s
  | .thermalCrit die => Sys2Proof.Machine.execThermalCrit die s
  | .thermalTrip die => Sys2Proof.Machine.execThermalTrip die s
  | .avsTimeout rail => Sys2Proof.Machine.execAvsTimeout rail s
  | .surveyRun => Sys2Proof.Machine.execSurveyRun s
  | .surveyPeriodic => Sys2Proof.Machine.execSurveyPeriodic s
  | .surveyComplete needs => Sys2Proof.Machine.execSurveyComplete needs s
  | .svcRepair value => Sys2Proof.Machine.execSvcRepair value s
  | .svcReplSet value => Sys2Proof.Machine.execSvcReplSet value s
  | .bootSlotSelect a b fwUs => Sys2Proof.Machine.execBootSlotSelect a b s fwUs
  | .bistComplete dieFail tiles => Sys2Proof.Machine.execBistComplete dieFail tiles s
  | .deviceReady rec => Sys2Proof.Machine.execDeviceReady rec s
  | .lnkDiscStart => Sys2Proof.Machine.execLnkDiscStart s
  | .discExchangeTimeout => Sys2Proof.Machine.execDiscExchangeTimeout s
  | .joinWindowClose => Sys2Proof.Machine.execJoinWindowClose s
  | .gazQuiet => Sys2Proof.Machine.execGazQuiet s
  | .gazClaim port pos closed => Sys2Proof.Machine.execGazClaim port pos closed s
  | .originElected => Sys2Proof.Machine.execOriginElected s
  | .datumAbsent => Sys2Proof.Machine.execDatumAbsent s
  | .gazAligned port pos => Sys2Proof.Machine.execGazAligned port pos s
  | .discAlign => Sys2Proof.Machine.execDiscAlign s
  | .discReadyFlood => Sys2Proof.Machine.execDiscReadyFlood s
  | .gazReady port tr => Sys2Proof.Machine.execGazReady port tr s
  | .systemReady => Sys2Proof.Machine.execSystemReady s
  | .tapExtest => Sys2Proof.Machine.execTapExtest s
  | .tapSamplePreload => Sys2Proof.Machine.execTapSamplePreload s
  | .tapIdcode => Sys2Proof.Machine.execTapIdcode s
  | .tapClamp => Sys2Proof.Machine.execTapClamp s
  | .tapHighz => Sys2Proof.Machine.execTapHighz s
  | .tapExtestPulse => Sys2Proof.Machine.execTapExtestPulse s
  | .tapExtestTrain => Sys2Proof.Machine.execTapExtestTrain s
  | .tapBridge => Sys2Proof.Machine.execTapBridge s
  | .tapBypass => Sys2Proof.Machine.execTapBypass s
  | .jtagBridgeAccess dr => Sys2Proof.Machine.execJtagBridgeAccess dr s
  | .laneLockLoss port => Sys2Proof.Machine.execLaneLockLoss port s
  | .configurationRequest vfEnable => Sys2Proof.Machine.execConfigurationRequest vfEnable s
  | .smbusArp address => Sys2Proof.Machine.execSmbusArp address s
  | .testLogicReset => Sys2Proof.Machine.execTestLogicReset s

end Sys2Proof.Machine
end

