-- ==== Sys2Proof/Machine/Idle.lean ====
section
/-! DEFINITION. What time alone does: one TCLK cycle of every compute die (spec/07_nolpa_programming.md R243, TC_CYCLE;
spec/09_datum_time.md R289; spec/15_power_droop_thermal.md R437). The table has no row for it, so it is the block's step
on an empty queue (assumption log 1). -/
namespace Sys2Proof.Machine

/-- A cycle of die `d`: its cycle count, and the cycle counters of its partitions. -/
def State.dieCycle (s : State) (d : Nat) : State :=
  let s := { s with cycles := NMap.set (fun _ => 0) s.cycles d (NMap.get (fun _ => 0) s.cycles d + 1) }
  [2 * d, 2 * d + 1].foldl (fun s p => (s.phaseCycles p).reasonCycles p) s

/-- A TCLK cycle of every die, unless the clocks stand still. -/
def State.tclkCycle (s : State) : State := if s.frozen then s else (List.range 16).foldl State.dieCycle s

end Sys2Proof.Machine
end

