-- ==== Sys2Proof/Safety.lean ====
section
/-! DEFINITION. What claims are stated in: what a step answers. -/
namespace Sys2Proof.Machine

/-- The command answers a next state from `s`. -/
def Completes (c : Instr) (s : State) : Prop := ∃ t, exec c s = .next t

/-- The command's instruction issues from `s` (spec/07_nolpa_programming.md R204, R211, R212, R223, R233): its core, a
tile's or the management controller's, is at a point where an instruction may issue, the line at the pc (for the X
form the second word's too) is resident and holds the command's word, its fields obey its entry, and nothing stalls
it. -/
def State.Issues (s : State) (i : Issue) : Prop :=
  let n := i.tile
  let t := s.tile n
  n ≤ mcCore ∧ t.canIssue = true ∧ s.fetchWord n t.pc i.word = some i.word ∧ i.parity = false ∧
  (isX i.word = true → s.fetchWord n ((t.pc + 8) % 2 ^ 48) i.imm = some i.imm) ∧ coreOk n i.word = true ∧
  s.stalls n i.word = false

/-- `t` differs from `s` in tile `n` alone. -/
def State.OnlyTile (n : Nat) (s t : State) : Prop :=
  t = { s with tiles := t.tiles } ∧ ∀ m, m ≠ n → t.tile m = s.tile m

/-- `t` differs from `s` in the device registers at `offs` alone. -/
def State.OnlyWords (offs : List Nat) (s t : State) : Prop :=
  t = { s with csr := t.csr } ∧ ∀ o, o ∉ offs → t.word o = s.word o

/-- A step from `s` neither faults nor refuses. -/
def SafeStep (s : State) : Prop := ∃ t, step s = .next t

/-- A command that nothing of the state holds back: some next state is answered from every state. -/
def AlwaysCompletes (c : Instr) : Prop := ∀ s, Completes c s

end Sys2Proof.Machine
end

