-- ==== Sys2Proof/Certificates/Slice0/Obligations.lean ====
section
/-! DEFINITION. The statements about this model, for the provers, with the words they are said in. -/
open Sys2Proof Sys2Proof.Machine

namespace Sys2Proof.Claims

/-! ## Words of the statements -/

/-- The s registers of a tile after `v` is written to `rd`; writes to s0 are discarded
(spec/07_nolpa_programming.md R202). -/
def withS (t : Tile) (rd : Nat) (v : W64) (r : Nat) : W64 := if r = rd ∧ rd ≠ 0 then v else t.s r

/-- The d registers of a tile, by register and word, after `ws` is written to `d`. -/
def withD (t : Tile) (d : Nat) (ws : List W64) (e w : Nat) : W64 := if e = d then ws.getD w 0 else t.dw e w

/-- imm32 or off32, sign-extended (Table 7.3). -/
def imm32 (w : W64) : W64 := (w.setWidth 32).signExtend 64

/-- off24, sign-extended (R215). -/
def off24 (w : W64) : W64 := (w.setWidth 24).signExtend 64

/-- The next sequential pc (R211). -/
def nextPc (t : Tile) (w : W64) : Nat := (t.pc + if fOp w = 0xF0 ∨ fOp w = 0xF1 ∨ fOp w = 0xF2 then 16 else 8) % 2 ^ 48

/-- Tile `a` has become `b` by an instruction that went on to `pc'` (R211, R238, R241, R243): INSTRET counts it, the
breakpoint at the new pc has not been met, a step or a waiting halt request puts the tile into DEBUG, and nothing else
than the s and d registers and the recency of the instruction buffer may have changed. -/
def Retires (a b : Tile) (pc' : Nat) : Prop :=
  b = { a with csr := b.csr, sreg := b.sreg, dreg := b.dreg, ibuf := b.ibuf, dbgFrom := b.dbgFrom, pc := pc',
               bpPassed := false, stepping := false, haltReq := false } ∧
  b.word Csr.tcInstret = a.word Csr.tcInstret + 1 ∧
  (∀ o, o ≠ Csr.tcInstret → o ≠ Csr.tcStatus → o ≠ Csr.tcDbgSts → b.word o = a.word o) ∧
  b.fld Csr.tcStatus_priv = a.fld Csr.tcStatus_priv ∧ b.fld Csr.tcStatus_epriv = a.fld Csr.tcStatus_epriv ∧
  b.fld Csr.tcStatus_dfault = a.fld Csr.tcStatus_dfault ∧
  if a.stepping ∨ a.haltReq then
    b.state = tsDebug ∧ b.dbgFrom = a.state ∧ b.fld Csr.tcDbgSts_reason = (if a.stepping then 3 else 0) ∧
    b.fld Csr.tcDbgSts_halted = 0
  else
    b.word Csr.tcStatus = a.word Csr.tcStatus ∧ b.word Csr.tcDbgSts = a.word Csr.tcDbgSts ∧ b.dbgFrom = a.dbgFrom

/-- Tile `a` has become `b` by taking an exception with a cause, TC_CAUSE's fetch bit and TC_TVAL (R228, R230, R231):
from J with a vector it goes to the handler at P; otherwise it is a double fault that waits for its engines. Either
way a step ends and a halt request that waited is taken: the tile stops in DEBUG (R238, R241). The s, d and k
registers, the queues and the other registers stay. -/
def Traps (a b : Tile) (cause : Nat) (fetch : Bool) (tval : W64) : Prop :=
  b = { a with csr := b.csr, ibuf := b.ibuf, pc := b.pc, wait := b.wait, fetchErr := b.fetchErr, dbgFrom := b.dbgFrom,
               bpPassed := b.bpPassed, stepping := false, haltReq := false } ∧
  (∀ o, o ∉ [Csr.tcEpc, Csr.tcCause, Csr.tcTval, Csr.tcStatus, Csr.tcDbgSts] → b.word o = a.word o) ∧
  b.fld Csr.tcEpc_epc = a.pc % 2 ^ 48 ∧ b.word Csr.tcCause = BitVec.ofNat 64 (cause + if fetch then 2 ^ 16 else 0) ∧
  b.word Csr.tcTval = tval ∧
  (if a.stepping ∨ a.haltReq then
    b.state = tsDebug ∧ b.dbgFrom = a.state ∧ b.fld Csr.tcDbgSts_reason = (if a.stepping then 3 else 0) ∧
    b.fld Csr.tcDbgSts_halted = 0
  else b.state = a.state ∧ b.word Csr.tcDbgSts = a.word Csr.tcDbgSts) ∧
  if a.fld Csr.tcStatus_priv = 0 ∧ a.fld Csr.tcTvec_vec ≠ 0 then
    b.pc = 8 * a.fld Csr.tcTvec_vec ∧ b.fld Csr.tcStatus_priv = 1 ∧ b.fld Csr.tcStatus_epriv = 0 ∧ b.wait = .none ∧
    b.bpPassed = false
  else b.pc = a.pc ∧ b.fld Csr.tcStatus_priv = a.fld Csr.tcStatus_priv ∧ b.wait = .dfault

/-- `t` follows from `s` by an instruction of tile `n` that changes nothing but that tile: it goes on to `pc'`, its
s registers read as `sr` and its d registers as `dr`. -/
def CoreNext (s t : State) (n pc' : Nat) (sr : Nat → W64) (dr : Nat → Nat → W64) : Prop :=
  s.OnlyTile n t ∧ Retires (s.tile n) (t.tile n) pc' ∧ (∀ r, (t.tile n).s r = sr r) ∧
  ∀ d w, w < 8 → (t.tile n).dw d w = dr d w

end Sys2Proof.Claims

open Sys2Proof.Claims

/-! ## The S class -/

namespace Sys2Proof.Claims

/-- A row of Table 7.5 or 7.8 that writes an s register: its command, its opcode, and the value it writes, of the tile
and the issued words. -/
structure ScalarRow where
  con : Issue → Instr
  op : Nat
  val : Tile → Issue → W64

/-- A row rd := f ra rb. -/
def ScalarRow.rr (con : Issue → Instr) (op : Nat) (f : W64 → W64 → W64) : ScalarRow :=
  ⟨con, op, fun t i => f (t.s (fB i.word)) (t.s (fC i.word))⟩

/-- A row rd := f ra. -/
def ScalarRow.r (con : Issue → Instr) (op : Nat) (f : W64 → W64) : ScalarRow :=
  ⟨con, op, fun t i => f (t.s (fB i.word))⟩

/-- A row rd := f ra sext(imm32). -/
def ScalarRow.ri (con : Issue → Instr) (op : Nat) (f : W64 → W64 → W64) : ScalarRow :=
  ⟨con, op, fun t i => f (t.s (fB i.word)) (imm32 i.word)⟩

/-- Table 7.5's results on s registers. -/
def scalarRows : List ScalarRow := [
  .rr .add 0x01 (fun a b => a + b),
  .rr .sub 0x02 (fun a b => a - b),
  .rr .mul 0x03 (fun a b => a * b),
  .rr .mulh 0x04 (fun a b => ((a.signExtend 128 * b.signExtend 128) >>> 64).setWidth 64),
  .rr .mulhu 0x05 (fun a b => ((a.setWidth 128 * b.setWidth 128) >>> 64).setWidth 64),
  .rr .div 0x06 (fun a b => if b = 0 then BitVec.allOnes 64 else a.sdiv b),
  .rr .divu 0x07 (fun a b => if b = 0 then BitVec.allOnes 64 else a / b),
  .rr .rem 0x08 (fun a b => if b = 0 then a else a.srem b),
  .rr .remu 0x09 (fun a b => if b = 0 then a else a % b),
  .rr .and 0x0A (fun a b => a &&& b),
  .rr .or 0x0B (fun a b => a ||| b),
  .rr .xor 0x0C (fun a b => a ^^^ b),
  .rr .sll 0x0D (fun a b => a <<< (b &&& 63)),
  .rr .srl 0x0E (fun a b => a >>> (b &&& 63)),
  .rr .sra 0x0F (fun a b => a.sshiftRight' (b &&& 63)),
  .rr .slt 0x10 (fun a b => if a.toInt < b.toInt then 1 else 0),
  .rr .sltu 0x11 (fun a b => if a.toNat < b.toNat then 1 else 0),
  .rr .min 0x12 (fun a b => if a.toInt ≤ b.toInt then a else b),
  .rr .max 0x13 (fun a b => if a.toInt ≤ b.toInt then b else a),
  .rr .minu 0x14 (fun a b => if a.toNat ≤ b.toNat then a else b),
  .rr .maxu 0x15 (fun a b => if a.toNat ≤ b.toNat then b else a),
  .r .clz 0x16 (fun a => a.clz),
  .r .popc 0x17 (fun a => a.cpop),
  .ri .addi 0x18 (fun a b => a + b),
  .ri .andi 0x19 (fun a b => a &&& b),
  .ri .ori 0x1A (fun a b => a ||| b),
  .ri .xori 0x1B (fun a b => a ^^^ b),
  .ri .slli 0x1C (fun a b => a <<< (b &&& 63)),
  .ri .srli 0x1D (fun a b => a >>> (b &&& 63)),
  .ri .srai 0x1E (fun a b => a.sshiftRight' (b &&& 63)),
  .ri .slti 0x1F (fun a b => if a.toInt < b.toInt then 1 else 0),
  .ri .lih 0x20 (fun a b => b.setWidth 32 ++ a.setWidth 32),
  ⟨.lix, 0xF0, fun _ i => i.imm⟩,
  ⟨.addx, 0xF1, fun t i => t.s (fB i.word) + i.imm⟩,
  ⟨.dgetw, 0x30, fun t i => t.dw (fB i.word) (fL i.word % 8)⟩,
  ⟨.tks, 0xC2, fun t i => t.k (fB i.word)⟩]

/-- Each instruction of Table 7.5 that writes an s register, and TKS, completes from every state in which it issues:
rd takes the table's value, s0 discards it, the pc goes on, and nothing else of the block changes. -/
def ScalarResultsOnSRegisters : Prop :=
  ∀ e ∈ scalarRows, ∀ (i : Issue) (s : State), s.Issues i → fOp i.word = e.op →
    ∃ t, exec (e.con i) s = .next t ∧
      CoreNext s t i.tile (nextPc (s.tile i.tile) i.word)
        (withS (s.tile i.tile) (fA i.word) (e.val (s.tile i.tile) i)) (s.tile i.tile).dw

/-- What a row of Table 7.5 leaves in the d registers. -/
def dregRows : List ((Issue → Instr) × Nat × (Tile → W64 → Nat → Nat → W64)) := [
  (.nop, 0x3F, fun t _ => t.dw),
  (.dsetw, 0x31, fun t w d j => if d = fA w ∧ j = fL w % 8 then t.s (fB w) else t.dw d j),
  (.dmov, 0x32, fun t w d j => if d = fA w then t.dw (fB w) j else t.dw d j),
  (.daddb, 0x33, fun t w d j =>
    if d = fA w then
      if j = 0 then
        (t.dw (fB w) 0).extractLsb' 48 16 ++ ((t.dw (fB w) 0).setWidth 48 + (t.s (fC w)).setWidth 48)
      else t.dw (fB w) j
    else t.dw d j)]

/-- NOP, DSETW, DMOV and DADDB complete from every state in which they issue: NOP changes no register, the others the
words of one d register that the table gives, DADDB with base + rs modulo 2^48. -/
def ScalarResultsOnDRegisters : Prop :=
  ∀ e ∈ dregRows, ∀ (i : Issue) (s : State), s.Issues i → fOp i.word = e.2.1 →
    ∃ t, exec (e.1 i) s = .next t ∧
      CoreNext s t i.tile (nextPc (s.tile i.tile) i.word) (s.tile i.tile).s (e.2.2 (s.tile i.tile) i.word)

end Sys2Proof.Claims

/-- The S class performs the operations of Table 7.5, on s and on d registers, and raises no exception where it
issues; TKS reads a token's status word (R202, R213, R217). -/
def Obligations.ScalarOperationsGiveTheirResults : Prop := ScalarResultsOnSRegisters ∧ ScalarResultsOnDRegisters

/-! ## The B class -/

namespace Sys2Proof.Claims

/-- A row of Table 7.6: its command, opcode, whether the branch is taken, its 64-bit target, and whether rd gets pc +
8. -/
structure BranchRow where
  con : Issue → Instr
  op : Nat
  taken : Tile → W64 → Bool
  target : Tile → Issue → W64
  link : Bool

/-- A conditional branch on ra and rb. -/
def BranchRow.cond (con : Issue → Instr) (op : Nat) (c : W64 → W64 → Bool) : BranchRow :=
  ⟨con, op, fun t w => c (t.s (fB w)) (t.s (fC w)), fun t i => BitVec.ofNat 64 t.pc + 8 * imm32 i.word, false⟩

/-- Table 7.6. -/
def branchRows : List BranchRow := [
  ⟨.jal, 0x40, fun _ _ => true, fun t i => BitVec.ofNat 64 t.pc + 8 * imm32 i.word, true⟩,
  ⟨.jalr, 0x41, fun _ _ => true, fun t i => t.s (fB i.word) + 8 * imm32 i.word, true⟩,
  .cond .beq 0x42 (fun a b => decide (a = b)),
  .cond .bne 0x43 (fun a b => decide (a ≠ b)),
  .cond .blt 0x44 (fun a b => decide (a.toInt < b.toInt)),
  .cond .bge 0x45 (fun a b => decide (b.toInt ≤ a.toInt)),
  .cond .bltu 0x46 (fun a b => decide (a.toNat < b.toNat)),
  .cond .bgeu 0x47 (fun a b => decide (b.toNat ≤ a.toNat)),
  ⟨.jx, 0xF2, fun _ _ => true, fun _ i => i.imm, false⟩]

end Sys2Proof.Claims

/-- Each branch completes from every state in which it issues, where it is not taken or its target is a multiple of 8
below 2^48: the pc is the target or the next sequential pc, and JAL and JALR write pc + 8 to rd, the target by the old
ra. A taken branch to a target that is no multiple of 8 takes ADDR_ALIGN, else to one of 2^48 or more ADDR_UNMAPPED,
with the target in TC_TVAL (R214). -/
def Obligations.BranchesGoToTheirTargets : Prop :=
  (∀ e ∈ branchRows, ∀ (i : Issue) (s : State), s.Issues i → fOp i.word = e.op →
    let a := s.tile i.tile
    (e.taken a i.word = true → (e.target a i).toNat % 8 = 0 ∧ (e.target a i).toNat < 2 ^ 48) →
    ∃ t, exec (e.con i) s = .next t ∧
      CoreNext s t i.tile (if e.taken a i.word then (e.target a i).toNat else nextPc a i.word)
        (if e.link then withS a (fA i.word) (BitVec.ofNat 64 ((a.pc + 8) % 2 ^ 48)) else a.s) a.dw) ∧
  ∀ e ∈ branchRows, ∀ (i : Issue) (s : State), s.Issues i → fOp i.word = e.op →
    let a := s.tile i.tile
    e.taken a i.word = true → ((e.target a i).toNat % 8 ≠ 0 ∨ 2 ^ 48 ≤ (e.target a i).toNat) →
    ∃ t, exec (e.con i) s = .next t ∧ s.OnlyTile i.tile t ∧
      Traps a (t.tile i.tile) (if (e.target a i).toNat % 8 ≠ 0 then 0x0502 else 0x0501) false (e.target a i)

/-! ## Exceptions and the return from them -/

/-- The exceptions of ECALL, BRK, ERET, CSRR and CSRW (R203, Table 7.9) are entered as R228 to R231 say: ECALL at J
takes TC_ECALL with its code and at P TC_UNDEF; BRK without brk_en takes TC_BREAK; ERET and CSRW at J, and CSRR at J
of any other register than the four of R203, take TC_PRIV. -/
def Obligations.ExceptionsAreTaken : Prop :=
  (∀ (i : Issue) (s : State), s.Issues i → fOp i.word = 0xD0 →
    ∃ t, exec (.ecall i) s = .next t ∧ s.OnlyTile i.tile t ∧
      if (s.tile i.tile).fld Csr.tcStatus_priv = 1 then Traps (s.tile i.tile) (t.tile i.tile) 0x0A40 false i.word
      else Traps (s.tile i.tile) (t.tile i.tile) 0x0A42 false (BitVec.ofNat 64 (fL i.word))) ∧
  (∀ (i : Issue) (s : State), s.Issues i → fOp i.word = 0xD2 → (s.tile i.tile).fld Csr.tcDbgCtl_brk_en = 0 →
    ∃ t, exec (.brk i) s = .next t ∧ s.OnlyTile i.tile t ∧ Traps (s.tile i.tile) (t.tile i.tile) 0x0A43 false 0) ∧
  (∀ (c : Issue → Instr) (i : Issue) (s : State), s.Issues i → (s.tile i.tile).fld Csr.tcStatus_priv = 0 →
    (c = .eret ∧ fOp i.word = 0xD1 ∨ c = .csrw ∧ fOp i.word = 0xD4 ∨
      c = .csrr ∧ fOp i.word = 0xD3 ∧
        8 * bits i.word 3 14 ∉ [Csr.cfgTileId, Csr.tcStatus, Csr.tcCycle, Csr.tcInstret]) →
    ∃ t, exec (c i) s = .next t ∧ s.OnlyTile i.tile t ∧ Traps (s.tile i.tile) (t.tile i.tile) 0x0A41 false i.word)

/-- ERET at P restores the pc and the privilege, and BRK with brk_en puts the tile into DEBUG behind it (Table 7.9). -/
def Obligations.EretRestoresAndBrkHalts : Prop :=
  (∀ (i : Issue) (s : State), s.Issues i → fOp i.word = 0xD1 → (s.tile i.tile).fld Csr.tcStatus_priv = 1 →
    ∃ t, exec (.eret i) s = .next t ∧ s.OnlyTile i.tile t ∧
      let a := s.tile i.tile
      let b := t.tile i.tile
      b = { a with csr := b.csr, ibuf := b.ibuf, pc := a.fld Csr.tcEpc_epc / 8 * 8, bpPassed := false,
                   stepping := false, dbgFrom := b.dbgFrom } ∧
      b.fld Csr.tcStatus_priv = a.fld Csr.tcStatus_epriv ∧ b.word Csr.tcInstret = a.word Csr.tcInstret + 1 ∧
      b.state = (if a.stepping then tsDebug else tsRunning) ∧
      ∀ o, o ∉ [Csr.tcInstret, Csr.tcStatus, Csr.tcDbgSts] → b.word o = a.word o) ∧
  ∀ (i : Issue) (s : State), s.Issues i → fOp i.word = 0xD2 → (s.tile i.tile).fld Csr.tcDbgCtl_brk_en = 1 →
    ∃ t, exec (.brk i) s = .next t ∧ s.OnlyTile i.tile t ∧
      let a := s.tile i.tile
      let b := t.tile i.tile
      b = { a with csr := b.csr, ibuf := b.ibuf, pc := nextPc a i.word, bpPassed := false, stepping := false,
                   dbgFrom := tsRunning } ∧
      b.state = tsDebug ∧ b.fld Csr.tcDbgSts_reason = 1 ∧ b.fld Csr.tcDbgSts_halted = 0 ∧
      b.word Csr.tcInstret = a.word Csr.tcInstret + 1 ∧
      ∀ o, o ∉ [Csr.tcInstret, Csr.tcStatus, Csr.tcDbgSts] → b.word o = a.word o

/-! ## The M class -/

namespace Sys2Proof.Claims

/-- The address of an M-class access (R215). -/
def mAddress (s : State) (i : Issue) : W64 := (s.tile i.tile).s (fB i.word) + off24 i.word

/-- Nothing of Table 7.11 faults an access of `size` bytes, its home can be reached past every crossing (R414), and
detection finds nothing. -/
def Reaches (s : State) (i : Issue) (k : Access) (size : Nat) : Prop :=
  mLocalFault (mAddress s i) size (k == .atomic) = none ∧
  s.mHomeFault i.tile k (mAddress s i).toNat size = none ∧
  s.heldAt (corePart i.tile) (coreDie i.tile) 0 (mAddress s i).toNat = none ∧
  s.homeReach (coreDie i.tile) 0 (mAddress s i).toNat = true ∧ i.ecc = .ok

/-- Tile `n` waits for the home of its access (R216), at the same pc. -/
def WaitsFor (s t : State) (i : Issue) (r : MemWait) : Prop :=
  (∀ m, m ≠ i.tile → t.tile m = s.tile m) ∧
  t.tile i.tile = { s.tile i.tile with ibuf := (t.tile i.tile).ibuf, wait := .mem (nextPc (s.tile i.tile) i.word) r }

/-- A value of `size` bytes extended to 64 bits (Table 7.7). -/
def extended (size : Nat) (sign : Bool) (v : Nat) : W64 :=
  if sign then (BitVec.ofNat (8 * size) v).signExtend 64 else (BitVec.ofNat (8 * size) v).setWidth 64

/-- `k` reads of 8 bytes from a CSR address up, one after another. -/
def ioReads (s : State) (a : Nat) : Nat → List W64 × State
  | 0 => ([], s)
  | k + 1 =>
    let p := ioReads s a k
    let q := p.2.ioRead (a + 8 * k) 8
    (p.1 ++ [q.1], q.2)

/-- `k` writes of 8 bytes from a CSR address up, one after another. -/
def ioWrites (s : State) (a : Nat) (ws : Nat → W64) : Nat → State
  | 0 => s
  | k + 1 => (ioWrites s a ws k).ioWrite (a + 8 * k) 8 (ws k)

end Sys2Proof.Claims

/-- LD and DLD answer what their home holds, little-endian, LD extended as mod says; memory does not change. At a
register address they read the registers, each read with its own effect. The core waits until the answer is in (R215,
R216). -/
def Obligations.LoadsReadTheirHome : Prop :=
  (∀ (i : Issue) (s : State), s.Issues i → fOp i.word = 0x60 →
    let size := 2 ^ bits i.word 24 2
    let a := (mAddress s i).toNat
    Reaches s i .read size →
    ∃ t, exec (.ld i) s = .next t ∧
      if isCsr a then
        ∃ b, let u := (s.setTile i.tile { s.tile i.tile with ibuf := b }).ioRead a size
          t = u.2.mWait i.tile i.word (.load (fA i.word) (extended size (bit i.word 26) u.1.toNat))
      else t = { s with tiles := t.tiles } ∧
        WaitsFor s t i (.load (fA i.word) (extended size (bit i.word 26) (s.load a size)))) ∧
  ∀ (i : Issue) (s : State), s.Issues i → fOp i.word = 0x64 →
    let a := (mAddress s i).toNat
    Reaches s i .read 64 →
    ∃ t, exec (.dld i) s = .next t ∧
      if isCsr a then
        ∃ b, let u := ioReads (s.setTile i.tile { s.tile i.tile with ibuf := b }) a 8
          t = u.2.mWait i.tile i.word (.desc (fA i.word) u.1)
      else t = { s with tiles := t.tiles } ∧
        WaitsFor s t i (.desc (fA i.word) ((List.range 8).map (fun k => BitVec.ofNat 64 (s.load (a + 8 * k) 8))))

/-- ST stores the low bytes of rb and DST the eight words of its d register, little-endian, at the address R215 forms,
and every other byte of memory stays; at a register address they write the registers (R215, R216). -/
def Obligations.StoresWriteTheirHome : Prop :=
  (∀ (i : Issue) (s : State), s.Issues i → fOp i.word = 0x61 →
    let size := 2 ^ bits i.word 24 2
    let a := (mAddress s i).toNat
    let v := (s.tile i.tile).s (fC i.word)
    Reaches s i .write size →
    ∃ t, exec (.st i) s = .next t ∧
      if isCsr a then
        ∃ b, t = ((s.setTile i.tile { s.tile i.tile with ibuf := b }).ioWrite a size v).mWait i.tile i.word .store
      else t = { s with mem := t.mem, ueWords := t.ueWords, tiles := t.tiles } ∧ WaitsFor s t i .store ∧
        ∀ x, t.byte x = if a ≤ x ∧ x < a + size then BitVec.ofNat 8 (v.toNat / 2 ^ (8 * (x - a))) else s.byte x) ∧
  ∀ (i : Issue) (s : State), s.Issues i → fOp i.word = 0x65 →
    let a := (mAddress s i).toNat
    let ws := (s.tile i.tile).dw (fA i.word)
    Reaches s i .write 64 →
    ∃ t, exec (.dst i) s = .next t ∧
      if isCsr a then
        ∃ b, t = (ioWrites (s.setTile i.tile { s.tile i.tile with ibuf := b }) a ws 8).mWait i.tile i.word .store
      else t = { s with mem := t.mem, ueWords := t.ueWords, tiles := t.tiles } ∧ WaitsFor s t i .store ∧
        ∀ x, t.byte x = if a ≤ x ∧ x < a + 64 then
            BitVec.ofNat 8 ((ws ((x - a) / 8)).toNat / 2 ^ (8 * ((x - a) % 8)))
          else s.byte x

namespace Sys2Proof.Claims

/-- An atomic of Table 6.5: its command, op code, width in bytes, whether the old value is sign-extended, and the
value it writes, of the old value and the operand. -/
structure AmoRow where
  con : Issue → Instr
  op : Nat
  size : Nat
  sign : Bool
  new : W64 → W64 → Nat

/-- The AMO ops of R215; the FP32 ones by the FP32 rules of spec/04_vector_and_functions.md R115. -/
def amoRows : List AmoRow := [
  ⟨.amoAddI32, 0, 4, true, fun o b => (o.toNat + b.toNat) % 2 ^ 32⟩,
  ⟨.amoAddI64, 1, 8, true, fun o b => (o.toNat + b.toNat) % 2 ^ 64⟩,
  ⟨.amoFadd, 2, 4, false, fun o b => (fAdd .fp32 .rne (o.toNat % 2 ^ 32) (b.toNat % 2 ^ 32)).1⟩,
  ⟨.amoMaxI32, 3, 4, true, fun o b =>
    if (o.setWidth 32).toInt < (b.setWidth 32).toInt then b.toNat % 2 ^ 32 else o.toNat % 2 ^ 32⟩,
  ⟨.amoMaxI64, 4, 8, true, fun o b => if o.toInt < b.toInt then b.toNat else o.toNat⟩,
  ⟨.amoMinI32, 5, 4, true, fun o b =>
    if (b.setWidth 32).toInt < (o.setWidth 32).toInt then b.toNat % 2 ^ 32 else o.toNat % 2 ^ 32⟩,
  ⟨.amoMinI64, 6, 8, true, fun o b => if b.toInt < o.toInt then b.toNat else o.toNat⟩,
  ⟨.amoFmax, 7, 4, false, fun o b => (fMax .fp32 (o.toNat % 2 ^ 32) (b.toNat % 2 ^ 32)).1⟩,
  ⟨.amoFmin, 8, 4, false, fun o b => (fMin .fp32 (o.toNat % 2 ^ 32) (b.toNat % 2 ^ 32)).1⟩]

end Sys2Proof.Claims

/-- Every AMO and CAS answers the old value, extended as R215 says, and leaves the new one at its address: the op's
value for an AMO, rd's `new` for a CAS whose low bits of `expected` equal the old value, the old value otherwise;
every other byte of memory stays. -/
def Obligations.AtomicsReadAndModifyOnce : Prop :=
  (∀ e ∈ amoRows, ∀ (i : Issue) (s : State), s.Issues i → fOp i.word = 0x62 → bits i.word 24 4 = e.op →
    let a := (mAddress s i).toNat
    let b := (s.tile i.tile).s (fC i.word)
    Reaches s i .atomic e.size →
    ∃ t, exec (e.con i) s = .next t ∧ t = { s with mem := t.mem, ueWords := t.ueWords, tiles := t.tiles } ∧
      WaitsFor s t i (.load (fA i.word) (extended e.size e.sign (s.load a e.size))) ∧
      t.load a e.size = e.new (BitVec.ofNat 64 (s.load a e.size)) b % 2 ^ (8 * e.size) ∧
      ∀ x, (x < a ∨ a + e.size ≤ x) → t.byte x = s.byte x) ∧
  ∀ (i : Issue) (s : State), s.Issues i → fOp i.word = 0x63 →
    let size := if bits i.word 24 1 = 1 then 8 else 4
    let a := (mAddress s i).toNat
    let want := ((s.tile i.tile).s (fC i.word)).toNat % 2 ^ (8 * size)
    let new := ((s.tile i.tile).s (fD i.word)).toNat % 2 ^ (8 * size)
    Reaches s i .atomic size →
    ∃ t, exec (.cas i) s = .next t ∧ t = { s with mem := t.mem, ueWords := t.ueWords, tiles := t.tiles } ∧
      WaitsFor s t i (.load (fA i.word) (extended size true (s.load a size))) ∧
      t.load a size = (if s.load a size = want then new else s.load a size) ∧
      ∀ x, (x < a ∨ a + size ≤ x) → t.byte x = s.byte x

/-- MEM_ACCESS_COMPLETE ends the wait of a running tile for its home (R216): a load's value is in its register, a
descriptor's words in their d register, and the core goes on; an access that faulted takes its exception at the pc of
the instruction. Nothing but the tile changes. An access that a fenced crossing holds back has no answer yet; one that
has been admitted is made now (R414, R415): a load from memory that nothing faults reads what memory holds. -/
def Obligations.MemAccessCompletes : Prop :=
  ∀ (n pc' : Nat) (r : MemWait) (s : State), (s.tile n).wait = .mem pc' r → (s.tile n).state = tsRunning →
    ∃ t, exec (.memAccessComplete n) s = .next t ∧
      let a : Tile := { s.tile n with wait := .none }
      let b := t.tile n
      match r with
      | .load rd v => s.OnlyTile n t ∧ Retires a b pc' ∧ (∀ q, b.s q = withS a rd v q) ∧ b.dreg = a.dreg
      | .desc d ws =>
        s.OnlyTile n t ∧ Retires a b pc' ∧ b.sreg = a.sreg ∧ ∀ e w, w < 8 → b.dw e w = withD a d ws e w
      | .store => s.OnlyTile n t ∧ Retires a b pc' ∧ b.sreg = a.sreg ∧ b.dreg = a.dreg
      | .fault c addr => s.OnlyTile n t ∧ Traps a b c false addr
      | .held => t = s
      | .again i =>
        let size := 2 ^ bits i.word 24 2
        let x := (mAddress s i).toNat
        i.tile = n → fOp i.word = 0x60 → isCsr x = false → Reaches s i .read size →
          s.OnlyTile n t ∧ Retires a b pc' ∧ b.dreg = a.dreg ∧
          ∀ q, b.s q = withS a (fA i.word) (extended size (bit i.word 26) (s.load x size)) q

/-- An M-class access that Table 7.11 faults takes the exception at its issue where the core finds it: a misaligned
address ADDR_ALIGN, an atomic outside package memory and tile SRAM ATOMIC_TARGET, an address outside every region
ADDR_UNMAPPED; and memory and the other tiles stay (R216, R229). -/
def Obligations.MClassFaultsArePrecise : Prop :=
  ∀ (i : Issue) (s : State), s.Issues i →
    ∀ (c : Issue → Instr) (size : Nat) (atomic : Bool),
      (c = .ld ∧ fOp i.word = 0x60 ∧ size = 2 ^ bits i.word 24 2 ∧ atomic = false ∨
       c = .st ∧ fOp i.word = 0x61 ∧ size = 2 ^ bits i.word 24 2 ∧ atomic = false ∨
       c = .dld ∧ fOp i.word = 0x64 ∧ size = 64 ∧ atomic = false ∨
       c = .dst ∧ fOp i.word = 0x65 ∧ size = 64 ∧ atomic = false ∨
       (∃ e ∈ amoRows, c = e.con ∧ fOp i.word = 0x62 ∧ bits i.word 24 4 = e.op ∧ size = e.size ∧ atomic = true) ∨
       c = .cas ∧ fOp i.word = 0x63 ∧ size = (if bits i.word 24 1 = 1 then 8 else 4) ∧ atomic = true) →
      let a := (mAddress s i).toNat
      let cause? := if a % size ≠ 0 then some 0x0502
        else if atomic = true ∧ (2 ^ 48 ≤ a ∨ memRange a size = false) then some 0x0503
        else if atomic = false ∧ (2 ^ 48 ≤ a ∨ region a = .unmapped) then some 0x0501 else none
      ∀ cause, cause? = some cause →
        ∃ t, exec (c i) s = .next t ∧ s.OnlyTile i.tile t ∧
          Traps (s.tile i.tile) (t.tile i.tile) cause false (mAddress s i)

/-! ## Waits, fences, phases -/

/-- WTK leaves the core waiting for the tokens and the deadline that its fields name, with the pc at it (R217); the
management controller's takes only a deadline (R204); released (R218), it writes which of the named tokens are not
busy, which of those faulted, and whether it timed out, and goes on; with the trap bit a faulted token makes it take
TC_EFAULT. The condition is tested before the deadline; that a WTK which names no token waits for its deadline, where
it has one, is the Waypoint of R218 as the model reads it (log 58). -/
def Obligations.WtkWaitsAndReleases : Prop :=
  (∀ (i : Issue) (s : State), s.Issues i → fOp i.word = 0xC0 →
    ∃ t, exec (.wtk i) s = .next t ∧ s.OnlyTile i.tile t ∧
      t.tile i.tile = { s.tile i.tile with
        ibuf := (t.tile i.tile).ibuf,
        wait := .wtk (fA i.word) (bit i.word 32)
          (if bit i.word 33 then some ((s.tile i.tile).s (fB i.word)) else none) (bit i.word 34)
          (if i.tile = mcCore then 0 else fL i.word) }) ∧
  ∀ (n rd mask : Nat) (any trap : Bool) (dl : Option W64) (s : State),
    (s.tile n).wait = .wtk rd any dl trap mask → (s.tile n).state = tsRunning →
    let a := s.tile n
    let named := fun (k : Nat) => 1 ≤ k ∧ k < 32 ∧ mask.testBit k = true
    let met := ((∀ k, ¬ named k) ∧ dl = none) ∨
      ((∃ k, named k) ∧ if any then ∃ k, named k ∧ a.busy k = false else ∀ k, named k → a.busy k = false)
    let late := ∃ d, dl = some d ∧ d.toNat ≤ (s.seenDie (n / 128)).toNat
    let faulted := fun (k : Nat) => named k ∧ a.busy k = false ∧ bit (a.k k) 1 = true
    (met ∨ late) →
    ∃ t, exec (.wtkRelease n) s = .next t ∧ s.OnlyTile n t ∧
      let b := t.tile n
      (∀ k, trap = true → faulted k → (∀ j, j < k → ¬ faulted j) →
        Traps { a with wait := .none } b 0x0A44 false
          (BitVec.ofNat 64 (k + bits (a.k k) 16 16 * 2 ^ 16))) ∧
      ((trap = false ∨ ∀ k, ¬ faulted k) →
        ∃ v : W64, Retires { a with wait := .none } b ((a.pc + 8) % 2 ^ 48) ∧ b.dreg = a.dreg ∧
          (∀ q, b.s q = withS a rd v q) ∧
          (v.getLsbD 0 = true ↔ ¬ met) ∧ v.getLsbD 32 = false ∧
          ∀ k, 1 ≤ k → k < 32 → ((v.getLsbD k = true ↔ named k ∧ a.busy k = false) ∧
            (v.getLsbD (32 + k) = true ↔ faulted k)))

/-- FENCE completes in its issue cycle unless E = 1 and an engine has work that is not performed; then the core waits
for exactly that work (R176), and FENCE_COMPLETE ends the wait once it is performed (R177). PHASE enters its phase at
once, or with E = 1 and instructions in flight once those have completed (R273). -/
def Obligations.FencesAndPhases : Prop :=
  (∀ (i : Issue) (s : State), s.Issues i → fOp i.word = 0xC1 →
    ∃ t, exec (.fence i) s = .next t ∧ s.OnlyTile i.tile t ∧
      let a := s.tile i.tile
      let b := t.tile i.tile
      b.sreg = a.sreg ∧ b.dreg = a.dreg ∧
      if bit i.word 4 = true ∧ a.inflight.any (fun f => !f.done) = true then
        Retires { a with wait := .fence ((a.inflight.filter (fun f => !f.done)).map (fun f => f.seq)) none } b
          ((a.pc + 8) % 2 ^ 48)
      else Retires a b ((a.pc + 8) % 2 ^ 48)) ∧
  (∀ (i : Issue) (s : State), s.Issues i → fOp i.word = 0xC3 →
    ∃ t, exec (.phase i) s = .next t ∧ s.OnlyTile i.tile t ∧
      let a := s.tile i.tile
      let b := t.tile i.tile
      b.sreg = a.sreg ∧ b.dreg = a.dreg ∧
      if bit i.word 4 = true ∧ a.inflight ≠ [] then
        Retires { a with wait := .fence (a.inflight.map (fun f => f.seq)) (some (bits i.word 0 4)) } b
          ((a.pc + 8) % 2 ^ 48)
      else Retires { a with phase := bits i.word 0 4 } b ((a.pc + 8) % 2 ^ 48)) ∧
  ∀ (n : Nat) (seqs : List Nat) (ph : Option Nat) (s : State),
    (s.tile n).wait = .fence seqs ph → (s.tile n).state = tsRunning →
    (∀ f ∈ (s.tile n).inflight, f.seq ∈ seqs → f.done = true ∧ ph = none) →
    ∃ t, exec (.fenceComplete n) s = .next t ∧ s.OnlyTile n t ∧
      t.tile n = { s.tile n with wait := .none, phase := ph.getD (s.tile n).phase }

/-! ## Control -/

/-- CSRR at P, or at J of the registers R203 opens, writes what the tile's register reads as to rd; CSRW at P writes
the register and goes on (Table 7.9, R203). On the management controller CFG_TILE_ID and TC_CYCLE read as free values:
it is no tile and has no TCLK (the model's choice, log 67). -/
def Obligations.TileRegistersReadAndWritten : Prop :=
  (∀ (i : Issue) (s : State), s.Issues i → fOp i.word = 0xD3 →
    ((s.tile i.tile).fld Csr.tcStatus_priv = 1 ∨
      8 * bits i.word 3 14 ∈ [Csr.cfgTileId, Csr.tcStatus, Csr.tcCycle, Csr.tcInstret]) →
    let free := i.tile = mcCore ∧ 8 * bits i.word 3 14 ∈ [Csr.cfgTileId, Csr.tcCycle]
    ∃ t, exec (.csrr i) s = .next t ∧
      (¬ free → CoreNext s t i.tile (nextPc (s.tile i.tile) i.word)
        (withS (s.tile i.tile) (fA i.word) (s.tcsrView i.tile (8 * bits i.word 3 14))) (s.tile i.tile).dw) ∧
      (free → CoreNext (s.takeFree 1) t i.tile (nextPc (s.tile i.tile) i.word)
        (withS (s.tile i.tile) (fA i.word) (Config.freeWord s.freeCtr)) (s.tile i.tile).dw)) ∧
  ∀ (i : Issue) (s : State), s.Issues i → fOp i.word = 0xD4 → (s.tile i.tile).fld Csr.tcStatus_priv = 1 →
    ∃ u t, exec (.csrw i) s = .next t ∧
      CoreNext s u i.tile (nextPc (s.tile i.tile) i.word) (s.tile i.tile).s (s.tile i.tile).dw ∧
      t = u.tcsrStore i.tile (8 * bits i.word 3 14) 8 ((s.tile i.tile).s (fB i.word))

/-- HALT, IFLUSH and IPF retire: HALT leaves the core waiting for its engines (R232); IFLUSH empties the instruction
buffer, at once or when the fills in flight are done (R235); IPF starts the fills of its lines that are neither
resident nor past the address range, and no other (Table 7.9, R233). -/
def Obligations.HaltFlushAndPrefetch : Prop :=
  (∀ (i : Issue) (s : State), s.Issues i → fOp i.word = 0xD7 →
    ∃ t, exec (.halt i) s = .next t ∧ s.OnlyTile i.tile t ∧
      let a := s.tile i.tile
      let b := t.tile i.tile
      b.sreg = a.sreg ∧ b.dreg = a.dreg ∧
      Retires { a with wait := .halt (bits i.word 0 16) (bit i.word 16) } b ((a.pc + 8) % 2 ^ 48)) ∧
  (∀ (i : Issue) (s : State), s.Issues i → fOp i.word = 0xD5 →
    ∃ t, exec (.iflush i) s = .next t ∧ s.OnlyTile i.tile t ∧
      let a := s.tile i.tile
      let b := t.tile i.tile
      b.sreg = a.sreg ∧ b.dreg = a.dreg ∧
      if a.fills = [] then b.ibuf = [] ∧ Retires { a with fetchErr := [] } b ((a.pc + 8) % 2 ^ 48)
      else Retires { a with wait := .iflush } b ((a.pc + 8) % 2 ^ 48)) ∧
  ∀ (i : Issue) (s : State), s.Issues i → fOp i.word = 0xD6 →
    ∃ t, exec (.ipf i) s = .next t ∧ s.OnlyTile i.tile t ∧
      let a := s.tile i.tile
      let b := t.tile i.tile
      let first := (a.s (fB i.word)).toNat / 1024
      b.sreg = a.sreg ∧ b.dreg = a.dreg ∧ Retires { a with fills := b.fills } b ((a.pc + 8) % 2 ^ 48) ∧
      ∀ l, l ∈ b.fills ↔ l ∈ a.fills ∨
        (first ≤ l ∧ l < first + fL i.word ∧ l < 2 ^ 38 ∧ b.lineAt (l * 1024) = none)

/-- IBUF_FILL_COMPLETE of a line that is fetched without fault makes the line resident with the bytes memory holds at
that moment, ends its fill, and changes nothing else (R233, R235). -/
def Obligations.FillCapturesMemory : Prop :=
  ∀ (n line : Nat) (s : State), line ∈ (s.tile n).fills → (s.tile n).wait ≠ .iflush →
    s.fetchFault n (line * 1024) = none →
    ∃ t, exec (.ibufFillComplete n line .ok) s = .next t ∧ s.OnlyTile n t ∧
      let a := s.tile n
      let b := t.tile n
      b = { a with ibuf := b.ibuf, fills := a.fills.filter (· != line) } ∧
      ∀ x, x / 1024 = line → x % 8 = 0 → b.fetch x = some (BitVec.ofNat 64 (s.load x 8))

/-! ## The T class: what an engine leaves when it has performed an instruction at its issue -/

namespace Sys2Proof.Claims

/-- A T-class instruction issues, and no earlier work of the tile keeps it in its engine's queue (R132, R245, R268,
R272). -/
def Starts (s : State) (i : Issue) : Prop := s.Issues i ∧ s.mustWait i.tile (s.top i.tile i) = false

/-- A T-class instruction has issued and its engine has performed it without fault (R211, R225): its token is busy
until its completion, it stands in its engine with its flags and the Contour slot it counted into, the core has gone
on, and RNG_TILE_EVAL counts its evaluations. Nothing but memory and the tile's own counters changes besides. -/
def EngineDone (s t : State) (i : Issue) (fl : Flags) (ctr : Option Nat) (evals : Nat) : Prop :=
  let n := i.tile
  let a := s.tile n
  let b := t.tile n
  t = { s with mem := t.mem, ueWords := t.ueWords, tiles := t.tiles } ∧ (∀ m, m ≠ n → t.tile m = s.tile m) ∧
  b = { a with csr := b.csr, ibuf := b.ibuf, dbgFrom := b.dbgFrom, kreg := b.kreg, inflight := b.inflight,
               pc := nextPc a i.word, bpPassed := false, stepping := false, seq := a.seq + 1 } ∧
  (∀ k, b.k k = if k = fA i.word ∧ k ≠ 0 then 1 else a.k k) ∧
  { s.newFlight n a.seq i.word with done := true, flags := fl, ctr := ctr } ∈ b.inflight ∧
  (∀ f ∈ a.inflight, f.seq ≠ a.seq → f ∈ b.inflight) ∧
  b.word Csr.tcInstret = a.word Csr.tcInstret + 1 ∧
  b.fld Csr.rngTileEval_evals = min (2 ^ 48 - 1) (a.fld Csr.rngTileEval_evals + evals) ∧
  (b.state = if a.stepping then tsDebug else tsRunning) ∧
  ∀ o, o < 0xD000 → o ∉ [Csr.tcInstret, Csr.tcStatus, Csr.tcDbgSts, Csr.rngTileEval] → b.word o = a.word o

/-- Memory and the tile's Contour and format counters stand as `w` has them. -/
def AsIn (t : State) (n : Nat) (w : State) : Prop :=
  t.mem = w.mem ∧ ∀ o, 0xD000 ≤ o → (t.tile n).word o = (w.tile n).word o

/-- The Contour slot that elements written to `d` were counted into (R105). -/
def slotOf (d : Desc) (rs : List ElemRes) : Option Nat :=
  if d.ctrEn ∧ ∃ r ∈ rs, r.kind.isSome then some d.ctrSlot else none

/-- The flags of all elements together. -/
def allFlags (rs : List ElemRes) : Flags := rs.foldl (fun f r => f.or r.fl) {}

/-- The instruction has been performed and has written the elements of `d` in linear order, each with its counts. -/
def WroteElems (s t : State) (i : Issue) (d : Desc) (rs : List ElemRes) (evals : Nat) : Prop :=
  EngineDone s t i (allFlags rs) (slotOf d rs) evals ∧
  AsIn t i.tile (s.writeElems i.tile d (rs.map Except.ok) (fun _ => true))

/-- The instruction has been performed and has written a mask from `base` up. -/
def WroteMask (s t : State) (i : Issue) (base : Nat) (bs : List (Bool × Flags)) (evals : Nat) : Prop :=
  EngineDone s t i (bs.foldl (fun f b => f.or b.2) {}) none evals ∧
  AsIn t i.tile ((bs.zipIdx).foldl (fun u p => u.setMaskBit base p.2 p.1.1) s)

/-- The seed of a stochastic conversion; zero where none is drawn (R33, R338). -/
def SeedIs (s : State) (n : Nat) (stoch : Bool) (tid sid : Nat) (seed : W64) : Prop :=
  if stoch then s.resolve (partOf n) tid sid = some seed else seed = 0

/-- The evaluations that a stochastic conversion of `d` counts (R33). -/
def drawn (stoch : Bool) (d : Desc) : Nat := if stoch then (d.count + 3) / 4 else 0

/-- The operands of a VOP. -/
abbrev vopOf (s : State) (i : Issue) : VopArgs := VopArgs.ofWord (s.tile i.tile) i.word

/-- A VOP with function `fn` starts, R249 finds no fault, and detection none. -/
def VopReady (s : State) (i : Issue) (fn : Nat) : Prop :=
  Starts s i ∧ fOp i.word = 0x88 ∧ bits i.word 0 8 = fn ∧ i.ecc = .ok ∧ (vopOf s i).check s i.tile = none

/-- The IEEE functions of Table 8.4 that write elements (spec/04_vector_and_functions.md R115). -/
def ieeeRows : List ((Issue → Instr) × Nat × (Fmt → Rnd → Nat → Nat → Nat → FRes)) := [
  (.fadd, 0x00, fun f r a b _ => fAdd f r a b), (.fsub, 0x01, fun f r a b _ => fSub f r a b),
  (.fmul, 0x02, fun f r a b _ => fMul f r a b), (.fma, 0x03, fun f r a b c => fFma f r a b c),
  (.fdiv, 0x04, fun f r a b _ => fDiv f r a b), (.fsqrt, 0x05, fun f r a _ _ => fSqrt f r a),
  (.fmin, 0x06, fun f _ a b _ => fMin f a b), (.fmax, 0x07, fun f _ a b _ => fMax f a b)]

end Sys2Proof.Claims

/-- FADD, FSUB, FMUL, FMA, FDIV, FSQRT, FMIN and FMAX write, for every element, the operation on the codes of its
operands (a broadcast operand is the low bits of its s register), in the rounding their word selects. -/
def Obligations.IeeeFunctionsOnElements : Prop :=
  ∀ e ∈ ieeeRows, ∀ (i : Issue) (s : State), VopReady s i e.2.1 →
    let v := vopOf s i
    let b := fun (c : List Nat) => match v.bsc with
      | some x => x.toNat % 2 ^ v.a.fmt.bits
      | none => s.elem v.b c
    ∃ t, exec (e.1 i) s = .next t ∧
      WroteElems s t i v.dd (v.dd.indices.map (fun c =>
        let r := e.2.2 v.a.fmt (Rnd.ofSel v.rnd) (s.elem v.a c) (b c) (s.elem v.c c)
        { code := r.1, fl := r.2 })) 0

namespace Sys2Proof.Claims

/-- The L functions of Table 4.2 on logs in units of 2^-10: NaR gives NaR, zero is absorbing or infinite. -/
def logRows : List ((Issue → Instr) × Nat × (LVal → LVal → XVal)) := [
  (.lmul, 0x10, fun a b => match a, b with
    | .nar, _ | _, .nar => .nar
    | .real s x, .real t y => .fin (s != t) (.alg (Alg.pow (x + y)) 1)
    | _, _ => .zero false),
  (.ldiv, 0x11, fun a b => match a, b with
    | .nar, _ | _, .nar => .nar
    | .real s x, .real t y => .fin (s != t) (.alg (Alg.pow (x - y)) 1)
    | .real s _, .zero => .inf s
    | .zero, .real .. => .zero false
    | .zero, .zero => .nar),
  (.lrcp, 0x12, fun a _ => match a with
    | .nar => .nar
    | .zero => .inf false
    | .real s x => .fin s (.alg (Alg.pow (-x)) 1)),
  (.lsqrt, 0x13, fun a _ => match a with
    | .nar => .nar
    | .zero => .zero false
    | .real s x => if s then .nar else .fin false (.alg (Alg.pow (x / 2)) 1)),
  (.lrsqrt, 0x14, fun a _ => match a with
    | .nar => .nar
    | .zero => .inf false
    | .real s x => if s then .nar else .fin false (.alg (Alg.pow (-x / 2)) 1))]

end Sys2Proof.Claims

/-- LMUL, LDIV, LRCP, LSQRT and LRSQRT write, for every element, the exact result of Table 4.2 on the logs of its
operands, scales included, converted once into the destination; LADD in both its forms the exact sum or difference,
and CVT the exact value of its source element, so converted (R118, R120, R256, R260). A stochastic conversion draws
from the stream of the destination's pair and counts its evaluations. -/
def Obligations.LogarithmicFunctionsOnElements : Prop :=
  (∀ e ∈ logRows, ∀ (i : Issue) (s : State), VopReady s i e.2.1 →
    let v := vopOf s i
    ∀ (la lb : List Nat → LVal) (g : List Nat → Int) (seed : W64),
      (∀ c ∈ v.dd.indices, s.lval i.tile v.a c = .ok (la c) ∧ v.lb s i.tile c = .ok (lb c) ∧
        (s.tile i.tile).elemScale v.dd c = .ok (g c)) →
      SeedIs s i.tile (v.rnd == 1) v.dd.tid v.dd.sid seed →
      ∃ t, exec (e.1 i) s = .next t ∧
        WroteElems s t i v.dd ((v.dd.indices.zipIdx).map (fun p =>
          convElem v.dd v.rnd (drawConv seed v.dd.tid v.dd.sid p.2) (g p.1) (e.2.2 (la p.1) (lb p.1))))
          (drawn (v.rnd == 1) v.dd)) ∧
  (∀ e ∈ [((.ladd : Issue → Instr), false), (.laddSub, true)], ∀ (i : Issue) (s : State), Starts s i →
    fOp i.word = 0x89 → bit i.word 0 = e.2 → i.ecc = .ok →
    let dd := Desc.ofWords ((s.tile i.tile).d (fB i.word))
    let da := Desc.ofWords ((s.tile i.tile).d (fC i.word))
    let db := Desc.ofWords ((s.tile i.tile).d (fD i.word))
    let rnd := bits i.word 1 2
    s.checkOpnds i.tile [⟨dd, .elems⟩] [⟨da, .elems⟩, ⟨db, .elems⟩]
      (!(dd.fmt.isL && da.fmt.isL && db.fmt.isL) || !dd.fmt.selOk rnd) (dd.ext != da.ext || dd.ext != db.ext) eVeShape
      = none →
    ∀ (la lb : List Nat → LVal) (g : List Nat → Int) (seed : W64),
      (∀ c ∈ dd.indices, s.lval i.tile da c = .ok (la c) ∧ s.lval i.tile db c = .ok (lb c) ∧
        (s.tile i.tile).elemScale dd c = .ok (g c)) →
      SeedIs s i.tile (rnd == 1) dd.tid dd.sid seed →
      ∃ t, exec (e.1 i) s = .next t ∧
        WroteElems s t i dd ((dd.indices.zipIdx).map (fun p =>
          convElem dd rnd (drawConv seed dd.tid dd.sid p.2) (g p.1) (lSum e.2 (la p.1) (lb p.1))))
          (drawn (rnd == 1) dd)) ∧
  ∀ (i : Issue) (s : State), Starts s i → fOp i.word = 0x84 → i.ecc = .ok →
    let dd := Desc.ofWords ((s.tile i.tile).d (fB i.word))
    let ds := Desc.ofWords ((s.tile i.tile).d (fC i.word))
    let rnd := bits i.word 0 2
    let stoch := !dd.fmt.isF && rnd == 1
    s.checkOpnds i.tile [⟨dd, .elems⟩] [⟨ds, .elems⟩] (!cvtOk ds.fmt dd.fmt || !dd.fmt.selOk rnd)
      (dd.ext != ds.ext) eVeShape = none →
    ∀ (x : List Nat → XVal) (g : List Nat → Int) (seed : W64),
      (∀ c ∈ dd.indices, s.value i.tile ds c = .ok (x c) ∧ (s.tile i.tile).elemScale dd c = .ok (g c)) →
      SeedIs s i.tile stoch dd.tid dd.sid seed →
      ∃ t, exec (.cvt i) s = .next t ∧
        WroteElems s t i dd ((dd.indices.zipIdx).map (fun p =>
          convElem dd rnd (drawConv seed dd.tid dd.sid p.2) (g p.1) (x p.1))) (drawn stoch dd)

namespace Sys2Proof.Claims

/-- The word functions of Table 8.4 on 32 bits (R123). -/
def wordRows : List ((Issue → Instr) × Nat × (BitVec 32 → BitVec 32 → BitVec 32)) := [
  (.iaddW, 0x20, fun a b => a + b), (.isubW, 0x21, fun a b => a - b), (.imulW, 0x22, fun a b => a * b),
  (.andW, 0x23, fun a b => a &&& b), (.orW, 0x24, fun a b => a ||| b), (.xorW, 0x25, fun a b => a ^^^ b),
  (.sllW, 0x26, fun a b => a <<< (b &&& 31)), (.srlW, 0x27, fun a b => a >>> (b &&& 31)),
  (.sraW, 0x28, fun a b => a.sshiftRight' (b &&& 31)),
  (.iminW, 0x29, fun a b => if a.toInt ≤ b.toInt then a else b),
  (.imaxW, 0x2A, fun a b => if a.toInt ≤ b.toInt then b else a)]

/-- The doubleword functions of Table 8.4 (R123). -/
def dwordRows : List ((Issue → Instr) × Nat × (W64 → W64 → W64)) := [
  (.iaddD, 0x30, fun a b => a + b), (.isubD, 0x31, fun a b => a - b), (.andD, 0x33, fun a b => a &&& b),
  (.orD, 0x34, fun a b => a ||| b), (.xorD, 0x35, fun a b => a ^^^ b), (.sllD, 0x36, fun a b => a <<< (b &&& 63)),
  (.srlD, 0x37, fun a b => a >>> (b &&& 63)), (.sraD, 0x38, fun a b => a.sshiftRight' (b &&& 63))]

end Sys2Proof.Claims

/-- The word group works on elements as 32-bit words, I8 and I16 sign-extended, and keeps the low bits its destination
holds; the doubleword group on 64-bit words; SEL takes operand a where the bit of its mask is set, else operand b;
PERM takes the element that the low six bits of operand b name in the pass of 64 its row position belongs to, zero
past the row (R113, R123, R247, R257). -/
def Obligations.WordFunctionsOnElements : Prop :=
  (∀ e ∈ wordRows, ∀ (i : Issue) (s : State), VopReady s i e.2.1 →
    let v := vopOf s i
    let b := fun (c : List Nat) => match v.bsc with
      | some x => x.setWidth 32
      | none => BitVec.ofNat 32 (s.rawElem v.b c)
    ∃ t, exec (e.1 i) s = .next t ∧
      WroteElems s t i v.dd (v.dd.indices.map (fun c =>
        { code := (e.2.2 (BitVec.ofNat 32 (s.rawElem v.a c)) (b c)).toNat % 2 ^ v.dd.fmt.bits })) 0) ∧
  (∀ e ∈ dwordRows, ∀ (i : Issue) (s : State), VopReady s i e.2.1 →
    let v := vopOf s i
    let b := fun (c : List Nat) => match v.bsc with
      | some x => x
      | none => BitVec.ofNat 64 (s.rawElem v.b c)
    ∃ t, exec (e.1 i) s = .next t ∧
      WroteElems s t i v.dd (v.dd.indices.map (fun c =>
        { code := (e.2.2 (BitVec.ofNat 64 (s.rawElem v.a c)) (b c)).toNat })) 0) ∧
  (∀ (i : Issue) (s : State), VopReady s i 0x40 →
    let v := vopOf s i
    ∃ t, exec (.sel i) s = .next t ∧
      WroteElems s t i v.dd ((v.dd.indices.zipIdx).map (fun p =>
        { code := if s.maskBit v.c.base p.2 then s.elem v.a p.1 else s.elem v.b p.1 })) 0) ∧
  ∀ (i : Issue) (s : State), VopReady s i 0x41 →
    let v := vopOf s i
    ∃ t, exec (.perm i) s = .next t ∧
      WroteElems s t i v.dd (v.dd.indices.map (fun c =>
        let j := c.headD 0 / 64 * 64 + s.rawElem v.b c % 64
        { code := if j < v.dd.n 0 then s.elem v.a (j :: c.drop 1) else 0 })) 0

namespace Sys2Proof.Claims

/-- The comparisons of Table 8.4: command, function code, and the bit, of the L values or of 32-bit words. -/
def lcmpRows : List ((Issue → Instr) × Nat × (LVal → LVal → Bool)) := [
  (.lcmpEq, 0x18, fun a b => a != .nar && b != .nar && a == b),
  (.lcmpLt, 0x19, fun a b => a != .nar && b != .nar && lLess a b),
  (.lcmpLe, 0x1A, fun a b => a != .nar && b != .nar && (a == b || lLess a b)),
  (.lcmpUn, 0x1B, fun a b => a == .nar || b == .nar)]

/-- The word comparisons. -/
def icmpRows : List ((Issue → Instr) × Nat × (BitVec 32 → BitVec 32 → Bool)) := [
  (.icmpEqW, 0x2C, fun a b => a == b), (.icmpLtW, 0x2D, fun a b => a.slt b), (.icmpLtuW, 0x2E, fun a b => a.ult b)]

end Sys2Proof.Claims

/-- FCMP, LCMP and ICMP write the bit of each element's comparison into the mask at their destination, bit i for the
element with linear index i: FCMP by the IEEE relations with their flags, LCMP with NaR unordered, ICMP on 32-bit
words, signed or unsigned (R123, R247). -/
def Obligations.ComparisonsWriteMasks : Prop :=
  (∀ e ∈ [((.fcmpEq : Issue → Instr), 0x08), (.fcmpLt, 0x09), (.fcmpLe, 0x0A), (.fcmpUn, 0x0B)],
    ∀ (i : Issue) (s : State), VopReady s i e.2 →
    let v := vopOf s i
    ∃ t, exec (e.1 i) s = .next t ∧
      WroteMask s t i v.dd.base (v.a.indices.map (fun c => fCmp v.a.fmt e.2 (s.elem v.a c) (v.fb s c))) 0) ∧
  (∀ e ∈ lcmpRows, ∀ (i : Issue) (s : State), VopReady s i e.2.1 →
    let v := vopOf s i
    ∀ (la lb : List Nat → LVal),
      (∀ c ∈ v.a.indices, s.lval i.tile v.a c = .ok (la c) ∧ v.lb s i.tile c = .ok (lb c)) →
      ∃ t, exec (e.1 i) s = .next t ∧
        WroteMask s t i v.dd.base (v.a.indices.map (fun c => (e.2.2 (la c) (lb c), {}))) 0) ∧
  ∀ e ∈ icmpRows, ∀ (i : Issue) (s : State), VopReady s i e.2.1 →
    let v := vopOf s i
    let b := fun (c : List Nat) => match v.bsc with
      | some x => x.setWidth 32
      | none => BitVec.ofNat 32 (s.rawElem v.b c)
    ∃ t, exec (e.1 i) s = .next t ∧
      WroteMask s t i v.dd.base
        (v.a.indices.map (fun c => (e.2.2 (BitVec.ofNat 32 (s.rawElem v.a c)) (b c), {}))) 0

namespace Sys2Proof.Claims

/-- The built-in functions of FNT (R130): command, function code, function. -/
def builtinRows : List ((Issue → Instr) × Nat × Builtin) := [
  (.fntExp, 0, .exp), (.fntExp2, 1, .exp2), (.fntLog, 2, .log), (.fntLog2, 3, .log2), (.fntReciprocal, 4, .recip),
  (.fntRsqrt, 5, .rsqrt)]

/-- An FNT starts, R249 finds no fault, and detection none. -/
def FntReady (s : State) (i : Issue) : Prop :=
  Starts s i ∧ fOp i.word = 0x8C ∧ i.ecc = .ok ∧ (FntArgs.ofWord (s.tile i.tile) i.word).check s i.tile = none

end Sys2Proof.Claims

/-- The plain forms of FNT write, for every element, the built-in function of its exact scaled value, converted once
into the destination (R130, R261); with code 15 the table image of the slot evaluated on it (R133); and the fused form
the function of the element plus its channel's bias, times its channel's gain (R134, R262). A stochastic conversion
draws from the destination's stream; a built-in of the fused form gives its FP32 result in the rounding the word
selects (R130), and what a table's input counts on its way to FP32 goes with the element (R38). -/
def Obligations.FunctionUnitOnElements : Prop :=
  ∀ (i : Issue) (s : State), FntReady s i →
    let n := i.tile
    let f := FntArgs.ofWord (s.tile n) i.word
    let stoch := !f.dd.fmt.isF && f.rnd == 1
    ∀ (x : List Nat → XVal) (g gd : List Nat → Int) (seed : W64),
      (∀ c ∈ f.dd.indices, s.value n f.ds c = .ok (x c) ∧ (s.tile n).elemScale f.ds c = .ok (g c) ∧
        (s.tile n).elemScale f.dd c = .ok (gd c)) →
      SeedIs s n stoch f.dd.tid f.dd.sid seed →
      let out := fun (c : List Nat) (k : Nat) (v : XVal) (fl : Flags) (via : List FmtCount) =>
        let r := convElem f.dd f.rnd (drawConv seed f.dd.tid f.dd.sid k) (gd c) v
        { r with fl := r.fl.or fl, via := via }
      (∀ e ∈ builtinRows, f.fused = false → f.fn = e.2.1 →
        ∃ t, exec (e.1 i) s = .next t ∧
          WroteElems s t i f.dd ((f.dd.indices.zipIdx).map (fun p =>
            let y := e.2.2.eval (x p.1)
            out p.1 p.2 y.1 (if f.dd.fmt.isF then y.2 else {}) [])) (drawn stoch f.dd)) ∧
      (∀ im, f.fused = false → f.fn = 15 → NMap.find? (s.tile n).fu f.slot = some im →
        ∃ t, exec (.fntTable i) s = .next t ∧
          WroteElems s t i f.dd ((f.dd.indices.zipIdx).map (fun p =>
            let code := if f.ds.fmt = .fp32 ∧ f.ds.sc = 0 ∧ f.ds.gs = 0 then some (s.elem f.ds p.1) else none
            let y := im.eval ⟨x p.1, code, elemLam f.ds (s.elem f.ds p.1) (g p.1)⟩
            out p.1 p.2 (Fmt.fp32.value y.1 0) y.2.1 y.2.2)) (drawn stoch f.dd)) ∧
      (f.fused = true → (f.fn = 15 → (NMap.find? (s.tile n).fu f.slot).isSome = true) →
        ∃ t, exec (.fntF i) s = .next t ∧
          WroteElems s t i f.dd ((f.dd.indices.zipIdx).map (fun p =>
            let ch := p.1.getD f.chan 0
            let u := addF32 (x p.1) (s.load (sramBase n + f.biasOff + 4 * ch) 4)
            let v := if (x p.1).signaling then x p.1 else Fmt.fp32.value u 0
            let y := match if f.fn = 15 then NMap.find? (s.tile n).fu f.slot else none with
              | some im => im.eval ⟨v, if (x p.1).signaling then none else some u, none⟩
              | none => match Builtin.ofCode f.fn with
                | some b =>
                  let r := toF .fp32 (Rnd.ofSel f.rnd) (b.eval v).1 0
                  (r.code, r.fl.or (b.eval v).2, [])
                | none => (Fmt.fp32.defaultNaN, {}, [])
            let q := mulExact y.1 (s.load (sramBase n + f.gainOff + 4 * ch) 4)
            out p.1 p.2 q.1 { y.2.1 with nv := y.2.1.nv || (q.2 && f.dd.fmt.isF) } y.2.2)) (drawn stoch f.dd))

namespace Sys2Proof.Claims

/-- A RED with operation `op` starts, R249 finds no fault, and detection none. -/
def RedReady (s : State) (i : Issue) (op : Nat) : Prop :=
  Starts s i ∧ fOp i.word = 0x90 ∧ bits i.word 0 4 = op ∧ i.ecc = .ok ∧
  (RedArgs.ofWord (s.tile i.tile) i.word).check s i.tile = none

/-- The operands of a RED. -/
abbrev redOf (s : State) (i : Issue) : RedArgs := RedArgs.ofWord (s.tile i.tile) i.word

/-- The instruction has been performed, the conversions of its inputs have been counted, and memory outside `[a, a +
len)` stays. -/
def WroteRecords (s t : State) (i : Issue) (fl : Flags) (via : List FmtCount) (a len : Nat) : Prop :=
  EngineDone s t i fl none 0 ∧
  (∀ o, 0xD000 ≤ o → (t.tile i.tile).word o = ((s.countVia i.tile via).tile i.tile).word o) ∧
  ∀ x, (x < a ∨ a + len ≤ x) → t.byte x = s.byte x

end Sys2Proof.Claims

/-- RED.MAX and RED.MIN write each row's extreme and its index (R124), RED.SUM its sum, RED.MOM its count, sum and sum
of squares in FP64 in the order of R125, RED.MOMFIN mean, variance and reciprocal deviation of each moment record
(R129), and RED.PSUM the left fold of each element's partials, counted into Contour where it is FP32P (R103, R128);
nothing else of memory changes, and what reading the elements of a sum counts is in the format counters (R38). -/
def Obligations.ReductionsWriteRecords : Prop :=
  (∀ e ∈ [((.redMax : Issue → Instr), 0), (.redMin, 1)], ∀ (i : Issue) (s : State), RedReady s i e.2 →
    let r := redOf s i
    let row := fun (j : Nat) => extreme r.ds.fmt (e.2 == 0) ((r.ds.row j).map (s.elem r.ds))
    ∃ t fl, exec (e.1 i) s = .next t ∧ WroteRecords s t i fl [] r.dd.base (16 * r.ds.rowCount) ∧
      ∀ j, j < r.ds.rowCount →
        t.load (r.dd.base + 16 * j) 8 = (row j).1 % 2 ^ 64 ∧ t.load (r.dd.base + 16 * j + 8) 8 = (row j).2.1 % 2 ^ 64) ∧
  (∀ (i : Issue) (s : State), RedReady s i 2 →
    let r := redOf s i
    ∀ (l : Nat → Lane × Flags × List FmtCount), (∀ j, j < r.ds.rowCount → s.redRow i.tile r j = .ok (l j)) →
    ∃ t fl, exec (.redSum i) s = .next t ∧
      WroteRecords s t i fl ((List.range r.ds.rowCount).flatMap (fun j => (l j).2.2)) r.dd.base (8 * r.ds.rowCount) ∧
      ∀ j, j < r.ds.rowCount → t.load (r.dd.base + 8 * j) 8 = (l j).1.s % 2 ^ 64) ∧
  (∀ (i : Issue) (s : State), RedReady s i 3 →
    let r := redOf s i
    ∀ (l : Nat → Lane × Flags × List FmtCount), (∀ j, j < r.ds.rowCount → s.redRow i.tile r j = .ok (l j)) →
    ∃ t fl, exec (.redMom i) s = .next t ∧
      WroteRecords s t i fl ((List.range r.ds.rowCount).flatMap (fun j => (l j).2.2)) r.dd.base (32 * r.ds.rowCount) ∧
      ∀ j, j < r.ds.rowCount →
        let a := r.dd.base + 32 * j
        t.load a 8 = (l j).1.cnt % 2 ^ 64 ∧ t.load (a + 8) 8 = (l j).1.s % 2 ^ 64 ∧
        t.load (a + 16) 8 = (l j).1.q % 2 ^ 64 ∧ t.load (a + 24) 8 = 0) ∧
  (∀ (i : Issue) (s : State), RedReady s i 5 →
    let r := redOf s i
    let m := fun (j : Nat) =>
      let a := r.ds.base + 32 * j
      momfin (s.load a 8) (s.load (a + 8) 8) (s.load (a + 16) 8) r.rs.toNat
    ∃ t fl, exec (.redMomfin i) s = .next t ∧ WroteRecords s t i fl [] r.dd.base (24 * r.ds.n 0) ∧
      ∀ j, j < r.ds.n 0 →
        let a := r.dd.base + 24 * j
        t.load a 8 = (m j).1 % 2 ^ 64 ∧ t.load (a + 8) 8 = (m j).2.1 % 2 ^ 64 ∧
        t.load (a + 16) 8 = (m j).2.2.1 % 2 ^ 64) ∧
  ∀ (i : Issue) (s : State), RedReady s i 4 →
    let r := redOf s i
    ∃ t, exec (.redPsum i) s = .next t ∧
      WroteElems s t i r.dd (r.dd.indices.map (fun c =>
        { code := (s.redFold r c).1, fl := (s.redFold r c).2,
          kind := if r.acc then none else some (ctrKind (Fmt.fp32p.value (s.redFold r c).1 0) 0) })) 0

/-- SOFTMAX writes its elements, and for each row its maximum, its sum and whether the sum is zero (R136, R137);
SOFTMAX_BWD writes its elements from y, dy and the rows' status bits (R138). -/
def Obligations.SoftMaximum : Prop :=
  (∀ (i : Issue) (s : State), RedReady s i 6 →
    let r := redOf s i
    let n := i.tile
    let stoch := !r.dd.fmt.isF && r.rnd == 1
    ∀ (seed : W64) (y : Nat → SoftRes) (es : Nat → List ElemRes), SeedIs s n stoch r.dd.tid r.dd.sid seed →
      (∀ j, j < r.ds.rowCount → s.softmaxRow n r seed j = .ok (y j) ∧ (y j).elems = (es j).map Except.ok) →
      ∃ t fl, exec (.redSoftmax i) s = .next t ∧
        EngineDone s t i fl (slotOf r.dd ((List.range r.ds.rowCount).flatMap es)) (drawn stoch r.dd) ∧
        let rows := List.range r.ds.rowCount
        let w := (s.countVia n (rows.flatMap (fun j => (y j).via))).writeElems n r.dd ((rows.flatMap es).map Except.ok) (fun _ => true)
        let w := rows.foldl (fun u j =>
          (u.store (sramBase n + r.statsOff + 8 * j) 4 (y j).m).store (sramBase n + r.statsOff + 8 * j + 4) 4 (y j).sum) w
        AsIn t n (rows.foldl (fun u j => u.setMaskBit (sramBase n + r.statusOff) j (y j).status) w)) ∧
  ∀ (i : Issue) (s : State), RedReady s i 7 →
    let r := redOf s i
    let stoch := !r.dd.fmt.isF && r.rnd == 1
    ∀ (seed : W64) (es : Nat → List ElemRes), SeedIs s i.tile stoch r.dd.tid r.dd.sid seed →
      (∀ j, j < r.ds.rowCount → s.softBwdRow i.tile r seed j = (es j).map Except.ok) →
      ∃ t, exec (.redSoftmaxBwd i) s = .next t ∧
        WroteElems s t i r.dd ((List.range r.ds.rowCount).flatMap es) (drawn stoch r.dd)

/-- HAD writes the rotated blocks, each element converted to FP32 at its place, counted into Contour where the
destination has group scales (R103), and counts one evaluation per block index (R99 to R101, R265). RNG writes the
words of its stream (RAW), their top 24 bits as fractions of 2^24 (UNIFORM), or the bits of the comparison of each
word with its threshold (BERN), and counts one evaluation for each four elements (R270). -/
def Obligations.RotationAndFills : Prop :=
  (∀ (i : Issue) (s : State), Starts s i → fOp i.word = 0x94 → i.ecc = .ok →
    let h := HadArgs.ofWord (s.tile i.tile) i.word
    h.check s i.tile = none →
    ∀ (seed : W64) (rs : List (List Nat × ElemRes)), s.resolve (partOf i.tile) h.tid h.sid = some seed →
      h.blocks s i.tile seed = rs.map (fun p => (p.1, Except.ok p.2)) →
      ∃ t, exec (.had i) s = .next t ∧
        EngineDone s t i (allFlags (rs.map (fun p => p.2))) (slotOf h.dd (rs.map (fun p => p.2)))
          (h.ds.n h.dim / 2 ^ h.k) ∧
        AsIn t i.tile (s.writeAt i.tile h.dd (rs.map (fun p => (p.1, Except.ok p.2))) (fun _ => true))) ∧
  ∀ (i : Issue) (s : State), Starts s i → fOp i.word = 0xA0 → i.ecc = .ok →
    let n := i.tile
    let dd := Desc.ofWords ((s.tile n).d (fB i.word))
    let rb := ((s.tile n).s (fC i.word)).toNat
    let e := dd.count
    rb + (e + 3) / 4 ≤ 2 ^ 62 →
    ∀ (seed : W64), s.resolve (partOf n) dd.tid dd.sid = some seed →
      let word := drawRng seed dd.tid dd.sid rb
      (bits i.word 0 2 = 0 → s.checkOpnds n [⟨dd, .raw⟩] [] (!(dd.fmt == .fp32 || dd.fmt == .fp32p)) false eVeShape = none →
        ∃ t, exec (.rngRaw i) s = .next t ∧
          WroteElems s t i dd ((List.range e).map (fun j => { code := word j })) ((e + 3) / 4)) ∧
      (bits i.word 0 2 = 1 → s.checkOpnds n [⟨dd, .elems⟩] [] (!fromF32Ok dd.fmt) false eVeShape = none →
        ∀ g : List Nat → Int, (∀ c ∈ dd.indices, (s.tile n).elemScale dd c = .ok (g c)) →
        ∃ t, exec (.rngUniform i) s = .next t ∧
          WroteElems s t i dd ((dd.indices.zipIdx).map (fun p =>
            let u : Nat := word p.2 / 2 ^ 8
            convElem dd 0 0 (g p.1)
              (if u = 0 then .zero false else .fin false (.alg (Alg.dyadic (u : Int) (-24)) 1)))) ((e + 3) / 4)) ∧
      (bits i.word 0 2 = 2 → s.checkOpnds n [⟨dd, .mask e⟩] [] false false eVeShape = none →
        ∃ t, exec (.rngBern i) s = .next t ∧
          WroteMask s t i dd.base
            ((List.range e).map (fun j => (decide (word j < bits ((s.tile n).s (fD i.word)) 0 32), {}))) ((e + 3) / 4))

namespace Sys2Proof.Claims

/-- A T-class instruction stands in its engine's queue, not yet performed: its token is busy and the core has gone on.
-/
def Queued (s t : State) (i : Issue) (q : Tile → Tile) : Prop :=
  let n := i.tile
  let a := s.tile n
  let b := t.tile n
  s.OnlyTile n t ∧
  b = { q a with csr := b.csr, ibuf := b.ibuf, dbgFrom := b.dbgFrom, kreg := b.kreg, inflight := b.inflight,
                 pc := nextPc a i.word, bpPassed := false, stepping := false, seq := a.seq + 1 } ∧
  (∀ k, b.k k = if k = fA i.word ∧ k ≠ 0 then 1 else a.k k) ∧
  (∃ f ∈ b.inflight, f.seq = a.seq ∧ f.tok = fA i.word ∧ f.eng = wordEngine i.word ∧ f.done = false) ∧
  b.word Csr.tcInstret = a.word Csr.tcInstret + 1 ∧
  (∀ o, o ∉ [Csr.tcInstret, Csr.tcStatus, Csr.tcDbgSts] → b.word o = a.word o)

end Sys2Proof.Claims

/-- MXW queues with its descriptor and block indices as they stand at issue (R209, R251); MXW_LOAD_START takes the
first MXW whose buffer no earlier MXM of the queue reads, where the tile is not in DEBUG (R239) and no earlier load of
the scale register file is outstanding for its group scales (R268), and without fault captures its block with its
scales into the buffer that its L bit names (R46, R47, R252). -/
def Obligations.WeightBlocksAreLoaded : Prop :=
  (∀ (i : Issue) (s : State), s.Issues i → fOp i.word = 0x80 →
    let a := s.tile i.tile
    ∃ t, exec (.mxw i) s = .next t ∧
      Queued s t i (fun x => { x with mq := x.mq ++ [.mxw ⟨fA i.word, a.seq, a.d (fB i.word), (a.s (fC i.word)).toNat,
        (a.s (fD i.word)).toNat, bits i.word 0 1, i.ecc⟩] })) ∧
  ∀ (n : Nat) (s : State) (o : MxwOp) (q : List MOp) (sc : List Int),
    (s.tile n).mq = .mxw o :: q → (∀ m ∈ q, m ≠ .mxw o) → (∀ m ∈ q, ∃ x, m = .mxw x) → (s.tile n).state ≠ tsDebug →
    ((Desc.ofWords o.dw).gs = 0 ∨
      ∀ f ∈ (s.tile n).inflight, ¬ (isSrfLoad f.word = true ∧ f.seq < o.seq ∧ f.done = false)) → o.ecc = .ok →
    o.check s n = none → o.groupScales (s.tile n) (Desc.ofWords o.dw) = .ok sc →
    ∃ t, exec (.mxwLoadStart n) s = .next t ∧ s.OnlyTile n t ∧
      let a := s.tile n
      let b := t.tile n
      let d := Desc.ofWords o.dw
      b = { a with mq := q, wbuf := b.wbuf, inflight := a.inflight.map (fun f =>
              if f.seq = o.seq then { f with done := true, flags := {}, ctr := none } else f) } ∧
      (∀ k, k ≠ o.buf → NMap.find? b.wbuf k = NMap.find? a.wbuf k) ∧
      ∃ w, NMap.find? b.wbuf o.buf = some w ∧ w.fmt = d.fmt ∧ w.sc = d.sc ∧ w.k = d.n 0 ∧ w.n = d.n 1 ∧ w.rb = o.rb ∧
        w.rc = o.rc ∧ w.scales = sc ∧
        ∀ c k, c < min 32 (d.n 1 - 32 * o.rc) → k < 32 → (w.codes.getD c []).getD k 0 =
          if 32 * o.rb + k < d.n 0 then s.elem d [32 * o.rb + k, 32 * o.rc + c, 0, 0, 0] else 0

namespace Sys2Proof.Claims

/-- The MXM that an issued word queues (R209, R227). -/
def mxmOf (s : State) (i : Issue) : MxmOp :=
  let a := s.tile i.tile
  ⟨fA i.word, a.seq, a.d (fB i.word), a.d (fC i.word), fC i.word, a.s (fD i.word), fL i.word, a.mode,
    a.fld Csr.tcStatus_priv == 1, i.ecc, s.rngArrived (partOf i.tile), none⟩

/-- The new running sum of a row and column after one block (R55 to R67), from the sum it had. -/
def newSum (s : State) (o : MxmOp) (b : WBuf) (preset row col old : Nat) : Option Nat :=
  let f := (actCode o.da.fmt 0).1
  let acts := (List.range 32).map (fun k =>
    if 32 * b.rb + k < b.k then (actCode o.da.fmt (s.elem o.da [32 * b.rb + k, row, 0, 0, 0])).2 else 0)
  addBlock old (gratBlock f b.fmt (b.scales.getD col 0) acts (b.codes.getD col [])) (-16 * (preset : Int)) none

end Sys2Proof.Claims

/-- An MXM at the head of the matrix engine that need not wait, without group terms, stochastic rounding, close, spill
or overflow, adds its block into every running sum of its rows and live columns: an opening one from zero sums, after
the chain of its slot has been discarded, an adding one from the sums of its open chain (R50 to R67). Its chain then
has one block more. -/
def Obligations.MatrixMultipliesAccumulate : Prop :=
  ∀ (i : Issue) (s : State), s.Issues i → fOp i.word = 0x81 → i.ecc = .ok →
    let n := i.tile
    let a := s.tile n
    let o := mxmOf s i
    a.mq = [] → s.mxmWaits n o = false → o.close = false → o.check s n = none →
    ∀ (b : WBuf), NMap.find? a.wbuf o.buf = some b →
    (bit i.word 4 = false → a.chains = [] → o.sg = false → (o.opens b).stoch = false → (o.opens b).spillS ≠ 1 →
      ∀ (v : Nat → Nat → Nat),
      (∀ r col, r < o.rows → col < b.cols → newSum s o b o.preset r col 0 = some (v r col)) →
      ∃ t, exec (.mxmOpen i) s = .next t ∧ (t.tile n).busy (fA i.word) = (fA i.word != 0) ∧ (t.tile n).pc = nextPc a i.word ∧
        (∀ r col, r < o.rows → col < b.cols → (t.tile n).run (o.rowBase + r) col = v r col) ∧
        (∃ f ∈ (t.tile n).inflight, f.seq = a.seq ∧ f.done = true ∧ f.fault = 0) ∧ t.mem = s.mem ∧
        ∃ c, (t.tile n).chain? o.slot = some c ∧ c.blocks = 1 ∧ c.rowBase = o.rowBase ∧ c.rows = o.rows ∧
          c.scAcc = o.da.sc + b.sc ∧ c.preset = o.preset ∧ c.replays = 0 ∧ c.closing = false) ∧
    (∀ (c : Chain), bit i.word 4 = true → a.chain? o.slot = some c → c.sg = false → c.stoch = false →
      (c.blocks + 1) % c.spillS ≠ 0 → c.preset + c.replays < 4 →
      ∀ (v : Nat → Nat → Nat),
      (∀ r col, r < o.rows → col < b.cols →
        newSum s o b (c.preset + c.replays) r col (a.run (o.rowBase + r) col) = some (v r col)) →
      ∃ t, exec (.mxmAdd i) s = .next t ∧ (t.tile n).busy (fA i.word) = (fA i.word != 0) ∧ (t.tile n).pc = nextPc a i.word ∧
        (∀ r col, r < o.rows → col < b.cols → (t.tile n).run (o.rowBase + r) col = v r col) ∧
        (∃ f ∈ (t.tile n).inflight, f.seq = a.seq ∧ f.done = true ∧ f.fault = 0) ∧ t.mem = s.mem ∧
        ∃ d, (t.tile n).chain? o.slot = some d ∧ d.blocks = c.blocks + 1 ∧ d.rowBase = c.rowBase ∧ d.rows = c.rows ∧
          d.preset = c.preset ∧ d.replays = c.replays)

/-- OUTPUT_CONVERSION of the one closed chain of a tile whose matrix queue holds nothing else, and which no earlier
work keeps waiting (R88, R93, R132, R272): without fault it writes the elements of R86 to R95 into the destination
with their counts, by the record as the closing MXM read it (R84), releases the slot, zeroes the chain's cells, and
performs the closing MXM (R71, R111); a chain that did not replay leaves its output register pending until it
completes (R210). -/
def Obligations.ClosedChainsAreConverted : Prop :=
  ∀ (n slot : Nat) (s : State) (v : ConvOp) (c : Chain) (es : List (List Nat × ElemRes)),
    let a := s.tile n
    let o := v.op
    let osr := Osr.ofBytes v.record
    let j : OutJob := ⟨n, osr, o.dout, c, v.za, v.seed,
      if osr.act = 2 && o.dout.fmt != .fp32p then NMap.find? a.fu osr.fuSlot else none⟩
    a.convs = [v] → v.slot = slot → a.mq = [] → a.state ≠ tsDebug → v.mustWait a = false → a.chain? slot = some c →
    slot < 8 → c.replays = 0 → v.fault s n osr = none →
    j.elems s = es.map (fun p => (p.1, Except.ok p.2)) →
    ∀ f0 ∈ a.inflight, f0.seq = o.seq → f0.fault = 0 →
    ∃ t, exec (.outputConversion n slot) s = .next t ∧ (t.tile n).convs = [] ∧ (t.tile n).chain? slot = none ∧
      (∃ f ∈ (t.tile n).inflight, f.seq = o.seq ∧ f.done = true ∧ f.fault = 0 ∧ f.pend = f0.pend ∧
        f.flags = allFlags (es.map (fun p => p.2)) ∧ f.ctr = slotOf o.dout (es.map (fun p => p.2))) ∧
      (∀ m, m ≠ n → t.tile m = s.tile m) ∧
      let w := s.writeAt n o.dout (es.map (fun p => (p.1, Except.ok p.2))) (fun _ => true)
      (∀ k, 0xD000 ≤ k → (t.tile n).word k = (w.tile n).word k) ∧
      ∀ x, t.byte x =
        if c.cells.any (fun r => decide (sramBase n + r.1 ≤ x) && decide (x < sramBase n + r.2)) then 0 else w.byte x

namespace Sys2Proof.Claims

/-- The moves of a run after another in local memory. -/
def copyRuns (s : State) : List (Int × Int × Nat) → State
  | [] => s
  | r :: rs => copyRuns (s.writeBytes r.2.1.toNat (s.bytes r.1.toNat r.2.2)) rs

/-- The move of a MOV COPY between local operands. -/
def copyJob (s : State) (i : Issue) : MoveJob :=
  let n := i.tile
  let dd := Desc.ofWords ((s.tile n).d (fB i.word))
  let ds := Desc.ofWords ((s.tile n).d (fC i.word))
  ⟨.mov n (s.tile n).seq none, partOf n, (s.tile n).fld Csr.tcStatus_priv == 1, some (n / 128), .side .da, .da,
    joinRuns ((ds.pieces.zip dd.pieces).map (fun p => (p.1, p.2, ds.unit)))⟩

/-- What issue and its tracked transfer leave (R196, R211): the token busy, the core gone on, the instruction in the
move engine; and nothing waits for another unit. -/
def MoveDone (s t : State) (i : Issue) (status : Nat) : Prop :=
  let a := s.tile i.tile
  let b := t.tile i.tile
  b.pc = nextPc a i.word ∧ (∀ k, b.k k = if k = fA i.word ∧ k ≠ 0 then 1 else a.k k) ∧ b.sreg = a.sreg ∧ b.dreg = a.dreg ∧
  b.word Csr.tcInstret = a.word Csr.tcInstret + 1 ∧
  (∃ f ∈ b.inflight, f.seq = a.seq ∧ f.done = true ∧ f.status = status ∧
    f.fault = (if status = 0 then 0 else 0x0509) ∧ f.xfer = some s.nextXfer) ∧
  t.nextXfer = s.nextXfer + 1 ∧ t.ttInUse (partOf i.tile) = s.ttInUse (partOf i.tile) + 1 ∧
  ∀ m, m ≠ i.tile → t.tile m = s.tile m

/-- A MOV of any kind starts with nothing of an earlier transfer under its name, and a tracked transfer to be had. -/
def MovReady (s : State) (i : Issue) (kind : Nat) : Prop :=
  Starts s i ∧ fOp i.word = 0x98 ∧ bits i.word 0 2 = kind ∧ i.ecc = .ok ∧
  (∀ f ∈ (s.tile i.tile).inflight, f.seq ≠ (s.tile i.tile).seq) ∧ s.staged = [] ∧ s.segs = [] ∧ s.heldSegs = [] ∧
  s.hostReads = [] ∧ s.fenced = []

end Sys2Proof.Claims

/-- MOV COPY between local operands copies its runs in order, R195's checks passed (R182, R266); MOV SRF puts the L16
codes of its source into the scale register file from its entry up, and MOV FUSLOT the parsed image of its region into
its slot (R131, R267). Each holds a tracked transfer until it completes (R196). -/
def Obligations.LocalMoves : Prop :=
  (∀ (i : Issue) (s : State), MovReady s i 0 →
    let n := i.tile
    let dd := Desc.ofWords ((s.tile n).d (fB i.word))
    let ds := Desc.ofWords ((s.tile n).d (fC i.word))
    let j := copyJob s i
    movFault [⟨dd, .elems⟩, ⟨ds, .elems⟩] = none → dd.fmtc = ds.fmtc → dd.sc = ds.sc → dd.zp = ds.zp → dd.ext = ds.ext →
    s.localDev dd.dev = true → s.localDev ds.dev = true → j.overlap = false → j.held s = none →
    (∀ r ∈ j.runs, j.runFail s .ok r = none) →
    ∃ t, exec (.movCopy i) s = .next t ∧ MoveDone s t i 0 ∧ t.mem = (copyRuns s j.runs).mem) ∧
  (∀ (i : Issue) (s : State), MovReady s i 1 →
    let n := i.tile
    let ds := Desc.ofWords ((s.tile n).d (fC i.word))
    let entry := bits i.word 2 13
    let j : MoveJob := { copyJob s i with
      owner := .mov n (s.tile n).seq (some (.srf entry)), dst := .stage
      runs := joinRuns ((ds.pieces.zipIdx).map (fun p => (p.1, ((2 * p.2 : Nat) : Int), 2))) }
    movFault [⟨ds, .elems⟩] = none → ds.fmtc = 5 → ds.ext.drop 1 = [1, 1, 1, 1] → entry + ds.n 0 ≤ 8192 →
    s.localDev ds.dev = true → j.overlap = false → j.held s = none → (∀ r ∈ j.runs, j.runFail s .ok r = none) →
    ∃ t, exec (.movSrf i) s = .next t ∧ MoveDone s t i 0 ∧ t.mem = s.mem ∧
      ∀ k, NMap.get (fun _ => 0) (t.tile n).srf k =
        if entry ≤ k ∧ k < entry + ds.n 0 then s.elem ds [k - entry, 0, 0, 0, 0]
        else NMap.get (fun _ => 0) (s.tile n).srf k) ∧
  ∀ (i : Issue) (s : State), MovReady s i 2 →
    let n := i.tile
    let ds := Desc.ofWords ((s.tile n).d (fC i.word))
    let k := bits i.word 15 4
    let j : MoveJob := { copyJob s i with
      owner := .mov n (s.tile n).seq (some (.slot k)), dst := .stage, runs := [((ds.base : Int), 0, ds.n 0)] }
    firstFault [(Opnd.descBad ⟨ds, .elems⟩, eDescField), (Opnd.fmtBad ⟨ds, .elems⟩, eFmtUse)] = none →
    ds.fmtc = 12 → ds.ext.drop 1 = [1, 1, 1, 1] → ds.base % 32 = 0 → 32 ≤ ds.n 0 → s.localDev ds.dev = true →
    j.overlap = false → j.held s = none → (∀ r ∈ j.runs, j.runFail s .ok r = none) →
    ∀ im, parseImage (s.bytes ds.base (ds.n 0)) = some im →
    ∃ t, exec (.movFuslot i) s = .next t ∧ MoveDone s t i 0 ∧ t.mem = s.mem ∧
      NMap.find? (t.tile n).fu k = some im ∧ ∀ m, m ≠ k → NMap.find? (t.tile n).fu m = NMap.find? (s.tile n).fu m

/-- HIST READ writes a slot's 69 counts at its record, HIST MERGE adds them saturating, HIST ADAPT chooses format and
scale log by the record's policy and writes them into its d register (R106 to R109, R271), which stays pending until
completion where nothing was written (R210); READ with clr clears the slot. Each is stated with no earlier work to
wait for, and checks and detection passed. -/
def Obligations.ContourRecords : Prop :=
  ∀ (i : Issue) (s : State), Starts s i → fOp i.word = 0xA4 → i.ecc = .ok →
    let n := i.tile
    let a := s.tile n
    let form := bits i.word 4 2
    let slot := bits i.word 0 4
    let da := (a.s (fC i.word)).toNat
    let o : ContourOp := ⟨fA i.word, a.seq, form, slot, bits i.word 6 1 == 1, fB i.word, a.s (fC i.word),
      a.fld Csr.tcStatus_priv == 1, .ok⟩
    o.check s n = none →
    let kept := form = 2 ∧ (s.adapt n da (fB i.word)).2.2 = false
    let Done := fun (t : State) => (t.tile n).tq = a.tq ∧
      (t.tile n).pc = nextPc a i.word ∧ (∀ k, (t.tile n).k k = if k = fA i.word ∧ k ≠ 0 then 1 else a.k k) ∧
      (∃ f ∈ (t.tile n).inflight, f.seq = a.seq ∧ f.done = true ∧ f.fault = 0 ∧
        f.pend = if kept then some (fB i.word) else none) ∧
      ∀ m, m ≠ n → t.tile m = s.tile m
    (form = 0 → ∃ t, exec (.histRead i) s = .next t ∧ Done t ∧
      (∀ k, k < 69 → t.load (da + 4 * k) 4 = (a.slotCounts slot).getD k 0 % 2 ^ 32) ∧
      (∀ x, (x < da ∨ da + 276 ≤ x) → t.byte x = s.byte x) ∧
      (bit i.word 6 = true → (t.tile n).slotCounts slot = List.replicate 69 0) ∧
      (bit i.word 6 = false → (t.tile n).slotCounts slot = a.slotCounts slot)) ∧
    (form = 1 → ∃ t, exec (.histMerge i) s = .next t ∧ Done t ∧
      (∀ k, k < 69 → t.load (da + 4 * k) 4 = min (2 ^ 32 - 1) (s.load (da + 4 * k) 4 + (a.slotCounts slot).getD k 0)) ∧
      ∀ x, (x < da ∨ da + 276 ≤ x) → t.byte x = s.byte x) ∧
    (form = 2 → (s.adapt n da (fB i.word)).2.1 = none → ∃ t, exec (.histAdapt i) s = .next t ∧ Done t ∧
      t.mem = (s.adapt n da (fB i.word)).1.mem ∧ (t.tile n).dreg = ((s.adapt n da (fB i.word)).1.tile n).dreg)

/-- T_COMPLETION of an instruction that was performed without fault, event and Contour slot, where nothing waits to
start or the tile is in DEBUG (R239, R241): it leaves its engine, its flags are OR-ed into CFG_VE_FLAGS, its token's
status word says busy = 0 with its status and replays, and its tracked transfer, if any, is released (R117, R196,
R225). -/
def Obligations.CompletionSignalsTheToken : Prop :=
  ∀ (n k : Nat) (s : State) (e : Engine) (f : InFlight), engineOf k = some e →
    ((s.tile n).state = tsDebug ∨ ((s.tile n).state ≠ tsReset ∧ (s.tile n).mq = [] ∧
      ∀ o ∈ (s.tile n).tq, wordEngine o.issue.word ≠ e)) →
    (s.tile n).oldestDone e = some f → f.evs = [] → f.ctr = none →
    ∃ t, exec (.tCompletion n k) s = .next t ∧
      let a := s.tile n
      let b := t.tile n
      b = { a with csr := b.csr, kreg := b.kreg, inflight := a.inflight.filter (fun x => x.seq != f.seq) } ∧
      (∀ m, b.k m = if m = f.tok ∧ m ≠ 0 then f.statusWord else a.k m) ∧
      (f.fault < 2 ^ 16 → f.status < 2 ^ 8 → f.replays < 2 ^ 8 →
        bits f.statusWord 0 1 = 0 ∧ bits f.statusWord 1 1 = (if f.fault = 0 then 0 else 1) ∧
        bits f.statusWord 8 8 = f.status ∧ bits f.statusWord 16 16 = f.fault ∧ bits f.statusWord 32 8 = f.replays) ∧
      b.word Csr.cfgVeFlags = a.word Csr.cfgVeFlags ||| BitVec.ofNat 64 f.flags.bits ∧
      (∀ o, o ≠ Csr.cfgVeFlags → b.word o = a.word o) ∧ (∀ m, m ≠ n → t.tile m = s.tile m) ∧ t.mem = s.mem ∧
      t.ttInUse (partOf n) = s.ttInUse (partOf n) - (if f.xfer.isSome then 1 else 0)

/-- A VOP of the IEEE, L or word group that writes elements, RED.MAX, RED.SUM, SOFTMAX, HAD or a fused FNT that R249
faults is done with the first fault's code, one event of severity FAULT waits for its completion, and neither memory
nor a register of the tile changes besides its token, the pc and INSTRET (R199, R225, R226, R249). -/
def Obligations.CheckedFaultsWriteNothing : Prop :=
  ∀ (i : Issue) (s : State) (code : Nat), Starts s i →
    let n := i.tile
    let a := s.tile i.tile
    ∀ con : Issue → Instr,
      ((∃ e ∈ ieeeRows, con = e.1 ∧ fOp i.word = 0x88 ∧ bits i.word 0 8 = e.2.1 ∧ (vopOf s i).check s n = some code) ∨
       (∃ e ∈ logRows, con = e.1 ∧ fOp i.word = 0x88 ∧ bits i.word 0 8 = e.2.1 ∧ (vopOf s i).check s n = some code) ∨
       (∃ e ∈ wordRows, con = e.1 ∧ fOp i.word = 0x88 ∧ bits i.word 0 8 = e.2.1 ∧ (vopOf s i).check s n = some code) ∨
       (con = .redMax ∧ fOp i.word = 0x90 ∧ bits i.word 0 4 = 0 ∧ (redOf s i).check s n = some code) ∨
       (con = .redSum ∧ fOp i.word = 0x90 ∧ bits i.word 0 4 = 2 ∧ (redOf s i).check s n = some code) ∨
       (con = .redSoftmax ∧ fOp i.word = 0x90 ∧ bits i.word 0 4 = 6 ∧ (redOf s i).check s n = some code) ∨
       (con = .had ∧ fOp i.word = 0x94 ∧ (HadArgs.ofWord a i.word).check s n = some code) ∨
       (con = .fntF ∧ fOp i.word = 0x8C ∧ bit i.word 10 = true ∧ (FntArgs.ofWord a i.word).check s n = some code)) →
      ∃ t f, exec (con i) s = .next t ∧ s.OnlyTile n t ∧ f ∈ (t.tile n).inflight ∧ f.seq = a.seq ∧ f.tok = fA i.word ∧
        f.done = true ∧ f.fault = code ∧ f.evs.map (fun v => (v.code, v.sev)) = [(code, 2)] ∧
        (t.tile n).sreg = a.sreg ∧ (t.tile n).dreg = a.dreg ∧ (t.tile n).pc = nextPc a i.word ∧
        (∀ k, (t.tile n).k k = if k = fA i.word ∧ k ≠ 0 then 1 else a.k k) ∧
        ∀ o, o ∉ [Csr.tcInstret, Csr.tcStatus, Csr.tcDbgSts] → (t.tile n).word o = a.word o

/-- Element writes stay in the destination: a byte outside every unit of the elements written reads as before, other
tiles and the rest of the block stay, the tile keeps all but its counters; and a single element written reads back
(R16, R207). -/
def Obligations.ElementWritesStayInPlace : Prop :=
  (∀ (s : State) (n : Nat) (d : Desc) (rs : List (Except Nat ElemRes)) (sel : Nat → Bool), d.ctrSlot < 16 →
    let t := s.writeElems n d rs sel
    t = { s with mem := t.mem, ueWords := t.ueWords, tiles := t.tiles } ∧ (∀ m, m ≠ n → t.tile m = s.tile m) ∧
    t.tile n = { s.tile n with csr := (t.tile n).csr } ∧
    (∀ o, o < 0xD000 → (t.tile n).word o = (s.tile n).word o) ∧
    ∀ x, (∀ j, j < rs.length → let a := (d.place (coords d.ext j)).1; x < a ∨ a + d.fmt.granule ≤ x) →
      t.byte x = s.byte x) ∧
  ∀ (s : State) (d : Desc) (c : List Nat) (v : Nat), (s.setElem d c v).elem d c = v % 2 ^ d.fmt.bits

/-! ## The end of a program and debug mode -/

namespace Sys2Proof.Claims

/-- `t` differs from `s` in the given fields of device registers alone, each of which takes the given value; every
other bit of every register, and everything else of the block, is as before. -/
def Sets (fs : List (Fld × Nat)) (s t : State) : Prop :=
  t = { s with csr := t.csr } ∧ (∀ p ∈ fs, t.fld p.1 = p.2 % 2 ^ p.1.w) ∧
  ∀ o b, (∀ p ∈ fs, o ≠ p.1.off ∨ b < p.1.lo ∨ p.1.lo + p.1.w ≤ b) → (t.word o).getLsbD b = (s.word o).getLsbD b

/-- The registers of tile `b` are those of `a` but for bits of TC_STATUS.state and TC_DBG_STS. -/
def SameRegs (a b : Tile) : Prop :=
  (∀ o, o ≠ Csr.tcStatus → o ≠ Csr.tcDbgSts → b.word o = a.word o) ∧
  b.fld Csr.tcStatus_priv = a.fld Csr.tcStatus_priv ∧ b.fld Csr.tcStatus_epriv = a.fld Csr.tcStatus_epriv ∧
  b.fld Csr.tcStatus_dfault = a.fld Csr.tcStatus_dfault

/-- Tile `b` is `a` as it stops in DEBUG for a reason (R238, R239): an unreleased WTK will issue again. -/
def Debugs (a b : Tile) (reason : Nat) : Prop :=
  b = { a with csr := b.csr, wait := b.wait, dbgFrom := a.state, haltReq := false, stepping := false } ∧ SameRegs a b ∧
  b.state = tsDebug ∧ b.fld Csr.tcDbgSts_reason = reason ∧ b.fld Csr.tcDbgSts_halted = 0 ∧
  match a.wait with
  | .wtk .. => b.wait = .none
  | w => b.wait = w

/-- Tile `b` is `a` after a halt request: in DEBUG, or while its M-class access is at its home, with the request kept.
-/
def HaltRequested (a b : Tile) : Prop :=
  if a.state = tsIdle ∨ a.state = tsRunning then
    match a.wait with
    | .mem .. => b = { a with haltReq := true }
    | _ => Debugs a b 0
  else b = a

/-- Tile `b` is `a` on its way out of DEBUG (R241): in a state, stepping or not, the breakpoint at its pc met already.
-/
def Leaves (a b : Tile) (state : Nat) (step : Bool) : Prop :=
  b = { a with csr := b.csr, bpPassed := true, stepping := step } ∧ SameRegs a b ∧ b.state = state % 4 ∧
  b.fld Csr.tcDbgSts_halted = 0 ∧ b.fld Csr.tcDbgSts_reason = a.fld Csr.tcDbgSts_reason

/-- Tile `n` leaves DEBUG; one whose mode changed meanwhile takes the mode and reports it (R288). -/
def LeavesDebug (s t : State) (n state : Nat) (step : Bool) : Prop :=
  ∃ u : State, s.OnlyTile n u ∧
    if (s.tile n).modeLate then
      Leaves { s.tile n with mode := s.word Csr.dtmModeCur, modeLate := false } (u.tile n) state step ∧
      t = u.raise (tileEvent n 0x0307 sevWarn 0 (BitVec.ofNat 64 (bits (s.word Csr.dtmModeCur) 0 32)))
    else Leaves (s.tile n) (u.tile n) state step ∧ t = u

/-- The tile of a partition that a mask names. -/
def Named (part : Nat) (mask : W64) (n : Nat) : Bool := n / 64 == part && mask.getLsbD (n % 64)

/-- A byte of a cell that a chain of tile `n` holds (R71). -/
def InChain (s : State) (n x : Nat) : Prop :=
  ∃ slot < 8, ∃ c, NMap.find? (s.tile n).chains slot = some c ∧
    ∃ r ∈ c.cells, sramBase n + r.1 ≤ x ∧ x < sramBase n + r.1 + (r.2 - r.1)

/-- The chains of tile `n` have been discarded (R231, R232): no slot holds one, their cells read zero, and nothing
else has changed. -/
def Discarded (s u : State) (n : Nat) : Prop :=
  u = { s with mem := u.mem, ueWords := u.ueWords, tiles := u.tiles } ∧ (∀ m, m ≠ n → u.tile m = s.tile m) ∧
  u.tile n = { s.tile n with chains := (u.tile n).chains } ∧
  (∀ slot, NMap.find? (u.tile n).chains slot = if slot < 8 then none else NMap.find? (s.tile n).chains slot) ∧
  ∀ x, (InChain s n x → u.byte x = 0) ∧ (¬ InChain s n x → u.byte x = s.byte x)

end Sys2Proof.Claims

/-- TC_HALT_REQUEST, BREAKPOINT_HIT, TC_RESUME, TC_STEP, DEBUG_HALT_COMPLETE, DBG_PHALT and DBG_PRESUME (R238 to
R242): a tile that is IDLE or RUNNING stops in DEBUG with its reason, a tile in DEBUG goes back to the state it came
from or runs for one instruction, its registers kept; DBG_PHALT and DBG_PRESUME do so for each tile of the mask, and
halted follows the engines with its event, once the requests of the tile's move engine have returned. A tile of an
aborted job is not resumed (R443). A resume may complete a sequencer's launch (R346), which DBG_PRESUME's statement
leaves aside. -/
def Obligations.TilesHaltAndResume : Prop :=
  (∀ (n : Nat) (s : State), n < 2048 →
    ∃ t, exec (.tcHaltRequest n) s = .next t ∧ s.OnlyTile n t ∧ HaltRequested (s.tile n) (t.tile n)) ∧
  (∀ (n k : Nat) (s : State), (s.tile n).state = tsRunning → (s.tile n).wait = .none → (s.tile n).haltReq = false →
    (s.tile n).bpPassed = false → k < 4 → (s.tile n).fld (Csr.tcDbgBp_en k) = 1 →
    (s.tile n).fld (Csr.tcDbgBp_pc k) / 8 * 8 = (s.tile n).pc →
    ∃ t, exec (.breakpointHit n) s = .next t ∧ s.OnlyTile n t ∧ Debugs (s.tile n) (t.tile n) 2) ∧
  (∀ (n : Nat) (s : State), n < 2048 → (s.tile n).state = tsDebug →
    (∃ t u, exec (.tcResume n) s = .next t ∧ t = u.launchDone (partOf n) ∧
      if s.jobAborted (partOf n) then u = s else LeavesDebug s u n (s.tile n).dbgFrom (s.tile n).stepping) ∧
    ∃ t, exec (.tcStep n) s = .next t ∧ LeavesDebug s t n tsRunning true) ∧
  (∀ (n : Nat) (s : State), (s.tile n).state = tsDebug → (s.tile n).fld Csr.tcDbgSts_halted = 0 →
    (∀ f ∈ (s.tile n).inflight, f.eng = .move → f.blocked = false) →
    (∀ f ∈ s.fetched, s.ringTile f.ring = some n → f.remote = false) →
    ∃ t u, exec (.debugHaltComplete n) s = .next t ∧ s.OnlyTile n u ∧
      u.tile n = { s.tile n with csr := (u.tile n).csr } ∧ SameRegs (s.tile n) (u.tile n) ∧
      (u.tile n).state = tsDebug ∧ (u.tile n).fld Csr.tcDbgSts_halted = 1 ∧
      (u.tile n).fld Csr.tcDbgSts_reason = (s.tile n).fld Csr.tcDbgSts_reason ∧
      t = u.raise (tileEvent n 0x0A46 sevInfo 0 0)) ∧
  (∀ (p : Nat) (mask : W64) (s : State), p < 32 →
    ∃ t, exec (.dbgPhalt p mask) s = .next t ∧ t = { s with tiles := t.tiles } ∧
      ∀ n, if Named p mask n then HaltRequested (s.tile n) (t.tile n) else t.tile n = s.tile n) ∧
  (∀ (p : Nat) (mask : W64) (s : State), p < 32 → (∀ n, Named p mask n = true → (s.tile n).modeLate = false) →
    (∀ q, s.seq? p = some q → q.launched = false) →
    ∃ t, exec (.dbgPresume p mask) s = .next t ∧ t = { s with tiles := t.tiles } ∧
      ∀ n, if Named p mask n ∧ (s.tile n).state = tsDebug ∧ s.jobAborted p = false then
          Leaves (s.tile n) (t.tile n) (s.tile n).dbgFrom (s.tile n).stepping
        else t.tile n = s.tile n)

/-- HALT_COMPLETE and DOUBLE_FAULT_IDLE once the engines of a RUNNING tile have drained (R231, R232): its chains are
discarded and it is IDLE, after a HALT with TC_EVENT where the HALT asks for it, after a double fault with dfault set
and TC_DOUBLE, which aborts the job. A sequencer whose launch or program this ends takes note of it last. -/
def Obligations.TilesComeToRest : Prop :=
  (∀ (n code : Nat) (report : Bool) (s : State), (s.tile n).wait = .halt code report → (s.tile n).state = tsRunning →
    (s.tile n).inflight = [] →
    ∃ t u v w, exec (.haltComplete n) s = .next t ∧ Discarded s u n ∧
      v = (if report then u.raise (tileEvent n 0x0A47 sevInfo 0 (BitVec.ofNat 64 code)) else u) ∧ v.OnlyTile n w ∧
      (∃ b : Tile, b = { u.tile n with csr := b.csr, wait := .none } ∧ SameRegs (u.tile n) b ∧ b.state = tsIdle ∧
        b.word Csr.tcDbgSts = (s.tile n).word Csr.tcDbgSts ∧
        if b.stepping then Debugs b (w.tile n) 3 else if b.haltReq then Debugs b (w.tile n) 0 else w.tile n = b) ∧
      t = w.launchDone (partOf n)) ∧
  ∀ (n : Nat) (s : State), (s.tile n).wait = .dfault → (s.tile n).state = tsRunning → (s.tile n).inflight = [] →
    ∃ t u w, exec (.doubleFaultIdle n) s = .next t ∧ Discarded s u n ∧ u.OnlyTile n w ∧
      w.tile n = { u.tile n with csr := (w.tile n).csr, wait := .none } ∧
      (∀ o, o ≠ Csr.tcStatus → (w.tile n).word o = (s.tile n).word o) ∧ (w.tile n).state = tsIdle ∧
      (w.tile n).fld Csr.tcStatus_dfault = 1 ∧ (w.tile n).fld Csr.tcStatus_priv = (s.tile n).fld Csr.tcStatus_priv ∧
      t = (w.seqFault n).raiseAbort (tileEvent n 0x0A45 sevAbort 0
        (BitVec.ofNat 64 ((s.tile n).fld Csr.tcCause_code + (s.tile n).fld Csr.tcEpc_epc * 2 ^ 16)))

/-! ## Resets and start-up -/

namespace Sys2Proof.Claims

/-- The device registers and tiles of a state reached from reset are in canonical form. -/
def Canonical (s : State) : Prop :=
  NMap.wf deviceReset s.csr = true ∧ NMap.wf (fun _ => Tile.reset) s.tiles = true

/-- COLD_RESET leaves every register, tile and byte as after cold reset, holds the device, and keeps what is
programmed once and what the flash holds (R6, R413, R490). STARTUP_BEGIN ends the hold: the position strap is sampled
into LNK_STS.phys and every other register has its reset value (R460); a change of a setting that power failed in
keeps the old value and its count consumed, its entry is completed INTERRUPTED, and LCS_INTERRUPTED raised (R394). -/
def ColdResetAndItsRelease : Prop :=
  (∀ s : State, ∃ t, exec .coldReset s = .next t ∧
    t = { State.reset with pending := s.pending, out := s.out, freeCtr := s.freeCtr, otp := s.otp, flashA := s.flashA,
                           flashB := s.flashB, tapIr := s.tapIr, hold := 1 } ∧
    (∀ o, t.word o = deviceReset o) ∧ (∀ n, t.tile n = Tile.reset) ∧ (∀ a, t.byte a = 0) ∧ t.count = 0 ∧
    t.frozen = true) ∧
  (∀ (pos : Nat) (e : LogEntry) (s : State), (s.hold = 1 ∨ s.stage = bsCold) → scanIr s.tapIr = false →
    s.otp.log.find? (fun e => !e.done) = some e →
    ∃ t u : State, exec (.startupBegin pos) s = .next t ∧
      u.otp = { s.otp with
        log := s.otp.log.map (fun x => if x.done then x else { x with done := true, interrupted := true }) } ∧
      t = u.raiseM (devEvent 8 0x0909 sevWarn none 0 0) ∧ t.otp = u.otp) ∧
  ∀ (pos : Nat) (s : State), (s.hold = 1 ∨ s.stage = bsCold) →
    ∃ t u : State, exec (.startupBegin pos) s = .next t ∧
      u = { State.reset with pending := s.pending, out := s.out, freeCtr := s.freeCtr, otp := s.otp, flashA := s.flashA,
                             flashB := s.flashB, tapIr := s.tapIr, csr := u.csr } ∧
      u.fld Csr.lnkSts_phys = pos % 2 ^ Csr.lnkSts_phys.w ∧ u.frozen = false ∧
      (∀ o, o ≠ Csr.lnkSts → u.word o = deviceReset o) ∧
      (∀ b, (b < Csr.lnkSts_phys.lo ∨ Csr.lnkSts_phys.lo + Csr.lnkSts_phys.w ≤ b) →
        (u.word Csr.lnkSts).getLsbD b = (deviceReset Csr.lnkSts).getLsbD b) ∧
      let v := u.endInterrupted
      t = if scanIr s.tapIr then v.warmState else v

/-- WARM_RESET leaves the clock unit, the Datum unit, the count and OTP as they are, gives every RWS field its old
value and every tile its reset state but for the count that runs since cold reset, and holds the device (R6, R413); it
has no effect while PWR_OK is low or THERMTRIP_N is asserted (R490). RESET_N_RELEASE ends the hold, the reset applied
until then, and start-up resumes at stage ROM (R461), where the management controller's core runs (R204), or stays
FAILED, the model's reading (log 74). -/
def WarmResetAndItsRelease : Prop :=
  (∀ s : State, Canonical s →
    ∃ t, exec .warmReset s = .next t ∧
      if s.frozen then t = s
      else t.hold = 2 ∧ t.resetLow = true ∧ t.count = s.count ∧ t.datum = s.datum ∧ t.otp = s.otp ∧
        t.pending = s.pending ∧ t.out = s.out ∧ t.power.rails = s.power.rails ∧
        (∀ n, t.tile n = Tile.reset.setWord Csr.rngTileEval ((s.tile n).word Csr.rngTileEval)) ∧
        (∀ o, t.word o = warmWord o (s.word o)) ∧
        ∀ o, (0x100000 ≤ o ∧ o < 0x200000 ∨ 0x300000 ≤ o ∧ o < 0x400000) → t.word o = s.word o) ∧
  ∀ s : State, Canonical s → s.hold = 2 → s.tripped = false → scanIr s.tapIr = false →
    ∃ t, exec .resetNRelease s = .next t ∧ t.hold = 0 ∧ t.resetLow = false ∧ t.cold = false ∧
      t.stage = (if s.stage = bsFailed then bsFailed else bsRom) ∧
      t.fld Csr.cfgBoot_stage = t.stage ∧ t.count = s.count ∧ t.datum = s.datum ∧ t.otp = s.otp ∧ t.pending = s.pending ∧
      (∀ o, o ≠ Csr.cfgBoot → t.word o = warmWord o (s.word o)) ∧
      ∀ n, if n = mcCore then (t.tile n).state = tsRunning ∧ SameRegs Tile.reset (t.tile n)
        else t.tile n = Tile.reset.setWord Csr.rngTileEval ((s.tile n).word Csr.rngTileEval)

/-- The firmware of an image runs from a slot: its version, the time of its first instruction and the fallback,
reported where there is one, and stage BIST. -/
def Boots (s t : State) (slot : Nat) (okA okB fallback : Bool) (f : FwImage) (fwUs : Nat) : Prop :=
  ∃ u v, Sets [(Csr.cfgBoot_a_ok, b2n okA), (Csr.cfgBoot_b_ok, b2n okB), (Csr.cfgBoot_slot, slot),
      (Csr.cfgBoot_version, imageVersion f), (Csr.cfgBoot_fallback, b2n fallback), (Csr.cfgBootT_fw_us, fwUs)] { s with fwKey := imageKey f } u ∧
    v = (if fallback then u.raiseM (devEvent 7 0x0B02 sevWarn none 0 0) else u) ∧
    Sets [(Csr.cfgBoot_stage, 4)] { v with stage := bsBist } t

end Sys2Proof.Claims

/-- A slot verifies by its header, a key that is not revoked, its length, the signature of its header and the digest
of its body (R462); BOOT_SLOT_SELECT starts the slot of the higher version among those that verify, A where they are
equal, with the fallback reported, and fails where none does (R463); BIST_COMPLETE zeroes every SRAM window, shows
what failed, and goes on to stage MEMORY unless H0 failed (R464); DEVICE_READY brings every partition that is not
withdrawn to READY with its tiles IDLE in the current mode, enables the power controller and starts discovery (R465).
-/
def Obligations.FirmwareBringsTheDeviceUp : Prop :=
  (∀ (a b : FwImage) (fwUs : Nat) (s : State), s.stage = bsRom → s.hold = 0 →
    let x := s.flashA.getD a
    let y := s.flashB.getD b
    let ok := fun (f : FwImage) => headerStands f && decide (imageKey f < 32) && !s.otp.revoked.contains (imageKey f) &&
      decide (imageLength f ≤ 2096640) &&
      Config.ecdsaP384 (imageKey f) (sha384 (imageBytes f 0 0x40)) (imageBytes f 0x40 96) &&
      decide (sha384 (imageBytes f 0x200 (imageLength f)) = imageBytes f 0x10 48)
    ∃ t, exec (.bootSlotSelect a b fwUs) s = .next t ∧
      if ok x = true ∧ (ok y = false ∨ imageVersion y ≤ imageVersion x) then
        Boots s t 0 (ok x) (ok y) (!ok y && decide (imageVersion x < imageVersion y)) x fwUs
      else if ok y = true then Boots s t 1 (ok x) (ok y) (!ok x && decide (imageVersion y < imageVersion x)) y fwUs
      else ∃ u, Sets [(Csr.cfgBoot_a_ok, 0), (Csr.cfgBoot_b_ok, 0), (Csr.cfgBoot_stage, 15)] { s with stage := bsFailed } u ∧
        t = u.raiseM (devEvent 7 0x0B01 sevDevice none 0 0)) ∧
  (∀ (dieFail : Nat) (tiles : List (Nat × Nat × Nat)) (s : State), s.stage = bsBist → s.hold = 0 →
    ∃ t u v : State, exec (.bistComplete dieFail tiles) s = .next t ∧
      Sets [(Csr.cfgBist_die_fail, dieFail), (Csr.cfgBist_tiles, tiles.length)] { s with mem := u.mem, bistTiles := tiles } u ∧
      (∀ a, u.byte a = if 0x010000000000 ≤ a ∧ a < 0x010400000000 then 0 else s.byte a) ∧
      v = (if dieFail % 2 ^ 20 ≠ 0 ∨ tiles ≠ [] then u.raiseM
        (devEvent 0 0x0B03 sevWarn none (BitVec.ofNat 64 (dieFail % 2 ^ 20)) (BitVec.ofNat 64 tiles.length)) else u) ∧
      if dieFail.testBit 16 then t = { v with h0Failed := true }
      else ∃ w, Sets ((Csr.cfgBoot_stage, 5) :: if s.cold then [(Csr.svcSurvCtl_busy, 1)] else [])
        { v with stage := bsMemory } w ∧ t = w.memoryDone) ∧
  ∀ (r : StartTimes) (s : State), s.stage = bsFinish → s.hold = 0 → s.fld Csr.svcSurvCtl_busy = 0 →
    let w := (List.range 20).foldl State.dropDie (s.bistTiles.foldl State.dropTile s)
    ∃ t u v : State, exec (.deviceReady r) s = .next t ∧ u = { w with csr := u.csr, tiles := u.tiles } ∧
      Sets ([(Csr.pwrCtl_en, 1), (Csr.cfgBootT_ready_us, r.readyUs)] ++
          ((List.range 32).filter (fun p => w.fld (Csr.prtPart_state p) != ptWithdrawn)).map
            (fun p => (Csr.prtPart_state p, ptReady))) { w with tiles := u.tiles } u ∧
      (∀ n, if n < 2048 ∧ w.fld (Csr.prtPart_state (n / 64)) ≠ ptWithdrawn then
          u.tile n = { w.tile n with csr := (u.tile n).csr, mode := w.word Csr.dtmModeCur } ∧
            (u.tile n).state = tsIdle ∧ SameRegs (w.tile n) (u.tile n)
        else u.tile n = w.tile n) ∧
      v = (u.raiseM (devEvent 0 0x0B04 sevInfo none 0 0)).setStage bsReady ∧
      t = (v.setFld Csr.lnkDisc_window 1).startDiscovery

/-- Cold and warm reset and the release from each (R6, R394, R413, R460, R461, R490). -/
def Obligations.ResetsAndTheirRelease : Prop := ColdResetAndItsRelease ∧ WarmResetAndItsRelease

/-! ## Registers, the host and the JTAG port -/

namespace Sys2Proof.Claims

/-- The registers whose writes have a rule of their own besides their field types. -/
def ownRule : List Reg := [
  .cfgTileMap, .clkFwd, .clkPllA, .clkPllB, .clkSrc, .pwrCap, .pwrWin, .pwrPrio, .pwrDroop, .pwrTherm, .pwrThrClr, .dtmCtl,
  .dtmLoad, .dtmRelay, .dtmModePend, .dtmModeT, .dtmModeArm, .dtmPtClr, .rngRegCmd, .lnkSubst, .lnkDisc, .lnkPortCmd,
  .colGrpCfg, .colGrpPart, .colGrpMem, .colSeqCtl, .memRingCmd, .memTt, .memMevqCfg, .memMevqCons, .memRingIdx, .prtCommit,
  .prtSysid, .prtPart, .prtGran, .prtJob, .prtJobPeers, .prtLcsCmd, .svcReplSet, .svcRepair, .svcSurvCtl, .dbgPhalt,
  .dbgPresume]

/-- A bit of a register after a write of `x` to it, by the type of its field (R7). -/
def writtenBit (ty : FieldType) (x old : Bool) : Bool :=
  match ty with
  | .rw | .rws => x
  | .w1c => old && !x
  | .ro | .wo | .otp | .lck => old

end Sys2Proof.Claims

/-- REGISTER_WRITE by management firmware of 8 bytes, or of 4 bytes to either half, to a device register without a
rule of its own: each bit of the bytes written takes what the type of its field says, bits in no field and the other
half stay, and nothing else changes (R7, R9, R171). -/
def Obligations.RegisterWritesFollowTheirTypes : Prop :=
  ∀ (r : RegRow) (ix : List Nat) (off : Nat) (size lo : Nat) (v : W64) (s : State),
    findReg deviceRegs off = some (r, ix) → r.reg ∉ ownRule → off < 0xB00000 → off % 8 = 0 → s.running = true →
    (size = 8 ∧ lo = 0 ∨ size = 4 ∧ lo = 0 ∨ size = 4 ∧ lo = 32) →
    ∃ t, exec (.registerWrite .m (csrBase + off + lo / 8) size v) s = .next t ∧ t = { s with csr := t.csr } ∧
      (∀ o, o ≠ off → t.word o = s.word o) ∧
      (∀ f ∈ r.fields, ∀ b, f.lo ≤ b → b < f.lo + f.w →
        (t.word off).getLsbD b = if lo ≤ b ∧ b < lo + 8 * size then
            writtenBit f.ty (v.getLsbD (b - lo)) ((s.word off).getLsbD b)
          else (s.word off).getLsbD b) ∧
      ∀ b, (∀ f ∈ r.fields, b < f.lo ∨ f.lo + f.w ≤ b) → (t.word off).getLsbD b = (s.word off).getLsbD b

namespace Sys2Proof.Claims

/-- The named words of registers are zero, the others as before. -/
def Cleared (offs : Nat → Prop) (old new : Nat → W64) : Prop := ∀ o, (offs o → new o = 0) ∧ (¬ offs o → new o = old o)

/-- Words of device registers set to zero, everything else as before. -/
def Zeroes (offs : Nat → Prop) (s t : State) : Prop := t = { s with csr := t.csr } ∧ Cleared offs s.word t.word

/-- What a read returns and clears: the lost counts of R200 unless the upper half is read, the denials of R383 unless
the lower half is. -/
def ReadClears (c : Half → Instr) (f : Fld) (mark : State → NMap Bool) (kept : Half) : Prop :=
  ∀ (h : Half) (s : State), s.frozen = false →
    ∃ t u, exec (c h) s = .next t ∧ u = { s with out := s.out ++ [.data (match h with
        | .full => toBytes 8 (s.word f.off).toNat
        | .lower => toBytes 4 ((s.word f.off).toNat % 2 ^ 32)
        | .upper => toBytes 4 ((s.word f.off).toNat / 2 ^ 32))], overflowed := if h = kept then s.overflowed else mark s } ∧
      if h = kept then t = u else Sets [(f, 0)] u t

end Sys2Proof.Claims

/-- The clearing writes clear all of their counts and nothing else: CFG_CTR_CLR every count and status of its slot
(R104), CFG_FMTC_CLR both counters of each format named whose code is not reserved (R110), MEM_TT_CLR brings the
high-water mark to the use (R196), DTM_PT_CLR and PWR_THR_CLR the timers of their partitions (R289); the reads of
MEM_PEVQ_LOST, MEM_MEVQ_LOST and PRT_DENY return the register and clear their count (R200, R383). -/
def Obligations.CountsAreClearedWhole : Prop :=
  (∀ (n slot : Nat) (v : W64) (s : State), n < 2048 → slot < 16 →
    ∃ t, exec (.cfgCtrClr n slot v) s = .next t ∧ s.OnlyTile n t ∧
      t.tile n = { s.tile n with csr := (t.tile n).csr } ∧
      Cleared (fun o => v.getLsbD 0 = true ∧ ((∃ j < 32, o = Csr.cfgCtrBin slot j) ∨ o = Csr.cfgCtrZn slot ∨
        o = Csr.cfgCtrSf slot ∨ o = Csr.cfgCtrElem slot ∨ o = Csr.cfgCtrSts slot)) (s.tile n).word (t.tile n).word) ∧
  (∀ (n : Nat) (v : W64) (s : State), n < 2048 →
    ∃ t, exec (.cfgFmtcClr n v) s = .next t ∧ s.OnlyTile n t ∧ t.tile n = { s.tile n with csr := (t.tile n).csr } ∧
      Cleared (fun o => ∃ f < 16, v.getLsbD f = true ∧ (Fmt.ofCode f).isSome ∧
        (o = Csr.cfgFmtcOvf f ∨ o = Csr.cfgFmtcUnf f)) (s.tile n).word (t.tile n).word) ∧
  (∀ (p : Nat) (v : W64) (s : State), p < 32 →
    ∃ t, exec (.memTtClr p v) s = .next t ∧
      if v.getLsbD 31 then Sets [(Csr.memTt_high_water p, s.fld (Csr.memTt_in_use p))] s t else t = s) ∧
  (∀ (v : W64) (s : State), ∃ t, exec (.dtmPtClr v) s = .next t ∧
    Zeroes (fun o => ∃ p < 32, v.getLsbD p = true ∧ ∃ k < 16, o = Csr.dtmPtCycles p k ∨ o = Csr.dtmPtTicks p k) s t) ∧
  (∀ (p : Nat) (v : W64) (s : State), p < 32 → ∃ t, exec (.pwrThrClr p v) s = .next t ∧
    Zeroes (fun o => v.getLsbD 0 = true ∧ ∃ k < 5, o = Csr.pwrThrTicks p k ∨ o = Csr.pwrThrCycles p k) s t) ∧
  (∀ p, p < 32 → ReadClears (.pevqLostRead p) (Csr.memPevqLost_lost p)
    (fun s => NMap.set (fun _ => false) s.overflowed p false) .upper) ∧
  ReadClears .mevqLostRead Csr.memMevqLost_lost (fun s => NMap.set (fun _ => false) s.overflowed 32 false) .upper ∧
  ReadClears .prtDenyRead Csr.prtDeny_count (fun s => s.overflowed) .lower

namespace Sys2Proof.Claims

/-- The device address of an access at an offset of BAR0, BAR2 or BAR4 (R387). -/
def InBar (bar offset size a : Nat) : Prop :=
  bar = 0 ∧ offset + size ≤ 0x1000000 ∧ a = 0x020000000000 + offset ∨
  bar = 2 ∧ offset + size ≤ 0x8000000000 ∧ a = offset ∨
  bar = 4 ∧ offset + size ≤ 0x10000000 ∧ a = 0x021000000000 + offset

end Sys2Proof.Claims

/-- HOST_BAR_READ and HOST_BAR_WRITE of a function that answers: where its BAR is open and the home takes the access,
a read that the check grants answers the memory's bytes or the register, a write that it grants writes exactly its
bytes or the register; what is not granted is denied, a read answered Unsupported and a write discarded; so is any
other access, but a read past the last register block at level M reads zero (R378, R383, R387, R466). An access to
memory waits at a crossing that does not admit it (R414); what its home does not give it, or detection finds lost
(R169), is answered Unsupported, the model's choice (log 70). A function that does not answer gets nothing, and
nothing changes. -/
def Obligations.HostAccessesAreServedOrDenied : Prop :=
  (∀ (w : Who) (bar offset size a : Nat) (v : W64) (e : Ecc) (s : State), s.answers w = true → InBar bar offset size a →
    (s.barOpen w .read a = true → homeTakes a size = true → s.homeReach none 0 a = true →
      (isCsr a = false → s.heldAt (Who.part? w) none 0 a = none) →
      ∃ t, exec (.hostBarRead w bar offset size e) s = .next t ∧
      let u := s.detect (eccWithin e .read a size) (Who.part? w)
      if s.grantedRange (Who.origin w) .read a size then
        if isCsr a then t = (s.ioRead a size).2.emit (.data (toBytes size (s.ioRead a size).1.toNat))
        else t = { u.1 with out := u.1.out ++ [if u.2 = none then .data (s.bytes a size) else .unsupported] }
      else t = (s.deny (Who.origin w) a).emit .unsupported) ∧
    (s.barOpen w .write a = true → homeTakes a size = true → s.homeReach none 0 a = true →
      (isCsr a = false → s.heldAt (Who.part? w) none 0 a = none) →
      ∃ t, exec (.hostBarWrite w bar offset size v e) s = .next t ∧
      let u := s.detect (eccWithin e .write a size) (Who.part? w)
      if s.grantedRange (Who.origin w) .write a size then
        if isCsr a then t = s.ioWrite a size v
        else if u.2 = none then
          t = { u.1 with mem := t.mem, ueWords := t.ueWords } ∧ ∀ x, t.byte x = if a ≤ x ∧ x < a + size then
            BitVec.ofNat 8 (v.toNat / 2 ^ (8 * (x - a))) else u.1.byte x
        else t = u.1
      else t = s.deny (Who.origin w) a) ∧
    (∀ x, isCsr a = false → homeTakes a size = true → s.heldAt (Who.part? w) none 0 a = some x →
      (s.barOpen w .read a = true → exec (.hostBarRead w bar offset size e) s =
        .next { s with fenced := s.fenced ++ [(x, .host w a size none e)] }) ∧
      (s.barOpen w .write a = true → exec (.hostBarWrite w bar offset size v e) s =
        .next { s with fenced := s.fenced ++ [(x, .host w a size (some v) e)] })) ∧
    (homeTakes a size = true → s.homeReach none 0 a = false →
      (s.barOpen w .read a = true → s.grantedRange (Who.origin w) .read a size = true →
        exec (.hostBarRead w bar offset size e) s = .next { s with out := s.out ++ [.unsupported] }) ∧
      (s.barOpen w .write a = true → s.grantedRange (Who.origin w) .write a size = true →
        exec (.hostBarWrite w bar offset size v e) s = .next s)) ∧
    (s.barOpen w .read a = false ∨ homeTakes a size = false → ∃ t, exec (.hostBarRead w bar offset size e) s = .next t ∧
      t = { s with out := s.out ++ [
        if s.barOpen w .read a = true ∧ 0x020000B00000 ≤ a ∧ a < 0x020001000000 ∧ s.isM (Who.origin w) = true then
          Out.data (toBytes size 0) else Out.unsupported] }) ∧
    (s.barOpen w .write a = false ∨ homeTakes a size = false → exec (.hostBarWrite w bar offset size v e) s = .next s)) ∧
  ∀ (w : Who) (bar offset size : Nat) (v : W64) (e : Ecc) (s : State),
    (s.answers w = false →
      exec (.hostBarRead w bar offset size e) s = .next s ∧ exec (.hostBarWrite w bar offset size v e) s = .next s) ∧
    (s.answers w = true → (∀ a, ¬ InBar bar offset size a) →
      exec (.hostBarRead w bar offset size e) s = .next { s with out := s.out ++ [.unsupported] } ∧
      exec (.hostBarWrite w bar offset size v e) s = .next s)

namespace Sys2Proof.Claims

/-- The PCIe link and the SMBus: PCIE_TRAINING_START trains, to a width and a rate of R387, where H0 runs from a READY
PLL; CONFIGURATION_REQUEST gets Retry until the configuration space is ready, an open instant, and then completes,
setting VF Enable where it says so (R466); PERST_ASSERT resets link, configuration space and functions, fences the
port's crossing and ends the host reads that wait (R413); SMBUS_ARP assigns the address and answers the device's
identifier (R499). -/
def PcieAndSmbusPorts : Prop :=
  (∀ s : State, s.fld (Csr.clkSrc_cur 16) < 2 →
    s.srcReady 16 (s.fld (Csr.clkSrc_cur 16)) = true → s.frozen = false → s.hold = 0 → s.pcieUp = false →
    ∃ lanes ∈ [1, 4, 8, 16], ∃ rate ∈ [5, 10, 16, 32, 64, 128], exec .pcieTrainingStart s = .next
      { s with pcieUp := true, pcieLanes := lanes, pcieRate := rate, freeCtr := s.freeCtr + 2 }) ∧
  (∀ (vf : Option Bool) (s : State), s.pcieUp = true → s.frozen = false →
    ∃ t, exec (.configurationRequest vf) s = .next t ∧
      let ready := s.pcieCfg || Config.freeBool s.freeCtr
      t = { s with pcieCfg := ready, freeCtr := if s.pcieCfg then s.freeCtr else s.freeCtr + 1,
                   vfEnable := if ready then vf.getD s.vfEnable else s.vfEnable,
                   out := s.out ++ [if ready then Out.ack else Out.retry] }) ∧
  (∀ s : State, ∃ t, exec .perstAssert s = .next t ∧
    let u : State := { s with pcieUp := false, pcieLanes := 0, pcieRate := 0, flrWaits := [],
                              admitted := s.admitted.filter (· != 100), readyReq := s.readyReq.filter (· != 100) }
    t = { ((s.hostReads.map (fun h => (h.ring, h.idx))).eraseDups.foldl
        (fun v x => v.failMove (.desc x.1 x.2) stResetPeer) u) with pcieCfg := false, vfEnable := false }) ∧
  ∀ (addr : Nat) (s : State), s.running = true →
    exec (.smbusArp addr) s = .next { s with smbus := addr % 2 ^ 7, out := s.out ++ [
      .message addr (toBytes 8 (s.word Csr.prtIdent).toNat)] }

/-- The TAP instructions of Table 18.8: the command, its code, and what its load captures besides the register's 0x01.
-/
def tapRows : List (Instr × Nat × (State → List Out)) := [
  (.tapExtest, 0x00, fun _ => []), (.tapSamplePreload, 0x01, fun _ => []),
  (.tapIdcode, 0x02, fun s => [Out.data (toBytes 4
    (s.fld Csr.cfgDevId_step_major * 2 ^ 28 + 0x0E20 * 2 ^ 12 + 0x41D * 2 + 1))]),
  (.tapClamp, 0x03, fun _ => []), (.tapHighz, 0x04, fun _ => []), (.tapExtestPulse, 0x08, fun _ => []),
  (.tapExtestTrain, 0x09, fun _ => []),
  (.tapBridge, 0x20, fun s => [Out.data (toBytes 15 (s.bridge.da % 2 ^ 48 + b2n s.bridge.done * 2 ^ 48 +
    b2n s.bridge.err * 2 ^ 49 + s.bridge.data.toNat * 2 ^ 50))]),
  (.tapBypass, 0xFF, fun _ => [])]

/-- The device as its hold in warm reset ends: reset, and at the stage it resumes at with its boot ROM's core running
(R461). -/
def Unheld (s : State) : State := (({ s.warmState with hold := 0 } : State).setStage s.romStage).startCore

/-- A load of a TAP instruction selects it and shifts out 0x01; EXTEST, CLAMP, HIGHZ and their kin put the device into
warm reset, as RESET_N would, and another instruction ends that hold and otherwise leaves the device alone (R501,
R503). TEST_LOGIC_RESET selects IDCODE. JTAG_BRIDGE_ACCESS is carried at level M while the device runs with
jtag_bridge set, at an aligned register address that is no write of the PRT block, and errs otherwise (R242, R386,
R502). -/
def JtagPort : Prop :=
  (∀ e ∈ tapRows, ∀ s : State, ∃ t, exec e.1 s = .next t ∧ t.tapIr = e.2.1 ∧
    (s.frozen = true → t = { s with tapIr := e.2.1 }) ∧
    (s.frozen = false → e.2.1 ∉ [0x00, 0x03, 0x04, 0x08, 0x09] →
      let u : State := { s with tapIr := e.2.1, out := s.out ++ [Out.data [1]] }
      let w := if s.hold = 2 ∧ s.resetLow = false then Unheld u else u
      t = { w with out := w.out ++ e.2.2 w }) ∧
    (s.frozen = false → s.hold ≠ 2 → e.2.1 ∈ [0x00, 0x03, 0x04, 0x08, 0x09] →
      t = { s with tapIr := e.2.1, out := s.out ++ [Out.data [1]] }.warmState) ∧
    (s.frozen = false → s.hold = 2 → e.2.1 ∈ [0x00, 0x03, 0x04, 0x08, 0x09] →
      t = { s with tapIr := e.2.1, out := s.out ++ [Out.data [1]] })) ∧
  (∀ s : State, ∃ t, exec .testLogicReset s = .next t ∧ t.tapIr = 0x02 ∧
    if s.frozen = true ∨ s.hold ≠ 2 ∨ s.resetLow = true then t = { s with tapIr := 0x02 }
    else t = Unheld { s with tapIr := 0x02 }) ∧
  ∀ (dr : BitVec 120) (s : State), s.tapIr = 0x20 →
    let da := bits (dr.setWidth 64) 0 48
    let size := if dr.getLsbD 49 then 8 else 4
    let v : W64 := (dr >>> 50).setWidth 64
    let carried := s.running = true ∧ s.fld Csr.dbgCtl_jtag_bridge = 1 ∧ isCsr da = true ∧ da % size = 0 ∧
      ¬ (dr.getLsbD 48 = true ∧ 0x020000800000 ≤ da ∧ da < 0x020000900000)
    ∃ t, exec (.jtagBridgeAccess dr) s = .next t ∧
      (¬ carried → t = { s with bridge := ⟨da, true, true, 0⟩ }) ∧
      (carried → dr.getLsbD 48 = true → t = { s.ioWrite da size v with bridge := ⟨da, true, false, 0⟩ }) ∧
      (carried → dr.getLsbD 48 = false →
        t = { (s.ioRead da size).2 with bridge := ⟨da, true, false, (s.ioRead da size).1⟩ })

end Sys2Proof.Claims

/-- The PCIe, SMBus and JTAG ports. -/
def Obligations.HostPorts : Prop := PcieAndSmbusPorts ∧ JtagPort

/-! ## Clocks, crossings, memory upkeep and rows -/

namespace Sys2Proof.Claims

/-- CLK_FWD.active as R410 has it: enabled, and FWD running from a READY PLL. -/
def fwdActive (s : State) : Nat :=
  b2n (s.flag Csr.clkFwd_en && decide (s.fld (Csr.clkSrc_cur 53) < 2) && s.srcReady 53 (s.fld (Csr.clkSrc_cur 53)))

/-- Domain `n` has switched to a source (R403), with further fields set. The stack of a PCLK that runs from a PLL
again leaves self-refresh, and what waited for it goes on (R406). -/
def Switches (fs : List (Fld × Nat)) (s t : State) (n src : Nat) : Prop :=
  ∃ u v : State, Sets (fs ++ [(Csr.clkSrc_cur n, src), (Csr.clkSrc_pending n, 0),
      (Csr.clkSrc_switches n, min 65535 (s.fld (Csr.clkSrc_switches n) + 1))]) s u ∧
    v = (if 20 ≤ n ∧ n < 28 ∧ src < 2 ∧ n - 20 ∈ u.selfRefresh then
      { u with selfRefresh := u.selfRefresh.filter (· != n - 20) }.unfence (81 + n) else u) ∧
    Sets [(Csr.clkFwd_active, fwdActive v)] v t

/-- A source is READY (R402): IOSC always, a PLL as its status says. -/
def SourceReady (s : State) (n src : Nat) : Prop :=
  src = 2 ∨ src = 0 ∧ s.fld (Csr.clkPllSts_ready_a n) = 1 ∨ src = 1 ∧ s.fld (Csr.clkPllSts_ready_b n) = 1

/-- A PLL word that domain `n` accepts (R401): VCO of 3.2 to 6.4 GHz, a legal divider, an output within the domain's
limit. -/
def PllAllowed (n : Nat) (v : W64) : Prop :=
  let m := bits v 0 2 + 1
  let vco := 100 * (bits v 2 8 * 65536 + bits v 10 16)
  let p := bits v 26 3
  3200 * 65536 * m ≤ vco ∧ vco ≤ 6400 * 65536 * m ∧ p < 5 ∧ vco * 32 ≤ domMax n * 65536 * m * 2 ^ (p + 1)

/-- PLLs: a write to the PLL a domain runs from, or of a word it does not accept, sets cfg_err alone; any other gives
the PLL its word and makes it not READY (R401). PLL_READY shows an enabled PLL READY (R399); a PLL that loses its lock
is not READY, and where the domain ran from it, the domain is on IOSC, a step of its die is over and PLL_UNLOCK is
reported (R405). -/
def PllsFollowTheirRules : Prop :=
  (∀ (n : Nat) (b : Bool) (v : W64) (s : State), n < 54 →
    ∃ t, exec (.pllWrite n b v) s = .next t ∧
      ((s.fld (Csr.clkSrc_cur n) = b2n b ∨ ¬ PllAllowed n v) → Sets [(Csr.clkPllSts_cfg_err n, 1)] s t) ∧
      (s.fld (Csr.clkSrc_cur n) ≠ b2n b → PllAllowed n v → Sets [(pllRdy n b, 0), (⟨pllReg n b, 0, 30⟩, v.toNat)] s t)) ∧
  (∀ (n : Nat) (b : Bool) (s : State), n < 54 → (s.word (pllReg n b)).getLsbD 29 = true →
    ∃ t, exec (.pllReady n b) s = .next t ∧ Sets [(pllRdy n b, 1)] s t) ∧
  ∀ (n : Nat) (b : Bool) (s : State), n < 54 →
    ∃ t, exec (.pllUnlock ⟨n, b⟩) s = .next t ∧
      (s.fld (Csr.clkSrc_cur n) ≠ b2n b → Sets [(pllRdy n b, 0)] s t) ∧
      (s.fld (Csr.clkSrc_cur n) = b2n b → ∃ u, Switches [(pllRdy n b, 0), (Csr.clkPllSts_unlock n, 1)] s u n 2 ∧
        t = (u.bootAdvance.endStep n).raiseM (devEvent 4 0x0103 sevWarn none 0 (BitVec.ofNat 64 n)))

/-- Switching: a request for a READY source switches, unless the die's clock is stretched and would rise, when it is
held (R402 to R404, R430); one for another source is refused and reported. A held switch is tested again once the
stretch ends. -/
def ClockSwitches : Prop :=
  (∀ (n src : Nat) (s : State), n < 54 →
    ∃ t, exec (.clkSwitchRequest n src) s = .next t ∧
      (¬ SourceReady s n src → ∃ u, Sets [(Csr.clkSrc_refused n, 1)] s u ∧
        t = u.raiseM (devEvent 4 0x0104 sevInfo none 0 (BitVec.ofNat 64 n))) ∧
      (SourceReady s n src → s.fld (Csr.clkSrc_cur n) = src →
        if s.fld (Csr.clkSrc_pending n) = 1 then t = s else Sets [(Csr.clkSrc_sel n, src)] s t) ∧
      (SourceReady s n src → s.fld (Csr.clkSrc_cur n) ≠ src → s.stretched n = true → s.raises n src = true →
        Sets [(Csr.clkSrc_sel n, src), (Csr.clkSrc_pending n, 1)] s t) ∧
      (SourceReady s n src → s.fld (Csr.clkSrc_cur n) ≠ src → (s.stretched n = false ∨ s.raises n src = false) →
        ∃ u, Switches [(Csr.clkSrc_sel n, src)] s u n src ∧ t = u.bootAdvance)) ∧
  ∀ (n : Nat) (s : State), n < 54 → s.fld (Csr.clkSrc_pending n) = 1 → s.stretched n = false →
    let src := s.fld (Csr.clkSrc_sel n)
    ∃ t u, exec (.heldSwitchProceed n) s = .next t ∧
      (SourceReady s n src → Switches [] s u n src ∧ t = u.bootAdvance.finishStep n) ∧
      (¬ SourceReady s n src → Sets [(Csr.clkSrc_pending n, 0), (Csr.clkSrc_refused n, 1)] s u ∧
        t = (u.raiseM (devEvent 4 0x0104 sevInfo none 0 (BitVec.ofNat 64 n))).endStep n)

/-- The clock monitor and the crossings: each window counts REFCLK edges, 32 good ones in a row qualify it and two bad
ones lose it (R398, R406, R407); IOSC_STABLE and the timeout of R408 show themselves; a crossing admits traffic once a
side that has left reset has asked and been answered, and what waited for it goes on (R415); the oldest transfer that
has waited too long ends with RESET_PEER (R414). -/
def MonitorAndCrossings : Prop :=
  (∀ s : State, ∃ t u, exec .ioscStable s = .next t ∧ Sets [(Csr.clkSts_iosc_ok, 1)] s u ∧ t = u.bootAdvance) ∧
  (∀ (edges : Nat) (s : State), s.fld Csr.clkSts_iosc_ok = 1 →
    ∃ t u, exec (.clkmonWindow edges) s = .next t ∧
      if s.fld Csr.clkMon_lo ≤ edges ∧ edges ≤ s.fld Csr.clkMon_hi then
        let good := min 63 (s.fld Csr.clkSts_good_windows + 1)
        let seen := [(Csr.clkMon_last_count, min 4095 edges), (Csr.clkSts_good_windows, good)]
        if good = 32 ∧ s.fld Csr.clkSts_ref_ok = 0 then
          Sets (seen ++ [(Csr.clkSts_ref_ok, 1), (Csr.clkSts_lost_state, 0)]) { s with badWindows := 0, refUnqual := false } u ∧
          t = (if s.fld Csr.clkSts_lost_state = 1 then u.raiseM (devEvent 4 0x0102 sevInfo none 0 0) else u).bootAdvance
        else Sets seen { s with badWindows := 0 } u ∧ t = u
      else
        Sets [(Csr.clkMon_last_count, min 4095 edges), (Csr.clkSts_good_windows, 0),
          (Csr.clkMon_oor, min 65535 (s.fld Csr.clkMon_oor + 1))] { s with badWindows := s.badWindows + 1 } u ∧
        t = if s.badWindows = 1 ∧ s.fld Csr.clkSts_ref_ok = 1 then u.loseRefclk else u) ∧
  (∀ s : State, s.fld Csr.clkSts_iosc_ok = 1 → s.fld Csr.clkSts_ref_ok = 0 → s.fld Csr.clkSts_lost_state = 0 →
    s.refUnqual = false → exec .refclkUnqualTimeout s =
      .next ({ s with refUnqual := true }.raiseM (devEvent 4 0x0105 sevWarn none 0 0))) ∧
  (∀ (x : Nat) (s : State), x ≤ 100 → x ∉ s.admitted → x ∉ s.readyReq →
    (x < 32 → s.fld (Csr.prtPart_state x) = 0) → (32 ≤ x ∧ x < 76 → s.fld (Csr.cfgD2dSts_up (x - 32)) = 1) →
    (76 ≤ x ∧ x < 100 → s.portState (x - 76) = psUp ∨ s.portState (x - 76) = psHeld) → (x = 100 → s.pcieUp = true) →
    exec (.crossingReadyRequest x) s = .next { s with readyReq := s.readyReq ++ [x] }) ∧
  (∀ (x : Nat) (s : State), x ∈ s.readyReq →
    ∃ t, exec (.crossingReadyAck x) s = .next t ∧
      let u : State := { s with readyReq := s.readyReq.filter (· != x), admitted := s.admitted ++ [x] }
      t = if 76 ≤ x ∧ x < 100 then u.pump (x - 76) [] (u.port (x - 76)).queue
        else ((u.fenced.filter (fun f => f.1 = x)).map (fun f => f.2)).foldl State.goOn
          { u with fenced := u.fenced.filter (fun f => f.1 ≠ x) }) ∧
  (∀ (x : Nat) (s : State), x < 76 ∨ x = 100 →
    (∀ f, s.fenced.find? (fun f => f.1 == x) = some f →
      ∃ t, exec (.crossingBackpressureTimeout x) s = .next t ∧
        let u : State := { s with fenced := s.fenced.erase f }
        t = u.giveUp f.2 stResetPeer ∧
        (∀ j e, f.2 = .move j e → t = u.failMove j.owner stResetPeer) ∧
        (∀ o e, f.2 = .signal o e → t = u.failMove o stResetPeer) ∧
        ∀ o a bs, f.2 = .data o a bs → t = u.failMove o stResetPeer) ∧
    (s.fenced.find? (fun f => f.1 == x) = none → exec (.crossingBackpressureTimeout x) s = .next s)) ∧
  ∀ (n : Nat) (s : State), n < 24 →
    ((s.port n).queue = [] → exec (.crossingBackpressureTimeout (76 + n)) s = .next s) ∧
    ∀ q rest, (s.port n).queue = q :: rest →
      ∃ t, exec (.crossingBackpressureTimeout (76 + n)) s = .next t ∧ t = s.portTimeout n ∧
        (q.from_ = none → q.pkt.type ≠ ptData → t = { s with ports := t.ports } ∧
          t.port n = { s.port n with queue := rest.filter (fun x => x ≠ q) })

/-- Memory and the links of the package: a scrub of a tile takes its lines in ascending window offset, and counts and
reports what it finds in the line it is at, as a check of a stack does what it finds there (R168, R169); refresh
changes nothing; HBM_TRAINED shows a stack trained, or failed with its replacement reason (Table 16.2); a link whose
flits cannot be retried leaves the up state with its crossing fenced and retrains, is up again, with the lanes that
repair replaced, when that succeeds, and is taken down after three failures, what waited for it ending with
D2D_UNREACH (R150, R158, Table 5.7). -/
def MemoryAndDieLinks : Prop :=
  (∀ (n : Nat) (e : Ecc) (s : State), n < 2048 → s.fld Csr.memCtl_sram_scrub = 1 →
    let line := (s.tile n).scrubLine
    let u := s.setTile n { s.tile n with scrubLine := (line + 1) % 49152 }
    ∃ t, exec (.sramScrub n e) s = .next t ∧
      (∀ a, sramBase n + 64 * line ≤ a → a < sramBase n + 64 * line + 64 →
        (e = .corrected a → t = u.memCe a) ∧
        (e = .uncorrectable a →
          t = if s.fld (Csr.prtPart_assigned_act (partOf n)) = 1 then u.memUe a none else u)) ∧
      (e = .ok → t = u)) ∧
  (∀ (k a : Nat) (s : State), region a = .pkg k →
    exec (.hbmEcs k (.corrected a)) s = .next (s.memCe a) ∧
    exec (.hbmEcs k (.uncorrectable a)) s = .next (s.memUe a none)) ∧
  (∀ (n : Nat) (s : State), exec (.hbmEcs n .ok) s = .next s ∧ exec (.hbmRefresh n) s = .next s) ∧
  (∀ (k : Nat) (ok : Bool) (s : State), k < 8 → s.fld (Csr.memHbmSts_trained k) = 0 → s.fld (Csr.memHbmSts_failed k) = 0 →
    ∃ t u, exec (.hbmTrained k ok) s = .next t ∧
      Sets [(if ok then Csr.memHbmSts_trained k else Csr.memHbmSts_failed k, 1)] s u ∧
      t = (if ok then u else u.setReason 3).memoryDone) ∧
  (∀ (k : Nat) (s : State), k < 44 → s.fld (Csr.cfgD2dSts_up k) = 1 →
    ∃ t u, exec (.d2dRetryFail k) s = .next t ∧
      Sets [(Csr.cfgD2dSts_retries k, min (2 ^ (Csr.cfgD2dSts_retries k).w - 1) (s.fld (Csr.cfgD2dSts_retries k) + 1)),
          (Csr.cfgD2dSts_up k, 0),
          (Csr.cfgD2dSts_attempts k, min (2 ^ (Csr.cfgD2dSts_attempts k).w - 1) (s.fld (Csr.cfgD2dSts_attempts k) + 1))]
        { s with d2dFails := NMap.erase s.d2dFails k, admitted := s.admitted.filter (· != 32 + k),
                 readyReq := s.readyReq.filter (· != 32 + k) } u ∧
      t = u.raise (linkEvent k 0x0A20 sevInfo (linkHub k) none)) ∧
  ∀ (k : Nat) (s : State), k < 44 → s.fld (Csr.cfgD2dSts_up k) = 0 → s.fld (Csr.cfgD2dSts_down k) = 0 →
    (∀ lanes, ∃ t u, exec (.d2dRetrainDone k (some lanes)) s = .next t ∧
      Sets [(Csr.cfgD2dSts_up k, 1), (Csr.cfgD2dSts_lanes_repaired k, lanes)]
        { s with d2dFails := NMap.erase s.d2dFails k } u ∧ t = u.bootAdvance) ∧
    ∃ t, exec (.d2dRetrainDone k none) s = .next t ∧
      let fails := NMap.get (fun _ => 0) s.d2dFails k + 1
      if fails < 3 then
        ∃ u, Sets [(Csr.cfgD2dSts_attempts k,
            min (2 ^ (Csr.cfgD2dSts_attempts k).w - 1) (s.fld (Csr.cfgD2dSts_attempts k) + 1))]
          { s with d2dFails := NMap.insert s.d2dFails k fails } u ∧ t = u.raise (linkEvent k 0x0A20 sevInfo (linkHub k) none)
      else ∃ u v : State, Sets [(Csr.cfgD2dSts_down k, 1)] { s with d2dFails := NMap.erase s.d2dFails k } u ∧
        v = ((u.fenced.filter (fun f => f.1 = 32 + k)).map (fun f => f.2)).foldl (fun v h => v.giveUp h stUnreach)
          { u with fenced := u.fenced.filter (fun f => f.1 ≠ 32 + k) } ∧
        let parts := if 24 ≤ k ∧ k < 40 then [2 * (k - 24), 2 * (k - 24) + 1] else []
        t = ((parts.foldl State.withdraw (parts.foldl (fun w p => w.abortPart p 0x0A21)
          (v.raise (linkEvent k 0x0A21 sevFault (linkHub k) none)))).setReason 1).bootAdvance

/-- A row's re-map: CFG_TILE_MAP_WRITE leaves the bypass in force and starts a re-map where R148 accepts it, else sets
refused and nothing else; REMAP_SWITCH shows the new bypass and zeroes the row's SRAM, and REMAP_DONE ends it with its
event, one accepted after it still to come (R149). SVC_REPAIR with go resets its partition with the re-map inserted,
or is refused (R448); SVC_REPL_SET sets its reasons in turn (R450). -/
def RowsAreRemapped : Prop :=
  (∀ (d y : Nat) (v : W64) (s : State), d < 16 → y < 8 →
    let ok := s.fld (Csr.prtPart_assigned_act (2 * d + y / 4)) ≠ 1 ∧
      (∀ i < 64, (s.tile (tileOf (2 * d + y / 4) i)).state = tsReset) ∧ s.fld (Csr.cfgTileMap_factory d y) = 16 ∧
      bits v 0 5 ≤ 16
    ∃ t u, exec (.cfgTileMapWrite d y v) s = .next t ∧
      u = (s.genWrite (Csr.cfgTileMap d y) v).setFld (Csr.cfgTileMap_bypass d y) (s.fld (Csr.cfgTileMap_bypass d y)) ∧
      u.fld (Csr.cfgTileMap_bypass d y) = s.fld (Csr.cfgTileMap_bypass d y) ∧
      (ok → t = { u with remaps := s.remaps ++ [(d, y, bits v 0 5)] }) ∧
      (¬ ok → Sets [(Csr.cfgTileMap_refused d y, 1)] s t)) ∧
  (∀ (d y b : Nat) (s : State), d < 16 → y < 8 → s.remaps.find? (fun x => x.1 == d && x.2.1 == y) = some (d, y, b) →
    (d, y) ∉ s.switched →
    ∃ t, exec (.remapSwitch d y) s = .next t ∧
      Sets [(Csr.cfgTileMap_bypass d y, b),
          (Csr.cfgTileMap_spare_free d y, if b = 16 ∧ s.fld (Csr.cfgTileMap_factory d y) = 16 then 1 else 0)]
        { s with mem := t.mem, ueWords := t.ueWords, switched := s.switched ++ [(d, y)] } t ∧
      ∀ a, ((∃ x < 16, sramBase (128 * d + 16 * y + x) ≤ a ∧ a < sramBase (128 * d + 16 * y + x) + sramSize) → t.byte a = 0) ∧
        ((∀ x < 16, a < sramBase (128 * d + 16 * y + x) ∨ sramBase (128 * d + 16 * y + x) + sramSize ≤ a) →
          t.byte a = s.byte a)) ∧
  (∀ (d y : Nat) (s : State), (d, y) ∈ s.switched →
    ∃ t u, exec (.remapDone d y) s = .next t ∧
      Sets [(Csr.cfgTileMap_done d y, 1)]
        { s with remaps := s.remaps.eraseP (fun x => x.1 == d && x.2.1 == y),
                 switched := s.switched.filter (· != (d, y)) } u ∧
      t = u.raise (devEvent 0 0x0A22 sevInfo (some (2 * d + y / 4)) 0 0)) ∧
  (∀ (v : W64) (s : State), ∃ t, exec (.svcRepair v) s = .next t ∧
    let u := s.genWrite Csr.svcRepair v
    let p := bits v 0 5
    let y := u.fld Csr.svcRepair_row
    let b := u.fld Csr.svcRepair_pos
    u.fld Csr.svcRepair_part = p ∧
    if v.getLsbD 13 then
      if u.repairOk p y b then
        t = { u.startReset p with repairing := s.repairing ++ [p], remaps := (u.startReset p).remaps ++ [(p / 2, y, b)] }
      else t = (u.setFld Csr.svcRepair_refused 1).raise (devEvent 0 0x0A05 sevWarn (some p) 0 0)
    else t = u) ∧
  ∀ (v : W64) (s : State), exec (.svcReplSet v) s =
    .next (((List.range 4).filter (fun b => v.getLsbD b)).foldl State.setReason s)

end Sys2Proof.Claims

/-- PLLs, TCLK switches, the clock monitor and the crossings. -/
def Obligations.ClocksAndCrossings : Prop := PllsFollowTheirRules ∧ ClockSwitches ∧ MonitorAndCrossings

/-- The upkeep of memory, the die-to-die links, and row re-maps with repairs. -/
def Obligations.MemoryLinksAndRows : Prop := MemoryAndDieLinks ∧ RowsAreRemapped

/-! ## Rings and descriptors -/

namespace Sys2Proof.Claims

/-- The commands and indices of a ring (R186 to R191, R200, R508): a LOAD from DISABLED or STOPPED reads its entry,
and once read a context that R187 admits is RUNNING from index 0, kind 0 leaves the ring DISABLED, and any other sets
ctx_err and raises RING_CTX_INVALID; while a crossing or a stack holds the read back, the LOAD goes on (R414); STOP
and RESUME change RUNNING and STOPPED; another state discards the command with ctx_err. -/
def RingCommands : Prop :=
  (∀ (p i : Nat) (s : State), p < 32 → i < 1024 →
    let r := 1024 * p + i
    let idle := s.fld (Csr.memRingCmd_busy p) ≠ 1
    (∃ t, exec (.ringLoad p i) s = .next t ∧
      if idle ∧ s.fld (Csr.prtPart_state p) ≠ ptWithdrawn ∧
          (s.fld (Csr.memRingSts_state r) = 0 ∨ s.fld (Csr.memRingSts_state r) = 3) then
        Sets [(Csr.memRingCmd_busy p, 1)] { s with loading := NMap.insert s.loading p i } t
      else Sets [(Csr.memRingSts_ctx_err r, 1)] s t) ∧
    (∃ t, exec (.ringStop p i) s = .next t ∧
      if idle ∧ s.fld (Csr.memRingSts_state r) = 1 then
        Sets [(Csr.memRingSts_state r,
          if s.fld (Csr.memRingSts_kind r) ≠ 4 ∧ s.fetched.any (fun f => f.ring == r) then 2 else 3)] s t
      else Sets [(Csr.memRingSts_ctx_err r, 1)] s t) ∧
    ∃ t, exec (.ringResume p i) s = .next t ∧
      if idle ∧ s.fld (Csr.memRingSts_state r) = 3 then
        ∃ u, Sets [(Csr.memRingSts_state r, 1)] s u ∧
          t = if s.fld (Csr.memRingSts_kind r) = 4 then u.drainP p 64 else u
      else Sets [(Csr.memRingSts_ctx_err r, 1)] s t) ∧
  ∀ (p i : Nat) (e : Ecc) (s : State), NMap.find? s.loading p = some i →
    let r := 1024 * p + i
    let a := (s.word (Csr.memRctx p) &&& 0xFFFFFFFF0000).toNat + 64 * i
    (s.heldAt (some p) none (hubOf p) a ≠ none → exec (.ringLoadComplete p e) s = .next s) ∧
    (s.heldAt (some p) none (hubOf p) a = none → ∃ t u v w : State, exec (.ringLoadComplete p e) s = .next t ∧
      Sets [(Csr.memRingCmd_busy p, 0)] { s with loading := NMap.erase s.loading p } u ∧ v = (u.ringRead p a e).1 ∧
      match (if (u.ringRead p a e).2 ≠ none ∨ v.owns p a 64 = false then none else v.parseContext r (v.words a 8)) with
      | some (kind, some c) =>
        Sets [(Csr.memRingIdx_idx r, 0), (Csr.memRingSts_dev_idx r, 0), (Csr.memRingSts_kind r, kind),
          (Csr.memRingSts_state r, 1)] { v with rings := NMap.insert v.rings r c } w ∧
        t = if kind % 8 = 4 then w.drainP (r / 1024) 64 else w
      | some (_, none) =>
        Sets [(Csr.memRingIdx_idx r, 0), (Csr.memRingSts_dev_idx r, 0), (Csr.memRingSts_kind r, 0),
          (Csr.memRingSts_state r, 0)] { v with rings := NMap.erase v.rings r } w ∧ t = w
      | none =>
        Sets [(Csr.memRingIdx_idx r, 0), (Csr.memRingSts_dev_idx r, 0), (Csr.memRingSts_kind r, 0),
          (Csr.memRingSts_state r, 0), (Csr.memRingSts_ctx_err r, 1)] { v with rings := NMap.erase v.rings r } w ∧
        t = w.raise (hubEvent 0 p 0x0508 sevFault (BitVec.ofNat 64 (i * 2 ^ 32)) 0))

/-- Index writes (R189, Table 6.8): one that stays within the ring is taken, and lets held records through on an EVENT
ring and on the M-level ring (R200); any other, and any to a DISABLED ring or to the collective ring of a sequencer
that runs (R356), sets overrun where there is one and raises RING_OVERRUN. MEVQ_CFG_WRITE takes a base and size that
R508 admits, from index 0 where they change, or sets cfg_err. -/
def RingIndicesAdvance : Prop :=
  (∀ (r : Nat) (v : W64) (i : Instr) (s : State), r < 32768 → (i = .ringDoorbell r v ∨ i = .eventRingConsume r v) →
    let x := bits v 0 32
    let host := s.fld (Csr.memRingIdx_idx r)
    let dev := s.fld (Csr.memRingSts_dev_idx r)
    let spills := fun (t : State) => ∃ u, Sets [(Csr.memRingSts_overrun r, 1)] s u ∧
      t = u.raise (hubEvent 0 (r / 1024) 0x0507 sevFault (BitVec.ofNat 64 (r % 1024 * 2 ^ 32)) 0)
    ∃ t, exec i s = .next t ∧
      (s.fld (Csr.memRingSts_state r) = 0 → spills t) ∧
      (s.fld (Csr.memRingSts_state r) ≠ 0 → s.seqHolds r = true → spills t) ∧
      (s.fld (Csr.memRingSts_state r) ≠ 0 → s.seqHolds r = false →
        (∀ c, s.fld (Csr.memRingSts_kind r) ≠ 4 → s.ring? r = some c →
          if (x + 2 ^ 32 - host) % 2 ^ 32 ≤ 2 ^ c.sizeLog2 - (host + 2 ^ 32 - dev) % 2 ^ 32 then
            Sets [(Csr.memRingIdx_idx r, x)] s t else spills t) ∧
        (s.fld (Csr.memRingSts_kind r) = 4 →
          if (x + 2 ^ 32 - host) % 2 ^ 32 ≤ (dev + 2 ^ 32 - host) % 2 ^ 32 then
            ∃ u, Sets [(Csr.memRingIdx_idx r, x)] s u ∧ t = u.drainP (r / 1024) 64
          else spills t))) ∧
  (∀ (v : W64) (s : State),
    let x := bits v 0 32
    let cons := s.fld Csr.memMevqCons_cons
    ∃ t, exec (.mevqConsume v) s = .next t ∧
      if (x + 2 ^ 32 - cons) % 2 ^ 32 ≤ (s.fld Csr.memMevqSts_prod + 2 ^ 32 - cons) % 2 ^ 32 then
        ∃ u, Sets [(Csr.memMevqCons_cons, x)] s u ∧ t = u.drainM 64
      else t = s.raiseM (hubUnitEvent 1 0 0x0507 sevFault 0 0)) ∧
  ∀ (v : W64) (s : State),
    let base := bits v 0 48
    let size := bits v 48 5
    let bytes := 32 * 2 ^ size
    let bad := 4 ≤ size ∧ size ≤ 16 ∧ ¬ (base % bytes = 0 ∧ memRange base bytes = true ∧ (∃ k, region base = .pkg k) ∧
      s.stackFailed base = false ∧ s.stackFailed (base + bytes - 1) = false)
    ∃ t, exec (.mevqCfgWrite v) s = .next t ∧
      (bad → Sets [(Csr.memMevqSts_cfg_err, 1)] s t) ∧
      (¬ bad → ∃ u, t = u.drainM 64 ∧
        if base ≠ s.fld Csr.memMevqCfg_base ∨ size ≠ s.fld Csr.memMevqCfg_size_log2 then
          Sets [(Csr.memMevqCfg_base, base), (Csr.memMevqCfg_size_log2, size), (Csr.memMevqSts_prod, 0),
            (Csr.memMevqCons_cons, 0)] s u
        else u.fld Csr.memMevqCfg_base = base ∧ u.fld Csr.memMevqCfg_size_log2 = size ∧
          Sets [(Csr.memMevqCfg_base, base), (Csr.memMevqCfg_size_log2, size)] s u)

/-- A fetched descriptor with its effect done and a status; nothing gathered for it stays. -/
def Ended (s : State) (f : Fetched) (st : Nat) : State :=
  { s with staged := s.staged.filter (fun e => e.1 != .desc f.ring f.idx),
           fetched := s.fetched.map (fun g =>
             if g.ring = f.ring ∧ g.idx = f.idx then { g with status := some st, remote := false } else g) }

/-- A descriptor of a ring that may start, the only one of its ring and index, with nothing of it under way. -/
def DescReady (s : State) (f : Fetched) (op : Nat) : Prop :=
  s.startable f.ring op = some f ∧ (∀ g ∈ s.fetched, g.ring = f.ring → g.idx = f.idx → g = f) ∧ s.moverReady f.ring = true ∧
  s.waitsFor (.desc f.ring f.idx) = false

/-- The move of a descriptor whose destination, and source where it has one, are local addresses. -/
def descMove (s : State) (f : Fetched) (src : MoveSrc) (a : Nat) : MoveJob :=
  ⟨.desc f.ring f.idx, f.ring / 1024, true, (s.ringTile f.ring).map (fun n => n / 128), src, .da,
    descRuns a (bits (descWord f.words 0x10) 0 60) f.words⟩

/-- A tile as LAUNCH prepares it (R237). -/
def Launched (a b : Tile) (entry : W64) (arg : W64) (priv : Nat) (tvec : W64) (phase rank count : Nat) : Prop :=
  b = { a with csr := b.csr, sreg := b.sreg, dreg := [], kreg := [], ibuf := [], fills := [], fetchErr := [],
               pc := entry.toNat, phase := phase, wait := .none, bpPassed := false } ∧
  (∀ r, b.s r = if r = 1 then arg else if r = 2 then BitVec.ofNat 64 rank
    else if r = 3 then BitVec.ofNat 64 count else 0) ∧
  b.state = tsRunning ∧ b.fld Csr.tcStatus_priv = priv % 2 ∧
  b.fld Csr.tcStatus_epriv = priv % 2 ∧ b.fld Csr.tcTvec_vec = bits tvec 3 45 ∧
  (∀ o ∈ [Csr.tcEpc, Csr.tcCause, Csr.tcTval, Csr.tcInstret], b.word o = 0) ∧
  ∀ o, o ∉ [Csr.tcEpc, Csr.tcCause, Csr.tcTval, Csr.tcInstret, Csr.tcStatus, Csr.tcTvec] → b.word o = a.word o

/-- Descriptors of SUBMIT and MOVE rings: NOP ends at once; COPY and FILL between local addresses move their rows,
R195's checks passed, FILL writing byte a with pattern byte a mod 8 (R193, Table 6.12); LAUNCH starts its tiles from
IDLE with entry, argument, rank and count, or ends INVALID or BUSY with no tile changed (R236, R237); the data of a
host read goes to its place, which takes it as it takes any write (R377), and the move goes on once all of it has come
(R182); a crossing that is fenced holds it back (R414), and a check that fails ends the move. -/
def DescriptorsRun : Prop :=
  (∀ (f : Fetched) (s : State), s.startable f.ring 0 = some f → exec (.descNop f.ring) s = .next (Ended s f 0)) ∧
  (∀ (f : Fetched) (s : State),
    let ws := f.words
    let rows := bits (descWord ws 0x18) 32 32
    let plain := bits (descWord ws 0x18) 0 32 ≠ 0 ∧ 0 < rows ∧ rows ≤ 2 ^ 24 ∧ descWord ws 0x28 = 0 ∧
      bits (descWord ws 0x10) 60 4 = 0
    (DescReady s f 1 → plain → descWord ws 0x30 = 0 → bits (descWord ws 0x08) 60 4 = 0 →
      let j := descMove s f (.side .da) (bits (descWord ws 0x08) 0 60)
      j.overlap = false → j.held s = none → (∀ r ∈ j.runs, j.runFail s .ok r = none) →
      exec (.descCopy f.ring .ok) s =
        .next (Ended { s with mem := (copyRuns s j.runs).mem, ueWords := (copyRuns s j.runs).ueWords } f 0)) ∧
    (DescReady s f 2 → plain → descWord ws 0x08 = 0 → bits (descWord ws 0x20) 0 32 = 0 →
      let j := descMove s f (.pattern (descWord ws 0x30)) 0
      j.held s = none → (∀ r ∈ j.runs, j.runFail s .ok r = none) →
      ∃ t, exec (.descFill f.ring) s = .next t ∧ t = Ended { s with mem := t.mem, ueWords := t.ueWords } f 0 ∧
        ∀ a : Nat, ((∃ r ∈ j.runs, r.2.1 ≤ (a : Int) ∧ (a : Int) < r.2.1 + r.2.2) →
            t.byte a = BitVec.ofNat 8 ((descWord ws 0x30).toNat / 2 ^ (8 * (a % 8)))) ∧
          ((∀ r ∈ j.runs, (a : Int) < r.2.1 ∨ r.2.1 + r.2.2 ≤ (a : Int)) → t.byte a = s.byte a))) ∧
  (∀ (f : Fetched) (s : State), s.startable f.ring 0x10 = some f →
    let p := f.ring / 1024
    let st := s.launchCheck p f.words
    let tiles := descWord f.words 0x08
    let rank := fun (n : Nat) => ((List.range (n % 64)).filter (fun i => tiles.getLsbD i)).length
    (∀ n, Named p tiles n = true → (s.tile n).haltReq = false ∧ (s.tile n).stepping = false) → p < 32 →
    ∃ t, exec (.launch f.ring) s = .next t ∧
      if st = 0 then t = { Ended s f 0 with tiles := t.tiles } ∧
        ∀ n, if Named p tiles n then Launched (s.tile n) (t.tile n) (descWord f.words 0x10) (descWord f.words 0x18)
            (bits (descWord f.words 0x20) 0 1) (descWord f.words 0x28) 0 (rank n)
            ((List.range 64).filter (fun i => tiles.getLsbD i)).length
          else t.tile n = s.tile n
      else t = Ended s f st) ∧
  ∀ (ring : Nat) (h : HostRd) (data : List Byte) (e : Ecc) (s : State), s.hostReads.find? (fun x => x.ring == ring) = some h →
    let o := XOwner.desc h.ring h.idx
    let p := h.ring / 1024
    let die := (s.ringTile h.ring).map (fun n => n / 128)
    let bs := data.take h.len
    let u : State := { s with hostReads := if data.length < h.len then s.hostReads.map (fun x =>
            if x = h then { x with addr := x.addr + data.length, len := x.len - data.length } else x)
          else s.hostReads.erase h }
    ∃ t, exec (.hostReadCompletion ring data e) s = .next t ∧
      (h.dst ≠ .da ∨ data = [] → t = (u.deliver o p true h.dst h.addr bs).afterData o e) ∧
      (h.dst = .da → bs ≠ [] →
        (∀ x, s.heldAt (some p) die (hubOf p) h.addr = some x → t = { u with fenced := s.fenced ++ [(x, .data o h.addr bs)] }) ∧
        (s.heldAt (some p) die (hubOf p) h.addr = none →
          (∀ st, s.accessFail (.loc p true) die (hubOf p) .write h.addr bs.length = some st →
            t = (if st = stProt then u.deny (.loc p true) h.addr else u).failMove o st) ∧
          (s.accessFail (.loc p true) die (hubOf p) .write h.addr bs.length = none →
            eccWithin e .write h.addr bs.length = .ok →
            ∃ v : State, v = { u with mem := v.mem, ueWords := v.ueWords } ∧ t = v.afterData o e ∧ ∀ a, v.byte a =
              if h.addr ≤ a ∧ a < h.addr + bs.length then data.getD (a - h.addr) 0 else s.byte a)))

/-- DESC_FETCH takes the next entry of the ring whose turn it is, with the status that its read or its form gives it
and a tracked transfer where it needs one (R190, R196); DESC_COMPLETE of a finished entry writes its status word,
raises DESC_ERROR or the completion event it asks for, moves the consumer index past every entry that has completed in
order, stops a STOPPING ring whose entries have ended, and returns the transfer (R188, R191, R192, R195). -/
def DescriptorsAreFetchedAndCompleted : Prop :=
  (∀ (p r : Nat) (c : Ring) (s : State), p < 32 → s.fld (Csr.prtPart_state p) = ptReady → s.linkDown (24 + p / 2) = false →
    s.nextRing p = some r → s.ring? r = some c →
    let a := c.base + 64 * (c.fetched % 2 ^ c.sizeLog2)
    let ws := s.words a 8
    s.accessFail (.loc p true) none (hubOf p) .read a 64 = none → s.heldAt (some p) none (hubOf p) a = none →
    s.fld (Csr.memTt_in_use p) < 8192 →
    ∃ t u : State, exec (.descFetch p .ok) s = .next t ∧
      (if tracked ws then Sets [(Csr.memTt_in_use p, s.fld (Csr.memTt_in_use p) + 1),
          (Csr.memTt_high_water p, max (s.fld (Csr.memTt_high_water p)) (s.fld (Csr.memTt_in_use p) + 1))]
        { s with rings := u.rings, lastRing := u.lastRing, fetched := u.fetched } u
      else u.csr = s.csr) ∧
      u = { s with csr := u.csr, rings := NMap.insert s.rings r { c with fetched := (c.fetched + 1) % 2 ^ 32 },
                   lastRing := NMap.insert s.lastRing p r,
                   fetched := s.fetched ++ [⟨r, c.fetched, ws, fetchStatus (s.fld (Csr.memRingSts_kind r)) ws, false,
                     tracked ws, false, s.fld Csr.dtmModeCur_epoch⟩] } ∧
      t = u.acceptColl r .ok) ∧
  ∀ (f : Fetched) (st : Nat) (c : Ring) (s : State),
    s.fetched.find? (fun g => g.ring == f.ring && g.status.isSome) = some f → f.status = some st → s.ring? f.ring = some c →
    let r := f.ring
    let a := c.base + 64 * (f.idx % 2 ^ c.sizeLog2) + 4
    let h := f.words.headD 0
    let d0 := BitVec.ofNat 64 (st + bits h 16 16 * 2 ^ 16 + r % 1024 * 2 ^ 32)
    let d1 := descWord f.words 0x38
    ∃ t u v w : State, exec (.descComplete r) s = .next t ∧
      u = { s with mem := u.mem, ueWords := u.ueWords, fetched := s.fetched.erase f } ∧
      u.load a 4 = (st + 2 ^ 31) % 2 ^ 32 ∧ (∀ x, (x < a ∨ a + 4 ≤ x) → u.byte x = s.byte x) ∧
      v = (if st ≠ 0 then (u.noteDone r f.idx st).raiseXfer c.evq (hubEvent 0 (r / 1024) 0x0509 sevFault d0 d1)
        else if h.getLsbD 8 then (u.noteDone r f.idx st).raiseXfer c.evq (hubEvent 0 (r / 1024) 0x050A sevInfo d0 d1)
        else u.noteDone r f.idx st) ∧
      (let done := f.idx :: c.doneIdx
       let idx := advanceIdx done (done.length + 1) (v.fld (Csr.memRingSts_dev_idx r))
       let p := r / 1024
       Sets ((Csr.memRingSts_dev_idx r, idx) ::
          ((if v.fld (Csr.memRingSts_state r) = 2 ∧ v.fetched.any (fun g => g.ring == r) = false then
            [(Csr.memRingSts_state r, 3)] else []) ++
          if f.tracked then [(Csr.memTt_in_use p, v.fld (Csr.memTt_in_use p) - 1)] else []))
        { v with rings := NMap.insert v.rings r { c with
            doneIdx := done.filter (fun i => idxDiff idx i == 0 || decide (2 ^ 31 ≤ idxDiff idx i)) } } w) ∧
      t = w.acceptColl r .ok

end Sys2Proof.Claims

/-- Ring commands and indices. -/
def Obligations.RingsAdvance : Prop := RingCommands ∧ RingIndicesAdvance

/-- Descriptors from fetch to completion. -/
def Obligations.DescriptorsRunInOrder : Prop := DescriptorsRun ∧ DescriptorsAreFetchedAndCompleted

/-! ## Datum time -/

namespace Sys2Proof.Claims

/-- The registers of the Datum unit: DATUM_TICK counts or takes the value loaded, and a second tick interval without
an edge in SLEW or LOCKED enters HOLDOVER, whose ticks it counts and whose bound it computes (R275, R278, R279).
DTM_LOAD is taken while the unit is not aligned; DTM_CTL keeps a src or a period that R276 does not admit, and a new
src moves the unit to FREE or ACQUIRE. -/
def DatumCounts : Prop :=
  (∀ s : State, s.frozen = false →
    ∃ t, exec .datumTick s = .next t ∧ t.count = s.datum.load.getD (s.count + 1) ∧ t.datum.load = none ∧
      t.datum.edge = false ∧ t.tiles = s.tiles ∧ t.otp = s.otp ∧ t.pending = s.pending ∧
      (let empty := if s.datum.edge then 0 else s.datum.empty + 1
       let st := s.fld Csr.dtmSts_state
       if st = dsHoldover then
         t.fld Csr.dtmSts_state = dsHoldover ∧
         t.fld Csr.dtmSts_hold_ticks = min (2 ^ 32 - 1) (s.fld Csr.dtmSts_hold_ticks + 1) ∧
         t.fld Csr.dtmHold_bound_ns =
           min (2 ^ 32 - 1) (driftBound (t.fld Csr.dtmSts_hold_ticks) s.datum.frozen s.wander)
       else if (st = dsSlew ∨ st = dsLocked) ∧ 2 ≤ empty then
         t.fld Csr.dtmSts_state = dsHoldover ∧ t.fld Csr.dtmSts_holdover = 1 ∧ t.fld Csr.dtmSts_hold_seen = 1 ∧
         t.fld Csr.dtmSts_hold_ticks = 0 ∧ t.fld Csr.dtmHold_bound_ns = 2
       else t.fld Csr.dtmSts_state = st ∧ t.word Csr.dtmHold = s.word Csr.dtmHold)) ∧
  (∀ (v : W64) (s : State), ∃ t, exec (.dtmLoad v) s = .next t ∧
    if s.fld Csr.dtmSts_aligned = 1 then t = s
    else ∃ u, Sets [(Csr.dtmSts_aligned, 1)] { s with datum := { s.datum with load := some v } } u ∧
      t = if s.fld Csr.lnkDisc_state = diFlood then u.enterAlign else u) ∧
  (∀ (v : W64) (s : State),
    let src := if bits v 0 2 = 3 then s.fld Csr.dtmCtl_src else bits v 0 2
    let period := if 100 ≤ bits v 2 17 ∧ bits v 2 17 ≤ 100000 then bits v 2 17 else s.fld Csr.dtmCtl_period_10ns
    let ctl := [(Csr.dtmCtl_src, src), (Csr.dtmCtl_period_10ns, period), (Csr.dtmCtl_origin, bits v 19 1),
      (Csr.dtmCtl_wander_ppb, bits v 32 16), (Csr.dtmCtl_slew_ppm, bits v 48 16)]
    ∃ t, exec (.dtmCtlWrite v) s = .next t ∧
      if src = s.fld Csr.dtmCtl_src then Sets ctl s t
      else Sets (ctl ++ [(Csr.dtmSts_state, if src = 0 then dsFree else dsAcquire), (Csr.dtmSts_holdover, 0)])
        { s with datum := { s.datum with past := [], run := 0, good := false, early := none, edge := false, empty := 0,
                                         markAt := none } } t) ∧
  ∀ (v : W64) (s : State), ∃ t, exec (.dtmRelayWrite v) s = .next t ∧
    Sets [(Csr.dtmRelay_upstream, bits v 0 5), (Csr.dtmRelay_up_valid, bits v 5 1), (Csr.dtmRelay_hops, bits v 6 5),
      (Csr.dtmRelay_en_mask, bits v 11 24)]
      { s with datum := { s.datum with deaf := [], markAt := none, good := false } } t

/-- Reference edges (R277, Table 9.1): only an edge of the selected pin counts; in SLEW and LOCKED one a quarter of a
period or less from where it is expected is accepted, and the unit is LOCKED while its offset is within the slew, else
in SLEW; one further off sets edge_err. In ACQUIRE and HOLDOVER an interval within 0.1% counts towards the sixteen
that end them, and any other starts the count again. The offset of an accepted edge is applied to the interval in
progress, by the state the edge has led to, or to the next interval where the edge came before its tick. -/
def DatumEdges : Prop :=
  (∀ (i : Nat) (e : Int) (s : State), (s.fld Csr.dtmCtl_src ≠ srcPin ∨ s.fld Csr.dtmSts_state = dsFree) →
    exec (.datumRefEdge i e) s = .next s) ∧
  ∀ (i : Nat) (e : Int) (s : State), s.fld Csr.dtmCtl_src = srcPin → s.fld Csr.dtmSts_state ≠ dsFree →
    let st := s.fld Csr.dtmSts_state
    let p := s.pNow
    ∃ t, exec (.datumRefEdge i e) s = .next t ∧
      if st = dsAcquire ∨ st = dsHoldover then
        if ((i : Int) - p).natAbs * 1000 ≤ p then
          t.datum.run = s.datum.run + 1 ∧ t.datum.past = (i :: s.datum.past).take 256 ∧ t.datum.e = e ∧ t.datum.good = true ∧
          t.datum.edge = true ∧ t.tiles = s.tiles ∧ t.count = s.count ∧
          t.datum.next = (if 0 ≤ e then s.datum.next else t.nextInterval e) ∧
          t.datum.early = (if 0 ≤ e then some e else s.datum.early) ∧
          if s.datum.run + 1 = 16 then t.fld Csr.dtmSts_state = dsLocked ∨ t.fld Csr.dtmSts_state = dsSlew
          else t.fld Csr.dtmSts_state = st
        else t = { s with datum := { s.datum with run := 0, good := false } }
      else
        if (e - if st = dsSlew then s.datum.e else 0).natAbs * 4 ≤ p then
          let next := s.datum.good = true ∧ s.datum.lag = (if 0 ≤ e then 0 else 1)
          let u := s.acceptEdge (if next then some i else none) e
          t.datum.run = s.datum.run + 1 ∧ t.datum.e = e ∧ t.datum.good = true ∧ t.datum.edge = true ∧
          t.datum.past = ((if next then [i] else []) ++ s.datum.past).take 256 ∧ t.tiles = s.tiles ∧
          t.datum.next = (if 0 ≤ e then s.datum.next else t.nextInterval e) ∧
          t.datum.early = (if 0 ≤ e then some e else s.datum.early) ∧
          t.count = s.count ∧ t.fld Csr.dtmPhase_offset_ns = unsigned 32 (e / 256) ∧
          t.fld Csr.dtmSts_state = (if st = dsSlew ∧ u.withinSlew e = true then dsLocked
            else if st = dsLocked ∧ u.withinSlew e = false then dsSlew else st)
        else Sets [(Csr.dtmSts_edge_err, 1)] { s with datum := { s.datum with good := false } } t

/-- Mode epochs (R286 to R288): while a mode is armed writes of DTM_MODE_PEND and DTM_MODE_T are rejected; arming
takes the next epoch, at least two ticks ahead, with its fields in range, and is rejected otherwise, as is arm with
cancel; a cancel before T - 1 disarms. The mode goes to the units at T - 1 and becomes current at T; one that has not
been sent does not. -/
def ModeEpochs : Prop :=
  (∀ (isT : Bool) (v : W64) (s : State), ∃ t, exec (.dtmModePendWrite isT v) s = .next t ∧
    if s.fld Csr.dtmModeArm_armed = 1 then
      ∃ u, Sets [(Csr.dtmModeArm_rej, 1)] s u ∧ t = u.raiseM (devEvent 2 0x0308 sevWarn none 0 0)
    else t = { s with csr := t.csr } ∧
      ∀ o, t.word o = if o = (if isT then Csr.dtmModeT else Csr.dtmModePend) then v else s.word o) ∧
  (∀ (v : W64) (s : State), ∃ t u : State, exec (.modeArm v) s = .next t ∧ exec (.modeCancel v) s = .next t ∧
    let ahead := (s.word Csr.dtmModeT).toNat - s.count.toNat
    let armed := s.fld Csr.dtmModeArm_armed = 1
    let mode := s.word Csr.dtmModePend
    let rej := if v.getLsbD 3 then 0 else s.fld Csr.dtmModeArm_rej
    let ok := v.getLsbD 1 = false ∧ bits mode 0 32 = (s.fld Csr.dtmModeCur_epoch + 1) % 2 ^ 32 ∧ 2 ≤ ahead ∧ ¬ armed ∧
      bits mode 52 6 ≤ 20 ∧ bits mode 58 6 ≤ 33
    (v.getLsbD 0 = true → ok → Sets [(Csr.dtmModeArm_rej, rej), (Csr.dtmModeArm_armed, 1)] s t) ∧
    (v.getLsbD 0 = true → ¬ ok → Sets [(Csr.dtmModeArm_rej, 1)] s u ∧
      t = u.raiseM (devEvent 2 0x0308 sevWarn none 0 0)) ∧
    (v.getLsbD 0 = false → v.getLsbD 1 = true → armed → 2 ≤ ahead →
      Sets [(Csr.dtmModeArm_rej, rej), (Csr.dtmModeArm_armed, 0)] s t) ∧
    (v.getLsbD 0 = false → (v.getLsbD 1 = false ∨ ¬ armed ∨ ahead < 2) → Sets [(Csr.dtmModeArm_rej, rej)] s t)) ∧
  (∀ s : State, s.fld Csr.dtmModeArm_armed = 1 → (s.word Csr.dtmModeT).toNat ≤ s.count.toNat + 1 →
    exec .modeSend s = .next { s with modeSent := some (s.word Csr.dtmModePend, s.word Csr.dtmModeT) }) ∧
  (∀ s : State, s.modeSent ≠ some (s.word Csr.dtmModePend, s.word Csr.dtmModeT) → exec .modeApply s = .next s) ∧
  ∀ (m T : W64) (s : State), s.modeSent = some (m, T) → m = s.word Csr.dtmModePend → T = s.word Csr.dtmModeT →
    s.fld Csr.dtmModeArm_armed = 1 → T.toNat ≤ s.count.toNat →
    ∃ t u : State, exec .modeApply s = .next t ∧ u = { s with csr := u.csr } ∧ u.word Csr.dtmModeCur = m ∧
      u.fld Csr.dtmModeArm_armed = 0 ∧ u.fld Csr.dtmModeArm_rej = s.fld Csr.dtmModeArm_rej ∧
      (∀ o, o ≠ Csr.dtmModeCur → o ≠ Csr.dtmModeArm → u.word o = s.word o) ∧
      t = u.raiseM (devEvent 2 0x0306 sevInfo none 0 0)

/-- The edges that units see (R280, R287 to R289, R300): a compute die takes the count, and at T the mode sent in each
of its tiles, a tile in DEBUG later; the timers of its partitions count. A hub takes the count, its ports in UP or
HELD send HEARTBEAT packets, and the waits of its sequencers are counted (R349, R358); H0 counts partition-ticks and
steps dies. -/
def UnitsSeeTicks : Prop :=
  (∀ (d : Nat) (s : State), s.frozen = false → d < 16 → s.seenDie d ≠ s.count →
    ∃ t, exec (.tickEdgeSeen (.die d)) s = .next t ∧
      t = { s with seen := t.seen, tiles := t.tiles, csr := t.csr } ∧
      (∀ u, NMap.get (fun _ => 0) t.seen u = if u = d then s.count else NMap.get (fun _ => 0) s.seen u) ∧
      ∀ n, t.tile n = match s.modeSent with
        | some (m, T) =>
          if n / 128 = d ∧ (s.seenDie d).toNat < T.toNat ∧ T.toNat ≤ s.count.toNat then
            if (s.tile n).state = tsDebug then { s.tile n with modeLate := true } else { s.tile n with mode := m }
          else s.tile n
        | none => s.tile n) ∧
  ∀ (h : Nat) (s : State), s.frozen = false → h < 4 → s.seenHub h ≠ s.count →
    let sends := fun (n : Nat) => 6 * h ≤ n ∧ n < 6 * h + 6 ∧ (s.portState n = psUp ∨ s.portState n = psHeld)
    let sent := fun (n : Nat) => (s.port n).stamp (mkPacket ptHeartbeat 6 0 0 0 0 (s.heartbeat n).bytes)
    ∃ t u v : State, exec (.tickEdgeSeen (.hub h)) s = .next t ∧
      u = { s with seen := u.seen, out := u.out, ports := u.ports } ∧
      (∀ n, u.port n = if sends n then (sent n).1 else s.port n) ∧
      (∀ x, NMap.get (fun _ => 0) u.seen x = if x = 16 + h then s.count else NMap.get (fun _ => 0) s.seen x) ∧
      u.out = s.out ++ (((List.range 6).map (fun j => 6 * h + j)).filter
        (fun n => s.portState n == psUp || s.portState n == psHeld)).map (fun n => Out.packet n (sent n).2.seal) ∧
      v = ((List.range 8).map (fun i => 8 * h + i)).foldl State.seqWaitTick u ∧
      v = { u with csr := v.csr } ∧ (∀ o, (∀ p < 32, o ≠ Csr.colSeqWait p) → v.word o = u.word o) ∧
      t = if h = 0 then v.jobTicks.stepDies else v

end Sys2Proof.Claims

/-- The Datum unit counts ticks, follows its reference, holds over, and applies modes; the units see its ticks (R275
to R280, R286 to R289). -/
def Obligations.DatumCountsAndModes : Prop := DatumCounts ∧ DatumEdges ∧ ModeEpochs ∧ UnitsSeeTicks

/-! ## Links, the Gazetteer and segments -/

namespace Sys2Proof.Claims

/-- A port has left for a state (R301): its buffers and credits are as at reset, the buffers that its packets held
elsewhere are free again, and its crossing is fenced (R414). -/
def PortDropped (s t : State) (n st : Nat) : Prop :=
  let u := (((s.port n).queue.foldl (fun s q => s.freeBuffer q.from_) s).forgetBuffers n).setPort n {}
  Sets [(Csr.lnkPortSts_state n, st), (Csr.lnkPortSts_attempts n, 0)]
    { u with admitted := s.admitted.filter (· != 76 + n), readyReq := s.readyReq.filter (· != 76 + n) } t

/-- A port that is UP has gone to a state (R301): it is dropped, LINK_DOWN is raised, the own entry changes and is
flooded, another upstream is chosen where it was that (R284), and reachability is computed anew (R307). -/
def LeavesUp (s t : State) (n st : Nat) : Prop :=
  ∃ u, PortDropped s u n st ∧ t = ((u.raiseM (portEvent n 0x0602 sevWarn 0 0)).ownEntry.upstreamLost n).recompute s

/-- A packet answered with a nak, unless one was sent since the last packet accepted (R296). -/
def Discards (s t : State) (n : Nat) : Prop :=
  t = if (s.port n).naked then s else (s.setPort n { s.port n with naked := true }).sendLinkctl n true

/-- Ports change state as Table 10.4 and R300, R301 say: commands train and disable them, training ends UP, with 32
credits on each virtual channel (R295), or HELD, with its event, its round trips counted anew, or after three failures
FAILED; silence of 8 ticks as the port's hub sees them (R285), lost lock and sixteen replays without progress retrain.
-/
def PortsChangeState : Prop :=
  (∀ (n : Nat) (s : State), n < 24 →
    (∃ t, exec (.lnkPortTrain n) s = .next t ∧
      if s.portState n = psDown ∨ s.portState n = psFailed then
        Sets [(Csr.lnkPortSts_state n, psTraining), (Csr.lnkPortSts_attempts n, 0), (Csr.lnkPortSts_miswire n, 0)] s t
      else t = s) ∧
    (∃ t, exec (.lnkPortDisable n) s = .next t ∧
      if s.portState n = psUp then LeavesUp s t n psDown else PortDropped s t n psDown) ∧
    (∃ t, exec (.laneLockLoss n) s = .next t ∧ if s.portState n = psUp then LeavesUp s t n psRetrain else t = s) ∧
    ∃ t, exec (.portSilent n) s = .next t ∧
      if s.portState n = psUp ∧ 8 ≤ (s.seenHub (n / 6) - (s.port n).heard).toNat then LeavesUp s t n psRetrain else t = s) ∧
  (∀ (n : Nat) (s : State), n < 24 → (s.portState n = psTraining ∨ s.portState n = psRetrain) →
    s.fld (Csr.clkSrc_cur (28 + n)) ≠ 2 →
    (∃ t u : State, exec (.portTrained n) s = .next t ∧
      let di := s.fld Csr.lnkDisc_state
      let ups := fun (st : Nat) => [(Csr.lnkPortSts_state n, st), (Csr.lnkPortSts_attempts n, 0)]
      if s.fld Csr.lnkSts_unreach = 1 ∨ s.fld Csr.lnkDisc_pos_invalid = 1 ∨ s.portState n = psTraining ∧ di = diReady then
        Sets (ups psHeld ++ [(Csr.dtmLinkdly_samples n, 0)]) s u ∧
        let v := u.raiseM (portEvent n 0x060A sevInfo 0 0)
        t = (v.setPort n { s.port n with
          heard := s.seenHub (n / 6), arrival := di == diReady && s.fld Csr.lnkSts_unreach != 1 }).catchUp n
      else
        let w := s.firstPortUp
        Sets (ups psUp) w u ∧ ∃ x,
        Sets [(Csr.dtmLinkdly_samples n, 0)] ((u.raiseM (portEvent n 0x0601 sevInfo 0 0)).forgetBuffers n) x ∧
        let y := x.setPort n { x.port n with
          heard := x.seenHub (n / 6), used := [0, 0, 0, 0, 0, 0, 0, 0], owed := [0, 0, 0, 0, 0, 0, 0, 0] }
        t = ((y.pump n [] (y.port n).queue).ownEntry.recompute w).catchUp n) ∧
    ∃ t, exec (.portTrainTimeout n) s = .next t ∧
      let di := s.fld Csr.lnkDisc_state
      let k := min (2 ^ (Csr.lnkPortSts_attempts n).w - 1) (s.fld (Csr.lnkPortSts_attempts n) + 1)
      if s.fld Csr.lnkDisc_window = 1 ∧ diTrain ≤ di ∧ di ≤ diFlood then t = s
      else if k = 3 then ∃ u, Sets [(Csr.lnkPortSts_attempts n, k), (Csr.lnkPortSts_state n, psFailed)] s u ∧
        t = u.raiseM (portEvent n 0x0603 sevWarn 0 0)
      else Sets [(Csr.lnkPortSts_attempts n, k)] s t) ∧
  ∀ (n : Nat) (s : State), n < 24 → s.frozen = false →
    ∃ t, exec (.replayTimeout n) s = .next t ∧
      if (s.port n).sent = [] then t = s
      else if 16 ≤ (s.port n).tries then if s.portState n = psUp then LeavesUp s t n psRetrain else t = s
      else ∃ u, Sets [(Csr.lnkPortCnt_replays n,
            min (2 ^ (Csr.lnkPortCnt_replays n).w - 1) (s.fld (Csr.lnkPortCnt_replays n) + 1))]
          (s.setPort n { s.port n with tries := (s.port n).tries + 1 }) u ∧
        t = { u with out := u.out ++ (s.port n).sent.map (fun q => Out.packet n q) }

/-- Packets and heartbeats received by a port that carries them (R294 to R296, R298, R300, R309): a good packet in
sequence is accepted, acknowledged within 32 packets and sent on, its buffer held meanwhile, where it is not for this
device, and tracked as a part of its segment where it is; one with a bad CRC is counted, and like one out of sequence
discarded; a heartbeat's header counts as any other's, one with a bad CRC is counted and discarded, one from the wrong
neighbour takes the port down with miswire, and any other measures the delay. -/
def PortsReceive : Prop :=
  (∀ (n : Nat) (q : Packet) (s : State), n < 24 → s.carries n q.type = true → (q.type = ptData ∨ q.type = ptGaz) →
    ∃ t, exec (.stezerDataRx n q) s = .next t ∧
      let heard := s.setPort n { s.port n with heard := s.seenHub (n / 6) }
      if q.good = false then ∃ u, Discards u t n ∧ Sets [(Csr.lnkPortCnt_crc_err n,
          min (2 ^ (Csr.lnkPortCnt_crc_err n).w - 1) (s.fld (Csr.lnkPortCnt_crc_err n) + 1))] s u
      else if q.seqNo ≠ (s.port n).rxSeq then Discards heard t n
      else
        let transit := q.type = ptData ∧ ¬ (s.fld Csr.lnkSts_log_valid = 1 ∧ q.dst = s.fld Csr.lnkSts_logical)
        let p := heard.port n
        let u := (heard.setPort n { p with rxSeq := (p.rxSeq + 1) % 4096, naked := false, unacked := p.unacked + 1,
                                           owed := if transit then p.owed else p.owed.set q.vc (p.owed.getD q.vc 0 + 1) }).linkFields n q
        let v := if 32 ≤ (u.port n).unacked then u.sendLinkctl n false else u
        t = if transit then v.routePacket (some n) (n / 6) q else if q.type = ptData then v.trackPacket n q else v) ∧
  (∀ (n : Nat) (q : Packet) (s : State), n < 24 → (s.portState n = psUp ∨ s.portState n = psHeld) → q.type = ptLinkctl →
    ∃ t, exec (.linkctlRx n q) s = .next t ∧
      if q.good then t = (s.setPort n { s.port n with heard := s.seenHub (n / 6) }).linkFields n q
      else Sets [(Csr.lnkPortCnt_crc_err n,
        min (2 ^ (Csr.lnkPortCnt_crc_err n).w - 1) (s.fld (Csr.lnkPortCnt_crc_err n) + 1))] s t) ∧
  (∀ (n : Nat) (s : State), n < 24 → (s.port n).unacked ≠ 0 → exec (.ackTimer n) s = .next (s.sendLinkctl n false)) ∧
  (∀ (n : Nat) (q : Packet) (rx : W64) (s : State), n < 24 → (s.portState n = psUp ∨ s.portState n = psHeld) →
    q.type = ptHeartbeat → q.good = false → ∃ t, exec (.heartbeatRx n q rx) s = .next t ∧ Sets [(Csr.lnkPortCnt_crc_err n,
        min (2 ^ (Csr.lnkPortCnt_crc_err n).w - 1) (s.fld (Csr.lnkPortCnt_crc_err n) + 1))] s t) ∧
  ∀ (n : Nat) (q : Packet) (rx : W64) (s : State), n < 24 → (s.portState n = psUp ∨ s.portState n = psHeld) →
    q.type = ptHeartbeat → q.good = true →
    let hb := q.heartbeat rx
    ∃ t u : State, exec (.heartbeatRx n q rx) s = .next t ∧
      Sets [(Csr.lnkPortSts_peer_phys n, hb.phys), (Csr.lnkPortSts_peer_port n, hb.port)]
        ((s.setPort n { s.port n with heard := s.seenHub (n / 6) }).linkFields n q) u ∧
      if hb.port ≠ (if n % 2 = 0 then n + 1 else n - 1) ∨ hb.phys ≠ u.facing n then
        Sets [(Csr.lnkPortSts_miswire n, 1)] (u.downPort n) t
      else ∃ v w, (if hb.echo = 0 then v = u else
          Sets [(Csr.dtmLinkdly_delay n, (hb.rx - hb.echo - hb.hold).toNat / 2),
            (Csr.dtmLinkdly_samples n, min (2 ^ 32 - 1) (u.fld (Csr.dtmLinkdly_samples n) + 1))] u v) ∧
        w = (let x := v.setPort n { v.port n with echo := hb.tx, echoAt := hb.rx }
          if (v.port n).arrival = true ∧ x.gazState hb.phys ≠ gazIsolated then
            (x.setFld (Csr.lnkGazLo_state hb.phys) gazIsolated).recompute x else x) ∧
        t = if w.fld Csr.dtmCtl_src = srcRelay ∧ w.fld Csr.dtmRelay_up_valid = 1 ∧ w.fld Csr.dtmRelay_upstream = n ∧
            (w.word Csr.dtmRelay).getLsbD (11 + n) = true ∧ n ∉ w.datum.deaf then w.marker n hb else w

end Sys2Proof.Claims

/-- Ports of the Stezer links: their states, packets and heartbeats (R295, R296, R300, R301, Table 10.4). -/
def Obligations.StezerPorts : Prop := PortsChangeState ∧ PortsReceive

namespace Sys2Proof.Claims

/-- A device has entered ISOLATED (spec/17_startup_and_discovery.md Table 17.3): no Origin role, its claim withdrawn,
and no logical number, in its own entry where its position is one. -/
def Isolates (s t : State) : Prop :=
  t.disc = { s.disc with mine := false } ∧
  Sets ([(Csr.lnkDisc_state, diIsolated), (Csr.lnkDisc_origin, 0), (Csr.dtmCtl_origin, 0), (Csr.lnkSts_log_valid, 0)] ++
    if s.here < positions then [(Csr.lnkGazLo_log_valid s.here, 0)] else []) { s with disc := t.disc } t

/-- Entries of the Gazetteer and substitutions (R306, R308, R326): a newer entry is stored, forwarded to the other
ports and announced; two identities for one position isolate it; an older entry changes nothing. A substitution that
is admitted is held and flooded, taken up once where it arrives, and applied at its tick, the position that held its
number ABSENT. Tiles that still run freeze_ticks after a split are halted. -/
def GazetteerChanges : Prop :=
  (∀ (n pos : Nat) (lo hi : W64) (s : State), pos < positions →
    let two := s.gazState pos ≠ gazAbsent ∧ s.gazState pos ≠ gazIsolated ∧ s.word (Csr.lnkGazHi pos) ≠ hi
    ∃ t, exec (.gazEntry n pos lo hi) s = .next t ∧
      (two → ∃ u v, Sets [(Csr.lnkGazLo_state pos, gazIsolated)] s u ∧
        (if pos = s.here then Isolates ((u.setFld Csr.lnkDisc_dup_pos 1).raiseM (devEvent 9 0x0B06 sevDevice none 0 0)) v
          else v = u) ∧
        t = ((v.flood (some n) gzEntry [BitVec.ofNat 64 pos, lo, hi]).gazUpdate).recompute s) ∧
      (¬ two → s.fld (Csr.lnkGazLo_version pos) < bits lo 40 24 → pos ≠ s.here →
        ∃ u : State, u = { s with csr := u.csr } ∧ u.word (Csr.lnkGazLo pos) = lo ∧ u.word (Csr.lnkGazHi pos) = hi ∧
          (∀ o, o ≠ Csr.lnkGazLo pos → o ≠ Csr.lnkGazHi pos → u.word o = s.word o) ∧
          t = ((u.flood (some n) gzEntry [BitVec.ofNat 64 pos, lo, hi]).gazUpdate).recompute s) ∧
      (¬ two → (bits lo 40 24 ≤ s.fld (Csr.lnkGazLo_version pos) ∨ pos = s.here) → t = s)) ∧
  (∀ (g : Nat) (tick : W64) (s : State), NMap.find? s.splitTick g = some (some tick) →
    exec (.splitFreezeTimeout g) s = .next (if s.fld Csr.colCtl_freeze_ticks ≤ (s.count - tick).toNat then
        (s.groupParts g).foldl (fun s p => s.updPart p (fun a => if a.state = tsRunning then a.requestHalt else a))
          { s with splitTick := NMap.set (fun _ => none) s.splitTick g none }
      else s)) ∧
  (∀ (v : W64) (s : State), ∃ t, exec (.lnkSubstGo v) s = .next t ∧
    let u := s.genWrite Csr.lnkSubst v
    let d := u.fld Csr.lnkSubst_logical
    let p := u.fld Csr.lnkSubst_phys
    let T := s.word Csr.lnkSubstT
    let ok := u.reachable d = false ∧ u.gazState p = gazSpare ∧ posCoord p 1 = d / 16 % 16 ∧ posCoord p 2 = d / 256 ∧
      s.count.toNat + 2 ≤ T.toNat ∧ s.fld Csr.lnkSubst_pending ≠ 1
    (v.getLsbD 25 = false → t = u) ∧
    (v.getLsbD 25 = true → ¬ ok → Sets [(Csr.lnkSubst_rej, 1)] u t) ∧
    (v.getLsbD 25 = true → ok → ∃ w, Sets [(Csr.lnkSubst_pending, 1)] { u with substs := s.substs ++ [(d, p, T)] } w ∧
      t = w.flood none gzSubst [BitVec.ofNat 64 d, BitVec.ofNat 64 p, T])) ∧
  (∀ (n d p T : Nat) (s : State), p < positions → ∃ t, exec (.gazSubst n d p T) s = .next t ∧
    let x := (d, p, BitVec.ofNat 64 T)
    if x ∈ s.substs then t = s
    else ∃ u, Sets [(Csr.lnkSubst_pending, 1)] { s with substs := s.substs ++ [x] } u ∧
      t = u.flood (some n) gzSubst [BitVec.ofNat 64 d, BitVec.ofNat 64 p, BitVec.ofNat 64 T]) ∧
  (∀ s : State, ∃ t, exec .substApply s = .next t ∧
    let due := s.substs.filter (fun x => decide (x.2.2.toNat ≤ s.count.toNat))
    let rest := s.substs.filter (fun x => !due.contains x)
    t = if due = [] then s else ((due.foldl State.applySubst { s with substs := rest }).setFld Csr.lnkSubst_pending
      (b2n (!rest.isEmpty))).recompute s) ∧
  ∀ (x : Nat × Nat × W64) (s : State), s.substs = [x] → x.2.2.toNat ≤ s.count.toNat → x.2.1 ≠ s.here →
    s.holderOf x.1 ≠ some s.here → s.holderOf x.1 ≠ some x.2.1 →
    ∃ t u : State, exec .substApply s = .next t ∧
      Sets ((match s.holderOf x.1 with | some q => [(Csr.lnkGazLo_state q, gazAbsent)] | none => []) ++
        [(Csr.lnkGazLo_state x.2.1, gazLive), (Csr.lnkGazLo_logical x.2.1, x.1), (Csr.lnkGazLo_log_valid x.2.1, 1),
        (Csr.lnkSubst_pending, 0)]) { s with substs := [] } u ∧ t = u.recompute s

/-- A segment that reaches its home here (R298, R299): within its life, no packet of it missed, and no crossing
fenced. -/
def AtHome (s : State) (g : Segment) : Prop :=
  s.ticksSince g.sendTick ≤ s.lifeTicks ∧ s.segBroken g.src g.xid 0 = false ∧
  s.heldAt none none (hubOf g.part) g.da = none

/-- Why the home of a segment refuses an access (R382). -/
def segRefused (s : State) (g : Segment) (k : Access) (len : Nat) : Option Nat :=
  s.accessFail (.remote g.src g.part g.priv) none (hubOf g.part) k g.da len

/-- Segments (R298, R299): a WRITE stores its bytes, a READ answers them in order, a SIGNAL adds 1 to a u64, each
answered, with MEM_UE where detection finds a word lost (R167) and with its status where the access is refused; one
past its life is counted and dropped, one a packet of which was missed is discarded. Answers end what they answer, a
failure ends its move, one whose transfer is over frees its segment alone, and a segment without an answer is lost
after life_ticks + 2; held segments of that device then go. -/
def SegmentsAreServed : Prop :=
  (∀ (g : Segment) (e : Ecc) (s : State), AtHome s g →
    (segRefused s g .write g.data.length = none →
      let d := s.detect (eccWithin e .write g.da g.data.length) none
      ∃ t u : State, exec (.segWrite g e) s = .next t ∧
        (d.2 = none → u = { d.1 with mem := u.mem, ueWords := u.ueWords } ∧
          (∀ a, u.byte a = if g.da ≤ a ∧ a < g.da + g.data.length then g.data.getD (a - g.da) 0 else s.byte a) ∧
          t = u.answer g opAck g.da stOk []) ∧
        (d.2 ≠ none → t = d.1.answer g opAck g.da stMemUe [])) ∧
    (segRefused s g .read g.bytes = none →
      let d := s.detect (eccWithin e .read g.da g.bytes) none
      exec (.segRead g e) s = .next (if d.2 = none then
          ((cutBytes segData (g.bytes + 1) (s.bytes g.da g.bytes)).zipIdx).foldl (fun s p =>
            s.answer g opRdata (g.da + segData * p.2) stOk p.1) d.1
        else d.1.answer g opRdata g.da stMemUe [])) ∧
    (segRefused s g .atomic 8 = none →
      let d := s.detect (eccWithin e .atomic g.da 8) none
      ∃ t u : State, exec (.segSignal g e) s = .next t ∧
        (d.2 = none → u = { d.1 with mem := u.mem, ueWords := u.ueWords } ∧
          u.load g.da 8 = (s.load g.da 8 + 1) % 2 ^ 64 ∧ (∀ a, (a < g.da ∨ g.da + 8 ≤ a) → u.byte a = s.byte a) ∧
          t = u.answer g opAck g.da stOk []) ∧
        (d.2 ≠ none → t = d.1.answer g opAck g.da stMemUe [])) ∧
    ∀ x ∈ [(Instr.segWrite g e, Access.write, g.data.length, opAck), (.segRead g e, .read, g.bytes, opRdata),
        (.segSignal g e, .atomic, 8, opAck)], ∀ st, segRefused s g x.2.1 x.2.2.1 = some st →
      exec x.1 s = .next ((if st = stProt then s.deny (.remote g.src g.part g.priv) g.da else s).answer g x.2.2.2 g.da st [])) ∧
  (∀ (g : Segment) (e : Ecc) (s : State), ∀ c ∈ [(Instr.segWrite g e, opWrite), (.segRead g e, opRead), (.segSignal g e, opSignal)],
    (s.lifeTicks < s.ticksSince g.sendTick → exec c.1 s = .next (s.expireSegment (hubOf g.part % 4))) ∧
    (s.ticksSince g.sendTick ≤ s.lifeTicks → s.segBroken g.src g.xid 0 = true → exec c.1 s = .next s) ∧
    (s.ticksSince g.sendTick ≤ s.lifeTicks → s.segBroken g.src g.xid 0 = false →
      ∀ x, s.heldAt none none (hubOf g.part) g.da = some x →
        exec c.1 s = .next { s with fenced := s.fenced ++ [(x, .seg { g with op := c.2 } e)] })) ∧
  (∀ (g : Segment) (e : Ecc) (s : State), s.lifeTicks < s.ticksSince g.sendTick →
    exec (.segAck g e) s = .next (s.expireSegment (hubOf g.part % 4)) ∧
    exec (.segRdata g e) s = .next (s.expireSegment (hubOf g.part % 4))) ∧
  (∀ (g : Segment) (o : OutSeg) (e : Ecc) (s : State), s.ticksSince g.sendTick ≤ s.lifeTicks →
    s.segBroken g.src g.xid (segClass g.op) = false → s.segs.find? (fun x => x.xid == g.xid && x.dev == g.src) = some o →
    let u : State := { s with segs := s.segs.filter (fun x => x.xid != o.xid) }
    let ended := fun (st : Nat) =>
      (if o.live = false then u else if st = 0 then u.afterData o.owner e else u.failMove o.owner st).releaseHeld o.dev
    exec (.segAck g e) s = .next (ended g.status) ∧
    (o.op = opRead → ∃ t, exec (.segRdata g e) s = .next t ∧
      let bs := g.data.take o.len
      (g.status ≠ 0 → t = ended g.status) ∧
      (g.status = 0 → bs.length < o.len →
        let v : State := { s with segs := s.segs.map (fun x =>
          if x.xid = o.xid then { x with addr := x.addr + bs.length, len := x.len - bs.length } else x) }
        t = if o.live then v.lateData o.owner o.dst o.addr bs e else v) ∧
      (g.status = 0 → o.len ≤ bs.length →
        t = (if o.live then u.lateData o.owner o.dst o.addr bs e else u).releaseHeld o.dev))) ∧
  ∀ (xid : Nat) (o : OutSeg) (s : State), s.segs.find? (fun x => x.xid == xid) = some o →
    let u : State := { s with segs := s.segs.filter (fun x => x.xid != xid) }
    exec (.segmentLostTimeout xid) s = .next (if max 1 (s.fld Csr.lnkCtl_life_ticks) + 2 ≤ s.ticksSince o.tick then
      (if o.live then u.failMove o.owner stLinkLost else u).releaseHeld o.dev else s)

end Sys2Proof.Claims

/-- The Gazetteer and the segments between devices (R298, R299, R306, R308, R326). -/
def Obligations.GazetteerAndSegments : Prop := GazetteerChanges ∧ SegmentsAreServed

/-! ## Collectives and stream registries -/

namespace Sys2Proof.Claims

/-- What a contribution's destination receives from a result (Table 10.8), at its position in fold order. -/
def resultBytes (s : State) (h : CollStream) (g pos : Nat) : List Byte :=
  let n := s.fld (Csr.colGrpCfg_n_m1 g) + 1
  let rank := s.fld (Csr.colGrpCfg_rank g)
  let sz := accSize h.dtype
  if h.opcode = 0x21 then
    sliceBytes h.data (rank * h.count / n * sz) (((rank + 1) * h.count / n - rank * h.count / n) * sz)
  else if h.opcode = 0x24 then
    (List.range h.expected).flatMap (fun j =>
      sliceBytes h.data (j * h.count + pos * (h.count / h.expected)) (h.count / h.expected))
  else if h.opcode = 0x25 then []
  else h.data

/-- ALLREDUCE, REDUCE_SCATTER, ALLGATHER, BROADCAST, ALLTOALL and BARRIER serve the oldest instance of their group
that has their result and contributions to serve: the one contribution of a device with one receives what Table 10.8
gives it at its destination, its descriptor ends OK, or DEFERRED or DROPPED where it came late (R323), and the
instance is done with (R316, R318); with several, each is served in fold order. -/
def CollectivesDeliver : Prop :=
  ∀ x ∈ ([(@Instr.allreduce, 0x20), (@Instr.reduceScatter, 0x21), (@Instr.allgather, 0x22), (@Instr.broadcast, 0x23), (@Instr.alltoall, 0x24),
      (@Instr.barrier, 0x25)] : List ((Nat → Ecc → Instr) × Nat)),
    ∀ (g : Nat) (e : Ecc) (s : State),
      let due := s.insts.find? (fun y => y.group == g && y.failed.isNone &&
        (match y.result with | some k => k.opcode == x.2 | none => false) && !(s.instContribs g y.idx).isEmpty)
      (due = none → exec (x.1 g e) s = .next s) ∧
      ∀ (y : Inst) (h : CollStream), due = some y → y.result = some h →
      exec (x.1 g e) s = .next
        ((s.instContribs g y.idx).foldl (fun s c => (s.takeFree 1).serveContrib h c (s.positionOf y h c) e) s) ∧
      ∀ (c : Contrib) (r idx : Nat), s.instContribs g y.idx = [c] → c.owner = .desc r idx → c.dead = false →
        Contrib.compare c h = stOk → descWord c.words 0x28 = 0 → s.fld (Csr.colGrpCfg_local_m1 g) = 0 → y.places = [c.place] →
        let out := resultBytes s h g y.base
        let dst := (s.collDa (descWord c.words 0x10)).getD 0
        (out = [] ∨ s.heldAt (some c.part) none (hubOf c.part) dst = none ∧
          s.accessFail (.loc c.part true) none (hubOf c.part) .write dst out.length = none ∧
          eccWithin e .write dst out.length = .ok) →
        ∃ t, exec (x.1 g e) s = .next t ∧
          t = { s with mem := t.mem, ueWords := t.ueWords, freeCtr := s.freeCtr + 1, contribs := s.contribs.erase c,
                       insts := s.insts.filter (fun z => !(z.group == g && z.idx == y.idx)),
                       staged := s.staged.filter (fun z => z.1 != .desc r idx),
                       fetched := s.fetched.map (fun f => if f.ring = r ∧ f.idx = idx then
                         { f with status := some (if c.late = false then 0 else if c.deferred then 0x15 else 0x16),
                                  remote := false } else f) } ∧
          ∀ a, t.byte a = if dst ≤ a ∧ a < dst + out.length then out.getD (a - dst) 0 else s.byte a

/-- COLL (R269, R326): where it issues, nothing earlier makes it wait and its descriptor passes the checks, which the
collective engine makes at P (R378), it becomes a contribution of its group's next instance, in order, with its token
busy and a tracked transfer held until it is served; a tile whose group is split halts before it. -/
def CollInstruction : Prop :=
  (∀ (i : Issue) (s : State), s.Issues i → i.tile < 2048 → fOp i.word = 0x9C → s.splitColl i.tile i.word = true →
    exec (.coll i) s = .next (s.setTile i.tile (s.tile i.tile).requestHalt)) ∧
  ∀ (i : Issue) (s : State), Starts s i → fOp i.word = 0x9C → s.splitColl i.tile i.word = false → i.ecc = .ok →
    let n := i.tile
    let p := partOf n
    let t := s.tile n
    let a := (t.s (fB i.word)).toNat
    let ws := s.words a 8
    let g := cdGroup ws
    let src := (s.collDa (descWord ws 0x08)).getD 0
    collFault n a = none → s.heldAt (some p) none (hubOf p) a = none →
    s.accessFail (.loc p true) none (hubOf p) .read a 64 = none →
    bits (ws.headD 0) 8 2 = 0 → s.collRefused ws p = none → s.collCheck ws p = none → cdDlEn ws = false →
    (descOp ws = 0x25 ∨ contribBytes ws = 0 ∨ s.heldAt (some p) none (hubOf p) src = none) →
    (s.inst? g (s.issuedBy g n)).bind (fun x => x.failed) = none →
    ∃ u, exec (.coll i) s = .next u ∧ u.mem = s.mem ∧ u.nextXfer = s.nextXfer + 1 ∧
      u.ttInUse p = min (2 ^ 14 - 1) (s.ttInUse p + 1) ∧
      u.contribs = s.contribs ++ [⟨g, s.issuedBy g n, n, .mov n t.seq none, p, a, ws, bits t.mode 0 32, false,
        false, if descOp ws = 0x25 then [] else s.bytes src (contribBytes ws), false⟩] ∧
      u.insts = (s.updInst g (s.issuedBy g n) (fun x => { x with places := x.places ++ [n] })).insts ∧
      u.issuedBy g n = s.issuedBy g n + 1 ∧ (u.tile n).pc = nextPc t i.word ∧
      (∀ k, (u.tile n).k k = if k = fA i.word ∧ k ≠ 0 then 1 else t.k k) ∧ (u.tile n).sreg = t.sreg ∧
      (u.tile n).word Csr.tcInstret = t.word Csr.tcInstret + 1 ∧ ∀ m, m ≠ n → u.tile m = s.tile m

/-- The stream of an instance (R298, R299, R320 to R322, R443, R444): one past its life is counted and discarded, one
a packet of which was missed is discarded; arriving it waits for the fold, returning its result is taken once, with
the abort flag it is passed on, the instance fails and the group aborts. The fold starts once the stream of the rank
before, or at rank 0 a contribution, is there and every local contribution or, but for a BARRIER, the deadline is; it
folds them and hands the stream on, or the result back from the last rank. COLL_DEADLINE ends the cycle in which a hub
has seen an edge, and COL_GRP_WRITE starts the group anew, split at once where a member is unreachable (R312, R325).
-/
def CollStreams : Prop :=
  (∀ (h : CollStream) (s : State), s.lifeTicks < s.ticksSince h.sendTick →
    exec (.segColl h) s =
      .next ((List.range (max 1 h.xids.length)).foldl (fun s _ => s.expireSegment (s.groupHub h.group)) s)) ∧
  (∀ (h : CollStream) (s : State), s.ticksSince h.sendTick ≤ s.lifeTicks → (∃ x ∈ h.xids, s.segBroken h.src x 2 = true) →
    exec (.segColl h) s = .next s) ∧
  (∀ (h : CollStream) (s : State), s.ticksSince h.sendTick ≤ s.lifeTicks → (∀ x ∈ h.xids, s.segBroken h.src x 2 = false) →
    h.group < 1024 → s.fld (Csr.colGrpCfg_valid h.group) = 1 → s.fld (Csr.colGrpCfg_split h.group) = 0 →
    let g := h.group
    let rank := s.fld (Csr.colGrpCfg_rank g)
    ∃ t, exec (.segColl h) s = .next t ∧
      (h.abort = false → h.ret = false → t = { s with insts := t.insts } ∧
        (∀ i, t.inst? g i = if i = h.inst then
            some { (s.inst? g i).getD ⟨g, i, none, 0, false, none, none, false, 0, []⟩ with inStream := some h }
          else s.inst? g i)) ∧
      (h.abort = false → h.ret = true →
        t = if ((s.inst? g h.inst).map (fun x => x.result.isSome || x.failed.isSome)).getD false then s
          else s.takeResult h) ∧
      (h.abort = true → t = ((if h.ret then (if rank = 0 then s else s.sendStream h (rank - 1))
        else if rank < s.fld (Csr.colGrpCfg_n_m1 g) then s.sendStream h (rank + 1) else s).failInst g h.inst
          stPeerAbort).peerAbort g)) ∧
  (∀ (g i : Nat) (h : CollStream) (s : State), g < 1024 → s.fld (Csr.colGrpCfg_valid g) = 1 →
    s.fld (Csr.colGrpCfg_split g) = 0 → s.nextInst g = some i → g ∉ s.abortGroups →
    let rank := s.fld (Csr.colGrpCfg_rank g)
    let n := s.fld (Csr.colGrpCfg_n_m1 g) + 1
    let cs := s.instContribs g i
    let here := s.fld (Csr.colGrpCfg_local_m1 g) + 1
    let seen := h.dlEn = true ∧ ∀ p ∈ s.groupParts g, s.hubPast g (hubOf p) h.deadline = true
    ((s.inst? g i).getD default).inStream.or (if rank = 0 then cs.head?.map Contrib.stream else none) = some h →
    (cs.length < here → (¬ seen ∨ h.opcode = 0x25) → exec (.collFoldStart g) s = .next s) ∧
    ((here ≤ cs.length ∨ seen ∧ h.opcode ≠ 0x25) → h.status = stOk → (∀ c ∈ cs, Contrib.compare c h = stOk) →
      ∃ t u, exec (.collFoldStart g) s = .next t ∧
        let folded := s.foldLocal h rank cs
        let out := { folded.1 with status := stOk, expected := h.expected + here,
                                   lateCnt := h.lateCnt + (here - (folded.1.onTime - h.onTime)) }
        u = folded.2.updInst g i (fun x => { x with folded := true, base := h.expected }) ∧
        t = if rank + 1 < n then u.sendStream out (rank + 1)
          else (u.finalStream out n).2.takeResult (u.finalStream out n).1)) ∧
  (∀ (hub g : Nat) (s : State), hub < 4 → g < 1024 → ∃ t, exec (.collDeadline hub g) s = .next t ∧
    t = { s with collPast := t.collPast } ∧ (∀ d : W64, t.hubPast g hub d = decide (d.toNat ≤ (s.seenHub hub).toNat)) ∧
    ∀ (h' g' : Nat) (d : W64), (h' ≠ hub ∨ g' ≠ g) → t.hubPast g' h' d = s.hubPast g' h' d) ∧
  ∀ (g word : Nat) (v : W64) (s : State), g < 1024 → word < 3 →
    ∃ t u : State, exec (.colGrpWrite g word v) s = .next t ∧
      u = { s with csr := u.csr, collSeq := s.collSeq.filter (fun e => e.1 != g),
                   insts := s.insts.filter (fun x => x.group != g), abortGroups := s.abortGroups.filter (· != g),
                   peerAborted := s.peerAborted.filter (· != g),
                   splitTick := NMap.set (fun _ => none) s.splitTick g none } ∧
      Sets [(Csr.colGrpInst_instance g, 0), (Csr.colGrpCfg_split g, 0)]
        { s.genWrite (Csr.colGrpCfg g + 8 * word) v with
          collSeq := u.collSeq, insts := u.insts, abortGroups := u.abortGroups, peerAborted := u.peerAborted,
          splitTick := u.splitTick } u ∧
      t = if u.fld (Csr.colGrpCfg_valid g) = 1 ∧ u.groupCut g = true then u.splitGroup g else u

end Sys2Proof.Claims

/-- Collectives between devices (R269, R312 to R326, R443, R444). -/
def Obligations.CollectivesFold : Prop := CollectivesDeliver ∧ CollInstruction ∧ CollStreams

namespace Sys2Proof.Claims

/-- The command at the front of a partition's queue: a good record of an operation in memory it owns (R335, R336). -/
def RecordReady (s : State) (p a : Nat) (q : List Nat) (op : Nat) : Prop :=
  s.rngQueued p = a :: q ∧ s.recordOk p a = true ∧ recordBad (s.load (a + 0x10) 8) (s.load (a + 0x18) 8) = false ∧
  s.load (a + 0x10) 4 % 8 = op

/-- The oldest command of a registry is taken: the rest wait, the first 64 of them queued (R337), and what has issued
before it arrived keeps what its pair resolved to (R340). -/
def Dequeues (s t : State) (p : Nat) (q : List Nat) : Prop :=
  t.rngQueued p = q ∧ t.fld (Csr.rngRegSts_queued p) = min 64 q.length ∧
  ∀ n, t.tile n = if partOf n = p then (s.tile n).keepSeeds (s.resolve p) (s.rngDone p) else s.tile n

/-- A registry command is answered (R335): the record shows done and its status, with replays and seed where it gives
them, no other byte of memory changes, and the registry holds the given streams. -/
def Answers (s t : State) (p a : Nat) (q : List Nat) (status : Nat) (out : List (Nat × Nat × Nat)) (es : List Stream) : Prop :=
  t = { s with mem := t.mem, ueWords := t.ueWords, csr := t.csr, registry := t.registry, rngQueue := t.rngQueue,
               tiles := t.tiles } ∧ t.streams p = es ∧
  Dequeues s t p q ∧ t.load (a + 0x14) 4 = status + 2 ^ 31 ∧ (∀ x ∈ out, t.load (a + x.1) x.2.1 = x.2.2) ∧
  (∀ b, (b < a + 0x14 ∨ a + 0x18 ≤ b) → (∀ x ∈ out, b < a + x.1 ∨ a + x.1 + x.2.1 ≤ b) → t.byte b = s.byte b) ∧
  (∀ p', p' ≠ p → t.streams p' = s.streams p' ∧ t.rngQueued p' = s.rngQueued p')

end Sys2Proof.Claims

/-- REGISTER, RELEASE, LOOKUP and CLEAR of a stream registry (R334 to R336, Table 11.4): a new pair is entered while
there is room, a replay of the same seed counts, any other registration of a pair is an alias that is counted and
reported; a release takes the pair out, a lookup answers its seed and replays, a clear empties the registry with its
counts; a pair that is not there is NOT_FOUND. A record with a reserved op or bit, the replay bit of another op than
REGISTER among them, is INVALID and changes nothing, and a record out of its place only raises RNG_CMD_INVALID. A
write of RNG_REG_CMD is never discarded: with 64 commands queued it waits behind them (R337). -/
def Obligations.StreamRegistry : Prop :=
  (∀ (p a : Nat) (q : List Nat) (s : State), RecordReady s p a q 0 →
    let tid := s.load a 4
    let sid := s.load (a + 4) 4
    let seed : W64 := BitVec.ofNat 64 (s.load (a + 8) 8)
    let has := fun (e : Stream) => e.tid == tid && e.sid == sid
    let pair : W64 := BitVec.ofNat 64 (tid + sid * 2 ^ 32)
    let es := s.streams p
    ∃ t u, exec (.rngRegister p) s = .next t ∧ (p < 32 →
      match es.find? has with
      | none =>
        if es.length < 4096 then Answers s t p a q 0 [(0x18, 2, 0)] (es ++ [⟨tid, sid, seed, 0⟩]) ∧ t = u
        else Answers s u p a q 2 [] es ∧ t = u.raise (hubEvent 6 p 0x0703 sevWarn (BitVec.ofNat 64 a) pair)
      | some e =>
        if (s.load (a + 0x10) 4).testBit 3 = true ∧ e.seed = seed then
          let n := min 0xFFFF (e.replays + 1)
          Answers s t p a q 0 [(0x18, 2, n)] (es.map (fun x => if has x then { x with replays := n } else x)) ∧ t = u ∧
          t.fld (Csr.rngRegCnt_replay p) =
            min (2 ^ (Csr.rngRegCnt_replay p).w - 1) (s.fld (Csr.rngRegCnt_replay p) + 1)
        else Answers s u p a q 1 [(0x18, 2, e.replays % 2 ^ 16)] es ∧
          u.fld (Csr.rngRegCnt_alias p) = min (2 ^ (Csr.rngRegCnt_alias p).w - 1) (s.fld (Csr.rngRegCnt_alias p) + 1) ∧
          t = u.raise (hubEvent 6 p 0x0701 sevWarn (BitVec.ofNat 64 a) pair))) ∧
  (∀ (p a : Nat) (q : List Nat) (s : State), RecordReady s p a q 1 →
    let has := fun (e : Stream) => e.tid == s.load a 4 && e.sid == s.load (a + 4) 4
    ∃ t, exec (.rngRelease p) s = .next t ∧
      if (s.streams p).any has then Answers s t p a q 0 [] ((s.streams p).filter (fun e => !has e))
      else Answers s t p a q 3 [] (s.streams p)) ∧
  (∀ (p a : Nat) (q : List Nat) (s : State), RecordReady s p a q 2 →
    ∃ t, exec (.rngLookup p) s = .next t ∧
      match (s.streams p).find? (fun e => e.tid == s.load a 4 && e.sid == s.load (a + 4) 4) with
      | some e => Answers s t p a q 0 [(0x08, 8, e.seed.toNat), (0x18, 2, e.replays % 2 ^ 16)] (s.streams p)
      | none => Answers s t p a q 3 [] (s.streams p)) ∧
  (∀ (p a : Nat) (q : List Nat) (s : State), RecordReady s p a q 3 →
    ∃ t, exec (.rngClear p) s = .next t ∧ Answers s t p a q 0 [] [] ∧ t.word (Csr.rngRegCnt p) = 0) ∧
  (∀ c ∈ ([.rngRegister, .rngRelease, .rngLookup, .rngClear] : List (Nat → Instr)),
    ∀ (p a : Nat) (q : List Nat) (s : State), s.rngQueued p = a :: q →
      let w := s.load (a + 0x10) 8
      let bad := 3 < w % 8 ∨ w / 2 ^ 4 % 2 ^ 28 ≠ 0 ∨ w / 2 ^ 40 % 2 ^ 23 ≠ 0 ∨ s.load (a + 0x18) 8 / 2 ^ 16 ≠ 0 ∨
        (w.testBit 3 = true ∧ w % 8 ≠ 0)
      let pair : W64 := BitVec.ofNat 64 (s.load a 8)
      (s.recordOk p a = true → bad → ∃ t u : State, exec (c p) s = .next t ∧ Answers s u p a q 4 [] (s.streams p) ∧
        t = u.raise (hubEvent 6 p 0x0704 sevFault (BitVec.ofNat 64 a) pair)) ∧
      (s.recordOk p a = false → ∃ t u : State, exec (c p) s = .next t ∧
        u = { s with csr := u.csr, rngQueue := u.rngQueue, tiles := u.tiles } ∧ Dequeues s u p q ∧
        (∀ p', p' ≠ p → u.rngQueued p' = s.rngQueued p') ∧
        t = u.raise (hubEvent 6 p 0x0704 sevFault (BitVec.ofNat 64 a) 0))) ∧
  ∀ (p : Nat) (v : W64) (s : State), p < 32 → s.running = true →
    ∃ t, exec (.registerWrite .m (csrBase + Csr.rngRegCmd p) 8 v) s = .next t ∧
      t = { s with csr := t.csr, rngQueue := t.rngQueue, rngArr := t.rngArr } ∧
      t.rngQueued p = s.rngQueued p ++ [bits v 5 43 * 32] ∧
      t.fld (Csr.rngRegSts_queued p) = min 64 ((s.rngQueued p).length + 1) ∧
      t.rngArrived p = s.rngArrived p + 1 ∧ ∀ p', p' ≠ p → t.rngQueued p' = s.rngQueued p'

/-! ## Stage sequencers -/

namespace Sys2Proof.Claims

/-- The sequencer of partition `p` is `q`; every other sequencer, and nothing else but registers, has changed. -/
def SeqIs (s t : State) (p : Nat) (q : Seq) : Prop :=
  t = { s with csr := t.csr, seqs := t.seqs } ∧ t.seq? p = some q ∧ ∀ p', p' ≠ p → t.seq? p' = s.seq? p'

/-- An access that a sequencer of partition `p` makes, at P, is performed (R343, R378). -/
def SeqMay (s : State) (p : Nat) (k : Access) (a n : Nat) : Prop := s.accessFail (.loc p true) none (hubOf p) k a n = none

/-- Every access of a kind within the 64 bytes at an address is performed. -/
def SeqMay64 (s : State) (p : Nat) (k : Access) (a : Nat) : Prop :=
  ∀ off n, 0 < n → off + n ≤ 64 → SeqMay s p k (a + off) n

/-- The descriptors of the collectives of a step, and their result records, can be read. -/
def RecordsReadable (s : State) (p : Nat) (q : Seq) : Prop :=
  ∀ r ∈ q.layers, lrColl r ≠ 0 → SeqMay s p .read (lrColl r) 64 ∧
    ∀ a, s.recordOf (s.words (lrColl r) 8) = some a → SeqMay64 s p .read a

/-- The step record's fields `fs` (offset, bytes, value) are stored, and no other byte of memory changes (R363). -/
def RecordHas (s t : State) (q : Seq) (fs : List (Nat × Nat × Nat)) : Prop :=
  (∀ f ∈ fs, t.load (q.record + f.1) f.2.1 = f.2.2 % 2 ^ (8 * f.2.1)) ∧
  ∀ b, (∀ f ∈ fs, b < q.record + f.1 ∨ q.record + f.1 + f.2.1 ≤ b) → t.byte b = s.byte b

/-- A sequencer event (Table 12.13). -/
def seqEvent (p code sev : Nat) (q : Seq) : Event := hubEvent 5 p code sev 0 q.n

/-- A sequencer leaves its run in a state with outcome ABANDONED in its record (R350, R358). -/
def Abandons (s t : State) (p : Nat) (q : Seq) (st : Nat) : Prop :=
  t = { s with csr := t.csr, mem := t.mem, ueWords := t.ueWords, seqAborting := t.seqAborting } ∧
  RecordHas s t q [(0, 8, q.n.toNat), (0x14, 4, 3)] ∧
  Sets [(Csr.colSeqSts_state p, st)]
    { s with mem := t.mem, ueWords := t.ueWords, seqAborting := t.seqAborting } t ∧
  ∀ p', NMap.get (fun _ => false) t.seqAborting p' = (p' != p && NMap.get (fun _ => false) s.seqAborting p')

/-- The record of a finished step (R363): applied counts one more where it was, t_end is stored, STEP_DONE raised, and
the sequencer goes on as R345 and R370 say. -/
def StepCloses (s t : State) (p : Nat) (q : Seq) (applied : Bool) : Prop :=
  ∃ u : State,
    (if applied then RecordHas s u q [(8, 8, (q.applied + 1).toNat), (0x38, 8, (s.seenHub (hubOf p)).toNat)]
      else RecordHas s u q [(0x38, 8, (s.seenHub (hubOf p)).toNat)]) ∧
    u = { s with mem := u.mem, ueWords := u.ueWords } ∧
    t = ((u.raise (seqEvent p 0x0809 sevInfo q)).afterStep p
      (if applied then { q with applied := q.applied + 1 } else q)).seqNext p seqFuel

/-- A counter of ticks or steps that has grown by `n` to at most its width (R372). -/
def grown (s : State) (f : Fld) (n : Nat) : Fld × Nat := (f, min (2 ^ f.w - 1) (s.fld f + n))

/-- SEQ_START reads its header and layer table and starts from step0 with its counts cleared where R344 admits them,
else stays IDLE with cfg_err and SEQ_CONFIG; SEQ_STOP, SEQ_ABORT and the end of an abort are the moves of R350. -/
def SequencerMoves : Prop :=
  (∀ (p : Nat) (s : State), p < 32 → s.seqState p ≠ 1 → s.seqState p ≠ 2 →
    let a := s.fld (Csr.colSeqBase_hdr p) * 128
    let h := s.words a 16
    let la := (descWord h 0x28).toNat
    let n := bits (descWord h 0) 24 8 + 1
    let ls := (List.range n).map (fun l => s.words (la + 64 * l) 8)
    let rc := (descWord h 0x30).toNat
    let owned := s.seqOwns p a 128 = true ∧ s.seqOwns p la (64 * n) = true
    let may := SeqMay s p .read a 128 ∧ SeqMay s p .read la (64 * n)
    ∃ t u : State, exec (.seqStart p) s = .next t ∧
      (owned → may → s.headerOk p h ls = true → SeqMay s p .read (rc + 8) 8 → SeqMay s p .read (rc + 0x10) 4 →
        SeqIs s u p {
          hdr := h, layers := ls, at_ := .acts, blk := 0, todo := [], n := descWord h 0x78, runs := 0, cf := 0, cb := 0
          ca := 0, since := none, straggled := false, launched := false, started := false, posted := [], gate := none
          overran := false, applied := BitVec.ofNat 64 (s.load (rc + 8) 8), skipped := s.load (rc + 0x10) 4 } ∧
        Sets [(Csr.colSeqSts_state p, 1), (Csr.colSeqSts_activity p, 0), (Csr.colSeqStep_n p, (descWord h 0x78).toNat),
            (Csr.colSeqWait_in_ticks p, 0), (Csr.colSeqWait_coll_ticks p, 0), (Csr.colSeqCnt_skipped p, 0),
            (Csr.colSeqCnt_stragglers p, 0)] { s with seqs := u.seqs } u ∧
        t = u.seqNext p seqFuel) ∧
      (¬ owned ∨ may ∧ s.headerOk p h ls = false →
        Sets [(Csr.colSeqSts_state p, 0), (Csr.colSeqSts_cfg_err p, 1)] s u ∧
        t = u.raise (hubEvent 5 p 0x0801 sevFault 0 (s.word (Csr.colSeqStep p))))) ∧
  (∀ (p : Nat) (s : State), p < 32 → s.seqState p = 1 →
    ∃ t, exec (.seqStop p) s = .next t ∧ Sets [(Csr.colSeqSts_state p, 2)] s t) ∧
  (∀ (p : Nat) (s : State), p < 32 → s.seqState p = 1 ∨ s.seqState p = 2 →
    ∃ t, exec (.seqAbort p) s = .next t ∧ t = { s with seqAborting := t.seqAborting } ∧
      ∀ p', NMap.get (fun _ => false) t.seqAborting p' = (p' == p || NMap.get (fun _ => false) s.seqAborting p')) ∧
  (∀ (p : Nat) (s : State), p < 32 → s.seqState p ≠ 1 → s.seqState p ≠ 2 →
    exec (.seqStop p) s = .next s ∧ exec (.seqAbort p) s = .next s) ∧
  ∀ (p : Nat) (q : Seq) (s : State), s.seq? p = some q → NMap.get (fun _ => false) s.seqAborting p = true →
    (∀ n ∈ maskTiles p q.tiles, (s.tile n).state = tsIdle ∨ (s.tile n).state = tsDebug) → SeqMay64 s p .write q.record →
    ∃ t, exec (.seqAbortComplete p) s = .next t ∧ Abandons s t p q 3

/-- A launch starts the tiles of the mask, all IDLE, on the layer's program with the argument of Table 12.3, after the
step's record is begun before its first launch (R346, R363); a wait is met once its signal word, read at P (R343),
holds one input more than were consumed (R348), each tick edge that its hub sees until then counts (R349), and at its
deadline edge a wait that is not met raises SEQ_STRAGGLER once and goes on (R349). -/
def SequencerLaunches : Prop :=
  (∀ (p : Nat) (q : Seq) (k m l : Nat) (rest : List SeqAct) (s : State), p < 32 → s.seq? p = some q →
    q.todo = .launch k m l :: rest → s.seqOn p = true → q.launched = false →
    (∀ n, Named p q.tiles n = true → (s.tile n).state = tsIdle ∧ (s.tile n).haltReq = false ∧
      (s.tile n).stepping = false) → (q.started = false → SeqMay64 s p .write q.record) →
    let lr := q.layers.getD l []
    let entry := descWord lr (match k with | 1 => 0x10 | 2 => 0x08 | 3 => 0x20 | _ => 0)
    let rank := fun (n : Nat) => ((List.range (n % 64)).filter (fun i => q.tiles.getLsbD i)).length
    ∃ t u : State, exec (.seqLaunch p) s = .next t ∧ u = { s with mem := u.mem, ueWords := u.ueWords } ∧
      (if q.started then u = s else
        RecordHas s u q [(0, 8, q.n.toNat), (8, 8, q.applied.toNat), (0x10, 8, q.skipped), (0x18, 8, 0), (0x20, 8, 0),
          (0x28, 8, 0), (0x30, 8, (s.seenHub (hubOf p)).toNat), (0x38, 8, 0)]) ∧
      SeqIs { u with tiles := t.tiles } t p { q with todo := rest, launched := true, started := true } ∧
      Sets [(Csr.colSeqSts_activity p, match k with | 0 => 0 | 3 => 4 | 4 => 5 | _ => 1), (Csr.colSeqSts_mb p, m),
        (Csr.colSeqSts_layer p, l)] { u with tiles := t.tiles, seqs := t.seqs } t ∧
      ∀ n, if Named p q.tiles n then
          Launched (s.tile n) (t.tile n) entry
            (BitVec.ofNat 64 (m + l * 2 ^ 16 + k * 2 ^ 24 + q.n.toNat % 2 ^ 32 * 2 ^ 32)) (b2n q.priv)
            (descWord q.hdr 0x50) (bits (descWord q.hdr 0x58) (32 + 4 * k) 4) (rank n)
            ((List.range 64).filter (fun i => q.tiles.getLsbD i)).length
        else t.tile n = s.tile n) ∧
  (∀ (p w : Nat) (q : Seq) (rest : List SeqAct) (s : State), s.seq? p = some q → q.todo = .wait w :: rest → w < 3 →
    s.seqOn p = true → q.launched = false → q.sig w ≠ 0 →
    (SeqMay s p .read (q.sig w) 8 → (match w with | 0 => q.cf | 1 => q.cb | _ => q.ca) + 1 ≤ s.load (q.sig w) 8 →
      ∃ t u : State, exec (.seqSignalWaitMet p) s = .next t ∧
        SeqIs s u p { q with
          todo := rest, since := none, cf := q.cf + (if w = 0 then 1 else 0), cb := q.cb + (if w = 1 then 1 else 0)
          ca := q.ca + (if w = 2 then 1 else 0) } ∧ u.csr = s.csr ∧ t = u.seqNext p seqFuel) ∧
    (s.accessFail (.loc p true) none (hubOf p) .read (q.sig w) 8 = some stProt →
      exec (.seqSignalWaitMet p) s = .next (s.deny (.loc p true) (q.sig w)))) ∧
  (∀ (p w : Nat) (q : Seq) (rest : List SeqAct) (s : State), s.seq? p = some q → q.todo = .wait w :: rest →
    q.since.isSome = true → q.launched = false → p < 32 → s.seqOn p = true → s.frozen = false → s.seenHub (hubOf p) ≠ s.count →
    ∃ t, exec (.tickEdgeSeen (.hub (hubOf p))) s = .next t ∧
      t.fld (Csr.colSeqWait_in_ticks p) = (grown s (Csr.colSeqWait_in_ticks p) 1).2 ∧
      t.fld (Csr.colSeqWait_coll_ticks p) = s.fld (Csr.colSeqWait_coll_ticks p)) ∧
  (∀ (p : Nat) (q : Seq) (s : State), s.seq? p = some q → q.todo = [] → (q.at_ = .coll ∨ q.at_ = .gate ∨ q.at_ = .update) →
    p < 32 → s.seqOn p = true → s.frozen = false → s.seenHub (hubOf p) ≠ s.count →
    ∃ t, exec (.tickEdgeSeen (.hub (hubOf p))) s = .next t ∧
      t.fld (Csr.colSeqWait_coll_ticks p) = (grown s (Csr.colSeqWait_coll_ticks p) 1).2 ∧
      t.fld (Csr.colSeqWait_in_ticks p) = s.fld (Csr.colSeqWait_in_ticks p)) ∧
  ∀ (p w : Nat) (q : Seq) (rest : List SeqAct) (b : W64) (s : State), s.seq? p = some q → q.todo = .wait w :: rest →
    q.since = some b → s.seqOn p = true → q.launched = false → q.straggled = false → q.straggle ≠ 0 →
    s.signalMet p q w = false → b.toNat + q.straggle ≤ (s.seenHub (hubOf p)).toNat →
    ∃ t u : State, exec (.seqStragglerDeadline p) s = .next t ∧ SeqIs s u p { q with straggled := true } ∧
      Sets [grown s (Csr.colSeqCnt_stragglers p) 1] { s with seqs := u.seqs } u ∧
      t = u.raise (seqEvent p 0x0802 sevInfo q)

/-- The end of a step: with every posted entry done and good the gate value goes to the gate descriptor's source and
the gate is posted, once the ring has room, with any other status the sequencer freezes (R358 to R360); with the gate
done a step is skipped, its record and event saying so, or its factor and counts are recorded and its update begins,
of kind TRAIN_N as one batch that a bad descriptor turns away whole and that is applied in part where it meets an
uncorrectable word (R361 to R364); with the update done its registers show so, and applied and t_end are recorded
(R363). -/
def SequencerSteps : Prop :=
  (∀ (p : Nat) (q : Seq) (s : State), p < 32 → s.seq? p = some q → s.seqOn p = true → q.at_ = .coll → q.todo = [] →
    q.launched = false → (∀ e ∈ q.posted, e.2.isSome) →
    let r := q.ring p
    ∃ t, exec (.seqCollDone p) s = .next t ∧
      ((∃ e ∈ q.posted, e.2.getD 0 ∉ [stOk, stDeferred, stDropped]) → SeqMay64 s p .write q.record →
        ∃ v : State, Abandons s v p q 4 ∧ t = v.raise (seqEvent p 0x0804 sevWarn q)) ∧
      ((∀ e ∈ q.posted, e.2.getD 0 ∈ [stOk, stDeferred, stDropped]) →
        (s.postRoom r = false → t = s) ∧
        ∀ c, s.postRoom r = true → s.ring? r = some c →
          let i := s.fld (Csr.memRingIdx_idx r)
          let entry := c.base + 64 * (i % 2 ^ c.sizeLog2)
          let src := bits (descWord (s.words q.gateDa 8) 0x08) 0 60
          let v := s.store src 8 (s.gateValue p q).2
          let w := (v.writeBytes entry (v.bytes q.gateDa 64)).publish r ((i + 1) % 2 ^ 32)
          RecordsReadable s p q → SeqMay s p .read q.gateDa 64 → SeqMay s p .write src 8 → SeqMay s p .write entry 64 →
          SeqIs w t p { q with at_ := .gate, gate := some (i, none) } ∧
          Sets [(Csr.colSeqSts_activity p, 3)] { w with seqs := t.seqs } t)) ∧
  (∀ (p i st : Nat) (q : Seq) (e : Ecc) (s : State), s.seq? p = some q → s.seqOn p = true → q.at_ = .gate →
    q.gate = some (i, some st) → SeqMay64 s p .write q.record →
    ∃ t, exec (.seqGateDone p e) s = .next t ∧
      let ws := s.words q.gateDa 8
      let rc := (s.recordOf ws).getD 0
      let dst := bits (descWord ws 0x10) 0 60
      let sg := s.load dst 8
      let records := (s.stepRecords p q).2
      let late := records.foldl (fun n a => n + s.load (a + 8) 4) 0
      let carried := records.foldl (fun n a => n + s.load (a + 12) 4) 0
      let fields := fun (skipped outcome c : Nat) =>
        [(0x10, 4, skipped), (0x14, 4, outcome), (0x18, 8, sg), (0x20, 4, c), (0x24, 4, late), (0x28, 4, carried)]
      let may := RecordsReadable s p q ∧ SeqMay s p .read q.gateDa 64 ∧ SeqMay s p .read dst 8 ∧
        SeqMay s p .read (rc + 0x10) 4
      (st ≠ 0 → ∃ v : State, Abandons s v p q 4 ∧ t = v.raise (seqEvent p 0x0804 sevWarn q)) ∧
      (st = 0 → may → s.load (rc + 0x10) 4 = 1 →
        let n := (q.skipped + 1) % 2 ^ 32
        ∃ v : State, v = { s with csr := v.csr, mem := v.mem, ueWords := v.ueWords } ∧ RecordHas s v q (fields n 1 0) ∧
          Sets [grown s (Csr.colSeqCnt_skipped p) 1] { s with mem := v.mem, ueWords := v.ueWords } v ∧
          StepCloses (v.raise (seqEvent p 0x0803 sevWarn q)) t p { q with skipped := n } false) ∧
      (st = 0 → may → s.load (rc + 0x10) 4 ≠ 1 →
        let c := s.gradFactor q.gradScale q.clip sg
        ∃ v : State, v = { c.2 with mem := v.mem, ueWords := v.ueWords } ∧ RecordHas s v q (fields q.skipped 0 c.1) ∧
          (q.kind = 0 → t = v.beginUpdate p q c.1 e) ∧
          (q.kind ≠ 0 →
            let n := q.applied.toNat
            let ds := (v.batch p q).2
            (∀ r ∈ q.layers, lrUpd r ≠ 0 → ∀ j < lrCount r, SeqMay v p .read (lrUpd r + 128 * j) 128) →
            ∃ w x : State, Sets [(Csr.colSeqSts_activity p, 4)] v w ∧
              if ds.any (fun d => d.2.bad d.1 || !w.updOwned p n d.2) = true then
                Abandons (w.raise (hubEvent 4 p 0x0807 sevFault 0 q.n)) t p { q with at_ := .update } 5
              else
                SeqIs w x p { q with at_ := .update } ∧
                Sets [(Csr.colUpdSts_busy p, 1), (Csr.colUpdSts_remaining p, ds.length)] { w with seqs := x.seqs } x ∧
                (e = .ok → (∀ d ∈ ds, ∀ y ∈ d.2.spans n, y.2.1 ≠ 0 →
                    SeqMay x p .read y.1 y.2.1 ∧ (y.2.2 = true → SeqMay x p .write y.1 y.2.1)) →
                  t = ds.foldl (fun s d => s.applyUpd p q.n c.1 n d.2) x) ∧
                ∀ a, e = .uncorrectable a → ds.any (fun d => d.2.reads n e) = true →
                  t = (x.memUe a (some p)).partBatch p q.n c.1 n ds e))) ∧
  (∀ (p : Nat) (q : Seq) (s : State), p < 32 → s.seq? p = some q → s.seqOn p = true → q.at_ = .update → q.todo = [] →
    q.launched = false → SeqMay64 s p .write q.record →
    ∃ t u : State, exec (.seqUpdateDone p) s = .next t ∧
      Sets [(Csr.colUpdSts_busy p, 0), (Csr.colUpdSts_remaining p, 0)] s u ∧
      StepCloses u t p { q with since := none } true) ∧
  ∀ (p : Nat) (s : State), p < 32 → s.seqOn p = false →
    ∃ t, exec (.seqUpdateDone p) s = .next t ∧ Sets [(Csr.colUpdSts_busy p, 0), (Csr.colUpdSts_remaining p, 0)] s t

/-- An evaluation begins when its hub sees the window's edge, and one that runs past its end raises EVAL_OVERRUN once
(R370). -/
def SequencerEvaluates : Prop :=
  (∀ (p : Nat) (q : Seq) (w : W64) (s : State), s.seq? p = some q → q.at_ = .evalWait w → s.seqOn p = true →
    w.toNat ≤ (s.seenHub (hubOf p)).toNat →
    ∃ t u : State, exec (.evalWindowStart p) s = .next t ∧ SeqIs s u p { q with at_ := .eval w, blk := 0, since := none } ∧
      u.csr = s.csr ∧ t = u.seqNext p seqFuel) ∧
  ∀ (p : Nat) (q : Seq) (w : W64) (s : State), s.seq? p = some q → q.at_ = .eval w → s.seqOn p = true →
    q.overran = false → w.toNat + q.evalLen ≤ (s.seenHub (hubOf p)).toNat →
    ∃ t u : State, exec (.evalOverrun p) s = .next t ∧ SeqIs s u p { q with overran := true } ∧ u.csr = s.csr ∧
      t = u.raise (seqEvent p 0x0806 sevWarn q)

end Sys2Proof.Claims

/-- The stage sequencers, from start to stop (R344, R346, R348 to R350, R356, R358 to R364, R370). -/
def Obligations.SequencersRun : Prop :=
  SequencerMoves ∧ SequencerLaunches ∧ SequencerSteps ∧ SequencerEvaluates

/-! ## Partitions and the Cadastre -/

namespace Sys2Proof.Claims

/-- What holding partition `p` in reset does (R376 steps 1 to 4): its tiles stand in RESET, no longer halted, with
nothing in flight and their chains discarded, its transfers are forgotten and their answers count no more, its
contributions reach no destination and those that wait at a crossing count as served, its sequencer is stopped. -/
def PartHeld (s t : State) (p : Nat) : Prop :=
  t = { s with
    mem := t.mem, ueWords := t.ueWords, tiles := t.tiles, csr := t.csr, rings := t.rings, resetPhase := t.resetPhase
    insts := (s.dropHeld p).insts
    admitted := s.admitted.filter (· != p), readyReq := s.readyReq.filter (· != p)
    seqs := NMap.erase s.seqs p, seqAborting := NMap.erase s.seqAborting p
    fetched := s.fetched.filter (fun f => f.ring / 1024 != p)
    segs := s.segs.map (fun g => { g with live := g.live && !g.owner.ofPart p })
    heldSegs := s.heldSegs.filter (fun g => !g.out.any (fun x => x.owner.ofPart p))
    hostReads := s.hostReads.filter (fun h => h.ring / 1024 != p)
    staged := s.staged.filter (fun e => !e.1.ofPart p)
    fenced := s.fenced.filter (fun f => !f.2.ofPart p)
    loading := NMap.erase s.loading p
    contribs := s.contribs.map (fun c => if c.part = p then { c with dead := true } else c) } ∧
  (∀ n, partOf n ≠ p → t.tile n = s.tile n) ∧
  (∀ i < 64, let a := s.tile (tileOf p i)
    let b := t.tile (tileOf p i)
    b = { a with
      csr := b.csr, wait := .none, haltReq := false, stepping := false, bpPassed := false, fills := [], mq := []
      convs := [], tq := [], chains := [], ovfSlots := [], inflight := [] } ∧
    b.state = tsReset ∧ SameRegs a b ∧ b.fld Csr.tcDbgSts_halted = 0 ∧
    b.fld Csr.tcDbgSts_reason = a.fld Csr.tcDbgSts_reason) ∧
  ∀ x, ((∃ i < 64, InChain s (tileOf p i) x) → t.byte x = 0) ∧ ((∀ i < 64, ¬ InChain s (tileOf p i) x) → t.byte x = s.byte x)

/-- The field of a sequencer that a reset stops. -/
def stoppedSeq (s : State) (p : Nat) : List (Fld × Nat) :=
  if s.seqState p = 1 ∨ s.seqState p = 2 then [(Csr.colSeqSts_state p, 3)] else []

/-- A completion for each Function Level Reset of partition `p` that waits. -/
def FlrsEnd (s : State) (p : Nat) : State :=
  { s with
    out := s.out ++ if s.frozen then [] else (s.flrWaits.filter (· == p)).map (fun _ => .ack)
    flrWaits := s.flrWaits.filter (· != p) }

/-- PART_RESET begins a partition reset on a READY partition and is ignored otherwise (R376); so does a Function Level
Reset of its VF, which completes with the reset in progress or, where the partition is withdrawn, at once; one of the
PF clears VF Enable alone (R388; the PF's state and when the FLR that starts a reset completes are the model's, log
71). The registers, SRAM, tiles, rings, registry and per-partition registers of the partition are zeroed or returned
to reset, after the tile test of R446 where a fault is attributed; then the partition is READY, its tiles IDLE,
PART_RESET_DONE raised, the Function Level Resets complete, and a repair done. -/
def PartitionsReset : Prop :=
  (∀ (p : Nat) (s : State), p < 32 →
    (s.fld (Csr.prtPart_state p) ≠ 0 → exec (.partReset p) s = .next s) ∧
    (s.fld (Csr.prtPart_state p) = 0 → ∃ t, exec (.partReset p) s = .next t ∧ PartHeld s t p ∧ t.rings = s.rings ∧
      t.resetPhase = NMap.insert s.resetPhase p 1 ∧
      Sets ((Csr.prtPart_state p, 1) :: stoppedSeq s p) { t with csr := s.csr } t ∧
      exec (.flr (.vf p)) s = .next { t with flrWaits := s.flrWaits ++ [p] }) ∧
    (s.fld (Csr.prtPart_state p) = 2 → exec (.flr (.vf p)) s = .next (s.emit .ack)) ∧
    (s.fld (Csr.prtPart_state p) ≠ 0 → s.fld (Csr.prtPart_state p) ≠ 2 →
      exec (.flr (.vf p)) s = .next { s with flrWaits := s.flrWaits ++ [p] })) ∧
  (∀ s : State, exec (.flr .pf) s = .next ({ s with vfEnable := false }.emit .ack)) ∧
  (∀ (p : Nat) (failed : W64) (s : State), p < 32 → NMap.find? s.resetPhase p = some 1 →
    (p ∉ s.repairing ∨ ∀ x ∈ s.remaps, rowPart x.1 x.2.1 ≠ p) →
    let attr := s.word (Csr.svcFltAttr p)
    let hard := attr &&& failed
    ∃ t u v : State, exec (.partResetZero p failed) s = .next t ∧
      Sets [(Csr.svcFltHard_hard p, hard.toNat), (Csr.svcFltAttr_attr p, 0)] s v ∧
      u = (if attr = 0 then s else v.raise (devEvent 0 0x0A04 sevInfo (some p) attr hard)) ∧
      t = { u with
        mem := t.mem, ueWords := t.ueWords, tiles := t.tiles, csr := t.csr
        rings := NMap.clear u.rings (1024 * p) (1024 * (p + 1)), registry := NMap.erase u.registry p
        rngQueue := NMap.erase u.rngQueue p, rngArr := NMap.erase u.rngArr p, lastRing := NMap.erase u.lastRing p
        held := NMap.erase u.held p, lostMark := NMap.erase u.lostMark p, overflowed := NMap.erase u.overflowed p
        resetPhase := NMap.insert u.resetPhase p 2 } ∧
      (∀ o, t.word o = if partReg p o = true ∨ (Csr.memRingIdx (1024 * p) ≤ o ∧ o < Csr.memRingIdx (1024 * (p + 1))) then
          deviceReset o else u.word o) ∧
      (∀ n, t.tile n = if partOf n = p then
          { Tile.reset.setWord Csr.rngTileEval ((u.tile n).word Csr.rngTileEval) with mode := u.word Csr.dtmModeCur }
        else u.tile n) ∧
      ∀ a, ((∃ i < 64, sramBase (tileOf p i) ≤ a ∧ a < sramBase (tileOf p i) + sramSize) → t.byte a = 0) ∧
        ((∀ i < 64, a < sramBase (tileOf p i) ∨ sramBase (tileOf p i) + sramSize ≤ a) → t.byte a = u.byte a)) ∧
  ∀ (p : Nat) (s : State), p < 32 → NMap.find? s.resetPhase p = some 2 →
    ∃ t u v : State, exec (.partResetDone p) s = .next t ∧
      Sets [(Csr.prtPart_state p, 0)] { s with tiles := u.tiles, resetPhase := NMap.erase s.resetPhase p } u ∧
      (∀ n, if partOf n = p then u.tile n = { s.tile n with csr := (u.tile n).csr } ∧ (u.tile n).state = tsIdle ∧
          SameRegs (s.tile n) (u.tile n) ∧ (u.tile n).word Csr.tcDbgSts = (s.tile n).word Csr.tcDbgSts
        else u.tile n = s.tile n) ∧
      v = FlrsEnd (u.raise (devEvent 5 0x0903 sevInfo (some p) 0 0)) p ∧
      (p ∉ s.repairing → t = v) ∧
      (p ∈ s.repairing → Sets [(Csr.svcRepair_done, 1)] { v with repairing := s.repairing.filter (· != p) } t)

/-- PART_WITHDRAW holds the partition, disables its rings and takes it out until cold reset, counted in SVC_REPL with
PART_WITHDRAWN and the reason spares (R375, R447, R450), and ends the Function Level Resets that wait for it; a
WITHDRAWN partition stays as it is. -/
def PartitionsAreWithdrawn : Prop :=
  ∀ (p : Nat) (s : State), p < 32 →
    (s.fld (Csr.prtPart_state p) = 2 → exec (.partWithdraw p) s = .next s) ∧
    (s.fld (Csr.prtPart_state p) ≠ 2 →
      let lo := Csr.memRingIdx (1024 * p)
      let hi := Csr.memRingIdx (1024 * (p + 1))
      ∃ t u : State, exec (.partWithdraw p) s = .next t ∧ PartHeld s u p ∧
        u.rings = NMap.clear s.rings (1024 * p) (1024 * (p + 1)) ∧ u.resetPhase = NMap.erase s.resetPhase p ∧
        (∀ o, lo ≤ o → o < hi → u.word o = deviceReset o) ∧
        Sets ((Csr.prtPart_state p, 2) :: grown s Csr.svcRepl_withdrawn 1 :: stoppedSeq s p)
          { u with csr := NMap.clear s.csr lo hi } u ∧
        t = (FlrsEnd (u.raise (devEvent 5 0x0904 sevDevice (some p) 0 0)) p).setReason 0)

/-- A commit (R384, R385): go while one is in progress sets busy_err; otherwise busy is set and each check point takes
the shadow, whole, at once or later, by a choice the spec leaves open, a stack's with its granules and H0's with the
assignments and job slots that the registers show; until one has, it decides by what the copy held before. When the
commit is done every check point has switched, busy is clear, gen one higher and CADASTRE_COMMIT raised, the shadow as
it was. -/
def CommitsSwitchTheCadastre : Prop :=
  (∀ (v : W64) (s : State), v.getLsbD 0 = false → exec (.prtCommit v) s = .next (s.genWrite Csr.prtCommit v)) ∧
  (∀ (v : W64) (s : State), v.getLsbD 0 = true → s.fld Csr.prtCommit_busy = 1 →
    ∃ t, exec (.prtCommit v) s = .next t ∧ Sets [(Csr.prtCommit_busy_err, 1)] (s.genWrite Csr.prtCommit v) t) ∧
  (∀ (v : W64) (s : State), v.getLsbD 0 = true → s.fld Csr.prtCommit_busy = 0 →
    ∃ t u : State, exec (.prtCommit v) s = .next t ∧
      Sets [(Csr.prtCommit_busy, 1)] { s.genWrite Csr.prtCommit v with
        freeCtr := s.freeCtr + 2057, cadOld := (s.genWrite Csr.prtCommit v).activeCopy, commitAt := s.freeCtr } u ∧
      t = (List.range 9).foldl (fun s k => if u.hasSwitched k then s.switchPoint k else s) u ∧
      (∀ k < 8, ∀ i < 64, t.word (Csr.prtGranAct (64 * k + i)) =
        if u.hasSwitched k then u.word (Csr.prtGran (64 * k + i)) else u.word (Csr.prtGranAct (64 * k + i))) ∧
      ∀ k p, k ≠ 8 → p < 32 → t.assignAt k p =
        if t.hasSwitched k then (s.fld (Csr.prtPart_job p), s.flag (Csr.prtPart_assigned p)) else
          (s.fld (Csr.prtPart_job_act p), s.flag (Csr.prtPart_assigned_act p))) ∧
  ∀ s : State, s.fld Csr.prtCommit_busy = 1 →
    ∃ t u : State, exec .commitDone s = .next t ∧ u = { s with csr := u.csr } ∧
      (∀ g < 512, u.word (Csr.prtGranAct g) = s.word (Csr.prtGran g) ∧ u.word (Csr.prtGran g) = s.word (Csr.prtGran g)) ∧
      (∀ p < 32, u.fld (Csr.prtPart_job_act p) = s.fld (Csr.prtPart_job p) ∧
        u.fld (Csr.prtPart_assigned_act p) = s.fld (Csr.prtPart_assigned p) ∧
        u.fld (Csr.prtPart_job p) = s.fld (Csr.prtPart_job p) ∧
        u.fld (Csr.prtPart_assigned p) = s.fld (Csr.prtPart_assigned p)) ∧
      (∀ j < 32, u.word (Csr.prtJobAct j) = s.word (Csr.prtJob j) ∧ u.word (Csr.prtJobActPeers j) = s.word (Csr.prtJobPeers j) ∧
        u.word (Csr.prtJob j) = s.word (Csr.prtJob j) ∧ u.word (Csr.prtJobPeers j) = s.word (Csr.prtJobPeers j)) ∧
      u.fld Csr.prtCommit_busy = 0 ∧ u.fld Csr.prtCommit_gen = (s.fld Csr.prtCommit_gen + 1) % 2 ^ 32 ∧
      t = u.raiseM (devEvent 5 0x0902 sevInfo none 0 0)

/-- The system identity is written once and checked at once (R390): BOUND with BIND_OK where it and the strapped
position are the binding, else NEW_OCCUPANT with its event. -/
def TheBindingIsChecked : Prop :=
  ∀ (v : W64) (s : State),
    (Csr.prtSysid ∈ s.locked → exec (.prtSysidWrite v) s = .next s) ∧
    (Csr.prtSysid ∉ s.locked →
      let u := s.genWrite Csr.prtSysid v
      let ok := s.otp.bound = some (BitVec.ofNat 64 (v.toNat % 2 ^ 48 * 2 ^ 13 + s.fld Csr.lnkSts_phys))
      u.fld Csr.prtSysid_sysid = v.toNat % 2 ^ 48 ∧ Csr.prtSysid ∈ u.locked ∧
      ∃ t w : State, exec (.prtSysidWrite v) s = .next t ∧ Sets [(Csr.prtBindSts_state, if ok then 1 else 2)] u w ∧
        t = w.raiseM (if ok then devEvent 0 0x0906 sevInfo none 0 0 else devEvent 0 0x0905 sevDevice none 0 0))

end Sys2Proof.Claims

/-- Partition reset and withdrawal, the Cadastre's commit and the installation binding (R375, R376, R384, R385, R390,
R446, R450). -/
def Obligations.PartitionsAndTheCadastre : Prop :=
  PartitionsReset ∧ PartitionsAreWithdrawn ∧ CommitsSwitchTheCadastre ∧ TheBindingIsChecked

/-! ## Limited-change settings, SPDM, PLDM -/

namespace Sys2Proof.Claims

/-- A change is accepted (R393): the id names a setting that has writes left, the value is within Table 13.4, the
Logbook has room, and no change is in progress. -/
def ChangeAllowed (s : State) (id : Nat) (v : W64) : Prop :=
  s.otp.log.length < 4096 ∧ s.fld Csr.prtLcsSts_busy ≠ 1 ∧ (∀ e ∈ s.otp.log, e.done = true) ∧
  ((id = 1 ∧ s.otp.bindUsed < 32 ∧ v.toNat < 2 ^ 61) ∨
    (id = 2 ∧ s.otp.surveyUsed < 8 ∧ s.otp.release < v.toNat ∧ v.toNat ≤ 6) ∨
    (id = 3 ∧ s.otp.revokeUsed < 16 ∧ v.toNat < 32))

/-- PRT_LCS_CMD with go starts a change that R393 allows: a Logbook entry is begun with the count, the old and the new
value, the actor, one write of the setting is used, busy is set; any other is refused with LCS_REFUSED and writes
nothing. LCS_PROGRAM_DONE programs the value, completes the entry, raises LCS_DONE, and BOUND holds at once for a
binding that matches (R391). That a revocation's old value is open is the model's choice (log 5). -/
def SettingsChange : Prop :=
  (∀ (actor : Nat) (v : W64) (s : State), v.getLsbD 3 = true → s.hold = 0 → s.frozen = false →
    let id := v.toNat % 8
    let x := s.word Csr.prtLcsVal
    (ChangeAllowed s id x → ∃ t old, exec (.prtLcsCmd v actor) s = .next t ∧
      t.otp = { s.otp with
        bindUsed := s.otp.bindUsed + (if id = 1 then 1 else 0), surveyUsed := s.otp.surveyUsed + (if id = 2 then 1 else 0)
        revokeUsed := s.otp.revokeUsed + (if id = 3 then 1 else 0)
        log := s.otp.log ++ [⟨s.count, id, actor, s.fwKey, false, false, old, x⟩] } ∧
      (id = 1 → old = s.otp.bound.getD 0) ∧ (id = 2 → old = BitVec.ofNat 64 s.otp.release) ∧
      Sets [(Csr.prtLcsSts_busy, 1)] { s with otp := t.otp, freeCtr := t.freeCtr } t) ∧
    (¬ ChangeAllowed s id x → ∃ t u : State, exec (.prtLcsCmd v actor) s = .next t ∧ Sets [(Csr.prtLcsSts_refused, 1)] s u ∧
      t = u.raiseM (devEvent 8 0x0908 sevWarn none 0 0))) ∧
  (∀ (actor : Nat) (v : W64) (s : State), v.getLsbD 3 = false → exec (.prtLcsCmd v actor) s = .next s) ∧
  ∀ (e : LogEntry) (s : State), s.otp.log.find? (fun e => !e.done) = some e → s.frozen = false →
    let done := s.otp.log.map (fun x => if x.done then x else { x with done := true, interrupted := false })
    ∃ t u v : State, exec .lcsProgramDone s = .next t ∧
      (e.setting = 1 → u.otp = { s.otp with bound := some e.new, log := done }) ∧
      (e.setting = 2 → u.otp = { s.otp with release := e.new.toNat, log := done }) ∧
      (e.setting = 3 → u.otp = { s.otp with revoked := s.otp.revoked ++ [e.new.toNat], log := done }) ∧
      Sets [(Csr.prtLcsSts_busy, 0)] { s with otp := u.otp } u ∧ v = u.raiseM (devEvent 8 0x0907 sevInfo none 0 0) ∧
      if e.setting = 1 ∧ v.fld Csr.prtBindSts_state ≠ 0 ∧ e.new = v.presentBinding then Sets [(Csr.prtBindSts_state, 1)] v t
      else t = v

/-- An SPDM response leaves the block on the transport of its request, with nothing else of it than the responder's
state changed. -/
def Says (s : State) (via : Transport) (d : Spdm) (code : Nat) (bs : List Byte) : State :=
  { s with spdm := d, out := s.out ++ [.spdm via code bs] }

/-- The SPDM responder while the firmware runs, over SMBus, or over PCIe where the link is up (R389): negotiation in
its order, slot 0 alone, the digest of its chain by SHA-384, measurement blocks 1 to 6, at most four sessions; a
request out of place answers ERROR. The response and error codes are DMTF's, presumed (log 8), as are the places of
flags and algorithms (log 71). -/
def SpdmAnswers : Prop :=
  ∀ (via : Transport) (s : State), s.fwRuns = true →
    (via = .smbus ∨ s.pcieUp = true ∧ (via = .vdm ∨ s.pcieCfg = true)) →
    let d := s.spdm
    let Says := fun (s : State) (d : Spdm) (code : Nat) (bs : List Byte) => Says s via d code bs
    let err := fun (e : Nat) => Says s d 0x7F (toBytes 1 e)
    let chain := Config.crypto 0x02 (toBytes 8 (s.word Csr.prtIdent).toNat)
    let up := fun (c : Instr) (ok : State) => exec c s = .next (if d.algs then ok else err 0x04)
    exec (.getVersion via) s = .next (Says s { version := true } 0x04 (toBytes 1 0x13)) ∧
    exec (.getCapabilities via) s = .next (if d.version then
      Says s { d with caps := true } 0x61 (toBytes 4 0x22D6 ++ Config.crypto 0x61 []) else err 0x04) ∧
    (∀ ok, exec (.negotiateAlgorithms ok via) s = .next (if d.caps then
      if ok then Says s { d with algs := true } 0x63 (spdmAlgorithms ++ Config.crypto 0x63 []) else err 0x01
      else err 0x04)) ∧
    up (.getDigests via) (Says s d 0x01 (toBytes 1 1 ++ sha384 chain)) ∧
    (∀ slot off len, up (.getCertificate slot off len via)
      (if slot = 0 then Says s d 0x02 ((chain.drop off).take len) else err 0x01)) ∧
    (∀ slot nonce, up (.challenge slot nonce via)
      (if slot = 0 then Says s d 0x03 (Config.crypto 0x03 (toBytes 8 nonce.toNat ++ chain)) else err 0x01)) ∧
    (∀ b, up (.getMeasurements b via)
      (if 1 ≤ b ∧ b ≤ 6 then Says s d 0x60 (toBytes 1 b ++ s.measurement b)
        else if b = 0 then Says s d 0x60 (toBytes 1 6)
        else if b = 0xFF then
          Says s d 0x60 ([1, 2, 3, 4, 5, 6].flatMap (fun (b : Nat) => toBytes 1 b ++ s.measurement b))
        else err 0x01)) ∧
    (∀ x, (∀ n < 4, d.sessions.any (fun y => y.1 == n) = true) → up (.keyExchange 0 x via) (err 0x0A)) ∧
    (∀ x, (∃ n < 4, d.sessions.any (fun y => y.1 == n) = false) → ∃ n < 4, d.sessions.any (fun y => y.1 == n) = false ∧
      up (.keyExchange 0 x via) (Says s { d with sessions := d.sessions ++ [(n, false)] } 0x64
        (toBytes 2 n ++ Config.crypto 0x64 (toBytes 8 x.toNat)))) ∧
    (∀ slot x, slot ≠ 0 → up (.keyExchange slot x via) (err 0x01)) ∧
    ∀ n, let out := { d with sessions := d.sessions.filter (fun y => y.1 != n) }
      (∀ ok, up (.finish n ok via) (if (n, false) ∈ d.sessions then
          if ok then Says s { out with sessions := out.sessions ++ [(n, true)] } 0x65 (Config.crypto 0x65 (toBytes 2 n))
          else Says s out 0x7F (toBytes 1 0x06)
        else err 0x02)) ∧
      up (.spdmHeartbeat n via) (if (n, true) ∈ d.sessions then Says s d 0x68 [] else err 0x02) ∧
      up (.endSession n via) (if (n, true) ∈ d.sessions then Says s out 0x6C [] else err 0x02)

/-- PLDM while the firmware runs (R439, R463, Table 15.6): sensors 1 to 34 answer their reading, or that they are
disabled; the numeric ones are enabled and disabled; each has one record; a firmware image goes to the slot the
firmware was not loaded from, in stage FAILED to slot A (R463), and its activation changes nothing before the next
reset. The codes and the record's layout are the model's (log 8). -/
def PldmAnswers : Prop :=
  let say := fun (s : State) (code : Nat) (bs : List Byte) => { s with out := s.out ++ [.message code bs] }
  (∀ (f : FwImage) (s : State), s.stage = bsFailed → s.hold = 0 → s.frozen = false →
    exec (.pldmFwUpdate f) s = .next (say { s with flashA := some f } 0 []) ∧
    exec .activateFirmware s = .next (say s 0 [])) ∧
  ∀ s : State, s.fwRuns = true →
    (∀ n, exec (.getSensorReading n) s = .next
      (if 1 ≤ n ∧ n ≤ 34 then if n ∈ s.sensorsOff then say s 0 (toBytes 1 1) else say s 0 (toBytes 1 0 ++ s.reading n)
        else say s 0x80 [])) ∧
    s.reading 1 = toBytes 8 (s.fld Csr.pwrTel_sample_w / 8) ∧
    s.reading 2 = toBytes 8 ((s.word Csr.pwrEnergy).toNat / 1000000) ∧
    s.reading 3 = toBytes 8 (s.fld Csr.pwrCap_limit_w / 8) ∧
    (∀ n b, exec (.setNumericSensorEnable n b) s = .next
      (if 1 ≤ n ∧ n ≤ 32 then
          say { s with sensorsOff := s.sensorsOff.filter (· != n) ++ if b then [] else [n] } 0 []
        else say s 0x80 [])) ∧
    (∀ k, exec (.pldmGetPdr k) s = .next
      (let n := max 1 k
       if n ≤ 34 then say s 0 (toBytes 4 (if n = 34 then 0 else n + 1) ++ toBytes 2 n ++ toBytes 1 (if 33 ≤ n then 1 else 0))
        else say s 0x82 [])) ∧
    (∀ f, exec (.pldmFwUpdate f) s = .next
      (say (if s.fld Csr.cfgBoot_slot = 1 then { s with flashA := some f } else { s with flashB := some f }) 0 [])) ∧
    exec .activateFirmware s = .next (say s 0 [])

end Sys2Proof.Claims

/-- The limited-change settings and the platform's requests (R389, R391, R393, R395, R439, R463). -/
def Obligations.SettingsAndPlatformRequests : Prop := SettingsChange ∧ SpdmAnswers ∧ PldmAnswers

/-! ## Power, droop, heat, Survey -/

namespace Sys2Proof.Claims

/-- A power event (Table 6.15), with a copy for each partition on the dies concerned. -/
def powerEvent (s : State) (code sev : Nat) (ps : List Nat) (d1 : W64) : State :=
  (ps.foldl (fun s p => s.putPart p ⟨devEvent 1 code sev (some p) 0 d1, s.count, s.flag Csr.dtmSts_holdover⟩) s).raiseM
    (devEvent 1 code sev none 0 d1)

/-- Registers with the controller's own record of the window, steps and thresholds changed, and nothing else. -/
def PowerOnly (s t : State) : Prop := t = { s with csr := t.csr, power := t.power }

/-- Ticks that remain in the power window, in units of 10 ns, by the count that the power controller in H0 sees
(R280). -/
def windowTime (s : State) : Nat :=
  (s.fld Csr.pwrWin_eff - (s.seenHub 0).toNat % max 1 (s.fld Csr.pwrWin_eff)) * s.fld Csr.dtmCtl_period_10ns

/-- The length in whole ticks of the windows that PWR_WIN.ticks gives at the present tick period: at least 1 ms, at
most 10 s (R422). -/
def windowTicks (s : State) : Nat :=
  let p := max 1 (s.fld Csr.dtmCtl_period_10ns)
  min (1000000000 / p) (max ((100000 + p - 1) / p) (s.fld Csr.pwrWin_ticks))

/-- PWR_CAP is stored between 2,400 and 6,400, a write outside setting cap_clamped and one below raising CAP_CLAMPED,
and the budget of the window in progress becomes the energy used and the new cap over the time that remains, here in
units of 1.25 nJ (R421). PWR_WIN's length, held between 1 ms and 10 s at the present tick period, waits for the tick
edge that is a multiple of it, where a window begins with its own budget (R422). Equal ranks in PWR_PRIO are discarded
and set prio_err (R424). -/
def CapAndWindow : Prop :=
  (∀ (v : W64) (s : State),
    let x := v.toNat % 2 ^ 16
    let c := min 6400 (max 2400 x)
    ∃ t u w : State, exec (.pwrCapWrite v) s = .next t ∧
      Sets ((Csr.pwrCap_limit_w, c) :: (if c = x then [] else [(Csr.pwrFlags_cap_clamped, 1)])) s u ∧
      w = (if x < 2400 then powerEvent u 0x0201 sevWarn [] 0 else u) ∧
      t = { w with power := { w.power with budget := w.power.uj * 800 + c * windowTime w } }) ∧
  (∀ (v : W64) (s : State), ∃ t, exec (.pwrWinWrite v) s = .next t ∧ t = s.genWrite Csr.pwrWin v ∧
    Sets [(Csr.pwrWin_ticks, v.toNat)] s t) ∧
  (∀ s : State,
    let now := (s.seenHub 0).toNat
    let begins := fun (w : Nat) => ∃ t, exec .powerWindowEdge s = .next t ∧ PowerOnly s t ∧
      t.power = { s.power with uj := 0, sum := 0, n := 0, edge := some (s.seenHub 0), unmet := false
                               budget := s.fld Csr.pwrCap_limit_w * w * s.fld Csr.dtmCtl_period_10ns } ∧
      Sets [(Csr.pwrWin_eff, w), (Csr.pwrTel_window, now / w), (Csr.pwrTel_avg_w, 0)]
        { s with power := t.power } t
    let eff := s.fld Csr.pwrWin_eff
    (s.power.edge = some (s.seenHub 0) → exec .powerWindowEdge s = .next s) ∧
    (s.power.edge ≠ some (s.seenHub 0) →
      (now % windowTicks s = 0 → begins (windowTicks s)) ∧
      (now % windowTicks s ≠ 0 → 0 < eff → now % eff = 0 → begins eff) ∧
      (now % windowTicks s ≠ 0 → (eff = 0 ∨ now % eff ≠ 0) → exec .powerWindowEdge s = .next s))) ∧
  ∀ (v : W64) (s : State), ∃ t, exec (.pwrPrioWrite v) s = .next t ∧
    let r := fun i => bits v (2 * i) 2
    if r 0 = r 1 ∨ r 0 = r 2 ∨ r 1 = r 2 then Sets [(Csr.pwrFlags_prio_err, 1)] s t
    else t = s.genWrite Csr.pwrPrio v

/-- A sample counts its energy, device and job slots alike, and shows its power, the window's average and the
temperatures (R420, R431, R435, R436); then each die and stack is judged by its temperature (R431, R434), CAP_UNMET
raised where every class stands at its floor with the cap exceeded (R426), and one decision moves the ladder: down by
the class that gives way first where the estimate exceeds the budget, up where a rung higher leaves the margin (R423,
R424). -/
def SamplesDecide : Prop :=
  ∀ (x : PowerReading) (s : State), ∃ t u v w y : State, exec (.powerSample x) s = .next t ∧ PowerOnly s u ∧
    u.word Csr.pwrEnergy = s.word Csr.pwrEnergy + BitVec.ofNat 64 x.uj ∧
    (∀ j < 32, u.word (Csr.pwrJobeEnergyUj j) = if s.fld (Csr.prtJobAct_valid j) = 1 then
      s.word (Csr.pwrJobeEnergyUj j) + BitVec.ofNat 64 x.uj else s.word (Csr.pwrJobeEnergyUj j)) ∧
    u.power = { s.power with
      uj := s.power.uj + x.uj, sum := s.power.sum + x.sample, n := s.power.n + 1
      plan := (List.range 8).map (fun n => (s.plannedVoltage n, decide (s.fld (Csr.pwrOp_en n) = 1)))
      volts := (List.range 16).map (fun d => (s.dieOp d, s.dieVolt d)) } ∧
    u.fld Csr.pwrTel_sample_w = min 0xFFFF x.sample ∧
    u.fld Csr.pwrTel_avg_w = min 0xFFFF ((s.power.sum + x.sample) / (s.power.n + 1)) ∧
    (∀ i < 28, u.fld (Csr.pwrTemp_temp i) = unsigned 16 (x.temps.getD i 0)) ∧
    (∃ d < 20, u.fld Csr.pwrTherm_hottest = d ∧ u.fld Csr.pwrTherm_tj_max = u.fld (Csr.pwrTemp_temp d) ∧
      ∀ i < 20, u.temp i ≤ u.temp d) ∧
    v = (List.range 8).foldl State.heatStack ((List.range 20).foldl State.heatDie u) ∧
    w = (if v.atFloor 0 = true ∧ v.atFloor 1 = true ∧ v.atFloor 2 = true ∧ v.fld Csr.pwrCap_limit_w < x.sample ∧
        v.power.unmet = false then
      powerEvent ({ v with power := { v.power with unmet := true } }.setFld Csr.pwrFlags_cap_unmet 1) 0x0202 sevWarn []
        (BitVec.ofNat 64 x.sample)
      else v) ∧
    t = y.raiseRails.stepDies ∧
    (w.fld Csr.pwrCtl_en ≠ 1 → y = w) ∧
    (w.fld Csr.pwrCtl_en = 1 →
      let used := w.power.uj * 800
      (w.power.budget < used + x.sample * windowTime w →
        y = match w.classes.find? (fun c => !w.atFloor c) with
          | some c => w.rungDown c
          | none => w) ∧
      (used + x.sample * windowTime w ≤ w.power.budget →
        y = match w.classes.reverse.find? (fun c => !w.atTop c) with
          | some c => if (used * 256 + x.sample * w.upRatio c * windowTime w) * 100 ≤ 98 * w.power.budget * 256 then
              w.rungUp c else w
          | none => w))

/-- A step ends by switching the die to the PLL made ready for it (R419); a rail whose voltage write fails stands
where it was, and the steps that need more are given up, reported (R488). -/
def StepsAndRails : Prop :=
  (∀ (d : Nat) (x : OpStep) (s : State), s.power.steps.find? (fun y => y.die == d) = some x →
    s.fld (if x.onB then Csr.clkPllSts_ready_b d else Csr.clkPllSts_ready_a d) = 1 →
    exec (.opStepSwitch d) s =
      .next ((s.requestSwitch d (if x.onB then 1 else 0)).finishStep d).raiseRails.stepDies) ∧
  ∀ (g : Nat) (s : State), g < 4 →
    let was := s.power.railsWas.getD g 720
    ∃ t u : State, exec (.avsTimeout g) s = .next t ∧
      u.power = { s.power with
        steps := s.power.steps.filter (fun x => !(decide (x.die / 4 = g) && decide (was < x.mv)))
        rails := s.power.rails.set g was
        avsBad := if g ∈ s.power.avsBad then s.power.avsBad else s.power.avsBad ++ [g] } ∧
      Sets [(Csr.pwrSts_stepping, if u.power.steps = [] then 0 else 1)] { s with power := u.power } u ∧
      t = powerEvent u 0x0207 sevWarn [] (BitVec.ofNat 64 g)

/-- The current limit is entered by the second of two samples above it, counted and reported once a tick, and released
ten samples after the first at or below (R427). A detector compares with its group rail's set voltage, during a rail
ramp with the lower of the old and the new; a droop starts or deepens a stretch, counted as an entry where none ran,
and the voltage at the end of its hold gives the next state (R428, R429). -/
def LimitsAndDroop : Prop :=
  (∀ (g amps : Nat) (s : State), g < 4 →
    let above := s.fld (Csr.pwrIlim_limit_a g) < amps
    let n := if above then min 2 (s.overOf g + 1) else 0
    let u := if s.underOf g = 0 ∧ above then 0 else s.underOf g + 1
    ∃ t, exec (.ilimSample g amps) s = .next t ∧ t.overOf g = n ∧
      (g ∈ s.power.limited → PowerOnly s t ∧ t.csr = s.csr ∧
        (u < 11 → t.power.limited = s.power.limited ∧ t.underOf g = u) ∧
        (11 ≤ u → t.power.limited = s.power.limited.filter (· != g) ∧ t.underOf g = 0)) ∧
      (g ∉ s.power.limited → n < 2 → t = { s with power := { s.power with overs := t.power.overs } }) ∧
      (g ∉ s.power.limited → n = 2 → ∃ w : State, PowerOnly s w ∧ w.power.limited = s.power.limited ++ [g] ∧
        Sets [grown s (Csr.pwrIlim_events g) 1] { s with power := w.power } w ∧
        t = if NMap.get (fun _ => none) s.power.ilimTick g = some (s.seenHub 0) then w else
          powerEvent w 0x0203 sevInfo ((groupDies g).flatMap dieParts) (BitVec.ofNat 64 g))) ∧
  (∀ (d : Nat) (s : State),
    let ramps := fun (x : OpStep) => x.die / 4 = d / 4 ∧ x.old < x.mv
    ((∀ x ∈ s.power.steps, ¬ ramps x) → s.droopBase d = s.rail (d / 4)) ∧ s.droopBase d ≤ s.rail (d / 4) ∧
    ∀ x ∈ s.power.steps, ramps x → s.droopBase d ≤ x.old) ∧
  (∀ (d mv : Nat) (s : State), d < 16 →
    let below := s.droopBase d - mv
    let sh := 20 + 5 * s.fld (Csr.pwrDroop_shallow d)
    let dp := 20 + 5 * s.fld (Csr.pwrDroop_deep d)
    let div := s.fld (Csr.pwrDroop_div d)
    let starts := fun (n : Nat) => (Csr.pwrDroop_div d, n) :: if div = 0 then [grown s (Csr.pwrDroop_entries d) 1] else []
    ∃ t, exec (.droopDetect d mv) s = .next t ∧
      (dp < below ∧ div ≠ 2 → Sets (starts 2) s t) ∧
      (below ≤ dp ∧ sh < below ∧ div = 0 → Sets (starts 1) s t) ∧
      (¬ (dp < below ∧ div ≠ 2) → ¬ (below ≤ dp ∧ sh < below ∧ div = 0) → t = s)) ∧
  ∀ (d mv : Nat) (s : State), d < 16 → s.fld (Csr.pwrDroop_div d) ≠ 0 →
    let below := s.droopBase d - mv
    ∃ t, exec (.droopHoldExpire d mv) s = .next t ∧
      Sets [(Csr.pwrDroop_div d, if 20 + 5 * s.fld (Csr.pwrDroop_deep d) < below then 2
        else if 20 + 5 * s.fld (Csr.pwrDroop_shallow d) < below then 1 else 0)] s t

/-- What a step of die `d` to point `n` on PLL `b` begins with (R419, R487, R488): the group rail raised where the
point needs it, unless the rail has failed to answer, and the idle PLL programmed for the point. -/
def StepStarts (s t : State) (d n : Nat) (b : Bool) : Prop :=
  let g := d / 4
  let v := s.setVoltage n
  let old := s.rail g
  let pll := if b then Csr.clkPllB d else Csr.clkPllA d
  if old < v ∧ g ∈ s.power.avsBad then t = s
  else ∃ r : State,
    r = { s with
      csr := r.csr, out := s.out ++ if old < v ∧ s.frozen = false then [.avs g v] else []
      power := { s.power with
        rails := if old < v then s.power.rails.set g v else s.power.rails
        railsWas := if old < v then s.power.railsWas.set g old else s.power.railsWas
        avsBad := if old < v then s.power.avsBad.filter (· != g) else s.power.avsBad
        steps := s.power.steps ++ [⟨d, n, b, old, v⟩] } } ∧
    r.word pll = opPll n ∧ (∀ o, o ≠ pll → r.word o = s.word o) ∧
    Sets [(if b then Csr.clkPllSts_ready_b d else Csr.clkPllSts_ready_a d, 0), (Csr.pwrSts_stepping, 1)] r t

/-- A die at 105 °C is forced to OP0, its step given up, with therm_crit, THERMAL_CRIT and ALERT_N low (R432, R504); a
compute die whose TCLK runs from a PLL starts a step to OP0 on the other one, the model's choice (log 72). At 115 °C
THERMTRIP_N falls and nothing else is driven from then on (R433). -/
def HeatIsHeld : Prop :=
  (∀ (d : Nat) (s : State), d < 20 → d ∉ s.power.forced →
    ∃ t u w : State, exec (.thermalCrit d) s = .next t ∧
      u.power = { s.power with forced := s.power.forced ++ [d], steps := s.power.steps.filter (fun x => x.die != d) } ∧
      Sets [(Csr.pwrSts_stepping, if u.power.steps = [] then 0 else 1)] { s with power := u.power } u ∧
      (d < 16 → s.fld (Csr.clkSrc_cur d) = 0 → StepStarts u w d 0 true) ∧
      (d < 16 → s.fld (Csr.clkSrc_cur d) = 1 → StepStarts u w d 0 false) ∧
      (16 ≤ d ∨ 2 ≤ s.fld (Csr.clkSrc_cur d) → w = u) ∧
      t = powerEvent (w.setFld Csr.pwrFlags_therm_crit 1) 0x0205 sevDevice (dieParts d) (BitVec.ofNat 64 d) ∧
      (s.frozen = false → t.alert = true)) ∧
  ∀ (d : Nat) (s : State), d < 20 → s.frozen = false →
    exec (.thermalTrip d) s = .next { s with tripped := true, out := s.out ++ [.pin "THERMTRIP_N" false] }

/-- A Survey starts where it is asked for and each time its period elapses, unless the period is 0 (R452); when it
completes the needs are recorded, dies that exhaust OP0 withdrawn, each point's margin planned as the greatest need
and each point from an exhausted one up disabled, the reason set where OP1 to OP5 are exhausted (R453, R450), and
busy, last and count follow. -/
def SurveysPlan : Prop :=
  (∀ s : State, ∃ t, exec .surveyRun s = .next t ∧ Sets [(Csr.svcSurvCtl_busy, 1)] s t) ∧
  (∀ s : State, ∃ t, exec .surveyPeriodic s = .next t ∧
    if s.fld Csr.svcSurvCtl_period_ticks = 0 then t = s else Sets [(Csr.svcSurvCtl_busy, 1)] s t) ∧
  ∀ (needs : List (List Int)) (s : State), s.fld Csr.svcSurvCtl_busy = 1 →
    ∃ t u v w : State, exec (.surveyComplete needs) s = .next t ∧ u = { s with csr := u.csr } ∧
      (∀ d < 16, ∀ n < 8, ∀ row, needs[d]? = some row → -128 < row.getD n 0 ∧ row.getD n 0 < 128 →
        u.need d n = row.getD n 0) ∧
      v = (List.range 8).foldl State.enablePoint ((List.range 8).foldl State.planPoint u.dropDies) ∧
      w = (if (List.range 6).any (fun n => 1 ≤ n && v.exhausted n) = true then v.setReason 2 else v) ∧
      Sets [(Csr.svcSurvCtl_busy, 0), (Csr.svcSurvSts_last, w.count.toNat), grown w Csr.svcSurvSts_count 1] w t

end Sys2Proof.Claims

/-- Power, droop, heat and Survey (R419 to R424, R426 to R429, R431 to R436, R452, R453). -/
def Obligations.PowerAndSurvey : Prop :=
  CapAndWindow ∧ SamplesDecide ∧ StepsAndRails ∧ LimitsAndDroop ∧ HeatIsHeld ∧ SurveysPlan

/-! ## Discovery -/

namespace Sys2Proof.Claims

/-- A discovery event (R480). -/
def discEvent (code sev : Nat) : Event := devEvent 9 code sev none 0 0

/-- Registers and discovery's own record have changed, and nothing else. -/
def DiscOnly (s t : State) : Prop := t = { s with csr := t.csr, disc := t.disc }

/-- LNK_DISC.start: IDLE goes to TRAIN with its ports training, and a device that is the whole atlas on to FLOOD; an
invalid position is ISOLATED with DISC_POS_INVALID; ISOLATED at a valid position that is no duplicate goes to EXCHANGE
with its own entry; READY is discovered anew; elsewhere start does nothing (R467, R468, R476, R478). EXCHANGE ends two
ticks after its first port came UP (R467), and the join window's close puts a device in TRAIN without a port that is
UP into FLOOD as an atlas of its own (R469, R476). -/
def DiscoveryStarts : Prop :=
  (∀ s : State,
    let st := s.fld Csr.lnkDisc_state
    let starts := fun (t : State) => exec .lnkDiscStart s = .next t
    (st = diIdle → s.posValid s.here = true →
      let u := (s.setFld Csr.lnkDisc_state diTrain).trainAll
      starts (if u.soleAtlas then u.floodAlone else u)) ∧
    (st = diIdle → s.posValid s.here = false → ∃ t u : State, starts t ∧
      Isolates (s.setFld Csr.lnkDisc_pos_invalid 1) u ∧ t = u.trainAll.raiseM (discEvent 0x0B05 sevDevice)) ∧
    (st = diIsolated → s.posValid s.here = true → s.fld Csr.lnkDisc_dup_pos ≠ 1 →
      ∃ t u v : State, starts t ∧ u.disc = { s.disc with since := s.count, readyAt := none } ∧
        Sets [(Csr.lnkDisc_pos_invalid, 0)] { s with disc := u.disc } u ∧
        Sets [(Csr.lnkDisc_state, diExchange)] u.claimEntry v ∧ t = v.ownEntry.recompute s) ∧
    (st = diIsolated → (s.posValid s.here = false ∨ s.fld Csr.lnkDisc_dup_pos = 1) → starts s) ∧
    (st = diReady → starts { s with disc := { s.disc with again := 1 } }) ∧
    (st ≠ diIdle → st ≠ diIsolated → st ≠ diReady → starts s)) ∧
  (∀ s : State, exec .discExchangeTimeout s = .next
    (if s.fld Csr.lnkDisc_state = diExchange ∧ 2 ≤ (s.count - s.disc.since).toNat then s.enterFlood else s)) ∧
  ∀ s : State, ∃ t u : State, exec .joinWindowClose s = .next t ∧
    u.disc = { s.disc with again := if s.disc.again = 1 then 2 else s.disc.again } ∧
    Sets [(Csr.lnkDisc_window, 0)] { s with disc := u.disc } u ∧
    t = if u.fld Csr.lnkDisc_state = diTrain ∧ (List.range 24).all (fun n => u.portState n != psUp) = true then
      u.floodAlone else u

/-- The Origin (R470 to R472): the lowest position of a quiet Gazetteer claims unless a lower or closed claim is held;
a better claim is held and flooded on, and withdraws this device's own; a claim that has stood makes its sender the
Origin, with ORIGIN_ELECTED, the Datum from its pins, and ALIGN at once where its count is aligned already; a
reference that does not come leaves it FREE with its event. -/
def OriginsAreElected : Prop :=
  (∀ s : State, s.fld Csr.lnkDisc_state = diFlood → s.lowest = some s.here → s.disc.mine = false →
    (∀ p closed, s.disc.claim = some (p, closed) → closed = false ∧ s.here ≤ p) →
    ∃ t u : State, exec .gazQuiet s = .next t ∧
      u.disc = { s.disc with claim := some (s.here, false), mine := true } ∧
      Sets [(Csr.lnkDisc_origin_phys, s.here)] { s with disc := u.disc } u ∧
      t = u.flood none gzClaim [BitVec.ofNat 64 s.here, 0]) ∧
  (∀ (port pos : Nat) (closed : Bool) (s : State), pos < positions →
    let better := ∀ q c, s.disc.claim = some (q, c) → c = false ∧ (pos < q ∨ closed = true)
    (¬ better → exec (.gazClaim port pos closed) s = .next s) ∧
    (better → ∃ t u : State, exec (.gazClaim port pos closed) s = .next t ∧
      u.disc = { s.disc with claim := some (pos, closed), mine := s.disc.mine && decide (pos = s.here) } ∧
      Sets ((Csr.lnkDisc_origin_phys, pos) :: (if s.disc.mine = true ∧ pos ≠ s.here then
        [(Csr.lnkDisc_origin, 0), (Csr.dtmCtl_origin, 0)] else [])) { s with disc := u.disc } u ∧
      t = (u.flood (some port) gzClaim [BitVec.ofNat 64 pos, if closed then 1 else 0]).followOrigin)) ∧
  (∀ s : State, s.disc.mine = true → s.fld Csr.lnkDisc_state = diFlood → s.fld Csr.lnkDisc_origin ≠ 1 →
    ∃ t u v : State, exec .originElected s = .next t ∧
      Sets [(Csr.dtmCtl_origin, 1), (Csr.lnkDisc_origin, 1)] s u ∧
      v = (u.raiseM (discEvent 0x0B07 sevInfo)).writeSrc srcPin ∧
      t = if v.fld Csr.dtmSts_aligned = 1 then v.enterAlign else v) ∧
  ∀ s : State, s.fld Csr.lnkDisc_origin = 1 → s.fld Csr.lnkDisc_state = diFlood → s.fld Csr.dtmCtl_src = srcPin →
    s.fld Csr.dtmSts_state = dsAcquire →
    exec .datumAbsent s = .next ((s.writeSrc srcFree).raiseM (discEvent 0x0B08 sevWarn))

/-- Alignment (R472): an ALIGNED not yet held is held and flooded on; the Origin loads LNK_DISC_T0, or its count plus
one, once it has its reference or runs FREE, any other device one more than the count of the marker it acquires by
once its upstream has flooded ALIGNED, one that kept its count nothing, and each then floods ALIGNED and enters ALIGN.
-/
def CountsAreAligned : Prop :=
  (∀ (port pos : Nat) (s : State), pos < positions → pos ∉ s.disc.aligned →
    exec (.gazAligned port pos) s = .next ((({ s with disc := { s.disc with aligned := s.disc.aligned ++ [pos] } } : State).flood
      (some port) gzAligned [BitVec.ofNat 64 pos]).followOrigin)) ∧
  (∀ (port pos : Nat) (s : State), pos ∈ s.disc.aligned → exec (.gazAligned port pos) s = .next s) ∧
  (∀ s : State, s.fld Csr.lnkDisc_state = diFlood → s.fld Csr.lnkDisc_origin = 1 →
    (s.acquired = true ∨ s.fld Csr.dtmCtl_src = srcFree) →
    let t0 := s.word Csr.lnkDiscT0
    exec .discAlign s = .next (if s.fld Csr.dtmSts_aligned = 1 then s else
      s.writeDtmLoad (if t0 = 0 then s.count + 1 else t0)).enterAlign) ∧
  (∀ s : State, s.fld Csr.lnkDisc_state = diFlood → s.fld Csr.lnkDisc_origin ≠ 1 → s.fld Csr.dtmCtl_src = srcRelay →
    s.acquired = true → s.fld Csr.dtmRelay_up_valid = 1 →
    (s.fld Csr.dtmSts_aligned = 1 → exec .discAlign s = .next s.enterAlign) ∧
    (s.fld Csr.dtmSts_aligned ≠ 1 → s.facing (s.fld Csr.dtmRelay_upstream) ∈ s.disc.aligned →
      exec .discAlign s = .next (s.writeDtmLoad (s.datum.mark + 1)).enterAlign)) ∧
  ∀ s : State, ∃ u v : State, u.disc = { s.disc with
      aligned := if s.here ∈ s.disc.aligned then s.disc.aligned else s.disc.aligned ++ [s.here] } ∧
    Sets [(Csr.lnkDisc_state, diAlign)] { s with disc := u.disc } u ∧ v = u.flood none gzAligned [BitVec.ofNat 64 s.here] ∧
    s.enterAlign = if v.fld Csr.lnkDisc_origin = 1 then
      (v.holdClaim s.here true).flood none gzClaim [BitVec.ofNat 64 s.here, 1] else v

/-- READY (R473, R477, R478): the Origin floods T_r, two ticks and the flood time ahead, once every expected device is
aligned or its window has closed; a READY not yet seen is held and flooded on, by a device that is not aligned it is
flooded on and the device isolates itself; when T_r has come the device is READY, HELD ports come UP, and one that was
not READY raises SYSTEM_READY, late where T_r had passed already. -/
def DevicesBecomeReady : Prop :=
  (∀ s : State, s.fld Csr.lnkDisc_origin = 1 →
    ((s.fld Csr.lnkDisc_state = diAlign ∧ s.disc.readyAt = none ∧ (s.allAligned = true ∨ s.fld Csr.lnkDisc_window ≠ 1)) ∨
      (s.fld Csr.lnkDisc_state = diReady ∧ ((s.disc.again = 1 ∧ s.allAligned = true) ∨ s.disc.again = 2))) →
    let per := max 1 (s.fld Csr.dtmCtl_period_10ns)
    let tr := s.count + 2 + BitVec.ofNat 64 ((120000 + per - 1) / per)
    ∃ t u : State, exec .discReadyFlood s = .next t ∧
      u.disc = { s.disc with again := 0, readyAt := some tr, lastReady := some tr } ∧
      DiscOnly s u ∧ u.word Csr.lnkDiscTr = tr ∧ (∀ o, o ≠ Csr.lnkDiscTr → u.word o = s.word o) ∧
      t = u.flood none gzReady [tr]) ∧
  (∀ (port tr : Nat) (s : State),
    let x := BitVec.ofNat 64 tr
    let st := s.fld Csr.lnkDisc_state
    (s.disc.lastReady = some x → exec (.gazReady port tr) s = .next s) ∧
    (s.disc.lastReady ≠ some x → st = diAlign ∨ st = diReady → ∃ t u v : State, exec (.gazReady port tr) s = .next t ∧
      u.disc = { s.disc with readyAt := some x, lastReady := some x } ∧ DiscOnly s u ∧ u.word Csr.lnkDiscTr = x ∧
      (∀ o, o ≠ Csr.lnkDiscTr → u.word o = s.word o) ∧ v = u.flood (some port) gzReady [x] ∧
      t = if st = diAlign ∧ x.toNat ≤ (v.seenHub 0).toNat then
          ((v.setFld Csr.lnkDisc_late_ready 1).raiseM (discEvent 0x0B0B sevWarn)).systemReady else v) ∧
    (s.disc.lastReady ≠ some x → st ≠ diAlign → st ≠ diReady →
      ∃ t v w : State, exec (.gazReady port tr) s = .next t ∧
        v = ({ s with disc := { s.disc with lastReady := some x } } : State).flood (some port) gzReady [x] ∧
        if st = diTrain ∨ st = diExchange ∨ st = diFlood then Isolates v w ∧ t = w.raiseM (discEvent 0x0B0A sevWarn)
        else t = v)) ∧
  ∀ (tr : W64) (s : State), s.disc.readyAt = some tr → tr.toNat ≤ (s.seenHub 0).toNat →
    s.fld Csr.lnkDisc_state = diAlign ∨ s.fld Csr.lnkDisc_state = diReady →
    ∃ t u v : State, exec .systemReady s = .next t ∧ u.disc = { s.disc with readyAt := none, again := 0 } ∧
      Sets [(Csr.lnkSts_ready, 1), (Csr.lnkSts_unreach, 0), (Csr.lnkDisc_state, diReady)] { s with disc := u.disc } u ∧
      v = (List.range 24).foldl (fun s n =>
        if s.portState n = psHeld then (s.setPort n { s.port n with arrival := false }).enterUp n else s) u ∧
      t = if s.fld Csr.lnkDisc_state = diReady then v else v.raiseM (discEvent 0x0B09 sevInfo)

end Sys2Proof.Claims

/-- Discovery of an atlas (R467 to R473, R476 to R478). -/
def Obligations.DiscoveryMakesTheAtlas : Prop :=
  DiscoveryStarts ∧ OriginsAreElected ∧ CountsAreAligned ∧ DevicesBecomeReady

/-! ## The block as a whole -/

/-- A step takes the command at the front of the queue and is exec of it on the state with the queue's rest. -/
def Obligations.StepRunsTheFrontCommand : Prop :=
  ∀ (c : Instr) (rest : List Instr) (s : State), s.pending = c :: rest → step s = exec c { s with pending := rest }

/-- On an empty queue a step is one TCLK cycle of every die, the model's choice (log 1), and nothing while the clocks
stand still: each die's cycle count grows by one, the tile cycles of each partition by its tiles that run in each
phase (R289), and each throttle reason that is active on it by one cycle (R437); no other register, and nothing else
of the block, changes. -/
def Obligations.EmptyQueueRunsOneCycle : Prop :=
  (∀ s : State, s.pending = [] → s.frozen = true → step s = .next s) ∧
  ∀ s : State, s.pending = [] → s.frozen = false → (∀ e ∈ s.tiles, e.2.phase < 16) →
    ∃ t, step s = .next t ∧ t = { s with csr := t.csr, cycles := t.cycles } ∧
      (∀ d, NMap.get (fun _ => 0) t.cycles d = NMap.get (fun _ => 0) s.cycles d + if d < 16 then 1 else 0) ∧
      (∀ p < 32, ∀ k < 16, t.fld (Csr.dtmPtCycles_cycles p k) = min (2 ^ 64 - 1) (s.fld (Csr.dtmPtCycles_cycles p k) +
        (s.tiles.filter (fun e => partOf e.1 == p && e.2.state == tsRunning && e.2.phase == k)).length)) ∧
      (∀ p < 32, ∀ r < 5, t.fld (Csr.pwrThrCycles_cycles p r) = min (2 ^ 64 - 1) (s.fld (Csr.pwrThrCycles_cycles p r) +
        if s.reason p r then 1 else 0)) ∧
      ∀ o, (∀ p < 32, ∀ k < 16, o ≠ Csr.dtmPtCycles p k) → (∀ p < 32, ∀ r < 5, o ≠ Csr.pwrThrCycles p r) →
        t.word o = s.word o

/-- After cold reset: no command waits, the count is zero, every domain runs from IOSC with both PLLs off, REFCLK not
qualified, nothing aligned and the Datum free, the cap at 800 W over windows of 100 ticks, every sequencer IDLE, every
ring DISABLED, discovery IDLE, no binding checked, every tile in RESET and every partition RESETTING. That memory
nothing has written reads zero is the model's choice (log 2). -/
def Obligations.ColdResetState : Prop :=
  State.reset.pending = [] ∧ State.reset.count = 0 ∧ State.reset.tripped = false ∧
  (∀ d < 17, State.reset.fld (Csr.clkSrc_cur d) = 2 ∧ State.reset.fld (Csr.clkPllSts_ready_a d) = 0 ∧
    State.reset.fld (Csr.clkPllSts_ready_b d) = 0) ∧
  State.reset.fld Csr.dtmSts_aligned = 0 ∧ State.reset.fld Csr.dtmSts_state = dsFree ∧
  State.reset.fld Csr.pwrCap_limit_w = 6400 ∧ State.reset.fld Csr.pwrWin_ticks = 100 ∧
  (∀ p < 32, State.reset.seqState p = sqIdle ∧ State.reset.fld (Csr.prtPart_state p) = 1 ∧
    State.reset.fld (Csr.prtPart_assigned_act p) = 0) ∧
  (∀ r < 32768, State.reset.fld (Csr.memRingSts_state r) = 0 ∧ State.reset.fld (Csr.memRingIdx_idx r) = 0) ∧
  State.reset.fld Csr.lnkDisc_state = diIdle ∧ State.reset.fld Csr.prtBindSts_state = 0 ∧
  (∀ n, (State.reset.tile n).state = tsReset ∧ (∀ r, (State.reset.tile n).s r = 0) ∧ ∀ k, (State.reset.tile n).k k = 0) ∧
  ∀ a, State.reset.byte a = 0

/-- After cold reset memory is in canonical form. -/
def Obligations.ResetMemoryIsCanonical : Prop := Memory.wf State.reset.mem = true

/-- Every step keeps memory in canonical form: addresses strictly rising, no entry that reads as an unlisted address
does. -/
def Obligations.MemoryStaysCanonical : Prop :=
  ∀ s t : State, Memory.wf s.mem = true → step s = .next t → Memory.wf t.mem = true

/-- Every command answers a next state from every state, the queue included: no command of the block stops it. -/
def Obligations.EveryCommandCompletes : Prop := ∀ (c : Instr) (s : State), Completes c s

/-- What is programmed once stays programmed, whatever step the block takes (R392, R393, R395): no write of a setting
is ever given back, no revoked key is taken out, no Logbook entry is lost or moved, an entry keeps what it says of its
change, and one that is completed never changes. -/
def Obligations.WhatIsProgrammedStays : Prop :=
  ∀ s t : State, step s = .next t →
    s.otp.bindUsed ≤ t.otp.bindUsed ∧ s.otp.surveyUsed ≤ t.otp.surveyUsed ∧ s.otp.revokeUsed ≤ t.otp.revokeUsed ∧
    (∃ ks, t.otp.revoked = s.otp.revoked ++ ks) ∧
    ∀ (i : Nat) (e : LogEntry), s.otp.log[i]? = some e → ∃ f, t.otp.log[i]? = some f ∧
      f = { e with done := f.done, interrupted := f.interrupted } ∧ (e.done = true → f = e)
end

