-- ==== Sys2Proof/Laws/Bits.lean ====
section
/-! SUPPORT. Bit fields of naturals and of register words, and little-endian bytes (spec/00_scope.md R5). -/
namespace Sys2Proof.Laws

open Sys2Proof.Machine

/-- A natural split at a field: what is above it, the field, what is below it. -/
theorem field_split (x lo w : Nat) :
    x = x / 2 ^ (lo + w) * 2 ^ (lo + w) + field x lo w * 2 ^ lo + x % 2 ^ lo := by
  have h1 := Nat.div_add_mod x (2 ^ lo)
  have h2 := Nat.div_add_mod (x / 2 ^ lo) (2 ^ w)
  rw [Nat.div_div_eq_div_mul, ← pow_add] at h2
  unfold field
  have : x / 2 ^ (lo + w) * 2 ^ (lo + w) + x / 2 ^ lo % 2 ^ w * 2 ^ lo
      = 2 ^ lo * (2 ^ w * (x / 2 ^ (lo + w)) + x / 2 ^ lo % 2 ^ w) := by
    rw [pow_add]; ring
  rw [this, h2, h1]

theorem putField_eq (x lo w v : Nat) :
    putField x lo w v = x / 2 ^ (lo + w) * 2 ^ (lo + w) + v % 2 ^ w * 2 ^ lo + x % 2 ^ lo := by
  have h := field_split x lo w
  unfold putField
  omega

theorem field_lt (x lo w : Nat) : field x lo w < 2 ^ w := Nat.mod_lt _ (Nat.two_pow_pos w)

/-- A number put together from parts gives each part back. -/
theorem parts_low (q f r lo w : Nat) (hr : r < 2 ^ lo) :
    (q * 2 ^ (lo + w) + f * 2 ^ lo + r) % 2 ^ lo = r := by
  have : q * 2 ^ (lo + w) + f * 2 ^ lo + r = 2 ^ lo * (q * 2 ^ w + f) + r := by rw [pow_add]; ring
  rw [this, Nat.mul_add_mod, Nat.mod_eq_of_lt hr]

theorem parts_div (q f r lo w : Nat) (hr : r < 2 ^ lo) :
    (q * 2 ^ (lo + w) + f * 2 ^ lo + r) / 2 ^ lo = q * 2 ^ w + f := by
  have : q * 2 ^ (lo + w) + f * 2 ^ lo + r = 2 ^ lo * (q * 2 ^ w + f) + r := by rw [pow_add]; ring
  rw [this, Nat.mul_add_div (Nat.two_pow_pos lo), Nat.div_eq_of_lt hr, Nat.add_zero]

theorem parts_field (q f r lo w : Nat) (hr : r < 2 ^ lo) (hf : f < 2 ^ w) :
    field (q * 2 ^ (lo + w) + f * 2 ^ lo + r) lo w = f := by
  unfold field
  rw [parts_div q f r lo w hr, Nat.mul_comm, Nat.mul_add_mod, Nat.mod_eq_of_lt hf]

theorem parts_high (q f r lo w : Nat) (hr : r < 2 ^ lo) (hf : f < 2 ^ w) :
    (q * 2 ^ (lo + w) + f * 2 ^ lo + r) / 2 ^ (lo + w) = q := by
  rw [pow_add, ← Nat.div_div_eq_div_mul, ← pow_add, parts_div q f r lo w hr, Nat.mul_comm,
    Nat.mul_add_div (Nat.two_pow_pos w), Nat.div_eq_of_lt hf, Nat.add_zero]

/-- A field put reads back. -/
theorem field_putField_same (x lo w v : Nat) : field (putField x lo w v) lo w = v % 2 ^ w := by
  rw [putField_eq]
  exact parts_field _ _ _ _ _ (Nat.mod_lt _ (Nat.two_pow_pos lo)) (Nat.mod_lt _ (Nat.two_pow_pos w))

theorem field_of_high (x y hi lo w : Nat) (h : x / 2 ^ hi = y / 2 ^ hi) (hl : hi ≤ lo) :
    field x lo w = field y lo w := by
  unfold field
  obtain ⟨k, rfl⟩ := Nat.exists_eq_add_of_le hl
  rw [pow_add, ← Nat.div_div_eq_div_mul, ← Nat.div_div_eq_div_mul, h]

theorem field_of_low (x y hi lo w : Nat) (h : x % 2 ^ hi = y % 2 ^ hi) (hl : lo + w ≤ hi) :
    field x lo w = field y lo w := by
  have key : ∀ z : Nat, field z lo w = field (z % 2 ^ hi) lo w := by
    intro z
    unfold field
    obtain ⟨k, rfl⟩ := Nat.exists_eq_add_of_le hl
    conv_lhs => rw [← Nat.div_add_mod z (2 ^ (lo + w + k))]
    have : 2 ^ (lo + w + k) * (z / 2 ^ (lo + w + k)) = 2 ^ lo * (2 ^ w * (2 ^ k * (z / 2 ^ (lo + w + k)))) := by
      rw [pow_add, pow_add]; ring
    rw [this, Nat.mul_add_div (Nat.two_pow_pos lo), Nat.mul_add_mod]
  rw [key x, key y, h]

/-- A field put leaves the others alone. -/
theorem field_putField_other (x lo w v lo' w' : Nat) (h : lo' + w' ≤ lo ∨ lo + w ≤ lo') :
    field (putField x lo w v) lo' w' = field x lo' w' := by
  have hr := Nat.mod_lt x (Nat.two_pow_pos lo)
  have hf := Nat.mod_lt v (Nat.two_pow_pos w)
  rcases h with h | h
  · refine field_of_low _ _ lo _ _ ?_ h
    rw [putField_eq, parts_low _ _ _ _ _ hr]
  · refine field_of_high _ _ (lo + w) _ _ ?_ h
    rw [putField_eq, parts_high _ _ _ _ _ hr hf]

theorem putField_lt (x lo w v n : Nat) (hx : x < 2 ^ n) (h : lo + w ≤ n) : putField x lo w v < 2 ^ n := by
  rw [putField_eq]
  have hr := Nat.mod_lt x (Nat.two_pow_pos lo)
  have hf := Nat.mod_lt v (Nat.two_pow_pos w)
  obtain ⟨k, rfl⟩ := Nat.exists_eq_add_of_le h
  have hq : x / 2 ^ (lo + w) < 2 ^ k := by
    rw [Nat.div_lt_iff_lt_mul (Nat.two_pow_pos _), ← pow_add, Nat.add_comm k]; exact hx
  have h1 : v % 2 ^ w * 2 ^ lo + x % 2 ^ lo < 2 ^ (lo + w) := by
    rw [pow_add, Nat.mul_comm (2 ^ lo)]
    calc v % 2 ^ w * 2 ^ lo + x % 2 ^ lo < v % 2 ^ w * 2 ^ lo + 2 ^ lo := by omega
      _ = (v % 2 ^ w + 1) * 2 ^ lo := by ring
      _ ≤ 2 ^ w * 2 ^ lo := Nat.mul_le_mul_right _ hf
  rw [Nat.add_assoc]
  calc x / 2 ^ (lo + w) * 2 ^ (lo + w) + (v % 2 ^ w * 2 ^ lo + x % 2 ^ lo)
      < x / 2 ^ (lo + w) * 2 ^ (lo + w) + 2 ^ (lo + w) := by omega
    _ = (x / 2 ^ (lo + w) + 1) * 2 ^ (lo + w) := by ring
    _ ≤ 2 ^ k * 2 ^ (lo + w) := Nat.mul_le_mul_right _ hq
    _ = 2 ^ (lo + w + k) := by rw [← pow_add, Nat.add_comm k]

/-- A register field put reads back. -/
theorem bits_put_same (x : W64) (lo w v : Nat) (h : lo + w ≤ 64) :
    bits (w64 (putField x.toNat lo w v)) lo w = v % 2 ^ w := by
  unfold bits
  rw [BitVec.toNat_ofNat, Nat.mod_eq_of_lt (putField_lt _ _ _ _ 64 x.isLt h), field_putField_same]

/-- A register field put leaves the others alone. -/
theorem bits_put_other (x : W64) (lo w v lo' w' : Nat) (h : lo + w ≤ 64) (hd : lo' + w' ≤ lo ∨ lo + w ≤ lo') :
    bits (w64 (putField x.toNat lo w v)) lo' w' = bits x lo' w' := by
  unfold bits
  rw [BitVec.toNat_ofNat, Nat.mod_eq_of_lt (putField_lt _ _ _ _ 64 x.isLt h), field_putField_other _ _ _ _ _ _ hd]

theorem bits_lt (x : W64) (lo w : Nat) : bits x lo w < 2 ^ w := field_lt _ _ _

theorem getLsbD_wordOfBits (f : Nat → Bool) (n k : Nat) (hn : n ≤ 64) :
    (wordOfBits f n).getLsbD k = (decide (k < n) && f k) := by
  induction n with
  | zero => simp [wordOfBits]
  | succ n ih =>
    simp only [wordOfBits, BitVec.getLsbD_or, ih (by omega)]
    by_cases hk : k = n
    · subst hk
      cases hf : f k <;> simp [BitVec.getLsbD_twoPow]; omega
    · have h1 : (decide (k < n + 1)) = decide (k < n) := by rw [decide_eq_decide]; omega
      rw [h1]
      cases hf : f n <;> simp [BitVec.getLsbD_twoPow]
      intro _ h2; exact absurd h2.symm hk

/-! ## Bytes -/

@[simp] theorem toBytes_length (n x : Nat) : (toBytes n x).length = n := by
  induction n generalizing x with
  | zero => rfl
  | succ n ih => simp [toBytes, ih]

/-- Bytes spell the natural they were taken from. -/
theorem ofBytes_toBytes (n x : Nat) : ofBytes (toBytes n x) = x % 256 ^ n := by
  induction n generalizing x with
  | zero => simp [toBytes, ofBytes, Nat.mod_one]
  | succ n ih =>
    simp only [toBytes, ofBytes, ih, BitVec.toNat_ofNat]
    rw [show (256 : Nat) ^ (n + 1) = 256 * 256 ^ n by rw [Nat.pow_succ, Nat.mul_comm], Nat.mod_mul]

end Sys2Proof.Laws
end

