-- ==== Sys2Proof/Laws/NMap.lean ====
section
/-! SUPPORT. The sparse map: a read after a write, and the canonical form that every operation keeps. The reads after
writes hold of every list of entries, canonical or not. -/
namespace Sys2Proof.Laws

open Sys2Proof.Machine

variable {α : Type}

theorem nmap_find_insert (m : NMap α) (i j : Nat) (x : α) :
    NMap.find? (NMap.insert m i x) j = if j = i then some x else NMap.find? m j := by
  induction m with
  | nil => simp [NMap.insert, NMap.find?]
  | cons e m ih =>
    obtain ⟨k, v⟩ := e
    simp only [NMap.insert]
    split
    · subst_vars
      simp only [NMap.find?]
      split <;> rfl
    · split
      · simp only [NMap.find?]
      · simp only [NMap.find?, ih]
        by_cases hj : j = i
        · subst hj; simp [*]
        · simp [hj]

theorem nmap_find_filter (m : NMap α) (p : Nat → Bool) (j : Nat) :
    NMap.find? (m.filter (fun e => p e.1)) j = if p j then NMap.find? m j else none := by
  induction m with
  | nil => simp [NMap.find?]
  | cons e m ih =>
    obtain ⟨k, v⟩ := e
    simp only [List.filter]
    split
    · next hk =>
      simp only [NMap.find?, ih]
      by_cases hj : j = k
      · subst hj; simp [hk]
      · simp [hj]
    · next hk =>
      rw [ih]
      by_cases hj : j = k
      · subst hj; simp [hk]
      · simp [NMap.find?, hj]

theorem nmap_find_erase (m : NMap α) (i j : Nat) :
    NMap.find? (NMap.erase m i) j = if j = i then none else NMap.find? m j := by
  unfold NMap.erase
  rw [nmap_find_filter m (fun k => k != i) j]
  by_cases h : j = i <;> simp [h]

/-- A read after a write: the value written under its key, and every other key as before. -/
theorem nmap_get_set [DecidableEq α] (d : Nat → α) (m : NMap α) (i j : Nat) (x : α) :
    NMap.get d (NMap.set d m i x) j = if j = i then x else NMap.get d m j := by
  unfold NMap.get NMap.set
  split
  · next e =>
    rw [nmap_find_erase]
    split
    · next h => simp [e, h]
    · rfl
  · rw [nmap_find_insert]
    split <;> rfl

@[simp] theorem nmap_get_set_same [DecidableEq α] (d : Nat → α) (m : NMap α) (i : Nat) (x : α) :
    NMap.get d (NMap.set d m i x) i = x := by simp [nmap_get_set]

theorem nmap_get_set_other [DecidableEq α] (d : Nat → α) (m : NMap α) (i j : Nat) (x : α) (h : j ≠ i) :
    NMap.get d (NMap.set d m i x) j = NMap.get d m j := by simp [nmap_get_set, h]

@[simp] theorem nmap_get_nil (d : Nat → α) (i : Nat) : NMap.get d [] i = d i := rfl

/-- A range cleared reads as the default, every other key as before. -/
theorem nmap_get_clear (d : Nat → α) (m : NMap α) (lo hi j : Nat) :
    NMap.get d (NMap.clear m lo hi) j = if lo ≤ j ∧ j < hi then d j else NMap.get d m j := by
  unfold NMap.get NMap.clear
  rw [nmap_find_filter m (fun k => k < lo || hi ≤ k) j]
  by_cases hj : lo ≤ j ∧ j < hi
  · have h1 : ¬ j < lo := by omega
    have h2 : ¬ hi ≤ j := by omega
    simp [hj, h1, h2]
  · have h1 : j < lo ∨ hi ≤ j := by omega
    rw [if_neg hj]
    simp [h1]

/-! ## The canonical form -/

theorem nmap_wfFrom_mono [DecidableEq α] (d : Nat → α) (m : NMap α) (lo lo' : Nat) (h : NMap.wfFrom d lo m = true)
    (hl : lo' ≤ lo) : NMap.wfFrom d lo' m = true := by
  cases m with
  | nil => rfl
  | cons e m =>
    simp only [NMap.wfFrom, Bool.and_eq_true, decide_eq_true_eq] at h ⊢
    exact ⟨⟨by omega, h.1.2⟩, h.2⟩

theorem nmap_wfFrom_insert [DecidableEq α] (d : Nat → α) (m : NMap α) (i lo : Nat) (x : α)
    (h : NMap.wfFrom d lo m = true) (hx : x ≠ d i) (hl : lo ≤ i) : NMap.wfFrom d lo (NMap.insert m i x) = true := by
  induction m generalizing lo with
  | nil => simp [NMap.insert, NMap.wfFrom, hx, hl]
  | cons e m ih =>
    obtain ⟨k, v⟩ := e
    simp only [NMap.wfFrom, Bool.and_eq_true, decide_eq_true_eq] at h
    simp only [NMap.insert]
    split
    · subst_vars; simp [NMap.wfFrom, hx, hl, h.2]
    · split
      · simp only [NMap.wfFrom, Bool.and_eq_true, decide_eq_true_eq]
        exact ⟨⟨hl, hx⟩, ⟨by omega, h.1.2⟩, h.2⟩
      · simp only [NMap.wfFrom, Bool.and_eq_true, decide_eq_true_eq]
        exact ⟨h.1, ih (k + 1) h.2 (by omega)⟩

/-- Dropping entries keeps the canonical form. -/
theorem nmap_wfFrom_filter [DecidableEq α] (d : Nat → α) (m : NMap α) (p : Nat × α → Bool) (lo : Nat)
    (h : NMap.wfFrom d lo m = true) : NMap.wfFrom d lo (m.filter p) = true := by
  induction m generalizing lo with
  | nil => rfl
  | cons e m ih =>
    obtain ⟨k, v⟩ := e
    simp only [NMap.wfFrom, Bool.and_eq_true, decide_eq_true_eq] at h
    simp only [List.filter]
    split
    · simp only [NMap.wfFrom, Bool.and_eq_true, decide_eq_true_eq]
      exact ⟨h.1, ih (k + 1) h.2⟩
    · exact nmap_wfFrom_mono d _ (k + 1) lo (ih (k + 1) h.2) (by omega)

/-- A write keeps the canonical form. -/
theorem nmap_wf_set [DecidableEq α] (d : Nat → α) (m : NMap α) (i : Nat) (x : α) (h : NMap.wf d m = true) :
    NMap.wf d (NMap.set d m i x) = true := by
  unfold NMap.set
  split
  · exact nmap_wfFrom_filter d m _ 0 h
  · next e => exact nmap_wfFrom_insert d m i 0 x h e (Nat.zero_le i)

theorem nmap_wf_erase [DecidableEq α] (d : Nat → α) (m : NMap α) (i : Nat) (h : NMap.wf d m = true) :
    NMap.wf d (NMap.erase m i) = true := nmap_wfFrom_filter d m _ 0 h

theorem nmap_wf_clear [DecidableEq α] (d : Nat → α) (m : NMap α) (lo hi : Nat) (h : NMap.wf d m = true) :
    NMap.wf d (NMap.clear m lo hi) = true := nmap_wfFrom_filter d m _ 0 h

end Sys2Proof.Laws
end

