-- ==== Sys2Proof/Laws/Mem.lean ====
section
/-! SUPPORT. Reads after writes of register words, fields, tiles, tile registers and memory; the canonical form of memory
that every memory operation keeps. -/
namespace Sys2Proof.Laws

open Sys2Proof.Machine

/-! ## Device registers -/

theorem word_setWord (s : State) (o o' : Nat) (v : W64) :
    (s.setWord o v).word o' = if o' = o then v else s.word o' := nmap_get_set _ _ _ _ _

@[simp] theorem word_setWord_same (s : State) (o : Nat) (v : W64) : (s.setWord o v).word o = v := by
  simp [word_setWord]

theorem word_setFld_other (s : State) (f : Fld) (v o : Nat) (h : o ≠ f.off) : (s.setFld f v).word o = s.word o := by
  simp [State.setFld, word_setWord, h]

theorem fld_setFld_same (s : State) (f : Fld) (v : Nat) (h : f.lo + f.w ≤ 64) : (s.setFld f v).fld f = v % 2 ^ f.w := by
  simp [State.fld, State.setFld, bits_put_same _ _ _ _ h]

theorem fld_setFld_other (s : State) (f g : Fld) (v : Nat) (h : f.lo + f.w ≤ 64)
    (hd : g.off ≠ f.off ∨ g.lo + g.w ≤ f.lo ∨ f.lo + f.w ≤ g.lo) : (s.setFld f v).fld g = s.fld g := by
  simp only [State.fld, State.setFld, word_setWord]
  split
  · next e =>
    rw [bits_put_other _ _ _ _ _ _ h (by omega), e]
  · rfl

theorem fld_lt (s : State) (f : Fld) : s.fld f < 2 ^ f.w := bits_lt _ _ _

/-! ## Tiles -/

theorem tile_setTile (s : State) (n m : Nat) (t : Tile) : (s.setTile n t).tile m = if m = n then t else s.tile m :=
  nmap_get_set _ _ _ _ _

@[simp] theorem tile_setTile_same (s : State) (n : Nat) (t : Tile) : (s.setTile n t).tile n = t := by
  simp [tile_setTile]

theorem tile_updTile (s : State) (n m : Nat) (f : Tile → Tile) :
    (s.updTile n f).tile m = if m = n then f (s.tile n) else s.tile m := tile_setTile _ _ _ _

@[simp] theorem tile_updTile_same (s : State) (n : Nat) (f : Tile → Tile) : (s.updTile n f).tile n = f (s.tile n) := by
  simp [tile_updTile]

theorem twrd_setWord (t : Tile) (o o' : Nat) (v : W64) :
    (t.setWord o v).word o' = if o' = o then v else t.word o' := nmap_get_set _ _ _ _ _

theorem twrd_setFld_other (t : Tile) (f : Fld) (v o : Nat) (h : o ≠ f.off) : (t.setFld f v).word o = t.word o := by
  simp [Tile.setFld, twrd_setWord, h]

theorem tfld_setFld_same (t : Tile) (f : Fld) (v : Nat) (h : f.lo + f.w ≤ 64) :
    (t.setFld f v).fld f = v % 2 ^ f.w := by
  simp [Tile.fld, Tile.setFld, twrd_setWord, bits_put_same _ _ _ _ h]

theorem tfld_setFld_other (t : Tile) (f g : Fld) (v : Nat) (h : f.lo + f.w ≤ 64)
    (hd : g.off ≠ f.off ∨ g.lo + g.w ≤ f.lo ∨ f.lo + f.w ≤ g.lo) : (t.setFld f v).fld g = t.fld g := by
  simp only [Tile.fld, Tile.setFld, twrd_setWord]
  split
  · next e => rw [bits_put_other _ _ _ _ _ _ h (by omega), e]
  · rfl

/-- s registers: a write shows, s0 stays zero (spec/07_nolpa_programming.md R202). -/
theorem s_setS (t : Tile) (r q : Nat) (v : W64) :
    (t.setS r v).s q = if q = r ∧ r ≠ 0 then v else t.s q := by
  unfold Tile.setS
  by_cases hr : r = 0
  · simp [hr]
  · by_cases hq : q = 0
    · subst hq
      have : ¬ (0 : Nat) = r := fun h => hr h.symm
      simp [hr, Tile.s, this]
    · simp [hr, Tile.s, hq, nmap_get_set]

theorem dw_setDw (t : Tile) (d w d' w' : Nat) (v : W64) (hw : w < 8) (hw' : w' < 8) :
    (t.setDw d w v).dw d' w' = if d' = d ∧ w' = w then v else t.dw d' w' := by
  have h := nmap_get_set (fun _ => (0 : W64)) t.dreg (8 * d + w) (8 * d' + w') v
  have e : (8 * d' + w' = 8 * d + w) ↔ (d' = d ∧ w' = w) := by omega
  simp only [e] at h
  exact h

theorem k_setK (t : Tile) (n m : Nat) (v : W64) :
    (t.setK n v).k m = if m = n ∧ n ≠ 0 then v else t.k m := by
  unfold Tile.setK
  by_cases hr : n = 0
  · simp [hr]
  · by_cases hq : m = 0
    · subst hq
      have : ¬ (0 : Nat) = n := fun h => hr h.symm
      simp [hr, Tile.k, this]
    · simp [hr, Tile.k, hq, nmap_get_set]

/-! ## Memory -/

theorem byte_setBytes (m : List Host.Cell) (bs : List Byte) (a x : Nat) :
    NMap.get memDefault (Memory.setBytes m a bs) x =
      if a ≤ x ∧ x < a + bs.length then bs.getD (x - a) 0 else NMap.get memDefault m x := by
  induction bs generalizing m a with
  | nil =>
    have : ¬ (a ≤ x ∧ x < a + ([] : List Byte).length) := by simp
    rw [if_neg this]; rfl
  | cons b bs ih =>
    simp only [Memory.setBytes, ih, Memory.setByte, nmap_get_set, List.length_cons]
    by_cases h1 : a + 1 ≤ x ∧ x < a + 1 + bs.length
    · have h2 : a ≤ x ∧ x < a + (bs.length + 1) := by omega
      rw [if_pos h1, if_pos h2]
      have : x - a = (x - (a + 1)) + 1 := by omega
      rw [this, List.getD_cons_succ]
    · rw [if_neg h1]
      by_cases h3 : x = a
      · subst h3; simp
      · have h2 : ¬ (a ≤ x ∧ x < a + (bs.length + 1)) := by omega
        rw [if_neg h2, if_neg h3]

/-- A byte after a write: the byte written, or as before. -/
theorem byte_writeBytes (s : State) (a x : Nat) (bs : List Byte) :
    (s.writeBytes a bs).byte x = if a ≤ x ∧ x < a + bs.length then bs.getD (x - a) 0 else s.byte x :=
  byte_setBytes _ _ _ _

theorem byte_store_other (s : State) (a n v x : Nat) (h : x < a ∨ a + n ≤ x) : (s.store a n v).byte x = s.byte x := by
  unfold State.store
  rw [byte_writeBytes, if_neg]
  simp; omega

theorem byte_zeroMem (s : State) (a n x : Nat) :
    (s.zeroMem a n).byte x = if a ≤ x ∧ x < a + n then 0 else s.byte x := nmap_get_clear _ _ _ _ _

/-- The bytes of a block after it has been written. -/
theorem bytes_writeBytes_same (s : State) (a : Nat) (bs : List Byte) : (s.writeBytes a bs).bytes a bs.length = bs := by
  have key : ∀ (l : List Byte) (u : State) (b : Nat),
      (∀ i, i < l.length → u.byte (b + i) = l.getD i 0) → u.bytes b l.length = l := by
    intro l
    induction l with
    | nil => intros; rfl
    | cons c l ih =>
      intro u b h
      simp only [List.length_cons, State.bytes]
      rw [show u.byte b = c by simpa using h 0 (by simp)]
      congr 1
      exact ih u (b + 1) (fun i hi => by
        have := h (i + 1) (by simpa using hi)
        rw [List.getD_cons_succ] at this
        rw [← this]; congr 1; omega)
  refine key bs _ a (fun i hi => ?_)
  rw [byte_writeBytes, if_pos (by omega)]
  congr 1; omega

/-- A load of what was stored. -/
theorem load_store_same (s : State) (a n v : Nat) : (s.store a n v).load a n = v % 256 ^ n := by
  unfold State.load State.store
  have h := bytes_writeBytes_same s a (toBytes n v)
  rw [toBytes_length] at h
  rw [h, ofBytes_toBytes]

/-! ## The canonical form of memory -/

theorem wf_setBytes (m : List Host.Cell) (bs : List Byte) (a : Nat) (h : Memory.wf m = true) :
    Memory.wf (Memory.setBytes m a bs) = true := by
  induction bs generalizing m a with
  | nil => exact h
  | cons b bs ih => exact ih _ _ (nmap_wf_set _ _ _ _ h)

theorem wf_writeBytes (s : State) (a : Nat) (bs : List Byte) (h : Memory.wf s.mem = true) :
    Memory.wf (s.writeBytes a bs).mem = true := wf_setBytes _ _ _ h

theorem wf_store (s : State) (a n v : Nat) (h : Memory.wf s.mem = true) : Memory.wf (s.store a n v).mem = true :=
  wf_writeBytes s a _ h

theorem wf_zeroMem (s : State) (a n : Nat) (h : Memory.wf s.mem = true) : Memory.wf (s.zeroMem a n).mem = true :=
  nmap_wf_clear _ _ _ _ h

theorem wf_storeWords (s : State) (ws : List W64) (a : Nat) (h : Memory.wf s.mem = true) :
    Memory.wf (s.storeWords a ws).mem = true := by
  induction ws generalizing s a with
  | nil => exact h
  | cons w ws ih => exact ih _ _ (wf_store _ _ _ _ h)

/-- Reset memory is canonical. -/
theorem wf_reset : Memory.wf State.reset.mem = true := rfl

end Sys2Proof.Laws
end

