-- ==== Sys2Proof/Laws/State.lean ====
section
/-! SUPPORT. What each update of the block leaves alone, one lemma per field and update, true by definition. -/
namespace Sys2Proof.Laws

open Sys2Proof.Machine

variable (s : State)


/-! ## setWord changes only csr -/

@[simp] theorem setWord_pending (off : Nat) (v : W64) : (s.setWord off v).pending = s.pending := rfl
@[simp] theorem setWord_out (off : Nat) (v : W64) : (s.setWord off v).out = s.out := rfl
@[simp] theorem setWord_mem (off : Nat) (v : W64) : (s.setWord off v).mem = s.mem := rfl
@[simp] theorem setWord_locked (off : Nat) (v : W64) : (s.setWord off v).locked = s.locked := rfl
@[simp] theorem setWord_count (off : Nat) (v : W64) : (s.setWord off v).count = s.count := rfl
@[simp] theorem setWord_otp (off : Nat) (v : W64) : (s.setWord off v).otp = s.otp := rfl
@[simp] theorem setWord_tiles (off : Nat) (v : W64) : (s.setWord off v).tiles = s.tiles := rfl
@[simp] theorem setWord_rings (off : Nat) (v : W64) : (s.setWord off v).rings = s.rings := rfl
@[simp] theorem setWord_loading (off : Nat) (v : W64) : (s.setWord off v).loading = s.loading := rfl
@[simp] theorem setWord_lastRing (off : Nat) (v : W64) : (s.setWord off v).lastRing = s.lastRing := rfl
@[simp] theorem setWord_fetched (off : Nat) (v : W64) : (s.setWord off v).fetched = s.fetched := rfl
@[simp] theorem setWord_segs (off : Nat) (v : W64) : (s.setWord off v).segs = s.segs := rfl
@[simp] theorem setWord_heldSegs (off : Nat) (v : W64) : (s.setWord off v).heldSegs = s.heldSegs := rfl
@[simp] theorem setWord_hostReads (off : Nat) (v : W64) : (s.setWord off v).hostReads = s.hostReads := rfl
@[simp] theorem setWord_staged (off : Nat) (v : W64) : (s.setWord off v).staged = s.staged := rfl
@[simp] theorem setWord_fenced (off : Nat) (v : W64) : (s.setWord off v).fenced = s.fenced := rfl
@[simp] theorem setWord_nextXid (off : Nat) (v : W64) : (s.setWord off v).nextXid = s.nextXid := rfl
@[simp] theorem setWord_admitted (off : Nat) (v : W64) : (s.setWord off v).admitted = s.admitted := rfl
@[simp] theorem setWord_readyReq (off : Nat) (v : W64) : (s.setWord off v).readyReq = s.readyReq := rfl
@[simp] theorem setWord_contribs (off : Nat) (v : W64) : (s.setWord off v).contribs = s.contribs := rfl
@[simp] theorem setWord_carried (off : Nat) (v : W64) : (s.setWord off v).carried = s.carried := rfl
@[simp] theorem setWord_insts (off : Nat) (v : W64) : (s.setWord off v).insts = s.insts := rfl
@[simp] theorem setWord_collSeq (off : Nat) (v : W64) : (s.setWord off v).collSeq = s.collSeq := rfl
@[simp] theorem setWord_splitTick (off : Nat) (v : W64) : (s.setWord off v).splitTick = s.splitTick := rfl
@[simp] theorem setWord_peerAborted (off : Nat) (v : W64) : (s.setWord off v).peerAborted = s.peerAborted := rfl
@[simp] theorem setWord_seqs (off : Nat) (v : W64) : (s.setWord off v).seqs = s.seqs := rfl
@[simp] theorem setWord_substs (off : Nat) (v : W64) : (s.setWord off v).substs = s.substs := rfl
@[simp] theorem setWord_gazTick (off : Nat) (v : W64) : (s.setWord off v).gazTick = s.gazTick := rfl
@[simp] theorem setWord_expiredTick (off : Nat) (v : W64) : (s.setWord off v).expiredTick = s.expiredTick := rfl
@[simp] theorem setWord_ports (off : Nat) (v : W64) : (s.setWord off v).ports = s.ports := rfl
@[simp] theorem setWord_held (off : Nat) (v : W64) : (s.setWord off v).held = s.held := rfl
@[simp] theorem setWord_lostMark (off : Nat) (v : W64) : (s.setWord off v).lostMark = s.lostMark := rfl
@[simp] theorem setWord_overflowed (off : Nat) (v : W64) : (s.setWord off v).overflowed = s.overflowed := rfl
@[simp] theorem setWord_nextXfer (off : Nat) (v : W64) : (s.setWord off v).nextXfer = s.nextXfer := rfl
@[simp] theorem setWord_denyTick (off : Nat) (v : W64) : (s.setWord off v).denyTick = s.denyTick := rfl
@[simp] theorem setWord_registry (off : Nat) (v : W64) : (s.setWord off v).registry = s.registry := rfl
@[simp] theorem setWord_rngQueue (off : Nat) (v : W64) : (s.setWord off v).rngQueue = s.rngQueue := rfl
@[simp] theorem setWord_seqAborting (off : Nat) (v : W64) : (s.setWord off v).seqAborting = s.seqAborting := rfl
@[simp] theorem setWord_abortGroups (off : Nat) (v : W64) : (s.setWord off v).abortGroups = s.abortGroups := rfl
@[simp] theorem setWord_stage (off : Nat) (v : W64) : (s.setWord off v).stage = s.stage := rfl
@[simp] theorem setWord_badWindows (off : Nat) (v : W64) : (s.setWord off v).badWindows = s.badWindows := rfl
@[simp] theorem setWord_refUnqual (off : Nat) (v : W64) : (s.setWord off v).refUnqual = s.refUnqual := rfl
@[simp] theorem setWord_pcieUp (off : Nat) (v : W64) : (s.setWord off v).pcieUp = s.pcieUp := rfl
@[simp] theorem setWord_pcieCfg (off : Nat) (v : W64) : (s.setWord off v).pcieCfg = s.pcieCfg := rfl
@[simp] theorem setWord_vfEnable (off : Nat) (v : W64) : (s.setWord off v).vfEnable = s.vfEnable := rfl
@[simp] theorem setWord_resetPhase (off : Nat) (v : W64) : (s.setWord off v).resetPhase = s.resetPhase := rfl
@[simp] theorem setWord_remaps (off : Nat) (v : W64) : (s.setWord off v).remaps = s.remaps := rfl
@[simp] theorem setWord_switched (off : Nat) (v : W64) : (s.setWord off v).switched = s.switched := rfl
@[simp] theorem setWord_repairing (off : Nat) (v : W64) : (s.setWord off v).repairing = s.repairing := rfl
@[simp] theorem setWord_spdm (off : Nat) (v : W64) : (s.setWord off v).spdm = s.spdm := rfl
@[simp] theorem setWord_sensorsOff (off : Nat) (v : W64) : (s.setWord off v).sensorsOff = s.sensorsOff := rfl
@[simp] theorem setWord_flashA (off : Nat) (v : W64) : (s.setWord off v).flashA = s.flashA := rfl
@[simp] theorem setWord_flashB (off : Nat) (v : W64) : (s.setWord off v).flashB = s.flashB := rfl
@[simp] theorem setWord_fwKey (off : Nat) (v : W64) : (s.setWord off v).fwKey = s.fwKey := rfl
@[simp] theorem setWord_d2dFails (off : Nat) (v : W64) : (s.setWord off v).d2dFails = s.d2dFails := rfl
@[simp] theorem setWord_disc (off : Nat) (v : W64) : (s.setWord off v).disc = s.disc := rfl
@[simp] theorem setWord_power (off : Nat) (v : W64) : (s.setWord off v).power = s.power := rfl
@[simp] theorem setWord_hold (off : Nat) (v : W64) : (s.setWord off v).hold = s.hold := rfl
@[simp] theorem setWord_tripped (off : Nat) (v : W64) : (s.setWord off v).tripped = s.tripped := rfl
@[simp] theorem setWord_cold (off : Nat) (v : W64) : (s.setWord off v).cold = s.cold := rfl
@[simp] theorem setWord_resetLow (off : Nat) (v : W64) : (s.setWord off v).resetLow = s.resetLow := rfl
@[simp] theorem setWord_bistTiles (off : Nat) (v : W64) : (s.setWord off v).bistTiles = s.bistTiles := rfl
@[simp] theorem setWord_tapIr (off : Nat) (v : W64) : (s.setWord off v).tapIr = s.tapIr := rfl
@[simp] theorem setWord_bridge (off : Nat) (v : W64) : (s.setWord off v).bridge = s.bridge := rfl
@[simp] theorem setWord_smbus (off : Nat) (v : W64) : (s.setWord off v).smbus = s.smbus := rfl
@[simp] theorem setWord_freeCtr (off : Nat) (v : W64) : (s.setWord off v).freeCtr = s.freeCtr := rfl
@[simp] theorem setWord_seen (off : Nat) (v : W64) : (s.setWord off v).seen = s.seen := rfl
@[simp] theorem setWord_datum (off : Nat) (v : W64) : (s.setWord off v).datum = s.datum := rfl
@[simp] theorem setWord_modeSent (off : Nat) (v : W64) : (s.setWord off v).modeSent = s.modeSent := rfl
@[simp] theorem setWord_cycles (off : Nat) (v : W64) : (s.setWord off v).cycles = s.cycles := rfl
@[simp] theorem setWord_inSegs (off : Nat) (v : W64) : (s.setWord off v).inSegs = s.inSegs := rfl
@[simp] theorem setWord_collPast (off : Nat) (v : W64) : (s.setWord off v).collPast = s.collPast := rfl
@[simp] theorem setWord_cadOld (off : Nat) (v : W64) : (s.setWord off v).cadOld = s.cadOld := rfl
@[simp] theorem setWord_commitAt (off : Nat) (v : W64) : (s.setWord off v).commitAt = s.commitAt := rfl
@[simp] theorem setWord_selfRefresh (off : Nat) (v : W64) : (s.setWord off v).selfRefresh = s.selfRefresh := rfl
@[simp] theorem setWord_ueWords (off : Nat) (v : W64) : (s.setWord off v).ueWords = s.ueWords := rfl
@[simp] theorem setWord_rngArr (off : Nat) (v : W64) : (s.setWord off v).rngArr = s.rngArr := rfl
@[simp] theorem setWord_pcieLanes (off : Nat) (v : W64) : (s.setWord off v).pcieLanes = s.pcieLanes := rfl
@[simp] theorem setWord_pcieRate (off : Nat) (v : W64) : (s.setWord off v).pcieRate = s.pcieRate := rfl
@[simp] theorem setWord_flrWaits (off : Nat) (v : W64) : (s.setWord off v).flrWaits = s.flrWaits := rfl
@[simp] theorem setWord_abortSeen (off : Nat) (v : W64) : (s.setWord off v).abortSeen = s.abortSeen := rfl
@[simp] theorem setWord_h0Failed (off : Nat) (v : W64) : (s.setWord off v).h0Failed = s.h0Failed := rfl

/-! ## setFld changes only csr -/

@[simp] theorem setFld_pending (f : Fld) (v : Nat) : (s.setFld f v).pending = s.pending := rfl
@[simp] theorem setFld_out (f : Fld) (v : Nat) : (s.setFld f v).out = s.out := rfl
@[simp] theorem setFld_mem (f : Fld) (v : Nat) : (s.setFld f v).mem = s.mem := rfl
@[simp] theorem setFld_locked (f : Fld) (v : Nat) : (s.setFld f v).locked = s.locked := rfl
@[simp] theorem setFld_count (f : Fld) (v : Nat) : (s.setFld f v).count = s.count := rfl
@[simp] theorem setFld_otp (f : Fld) (v : Nat) : (s.setFld f v).otp = s.otp := rfl
@[simp] theorem setFld_tiles (f : Fld) (v : Nat) : (s.setFld f v).tiles = s.tiles := rfl
@[simp] theorem setFld_rings (f : Fld) (v : Nat) : (s.setFld f v).rings = s.rings := rfl
@[simp] theorem setFld_loading (f : Fld) (v : Nat) : (s.setFld f v).loading = s.loading := rfl
@[simp] theorem setFld_lastRing (f : Fld) (v : Nat) : (s.setFld f v).lastRing = s.lastRing := rfl
@[simp] theorem setFld_fetched (f : Fld) (v : Nat) : (s.setFld f v).fetched = s.fetched := rfl
@[simp] theorem setFld_segs (f : Fld) (v : Nat) : (s.setFld f v).segs = s.segs := rfl
@[simp] theorem setFld_heldSegs (f : Fld) (v : Nat) : (s.setFld f v).heldSegs = s.heldSegs := rfl
@[simp] theorem setFld_hostReads (f : Fld) (v : Nat) : (s.setFld f v).hostReads = s.hostReads := rfl
@[simp] theorem setFld_staged (f : Fld) (v : Nat) : (s.setFld f v).staged = s.staged := rfl
@[simp] theorem setFld_fenced (f : Fld) (v : Nat) : (s.setFld f v).fenced = s.fenced := rfl
@[simp] theorem setFld_nextXid (f : Fld) (v : Nat) : (s.setFld f v).nextXid = s.nextXid := rfl
@[simp] theorem setFld_admitted (f : Fld) (v : Nat) : (s.setFld f v).admitted = s.admitted := rfl
@[simp] theorem setFld_readyReq (f : Fld) (v : Nat) : (s.setFld f v).readyReq = s.readyReq := rfl
@[simp] theorem setFld_contribs (f : Fld) (v : Nat) : (s.setFld f v).contribs = s.contribs := rfl
@[simp] theorem setFld_carried (f : Fld) (v : Nat) : (s.setFld f v).carried = s.carried := rfl
@[simp] theorem setFld_insts (f : Fld) (v : Nat) : (s.setFld f v).insts = s.insts := rfl
@[simp] theorem setFld_collSeq (f : Fld) (v : Nat) : (s.setFld f v).collSeq = s.collSeq := rfl
@[simp] theorem setFld_splitTick (f : Fld) (v : Nat) : (s.setFld f v).splitTick = s.splitTick := rfl
@[simp] theorem setFld_peerAborted (f : Fld) (v : Nat) : (s.setFld f v).peerAborted = s.peerAborted := rfl
@[simp] theorem setFld_seqs (f : Fld) (v : Nat) : (s.setFld f v).seqs = s.seqs := rfl
@[simp] theorem setFld_substs (f : Fld) (v : Nat) : (s.setFld f v).substs = s.substs := rfl
@[simp] theorem setFld_gazTick (f : Fld) (v : Nat) : (s.setFld f v).gazTick = s.gazTick := rfl
@[simp] theorem setFld_expiredTick (f : Fld) (v : Nat) : (s.setFld f v).expiredTick = s.expiredTick := rfl
@[simp] theorem setFld_ports (f : Fld) (v : Nat) : (s.setFld f v).ports = s.ports := rfl
@[simp] theorem setFld_held (f : Fld) (v : Nat) : (s.setFld f v).held = s.held := rfl
@[simp] theorem setFld_lostMark (f : Fld) (v : Nat) : (s.setFld f v).lostMark = s.lostMark := rfl
@[simp] theorem setFld_overflowed (f : Fld) (v : Nat) : (s.setFld f v).overflowed = s.overflowed := rfl
@[simp] theorem setFld_nextXfer (f : Fld) (v : Nat) : (s.setFld f v).nextXfer = s.nextXfer := rfl
@[simp] theorem setFld_denyTick (f : Fld) (v : Nat) : (s.setFld f v).denyTick = s.denyTick := rfl
@[simp] theorem setFld_registry (f : Fld) (v : Nat) : (s.setFld f v).registry = s.registry := rfl
@[simp] theorem setFld_rngQueue (f : Fld) (v : Nat) : (s.setFld f v).rngQueue = s.rngQueue := rfl
@[simp] theorem setFld_seqAborting (f : Fld) (v : Nat) : (s.setFld f v).seqAborting = s.seqAborting := rfl
@[simp] theorem setFld_abortGroups (f : Fld) (v : Nat) : (s.setFld f v).abortGroups = s.abortGroups := rfl
@[simp] theorem setFld_stage (f : Fld) (v : Nat) : (s.setFld f v).stage = s.stage := rfl
@[simp] theorem setFld_badWindows (f : Fld) (v : Nat) : (s.setFld f v).badWindows = s.badWindows := rfl
@[simp] theorem setFld_refUnqual (f : Fld) (v : Nat) : (s.setFld f v).refUnqual = s.refUnqual := rfl
@[simp] theorem setFld_pcieUp (f : Fld) (v : Nat) : (s.setFld f v).pcieUp = s.pcieUp := rfl
@[simp] theorem setFld_pcieCfg (f : Fld) (v : Nat) : (s.setFld f v).pcieCfg = s.pcieCfg := rfl
@[simp] theorem setFld_vfEnable (f : Fld) (v : Nat) : (s.setFld f v).vfEnable = s.vfEnable := rfl
@[simp] theorem setFld_resetPhase (f : Fld) (v : Nat) : (s.setFld f v).resetPhase = s.resetPhase := rfl
@[simp] theorem setFld_remaps (f : Fld) (v : Nat) : (s.setFld f v).remaps = s.remaps := rfl
@[simp] theorem setFld_switched (f : Fld) (v : Nat) : (s.setFld f v).switched = s.switched := rfl
@[simp] theorem setFld_repairing (f : Fld) (v : Nat) : (s.setFld f v).repairing = s.repairing := rfl
@[simp] theorem setFld_spdm (f : Fld) (v : Nat) : (s.setFld f v).spdm = s.spdm := rfl
@[simp] theorem setFld_sensorsOff (f : Fld) (v : Nat) : (s.setFld f v).sensorsOff = s.sensorsOff := rfl
@[simp] theorem setFld_flashA (f : Fld) (v : Nat) : (s.setFld f v).flashA = s.flashA := rfl
@[simp] theorem setFld_flashB (f : Fld) (v : Nat) : (s.setFld f v).flashB = s.flashB := rfl
@[simp] theorem setFld_fwKey (f : Fld) (v : Nat) : (s.setFld f v).fwKey = s.fwKey := rfl
@[simp] theorem setFld_d2dFails (f : Fld) (v : Nat) : (s.setFld f v).d2dFails = s.d2dFails := rfl
@[simp] theorem setFld_disc (f : Fld) (v : Nat) : (s.setFld f v).disc = s.disc := rfl
@[simp] theorem setFld_power (f : Fld) (v : Nat) : (s.setFld f v).power = s.power := rfl
@[simp] theorem setFld_hold (f : Fld) (v : Nat) : (s.setFld f v).hold = s.hold := rfl
@[simp] theorem setFld_tripped (f : Fld) (v : Nat) : (s.setFld f v).tripped = s.tripped := rfl
@[simp] theorem setFld_cold (f : Fld) (v : Nat) : (s.setFld f v).cold = s.cold := rfl
@[simp] theorem setFld_resetLow (f : Fld) (v : Nat) : (s.setFld f v).resetLow = s.resetLow := rfl
@[simp] theorem setFld_bistTiles (f : Fld) (v : Nat) : (s.setFld f v).bistTiles = s.bistTiles := rfl
@[simp] theorem setFld_tapIr (f : Fld) (v : Nat) : (s.setFld f v).tapIr = s.tapIr := rfl
@[simp] theorem setFld_bridge (f : Fld) (v : Nat) : (s.setFld f v).bridge = s.bridge := rfl
@[simp] theorem setFld_smbus (f : Fld) (v : Nat) : (s.setFld f v).smbus = s.smbus := rfl
@[simp] theorem setFld_freeCtr (f : Fld) (v : Nat) : (s.setFld f v).freeCtr = s.freeCtr := rfl
@[simp] theorem setFld_seen (f : Fld) (v : Nat) : (s.setFld f v).seen = s.seen := rfl
@[simp] theorem setFld_datum (f : Fld) (v : Nat) : (s.setFld f v).datum = s.datum := rfl
@[simp] theorem setFld_modeSent (f : Fld) (v : Nat) : (s.setFld f v).modeSent = s.modeSent := rfl
@[simp] theorem setFld_cycles (f : Fld) (v : Nat) : (s.setFld f v).cycles = s.cycles := rfl
@[simp] theorem setFld_inSegs (f : Fld) (v : Nat) : (s.setFld f v).inSegs = s.inSegs := rfl
@[simp] theorem setFld_collPast (f : Fld) (v : Nat) : (s.setFld f v).collPast = s.collPast := rfl
@[simp] theorem setFld_cadOld (f : Fld) (v : Nat) : (s.setFld f v).cadOld = s.cadOld := rfl
@[simp] theorem setFld_commitAt (f : Fld) (v : Nat) : (s.setFld f v).commitAt = s.commitAt := rfl
@[simp] theorem setFld_selfRefresh (f : Fld) (v : Nat) : (s.setFld f v).selfRefresh = s.selfRefresh := rfl
@[simp] theorem setFld_ueWords (f : Fld) (v : Nat) : (s.setFld f v).ueWords = s.ueWords := rfl
@[simp] theorem setFld_rngArr (f : Fld) (v : Nat) : (s.setFld f v).rngArr = s.rngArr := rfl
@[simp] theorem setFld_pcieLanes (f : Fld) (v : Nat) : (s.setFld f v).pcieLanes = s.pcieLanes := rfl
@[simp] theorem setFld_pcieRate (f : Fld) (v : Nat) : (s.setFld f v).pcieRate = s.pcieRate := rfl
@[simp] theorem setFld_flrWaits (f : Fld) (v : Nat) : (s.setFld f v).flrWaits = s.flrWaits := rfl
@[simp] theorem setFld_abortSeen (f : Fld) (v : Nat) : (s.setFld f v).abortSeen = s.abortSeen := rfl
@[simp] theorem setFld_h0Failed (f : Fld) (v : Nat) : (s.setFld f v).h0Failed = s.h0Failed := rfl

/-! ## addFld changes only csr -/

@[simp] theorem addFld_pending (f : Fld) (v : Nat) : (s.addFld f v).pending = s.pending := rfl
@[simp] theorem addFld_out (f : Fld) (v : Nat) : (s.addFld f v).out = s.out := rfl
@[simp] theorem addFld_mem (f : Fld) (v : Nat) : (s.addFld f v).mem = s.mem := rfl
@[simp] theorem addFld_locked (f : Fld) (v : Nat) : (s.addFld f v).locked = s.locked := rfl
@[simp] theorem addFld_count (f : Fld) (v : Nat) : (s.addFld f v).count = s.count := rfl
@[simp] theorem addFld_otp (f : Fld) (v : Nat) : (s.addFld f v).otp = s.otp := rfl
@[simp] theorem addFld_tiles (f : Fld) (v : Nat) : (s.addFld f v).tiles = s.tiles := rfl
@[simp] theorem addFld_rings (f : Fld) (v : Nat) : (s.addFld f v).rings = s.rings := rfl
@[simp] theorem addFld_loading (f : Fld) (v : Nat) : (s.addFld f v).loading = s.loading := rfl
@[simp] theorem addFld_lastRing (f : Fld) (v : Nat) : (s.addFld f v).lastRing = s.lastRing := rfl
@[simp] theorem addFld_fetched (f : Fld) (v : Nat) : (s.addFld f v).fetched = s.fetched := rfl
@[simp] theorem addFld_segs (f : Fld) (v : Nat) : (s.addFld f v).segs = s.segs := rfl
@[simp] theorem addFld_heldSegs (f : Fld) (v : Nat) : (s.addFld f v).heldSegs = s.heldSegs := rfl
@[simp] theorem addFld_hostReads (f : Fld) (v : Nat) : (s.addFld f v).hostReads = s.hostReads := rfl
@[simp] theorem addFld_staged (f : Fld) (v : Nat) : (s.addFld f v).staged = s.staged := rfl
@[simp] theorem addFld_fenced (f : Fld) (v : Nat) : (s.addFld f v).fenced = s.fenced := rfl
@[simp] theorem addFld_nextXid (f : Fld) (v : Nat) : (s.addFld f v).nextXid = s.nextXid := rfl
@[simp] theorem addFld_admitted (f : Fld) (v : Nat) : (s.addFld f v).admitted = s.admitted := rfl
@[simp] theorem addFld_readyReq (f : Fld) (v : Nat) : (s.addFld f v).readyReq = s.readyReq := rfl
@[simp] theorem addFld_contribs (f : Fld) (v : Nat) : (s.addFld f v).contribs = s.contribs := rfl
@[simp] theorem addFld_carried (f : Fld) (v : Nat) : (s.addFld f v).carried = s.carried := rfl
@[simp] theorem addFld_insts (f : Fld) (v : Nat) : (s.addFld f v).insts = s.insts := rfl
@[simp] theorem addFld_collSeq (f : Fld) (v : Nat) : (s.addFld f v).collSeq = s.collSeq := rfl
@[simp] theorem addFld_splitTick (f : Fld) (v : Nat) : (s.addFld f v).splitTick = s.splitTick := rfl
@[simp] theorem addFld_peerAborted (f : Fld) (v : Nat) : (s.addFld f v).peerAborted = s.peerAborted := rfl
@[simp] theorem addFld_seqs (f : Fld) (v : Nat) : (s.addFld f v).seqs = s.seqs := rfl
@[simp] theorem addFld_substs (f : Fld) (v : Nat) : (s.addFld f v).substs = s.substs := rfl
@[simp] theorem addFld_gazTick (f : Fld) (v : Nat) : (s.addFld f v).gazTick = s.gazTick := rfl
@[simp] theorem addFld_expiredTick (f : Fld) (v : Nat) : (s.addFld f v).expiredTick = s.expiredTick := rfl
@[simp] theorem addFld_ports (f : Fld) (v : Nat) : (s.addFld f v).ports = s.ports := rfl
@[simp] theorem addFld_held (f : Fld) (v : Nat) : (s.addFld f v).held = s.held := rfl
@[simp] theorem addFld_lostMark (f : Fld) (v : Nat) : (s.addFld f v).lostMark = s.lostMark := rfl
@[simp] theorem addFld_overflowed (f : Fld) (v : Nat) : (s.addFld f v).overflowed = s.overflowed := rfl
@[simp] theorem addFld_nextXfer (f : Fld) (v : Nat) : (s.addFld f v).nextXfer = s.nextXfer := rfl
@[simp] theorem addFld_denyTick (f : Fld) (v : Nat) : (s.addFld f v).denyTick = s.denyTick := rfl
@[simp] theorem addFld_registry (f : Fld) (v : Nat) : (s.addFld f v).registry = s.registry := rfl
@[simp] theorem addFld_rngQueue (f : Fld) (v : Nat) : (s.addFld f v).rngQueue = s.rngQueue := rfl
@[simp] theorem addFld_seqAborting (f : Fld) (v : Nat) : (s.addFld f v).seqAborting = s.seqAborting := rfl
@[simp] theorem addFld_abortGroups (f : Fld) (v : Nat) : (s.addFld f v).abortGroups = s.abortGroups := rfl
@[simp] theorem addFld_stage (f : Fld) (v : Nat) : (s.addFld f v).stage = s.stage := rfl
@[simp] theorem addFld_badWindows (f : Fld) (v : Nat) : (s.addFld f v).badWindows = s.badWindows := rfl
@[simp] theorem addFld_refUnqual (f : Fld) (v : Nat) : (s.addFld f v).refUnqual = s.refUnqual := rfl
@[simp] theorem addFld_pcieUp (f : Fld) (v : Nat) : (s.addFld f v).pcieUp = s.pcieUp := rfl
@[simp] theorem addFld_pcieCfg (f : Fld) (v : Nat) : (s.addFld f v).pcieCfg = s.pcieCfg := rfl
@[simp] theorem addFld_vfEnable (f : Fld) (v : Nat) : (s.addFld f v).vfEnable = s.vfEnable := rfl
@[simp] theorem addFld_resetPhase (f : Fld) (v : Nat) : (s.addFld f v).resetPhase = s.resetPhase := rfl
@[simp] theorem addFld_remaps (f : Fld) (v : Nat) : (s.addFld f v).remaps = s.remaps := rfl
@[simp] theorem addFld_switched (f : Fld) (v : Nat) : (s.addFld f v).switched = s.switched := rfl
@[simp] theorem addFld_repairing (f : Fld) (v : Nat) : (s.addFld f v).repairing = s.repairing := rfl
@[simp] theorem addFld_spdm (f : Fld) (v : Nat) : (s.addFld f v).spdm = s.spdm := rfl
@[simp] theorem addFld_sensorsOff (f : Fld) (v : Nat) : (s.addFld f v).sensorsOff = s.sensorsOff := rfl
@[simp] theorem addFld_flashA (f : Fld) (v : Nat) : (s.addFld f v).flashA = s.flashA := rfl
@[simp] theorem addFld_flashB (f : Fld) (v : Nat) : (s.addFld f v).flashB = s.flashB := rfl
@[simp] theorem addFld_fwKey (f : Fld) (v : Nat) : (s.addFld f v).fwKey = s.fwKey := rfl
@[simp] theorem addFld_d2dFails (f : Fld) (v : Nat) : (s.addFld f v).d2dFails = s.d2dFails := rfl
@[simp] theorem addFld_disc (f : Fld) (v : Nat) : (s.addFld f v).disc = s.disc := rfl
@[simp] theorem addFld_power (f : Fld) (v : Nat) : (s.addFld f v).power = s.power := rfl
@[simp] theorem addFld_hold (f : Fld) (v : Nat) : (s.addFld f v).hold = s.hold := rfl
@[simp] theorem addFld_tripped (f : Fld) (v : Nat) : (s.addFld f v).tripped = s.tripped := rfl
@[simp] theorem addFld_cold (f : Fld) (v : Nat) : (s.addFld f v).cold = s.cold := rfl
@[simp] theorem addFld_resetLow (f : Fld) (v : Nat) : (s.addFld f v).resetLow = s.resetLow := rfl
@[simp] theorem addFld_bistTiles (f : Fld) (v : Nat) : (s.addFld f v).bistTiles = s.bistTiles := rfl
@[simp] theorem addFld_tapIr (f : Fld) (v : Nat) : (s.addFld f v).tapIr = s.tapIr := rfl
@[simp] theorem addFld_bridge (f : Fld) (v : Nat) : (s.addFld f v).bridge = s.bridge := rfl
@[simp] theorem addFld_smbus (f : Fld) (v : Nat) : (s.addFld f v).smbus = s.smbus := rfl
@[simp] theorem addFld_freeCtr (f : Fld) (v : Nat) : (s.addFld f v).freeCtr = s.freeCtr := rfl
@[simp] theorem addFld_seen (f : Fld) (v : Nat) : (s.addFld f v).seen = s.seen := rfl
@[simp] theorem addFld_datum (f : Fld) (v : Nat) : (s.addFld f v).datum = s.datum := rfl
@[simp] theorem addFld_modeSent (f : Fld) (v : Nat) : (s.addFld f v).modeSent = s.modeSent := rfl
@[simp] theorem addFld_cycles (f : Fld) (v : Nat) : (s.addFld f v).cycles = s.cycles := rfl
@[simp] theorem addFld_inSegs (f : Fld) (v : Nat) : (s.addFld f v).inSegs = s.inSegs := rfl
@[simp] theorem addFld_collPast (f : Fld) (v : Nat) : (s.addFld f v).collPast = s.collPast := rfl
@[simp] theorem addFld_cadOld (f : Fld) (v : Nat) : (s.addFld f v).cadOld = s.cadOld := rfl
@[simp] theorem addFld_commitAt (f : Fld) (v : Nat) : (s.addFld f v).commitAt = s.commitAt := rfl
@[simp] theorem addFld_selfRefresh (f : Fld) (v : Nat) : (s.addFld f v).selfRefresh = s.selfRefresh := rfl
@[simp] theorem addFld_ueWords (f : Fld) (v : Nat) : (s.addFld f v).ueWords = s.ueWords := rfl
@[simp] theorem addFld_rngArr (f : Fld) (v : Nat) : (s.addFld f v).rngArr = s.rngArr := rfl
@[simp] theorem addFld_pcieLanes (f : Fld) (v : Nat) : (s.addFld f v).pcieLanes = s.pcieLanes := rfl
@[simp] theorem addFld_pcieRate (f : Fld) (v : Nat) : (s.addFld f v).pcieRate = s.pcieRate := rfl
@[simp] theorem addFld_flrWaits (f : Fld) (v : Nat) : (s.addFld f v).flrWaits = s.flrWaits := rfl
@[simp] theorem addFld_abortSeen (f : Fld) (v : Nat) : (s.addFld f v).abortSeen = s.abortSeen := rfl
@[simp] theorem addFld_h0Failed (f : Fld) (v : Nat) : (s.addFld f v).h0Failed = s.h0Failed := rfl

/-! ## writeBytes changes only mem, ueWords -/

@[simp] theorem writeBytes_pending (a : Nat) (bs : List Byte) : (s.writeBytes a bs).pending = s.pending := rfl
@[simp] theorem writeBytes_out (a : Nat) (bs : List Byte) : (s.writeBytes a bs).out = s.out := rfl
@[simp] theorem writeBytes_csr (a : Nat) (bs : List Byte) : (s.writeBytes a bs).csr = s.csr := rfl
@[simp] theorem writeBytes_locked (a : Nat) (bs : List Byte) : (s.writeBytes a bs).locked = s.locked := rfl
@[simp] theorem writeBytes_count (a : Nat) (bs : List Byte) : (s.writeBytes a bs).count = s.count := rfl
@[simp] theorem writeBytes_otp (a : Nat) (bs : List Byte) : (s.writeBytes a bs).otp = s.otp := rfl
@[simp] theorem writeBytes_tiles (a : Nat) (bs : List Byte) : (s.writeBytes a bs).tiles = s.tiles := rfl
@[simp] theorem writeBytes_rings (a : Nat) (bs : List Byte) : (s.writeBytes a bs).rings = s.rings := rfl
@[simp] theorem writeBytes_loading (a : Nat) (bs : List Byte) : (s.writeBytes a bs).loading = s.loading := rfl
@[simp] theorem writeBytes_lastRing (a : Nat) (bs : List Byte) : (s.writeBytes a bs).lastRing = s.lastRing := rfl
@[simp] theorem writeBytes_fetched (a : Nat) (bs : List Byte) : (s.writeBytes a bs).fetched = s.fetched := rfl
@[simp] theorem writeBytes_segs (a : Nat) (bs : List Byte) : (s.writeBytes a bs).segs = s.segs := rfl
@[simp] theorem writeBytes_heldSegs (a : Nat) (bs : List Byte) : (s.writeBytes a bs).heldSegs = s.heldSegs := rfl
@[simp] theorem writeBytes_hostReads (a : Nat) (bs : List Byte) : (s.writeBytes a bs).hostReads = s.hostReads := rfl
@[simp] theorem writeBytes_staged (a : Nat) (bs : List Byte) : (s.writeBytes a bs).staged = s.staged := rfl
@[simp] theorem writeBytes_fenced (a : Nat) (bs : List Byte) : (s.writeBytes a bs).fenced = s.fenced := rfl
@[simp] theorem writeBytes_nextXid (a : Nat) (bs : List Byte) : (s.writeBytes a bs).nextXid = s.nextXid := rfl
@[simp] theorem writeBytes_admitted (a : Nat) (bs : List Byte) : (s.writeBytes a bs).admitted = s.admitted := rfl
@[simp] theorem writeBytes_readyReq (a : Nat) (bs : List Byte) : (s.writeBytes a bs).readyReq = s.readyReq := rfl
@[simp] theorem writeBytes_contribs (a : Nat) (bs : List Byte) : (s.writeBytes a bs).contribs = s.contribs := rfl
@[simp] theorem writeBytes_carried (a : Nat) (bs : List Byte) : (s.writeBytes a bs).carried = s.carried := rfl
@[simp] theorem writeBytes_insts (a : Nat) (bs : List Byte) : (s.writeBytes a bs).insts = s.insts := rfl
@[simp] theorem writeBytes_collSeq (a : Nat) (bs : List Byte) : (s.writeBytes a bs).collSeq = s.collSeq := rfl
@[simp] theorem writeBytes_splitTick (a : Nat) (bs : List Byte) : (s.writeBytes a bs).splitTick = s.splitTick := rfl
@[simp] theorem writeBytes_peerAborted (a : Nat) (bs : List Byte) : (s.writeBytes a bs).peerAborted = s.peerAborted := rfl
@[simp] theorem writeBytes_seqs (a : Nat) (bs : List Byte) : (s.writeBytes a bs).seqs = s.seqs := rfl
@[simp] theorem writeBytes_substs (a : Nat) (bs : List Byte) : (s.writeBytes a bs).substs = s.substs := rfl
@[simp] theorem writeBytes_gazTick (a : Nat) (bs : List Byte) : (s.writeBytes a bs).gazTick = s.gazTick := rfl
@[simp] theorem writeBytes_expiredTick (a : Nat) (bs : List Byte) : (s.writeBytes a bs).expiredTick = s.expiredTick := rfl
@[simp] theorem writeBytes_ports (a : Nat) (bs : List Byte) : (s.writeBytes a bs).ports = s.ports := rfl
@[simp] theorem writeBytes_held (a : Nat) (bs : List Byte) : (s.writeBytes a bs).held = s.held := rfl
@[simp] theorem writeBytes_lostMark (a : Nat) (bs : List Byte) : (s.writeBytes a bs).lostMark = s.lostMark := rfl
@[simp] theorem writeBytes_overflowed (a : Nat) (bs : List Byte) : (s.writeBytes a bs).overflowed = s.overflowed := rfl
@[simp] theorem writeBytes_nextXfer (a : Nat) (bs : List Byte) : (s.writeBytes a bs).nextXfer = s.nextXfer := rfl
@[simp] theorem writeBytes_denyTick (a : Nat) (bs : List Byte) : (s.writeBytes a bs).denyTick = s.denyTick := rfl
@[simp] theorem writeBytes_registry (a : Nat) (bs : List Byte) : (s.writeBytes a bs).registry = s.registry := rfl
@[simp] theorem writeBytes_rngQueue (a : Nat) (bs : List Byte) : (s.writeBytes a bs).rngQueue = s.rngQueue := rfl
@[simp] theorem writeBytes_seqAborting (a : Nat) (bs : List Byte) : (s.writeBytes a bs).seqAborting = s.seqAborting := rfl
@[simp] theorem writeBytes_abortGroups (a : Nat) (bs : List Byte) : (s.writeBytes a bs).abortGroups = s.abortGroups := rfl
@[simp] theorem writeBytes_stage (a : Nat) (bs : List Byte) : (s.writeBytes a bs).stage = s.stage := rfl
@[simp] theorem writeBytes_badWindows (a : Nat) (bs : List Byte) : (s.writeBytes a bs).badWindows = s.badWindows := rfl
@[simp] theorem writeBytes_refUnqual (a : Nat) (bs : List Byte) : (s.writeBytes a bs).refUnqual = s.refUnqual := rfl
@[simp] theorem writeBytes_pcieUp (a : Nat) (bs : List Byte) : (s.writeBytes a bs).pcieUp = s.pcieUp := rfl
@[simp] theorem writeBytes_pcieCfg (a : Nat) (bs : List Byte) : (s.writeBytes a bs).pcieCfg = s.pcieCfg := rfl
@[simp] theorem writeBytes_vfEnable (a : Nat) (bs : List Byte) : (s.writeBytes a bs).vfEnable = s.vfEnable := rfl
@[simp] theorem writeBytes_resetPhase (a : Nat) (bs : List Byte) : (s.writeBytes a bs).resetPhase = s.resetPhase := rfl
@[simp] theorem writeBytes_remaps (a : Nat) (bs : List Byte) : (s.writeBytes a bs).remaps = s.remaps := rfl
@[simp] theorem writeBytes_switched (a : Nat) (bs : List Byte) : (s.writeBytes a bs).switched = s.switched := rfl
@[simp] theorem writeBytes_repairing (a : Nat) (bs : List Byte) : (s.writeBytes a bs).repairing = s.repairing := rfl
@[simp] theorem writeBytes_spdm (a : Nat) (bs : List Byte) : (s.writeBytes a bs).spdm = s.spdm := rfl
@[simp] theorem writeBytes_sensorsOff (a : Nat) (bs : List Byte) : (s.writeBytes a bs).sensorsOff = s.sensorsOff := rfl
@[simp] theorem writeBytes_flashA (a : Nat) (bs : List Byte) : (s.writeBytes a bs).flashA = s.flashA := rfl
@[simp] theorem writeBytes_flashB (a : Nat) (bs : List Byte) : (s.writeBytes a bs).flashB = s.flashB := rfl
@[simp] theorem writeBytes_fwKey (a : Nat) (bs : List Byte) : (s.writeBytes a bs).fwKey = s.fwKey := rfl
@[simp] theorem writeBytes_d2dFails (a : Nat) (bs : List Byte) : (s.writeBytes a bs).d2dFails = s.d2dFails := rfl
@[simp] theorem writeBytes_disc (a : Nat) (bs : List Byte) : (s.writeBytes a bs).disc = s.disc := rfl
@[simp] theorem writeBytes_power (a : Nat) (bs : List Byte) : (s.writeBytes a bs).power = s.power := rfl
@[simp] theorem writeBytes_hold (a : Nat) (bs : List Byte) : (s.writeBytes a bs).hold = s.hold := rfl
@[simp] theorem writeBytes_tripped (a : Nat) (bs : List Byte) : (s.writeBytes a bs).tripped = s.tripped := rfl
@[simp] theorem writeBytes_cold (a : Nat) (bs : List Byte) : (s.writeBytes a bs).cold = s.cold := rfl
@[simp] theorem writeBytes_resetLow (a : Nat) (bs : List Byte) : (s.writeBytes a bs).resetLow = s.resetLow := rfl
@[simp] theorem writeBytes_bistTiles (a : Nat) (bs : List Byte) : (s.writeBytes a bs).bistTiles = s.bistTiles := rfl
@[simp] theorem writeBytes_tapIr (a : Nat) (bs : List Byte) : (s.writeBytes a bs).tapIr = s.tapIr := rfl
@[simp] theorem writeBytes_bridge (a : Nat) (bs : List Byte) : (s.writeBytes a bs).bridge = s.bridge := rfl
@[simp] theorem writeBytes_smbus (a : Nat) (bs : List Byte) : (s.writeBytes a bs).smbus = s.smbus := rfl
@[simp] theorem writeBytes_freeCtr (a : Nat) (bs : List Byte) : (s.writeBytes a bs).freeCtr = s.freeCtr := rfl
@[simp] theorem writeBytes_seen (a : Nat) (bs : List Byte) : (s.writeBytes a bs).seen = s.seen := rfl
@[simp] theorem writeBytes_datum (a : Nat) (bs : List Byte) : (s.writeBytes a bs).datum = s.datum := rfl
@[simp] theorem writeBytes_modeSent (a : Nat) (bs : List Byte) : (s.writeBytes a bs).modeSent = s.modeSent := rfl
@[simp] theorem writeBytes_cycles (a : Nat) (bs : List Byte) : (s.writeBytes a bs).cycles = s.cycles := rfl
@[simp] theorem writeBytes_inSegs (a : Nat) (bs : List Byte) : (s.writeBytes a bs).inSegs = s.inSegs := rfl
@[simp] theorem writeBytes_collPast (a : Nat) (bs : List Byte) : (s.writeBytes a bs).collPast = s.collPast := rfl
@[simp] theorem writeBytes_cadOld (a : Nat) (bs : List Byte) : (s.writeBytes a bs).cadOld = s.cadOld := rfl
@[simp] theorem writeBytes_commitAt (a : Nat) (bs : List Byte) : (s.writeBytes a bs).commitAt = s.commitAt := rfl
@[simp] theorem writeBytes_selfRefresh (a : Nat) (bs : List Byte) : (s.writeBytes a bs).selfRefresh = s.selfRefresh := rfl
@[simp] theorem writeBytes_rngArr (a : Nat) (bs : List Byte) : (s.writeBytes a bs).rngArr = s.rngArr := rfl
@[simp] theorem writeBytes_pcieLanes (a : Nat) (bs : List Byte) : (s.writeBytes a bs).pcieLanes = s.pcieLanes := rfl
@[simp] theorem writeBytes_pcieRate (a : Nat) (bs : List Byte) : (s.writeBytes a bs).pcieRate = s.pcieRate := rfl
@[simp] theorem writeBytes_flrWaits (a : Nat) (bs : List Byte) : (s.writeBytes a bs).flrWaits = s.flrWaits := rfl
@[simp] theorem writeBytes_abortSeen (a : Nat) (bs : List Byte) : (s.writeBytes a bs).abortSeen = s.abortSeen := rfl
@[simp] theorem writeBytes_h0Failed (a : Nat) (bs : List Byte) : (s.writeBytes a bs).h0Failed = s.h0Failed := rfl

/-! ## store changes only mem, ueWords -/

@[simp] theorem store_pending (a n v : Nat) : (s.store a n v).pending = s.pending := rfl
@[simp] theorem store_out (a n v : Nat) : (s.store a n v).out = s.out := rfl
@[simp] theorem store_csr (a n v : Nat) : (s.store a n v).csr = s.csr := rfl
@[simp] theorem store_locked (a n v : Nat) : (s.store a n v).locked = s.locked := rfl
@[simp] theorem store_count (a n v : Nat) : (s.store a n v).count = s.count := rfl
@[simp] theorem store_otp (a n v : Nat) : (s.store a n v).otp = s.otp := rfl
@[simp] theorem store_tiles (a n v : Nat) : (s.store a n v).tiles = s.tiles := rfl
@[simp] theorem store_rings (a n v : Nat) : (s.store a n v).rings = s.rings := rfl
@[simp] theorem store_loading (a n v : Nat) : (s.store a n v).loading = s.loading := rfl
@[simp] theorem store_lastRing (a n v : Nat) : (s.store a n v).lastRing = s.lastRing := rfl
@[simp] theorem store_fetched (a n v : Nat) : (s.store a n v).fetched = s.fetched := rfl
@[simp] theorem store_segs (a n v : Nat) : (s.store a n v).segs = s.segs := rfl
@[simp] theorem store_heldSegs (a n v : Nat) : (s.store a n v).heldSegs = s.heldSegs := rfl
@[simp] theorem store_hostReads (a n v : Nat) : (s.store a n v).hostReads = s.hostReads := rfl
@[simp] theorem store_staged (a n v : Nat) : (s.store a n v).staged = s.staged := rfl
@[simp] theorem store_fenced (a n v : Nat) : (s.store a n v).fenced = s.fenced := rfl
@[simp] theorem store_nextXid (a n v : Nat) : (s.store a n v).nextXid = s.nextXid := rfl
@[simp] theorem store_admitted (a n v : Nat) : (s.store a n v).admitted = s.admitted := rfl
@[simp] theorem store_readyReq (a n v : Nat) : (s.store a n v).readyReq = s.readyReq := rfl
@[simp] theorem store_contribs (a n v : Nat) : (s.store a n v).contribs = s.contribs := rfl
@[simp] theorem store_carried (a n v : Nat) : (s.store a n v).carried = s.carried := rfl
@[simp] theorem store_insts (a n v : Nat) : (s.store a n v).insts = s.insts := rfl
@[simp] theorem store_collSeq (a n v : Nat) : (s.store a n v).collSeq = s.collSeq := rfl
@[simp] theorem store_splitTick (a n v : Nat) : (s.store a n v).splitTick = s.splitTick := rfl
@[simp] theorem store_peerAborted (a n v : Nat) : (s.store a n v).peerAborted = s.peerAborted := rfl
@[simp] theorem store_seqs (a n v : Nat) : (s.store a n v).seqs = s.seqs := rfl
@[simp] theorem store_substs (a n v : Nat) : (s.store a n v).substs = s.substs := rfl
@[simp] theorem store_gazTick (a n v : Nat) : (s.store a n v).gazTick = s.gazTick := rfl
@[simp] theorem store_expiredTick (a n v : Nat) : (s.store a n v).expiredTick = s.expiredTick := rfl
@[simp] theorem store_ports (a n v : Nat) : (s.store a n v).ports = s.ports := rfl
@[simp] theorem store_held (a n v : Nat) : (s.store a n v).held = s.held := rfl
@[simp] theorem store_lostMark (a n v : Nat) : (s.store a n v).lostMark = s.lostMark := rfl
@[simp] theorem store_overflowed (a n v : Nat) : (s.store a n v).overflowed = s.overflowed := rfl
@[simp] theorem store_nextXfer (a n v : Nat) : (s.store a n v).nextXfer = s.nextXfer := rfl
@[simp] theorem store_denyTick (a n v : Nat) : (s.store a n v).denyTick = s.denyTick := rfl
@[simp] theorem store_registry (a n v : Nat) : (s.store a n v).registry = s.registry := rfl
@[simp] theorem store_rngQueue (a n v : Nat) : (s.store a n v).rngQueue = s.rngQueue := rfl
@[simp] theorem store_seqAborting (a n v : Nat) : (s.store a n v).seqAborting = s.seqAborting := rfl
@[simp] theorem store_abortGroups (a n v : Nat) : (s.store a n v).abortGroups = s.abortGroups := rfl
@[simp] theorem store_stage (a n v : Nat) : (s.store a n v).stage = s.stage := rfl
@[simp] theorem store_badWindows (a n v : Nat) : (s.store a n v).badWindows = s.badWindows := rfl
@[simp] theorem store_refUnqual (a n v : Nat) : (s.store a n v).refUnqual = s.refUnqual := rfl
@[simp] theorem store_pcieUp (a n v : Nat) : (s.store a n v).pcieUp = s.pcieUp := rfl
@[simp] theorem store_pcieCfg (a n v : Nat) : (s.store a n v).pcieCfg = s.pcieCfg := rfl
@[simp] theorem store_vfEnable (a n v : Nat) : (s.store a n v).vfEnable = s.vfEnable := rfl
@[simp] theorem store_resetPhase (a n v : Nat) : (s.store a n v).resetPhase = s.resetPhase := rfl
@[simp] theorem store_remaps (a n v : Nat) : (s.store a n v).remaps = s.remaps := rfl
@[simp] theorem store_switched (a n v : Nat) : (s.store a n v).switched = s.switched := rfl
@[simp] theorem store_repairing (a n v : Nat) : (s.store a n v).repairing = s.repairing := rfl
@[simp] theorem store_spdm (a n v : Nat) : (s.store a n v).spdm = s.spdm := rfl
@[simp] theorem store_sensorsOff (a n v : Nat) : (s.store a n v).sensorsOff = s.sensorsOff := rfl
@[simp] theorem store_flashA (a n v : Nat) : (s.store a n v).flashA = s.flashA := rfl
@[simp] theorem store_flashB (a n v : Nat) : (s.store a n v).flashB = s.flashB := rfl
@[simp] theorem store_fwKey (a n v : Nat) : (s.store a n v).fwKey = s.fwKey := rfl
@[simp] theorem store_d2dFails (a n v : Nat) : (s.store a n v).d2dFails = s.d2dFails := rfl
@[simp] theorem store_disc (a n v : Nat) : (s.store a n v).disc = s.disc := rfl
@[simp] theorem store_power (a n v : Nat) : (s.store a n v).power = s.power := rfl
@[simp] theorem store_hold (a n v : Nat) : (s.store a n v).hold = s.hold := rfl
@[simp] theorem store_tripped (a n v : Nat) : (s.store a n v).tripped = s.tripped := rfl
@[simp] theorem store_cold (a n v : Nat) : (s.store a n v).cold = s.cold := rfl
@[simp] theorem store_resetLow (a n v : Nat) : (s.store a n v).resetLow = s.resetLow := rfl
@[simp] theorem store_bistTiles (a n v : Nat) : (s.store a n v).bistTiles = s.bistTiles := rfl
@[simp] theorem store_tapIr (a n v : Nat) : (s.store a n v).tapIr = s.tapIr := rfl
@[simp] theorem store_bridge (a n v : Nat) : (s.store a n v).bridge = s.bridge := rfl
@[simp] theorem store_smbus (a n v : Nat) : (s.store a n v).smbus = s.smbus := rfl
@[simp] theorem store_freeCtr (a n v : Nat) : (s.store a n v).freeCtr = s.freeCtr := rfl
@[simp] theorem store_seen (a n v : Nat) : (s.store a n v).seen = s.seen := rfl
@[simp] theorem store_datum (a n v : Nat) : (s.store a n v).datum = s.datum := rfl
@[simp] theorem store_modeSent (a n v : Nat) : (s.store a n v).modeSent = s.modeSent := rfl
@[simp] theorem store_cycles (a n v : Nat) : (s.store a n v).cycles = s.cycles := rfl
@[simp] theorem store_inSegs (a n v : Nat) : (s.store a n v).inSegs = s.inSegs := rfl
@[simp] theorem store_collPast (a n v : Nat) : (s.store a n v).collPast = s.collPast := rfl
@[simp] theorem store_cadOld (a n v : Nat) : (s.store a n v).cadOld = s.cadOld := rfl
@[simp] theorem store_commitAt (a n v : Nat) : (s.store a n v).commitAt = s.commitAt := rfl
@[simp] theorem store_selfRefresh (a n v : Nat) : (s.store a n v).selfRefresh = s.selfRefresh := rfl
@[simp] theorem store_rngArr (a n v : Nat) : (s.store a n v).rngArr = s.rngArr := rfl
@[simp] theorem store_pcieLanes (a n v : Nat) : (s.store a n v).pcieLanes = s.pcieLanes := rfl
@[simp] theorem store_pcieRate (a n v : Nat) : (s.store a n v).pcieRate = s.pcieRate := rfl
@[simp] theorem store_flrWaits (a n v : Nat) : (s.store a n v).flrWaits = s.flrWaits := rfl
@[simp] theorem store_abortSeen (a n v : Nat) : (s.store a n v).abortSeen = s.abortSeen := rfl
@[simp] theorem store_h0Failed (a n v : Nat) : (s.store a n v).h0Failed = s.h0Failed := rfl

/-! ## zeroMem changes only mem, ueWords -/

@[simp] theorem zeroMem_pending (a n : Nat) : (s.zeroMem a n).pending = s.pending := rfl
@[simp] theorem zeroMem_out (a n : Nat) : (s.zeroMem a n).out = s.out := rfl
@[simp] theorem zeroMem_csr (a n : Nat) : (s.zeroMem a n).csr = s.csr := rfl
@[simp] theorem zeroMem_locked (a n : Nat) : (s.zeroMem a n).locked = s.locked := rfl
@[simp] theorem zeroMem_count (a n : Nat) : (s.zeroMem a n).count = s.count := rfl
@[simp] theorem zeroMem_otp (a n : Nat) : (s.zeroMem a n).otp = s.otp := rfl
@[simp] theorem zeroMem_tiles (a n : Nat) : (s.zeroMem a n).tiles = s.tiles := rfl
@[simp] theorem zeroMem_rings (a n : Nat) : (s.zeroMem a n).rings = s.rings := rfl
@[simp] theorem zeroMem_loading (a n : Nat) : (s.zeroMem a n).loading = s.loading := rfl
@[simp] theorem zeroMem_lastRing (a n : Nat) : (s.zeroMem a n).lastRing = s.lastRing := rfl
@[simp] theorem zeroMem_fetched (a n : Nat) : (s.zeroMem a n).fetched = s.fetched := rfl
@[simp] theorem zeroMem_segs (a n : Nat) : (s.zeroMem a n).segs = s.segs := rfl
@[simp] theorem zeroMem_heldSegs (a n : Nat) : (s.zeroMem a n).heldSegs = s.heldSegs := rfl
@[simp] theorem zeroMem_hostReads (a n : Nat) : (s.zeroMem a n).hostReads = s.hostReads := rfl
@[simp] theorem zeroMem_staged (a n : Nat) : (s.zeroMem a n).staged = s.staged := rfl
@[simp] theorem zeroMem_fenced (a n : Nat) : (s.zeroMem a n).fenced = s.fenced := rfl
@[simp] theorem zeroMem_nextXid (a n : Nat) : (s.zeroMem a n).nextXid = s.nextXid := rfl
@[simp] theorem zeroMem_admitted (a n : Nat) : (s.zeroMem a n).admitted = s.admitted := rfl
@[simp] theorem zeroMem_readyReq (a n : Nat) : (s.zeroMem a n).readyReq = s.readyReq := rfl
@[simp] theorem zeroMem_contribs (a n : Nat) : (s.zeroMem a n).contribs = s.contribs := rfl
@[simp] theorem zeroMem_carried (a n : Nat) : (s.zeroMem a n).carried = s.carried := rfl
@[simp] theorem zeroMem_insts (a n : Nat) : (s.zeroMem a n).insts = s.insts := rfl
@[simp] theorem zeroMem_collSeq (a n : Nat) : (s.zeroMem a n).collSeq = s.collSeq := rfl
@[simp] theorem zeroMem_splitTick (a n : Nat) : (s.zeroMem a n).splitTick = s.splitTick := rfl
@[simp] theorem zeroMem_peerAborted (a n : Nat) : (s.zeroMem a n).peerAborted = s.peerAborted := rfl
@[simp] theorem zeroMem_seqs (a n : Nat) : (s.zeroMem a n).seqs = s.seqs := rfl
@[simp] theorem zeroMem_substs (a n : Nat) : (s.zeroMem a n).substs = s.substs := rfl
@[simp] theorem zeroMem_gazTick (a n : Nat) : (s.zeroMem a n).gazTick = s.gazTick := rfl
@[simp] theorem zeroMem_expiredTick (a n : Nat) : (s.zeroMem a n).expiredTick = s.expiredTick := rfl
@[simp] theorem zeroMem_ports (a n : Nat) : (s.zeroMem a n).ports = s.ports := rfl
@[simp] theorem zeroMem_held (a n : Nat) : (s.zeroMem a n).held = s.held := rfl
@[simp] theorem zeroMem_lostMark (a n : Nat) : (s.zeroMem a n).lostMark = s.lostMark := rfl
@[simp] theorem zeroMem_overflowed (a n : Nat) : (s.zeroMem a n).overflowed = s.overflowed := rfl
@[simp] theorem zeroMem_nextXfer (a n : Nat) : (s.zeroMem a n).nextXfer = s.nextXfer := rfl
@[simp] theorem zeroMem_denyTick (a n : Nat) : (s.zeroMem a n).denyTick = s.denyTick := rfl
@[simp] theorem zeroMem_registry (a n : Nat) : (s.zeroMem a n).registry = s.registry := rfl
@[simp] theorem zeroMem_rngQueue (a n : Nat) : (s.zeroMem a n).rngQueue = s.rngQueue := rfl
@[simp] theorem zeroMem_seqAborting (a n : Nat) : (s.zeroMem a n).seqAborting = s.seqAborting := rfl
@[simp] theorem zeroMem_abortGroups (a n : Nat) : (s.zeroMem a n).abortGroups = s.abortGroups := rfl
@[simp] theorem zeroMem_stage (a n : Nat) : (s.zeroMem a n).stage = s.stage := rfl
@[simp] theorem zeroMem_badWindows (a n : Nat) : (s.zeroMem a n).badWindows = s.badWindows := rfl
@[simp] theorem zeroMem_refUnqual (a n : Nat) : (s.zeroMem a n).refUnqual = s.refUnqual := rfl
@[simp] theorem zeroMem_pcieUp (a n : Nat) : (s.zeroMem a n).pcieUp = s.pcieUp := rfl
@[simp] theorem zeroMem_pcieCfg (a n : Nat) : (s.zeroMem a n).pcieCfg = s.pcieCfg := rfl
@[simp] theorem zeroMem_vfEnable (a n : Nat) : (s.zeroMem a n).vfEnable = s.vfEnable := rfl
@[simp] theorem zeroMem_resetPhase (a n : Nat) : (s.zeroMem a n).resetPhase = s.resetPhase := rfl
@[simp] theorem zeroMem_remaps (a n : Nat) : (s.zeroMem a n).remaps = s.remaps := rfl
@[simp] theorem zeroMem_switched (a n : Nat) : (s.zeroMem a n).switched = s.switched := rfl
@[simp] theorem zeroMem_repairing (a n : Nat) : (s.zeroMem a n).repairing = s.repairing := rfl
@[simp] theorem zeroMem_spdm (a n : Nat) : (s.zeroMem a n).spdm = s.spdm := rfl
@[simp] theorem zeroMem_sensorsOff (a n : Nat) : (s.zeroMem a n).sensorsOff = s.sensorsOff := rfl
@[simp] theorem zeroMem_flashA (a n : Nat) : (s.zeroMem a n).flashA = s.flashA := rfl
@[simp] theorem zeroMem_flashB (a n : Nat) : (s.zeroMem a n).flashB = s.flashB := rfl
@[simp] theorem zeroMem_fwKey (a n : Nat) : (s.zeroMem a n).fwKey = s.fwKey := rfl
@[simp] theorem zeroMem_d2dFails (a n : Nat) : (s.zeroMem a n).d2dFails = s.d2dFails := rfl
@[simp] theorem zeroMem_disc (a n : Nat) : (s.zeroMem a n).disc = s.disc := rfl
@[simp] theorem zeroMem_power (a n : Nat) : (s.zeroMem a n).power = s.power := rfl
@[simp] theorem zeroMem_hold (a n : Nat) : (s.zeroMem a n).hold = s.hold := rfl
@[simp] theorem zeroMem_tripped (a n : Nat) : (s.zeroMem a n).tripped = s.tripped := rfl
@[simp] theorem zeroMem_cold (a n : Nat) : (s.zeroMem a n).cold = s.cold := rfl
@[simp] theorem zeroMem_resetLow (a n : Nat) : (s.zeroMem a n).resetLow = s.resetLow := rfl
@[simp] theorem zeroMem_bistTiles (a n : Nat) : (s.zeroMem a n).bistTiles = s.bistTiles := rfl
@[simp] theorem zeroMem_tapIr (a n : Nat) : (s.zeroMem a n).tapIr = s.tapIr := rfl
@[simp] theorem zeroMem_bridge (a n : Nat) : (s.zeroMem a n).bridge = s.bridge := rfl
@[simp] theorem zeroMem_smbus (a n : Nat) : (s.zeroMem a n).smbus = s.smbus := rfl
@[simp] theorem zeroMem_freeCtr (a n : Nat) : (s.zeroMem a n).freeCtr = s.freeCtr := rfl
@[simp] theorem zeroMem_seen (a n : Nat) : (s.zeroMem a n).seen = s.seen := rfl
@[simp] theorem zeroMem_datum (a n : Nat) : (s.zeroMem a n).datum = s.datum := rfl
@[simp] theorem zeroMem_modeSent (a n : Nat) : (s.zeroMem a n).modeSent = s.modeSent := rfl
@[simp] theorem zeroMem_cycles (a n : Nat) : (s.zeroMem a n).cycles = s.cycles := rfl
@[simp] theorem zeroMem_inSegs (a n : Nat) : (s.zeroMem a n).inSegs = s.inSegs := rfl
@[simp] theorem zeroMem_collPast (a n : Nat) : (s.zeroMem a n).collPast = s.collPast := rfl
@[simp] theorem zeroMem_cadOld (a n : Nat) : (s.zeroMem a n).cadOld = s.cadOld := rfl
@[simp] theorem zeroMem_commitAt (a n : Nat) : (s.zeroMem a n).commitAt = s.commitAt := rfl
@[simp] theorem zeroMem_selfRefresh (a n : Nat) : (s.zeroMem a n).selfRefresh = s.selfRefresh := rfl
@[simp] theorem zeroMem_rngArr (a n : Nat) : (s.zeroMem a n).rngArr = s.rngArr := rfl
@[simp] theorem zeroMem_pcieLanes (a n : Nat) : (s.zeroMem a n).pcieLanes = s.pcieLanes := rfl
@[simp] theorem zeroMem_pcieRate (a n : Nat) : (s.zeroMem a n).pcieRate = s.pcieRate := rfl
@[simp] theorem zeroMem_flrWaits (a n : Nat) : (s.zeroMem a n).flrWaits = s.flrWaits := rfl
@[simp] theorem zeroMem_abortSeen (a n : Nat) : (s.zeroMem a n).abortSeen = s.abortSeen := rfl
@[simp] theorem zeroMem_h0Failed (a n : Nat) : (s.zeroMem a n).h0Failed = s.h0Failed := rfl

/-! ## setTile changes only tiles -/

@[simp] theorem setTile_pending (n : Nat) (t : Tile) : (s.setTile n t).pending = s.pending := rfl
@[simp] theorem setTile_out (n : Nat) (t : Tile) : (s.setTile n t).out = s.out := rfl
@[simp] theorem setTile_mem (n : Nat) (t : Tile) : (s.setTile n t).mem = s.mem := rfl
@[simp] theorem setTile_csr (n : Nat) (t : Tile) : (s.setTile n t).csr = s.csr := rfl
@[simp] theorem setTile_locked (n : Nat) (t : Tile) : (s.setTile n t).locked = s.locked := rfl
@[simp] theorem setTile_count (n : Nat) (t : Tile) : (s.setTile n t).count = s.count := rfl
@[simp] theorem setTile_otp (n : Nat) (t : Tile) : (s.setTile n t).otp = s.otp := rfl
@[simp] theorem setTile_rings (n : Nat) (t : Tile) : (s.setTile n t).rings = s.rings := rfl
@[simp] theorem setTile_loading (n : Nat) (t : Tile) : (s.setTile n t).loading = s.loading := rfl
@[simp] theorem setTile_lastRing (n : Nat) (t : Tile) : (s.setTile n t).lastRing = s.lastRing := rfl
@[simp] theorem setTile_fetched (n : Nat) (t : Tile) : (s.setTile n t).fetched = s.fetched := rfl
@[simp] theorem setTile_segs (n : Nat) (t : Tile) : (s.setTile n t).segs = s.segs := rfl
@[simp] theorem setTile_heldSegs (n : Nat) (t : Tile) : (s.setTile n t).heldSegs = s.heldSegs := rfl
@[simp] theorem setTile_hostReads (n : Nat) (t : Tile) : (s.setTile n t).hostReads = s.hostReads := rfl
@[simp] theorem setTile_staged (n : Nat) (t : Tile) : (s.setTile n t).staged = s.staged := rfl
@[simp] theorem setTile_fenced (n : Nat) (t : Tile) : (s.setTile n t).fenced = s.fenced := rfl
@[simp] theorem setTile_nextXid (n : Nat) (t : Tile) : (s.setTile n t).nextXid = s.nextXid := rfl
@[simp] theorem setTile_admitted (n : Nat) (t : Tile) : (s.setTile n t).admitted = s.admitted := rfl
@[simp] theorem setTile_readyReq (n : Nat) (t : Tile) : (s.setTile n t).readyReq = s.readyReq := rfl
@[simp] theorem setTile_contribs (n : Nat) (t : Tile) : (s.setTile n t).contribs = s.contribs := rfl
@[simp] theorem setTile_carried (n : Nat) (t : Tile) : (s.setTile n t).carried = s.carried := rfl
@[simp] theorem setTile_insts (n : Nat) (t : Tile) : (s.setTile n t).insts = s.insts := rfl
@[simp] theorem setTile_collSeq (n : Nat) (t : Tile) : (s.setTile n t).collSeq = s.collSeq := rfl
@[simp] theorem setTile_splitTick (n : Nat) (t : Tile) : (s.setTile n t).splitTick = s.splitTick := rfl
@[simp] theorem setTile_peerAborted (n : Nat) (t : Tile) : (s.setTile n t).peerAborted = s.peerAborted := rfl
@[simp] theorem setTile_seqs (n : Nat) (t : Tile) : (s.setTile n t).seqs = s.seqs := rfl
@[simp] theorem setTile_substs (n : Nat) (t : Tile) : (s.setTile n t).substs = s.substs := rfl
@[simp] theorem setTile_gazTick (n : Nat) (t : Tile) : (s.setTile n t).gazTick = s.gazTick := rfl
@[simp] theorem setTile_expiredTick (n : Nat) (t : Tile) : (s.setTile n t).expiredTick = s.expiredTick := rfl
@[simp] theorem setTile_ports (n : Nat) (t : Tile) : (s.setTile n t).ports = s.ports := rfl
@[simp] theorem setTile_held (n : Nat) (t : Tile) : (s.setTile n t).held = s.held := rfl
@[simp] theorem setTile_lostMark (n : Nat) (t : Tile) : (s.setTile n t).lostMark = s.lostMark := rfl
@[simp] theorem setTile_overflowed (n : Nat) (t : Tile) : (s.setTile n t).overflowed = s.overflowed := rfl
@[simp] theorem setTile_nextXfer (n : Nat) (t : Tile) : (s.setTile n t).nextXfer = s.nextXfer := rfl
@[simp] theorem setTile_denyTick (n : Nat) (t : Tile) : (s.setTile n t).denyTick = s.denyTick := rfl
@[simp] theorem setTile_registry (n : Nat) (t : Tile) : (s.setTile n t).registry = s.registry := rfl
@[simp] theorem setTile_rngQueue (n : Nat) (t : Tile) : (s.setTile n t).rngQueue = s.rngQueue := rfl
@[simp] theorem setTile_seqAborting (n : Nat) (t : Tile) : (s.setTile n t).seqAborting = s.seqAborting := rfl
@[simp] theorem setTile_abortGroups (n : Nat) (t : Tile) : (s.setTile n t).abortGroups = s.abortGroups := rfl
@[simp] theorem setTile_stage (n : Nat) (t : Tile) : (s.setTile n t).stage = s.stage := rfl
@[simp] theorem setTile_badWindows (n : Nat) (t : Tile) : (s.setTile n t).badWindows = s.badWindows := rfl
@[simp] theorem setTile_refUnqual (n : Nat) (t : Tile) : (s.setTile n t).refUnqual = s.refUnqual := rfl
@[simp] theorem setTile_pcieUp (n : Nat) (t : Tile) : (s.setTile n t).pcieUp = s.pcieUp := rfl
@[simp] theorem setTile_pcieCfg (n : Nat) (t : Tile) : (s.setTile n t).pcieCfg = s.pcieCfg := rfl
@[simp] theorem setTile_vfEnable (n : Nat) (t : Tile) : (s.setTile n t).vfEnable = s.vfEnable := rfl
@[simp] theorem setTile_resetPhase (n : Nat) (t : Tile) : (s.setTile n t).resetPhase = s.resetPhase := rfl
@[simp] theorem setTile_remaps (n : Nat) (t : Tile) : (s.setTile n t).remaps = s.remaps := rfl
@[simp] theorem setTile_switched (n : Nat) (t : Tile) : (s.setTile n t).switched = s.switched := rfl
@[simp] theorem setTile_repairing (n : Nat) (t : Tile) : (s.setTile n t).repairing = s.repairing := rfl
@[simp] theorem setTile_spdm (n : Nat) (t : Tile) : (s.setTile n t).spdm = s.spdm := rfl
@[simp] theorem setTile_sensorsOff (n : Nat) (t : Tile) : (s.setTile n t).sensorsOff = s.sensorsOff := rfl
@[simp] theorem setTile_flashA (n : Nat) (t : Tile) : (s.setTile n t).flashA = s.flashA := rfl
@[simp] theorem setTile_flashB (n : Nat) (t : Tile) : (s.setTile n t).flashB = s.flashB := rfl
@[simp] theorem setTile_fwKey (n : Nat) (t : Tile) : (s.setTile n t).fwKey = s.fwKey := rfl
@[simp] theorem setTile_d2dFails (n : Nat) (t : Tile) : (s.setTile n t).d2dFails = s.d2dFails := rfl
@[simp] theorem setTile_disc (n : Nat) (t : Tile) : (s.setTile n t).disc = s.disc := rfl
@[simp] theorem setTile_power (n : Nat) (t : Tile) : (s.setTile n t).power = s.power := rfl
@[simp] theorem setTile_hold (n : Nat) (t : Tile) : (s.setTile n t).hold = s.hold := rfl
@[simp] theorem setTile_tripped (n : Nat) (t : Tile) : (s.setTile n t).tripped = s.tripped := rfl
@[simp] theorem setTile_cold (n : Nat) (t : Tile) : (s.setTile n t).cold = s.cold := rfl
@[simp] theorem setTile_resetLow (n : Nat) (t : Tile) : (s.setTile n t).resetLow = s.resetLow := rfl
@[simp] theorem setTile_bistTiles (n : Nat) (t : Tile) : (s.setTile n t).bistTiles = s.bistTiles := rfl
@[simp] theorem setTile_tapIr (n : Nat) (t : Tile) : (s.setTile n t).tapIr = s.tapIr := rfl
@[simp] theorem setTile_bridge (n : Nat) (t : Tile) : (s.setTile n t).bridge = s.bridge := rfl
@[simp] theorem setTile_smbus (n : Nat) (t : Tile) : (s.setTile n t).smbus = s.smbus := rfl
@[simp] theorem setTile_freeCtr (n : Nat) (t : Tile) : (s.setTile n t).freeCtr = s.freeCtr := rfl
@[simp] theorem setTile_seen (n : Nat) (t : Tile) : (s.setTile n t).seen = s.seen := rfl
@[simp] theorem setTile_datum (n : Nat) (t : Tile) : (s.setTile n t).datum = s.datum := rfl
@[simp] theorem setTile_modeSent (n : Nat) (t : Tile) : (s.setTile n t).modeSent = s.modeSent := rfl
@[simp] theorem setTile_cycles (n : Nat) (t : Tile) : (s.setTile n t).cycles = s.cycles := rfl
@[simp] theorem setTile_inSegs (n : Nat) (t : Tile) : (s.setTile n t).inSegs = s.inSegs := rfl
@[simp] theorem setTile_collPast (n : Nat) (t : Tile) : (s.setTile n t).collPast = s.collPast := rfl
@[simp] theorem setTile_cadOld (n : Nat) (t : Tile) : (s.setTile n t).cadOld = s.cadOld := rfl
@[simp] theorem setTile_commitAt (n : Nat) (t : Tile) : (s.setTile n t).commitAt = s.commitAt := rfl
@[simp] theorem setTile_selfRefresh (n : Nat) (t : Tile) : (s.setTile n t).selfRefresh = s.selfRefresh := rfl
@[simp] theorem setTile_ueWords (n : Nat) (t : Tile) : (s.setTile n t).ueWords = s.ueWords := rfl
@[simp] theorem setTile_rngArr (n : Nat) (t : Tile) : (s.setTile n t).rngArr = s.rngArr := rfl
@[simp] theorem setTile_pcieLanes (n : Nat) (t : Tile) : (s.setTile n t).pcieLanes = s.pcieLanes := rfl
@[simp] theorem setTile_pcieRate (n : Nat) (t : Tile) : (s.setTile n t).pcieRate = s.pcieRate := rfl
@[simp] theorem setTile_flrWaits (n : Nat) (t : Tile) : (s.setTile n t).flrWaits = s.flrWaits := rfl
@[simp] theorem setTile_abortSeen (n : Nat) (t : Tile) : (s.setTile n t).abortSeen = s.abortSeen := rfl
@[simp] theorem setTile_h0Failed (n : Nat) (t : Tile) : (s.setTile n t).h0Failed = s.h0Failed := rfl

/-! ## updTile changes only tiles -/

@[simp] theorem updTile_pending (n : Nat) (f : Tile → Tile) : (s.updTile n f).pending = s.pending := rfl
@[simp] theorem updTile_out (n : Nat) (f : Tile → Tile) : (s.updTile n f).out = s.out := rfl
@[simp] theorem updTile_mem (n : Nat) (f : Tile → Tile) : (s.updTile n f).mem = s.mem := rfl
@[simp] theorem updTile_csr (n : Nat) (f : Tile → Tile) : (s.updTile n f).csr = s.csr := rfl
@[simp] theorem updTile_locked (n : Nat) (f : Tile → Tile) : (s.updTile n f).locked = s.locked := rfl
@[simp] theorem updTile_count (n : Nat) (f : Tile → Tile) : (s.updTile n f).count = s.count := rfl
@[simp] theorem updTile_otp (n : Nat) (f : Tile → Tile) : (s.updTile n f).otp = s.otp := rfl
@[simp] theorem updTile_rings (n : Nat) (f : Tile → Tile) : (s.updTile n f).rings = s.rings := rfl
@[simp] theorem updTile_loading (n : Nat) (f : Tile → Tile) : (s.updTile n f).loading = s.loading := rfl
@[simp] theorem updTile_lastRing (n : Nat) (f : Tile → Tile) : (s.updTile n f).lastRing = s.lastRing := rfl
@[simp] theorem updTile_fetched (n : Nat) (f : Tile → Tile) : (s.updTile n f).fetched = s.fetched := rfl
@[simp] theorem updTile_segs (n : Nat) (f : Tile → Tile) : (s.updTile n f).segs = s.segs := rfl
@[simp] theorem updTile_heldSegs (n : Nat) (f : Tile → Tile) : (s.updTile n f).heldSegs = s.heldSegs := rfl
@[simp] theorem updTile_hostReads (n : Nat) (f : Tile → Tile) : (s.updTile n f).hostReads = s.hostReads := rfl
@[simp] theorem updTile_staged (n : Nat) (f : Tile → Tile) : (s.updTile n f).staged = s.staged := rfl
@[simp] theorem updTile_fenced (n : Nat) (f : Tile → Tile) : (s.updTile n f).fenced = s.fenced := rfl
@[simp] theorem updTile_nextXid (n : Nat) (f : Tile → Tile) : (s.updTile n f).nextXid = s.nextXid := rfl
@[simp] theorem updTile_admitted (n : Nat) (f : Tile → Tile) : (s.updTile n f).admitted = s.admitted := rfl
@[simp] theorem updTile_readyReq (n : Nat) (f : Tile → Tile) : (s.updTile n f).readyReq = s.readyReq := rfl
@[simp] theorem updTile_contribs (n : Nat) (f : Tile → Tile) : (s.updTile n f).contribs = s.contribs := rfl
@[simp] theorem updTile_carried (n : Nat) (f : Tile → Tile) : (s.updTile n f).carried = s.carried := rfl
@[simp] theorem updTile_insts (n : Nat) (f : Tile → Tile) : (s.updTile n f).insts = s.insts := rfl
@[simp] theorem updTile_collSeq (n : Nat) (f : Tile → Tile) : (s.updTile n f).collSeq = s.collSeq := rfl
@[simp] theorem updTile_splitTick (n : Nat) (f : Tile → Tile) : (s.updTile n f).splitTick = s.splitTick := rfl
@[simp] theorem updTile_peerAborted (n : Nat) (f : Tile → Tile) : (s.updTile n f).peerAborted = s.peerAborted := rfl
@[simp] theorem updTile_seqs (n : Nat) (f : Tile → Tile) : (s.updTile n f).seqs = s.seqs := rfl
@[simp] theorem updTile_substs (n : Nat) (f : Tile → Tile) : (s.updTile n f).substs = s.substs := rfl
@[simp] theorem updTile_gazTick (n : Nat) (f : Tile → Tile) : (s.updTile n f).gazTick = s.gazTick := rfl
@[simp] theorem updTile_expiredTick (n : Nat) (f : Tile → Tile) : (s.updTile n f).expiredTick = s.expiredTick := rfl
@[simp] theorem updTile_ports (n : Nat) (f : Tile → Tile) : (s.updTile n f).ports = s.ports := rfl
@[simp] theorem updTile_held (n : Nat) (f : Tile → Tile) : (s.updTile n f).held = s.held := rfl
@[simp] theorem updTile_lostMark (n : Nat) (f : Tile → Tile) : (s.updTile n f).lostMark = s.lostMark := rfl
@[simp] theorem updTile_overflowed (n : Nat) (f : Tile → Tile) : (s.updTile n f).overflowed = s.overflowed := rfl
@[simp] theorem updTile_nextXfer (n : Nat) (f : Tile → Tile) : (s.updTile n f).nextXfer = s.nextXfer := rfl
@[simp] theorem updTile_denyTick (n : Nat) (f : Tile → Tile) : (s.updTile n f).denyTick = s.denyTick := rfl
@[simp] theorem updTile_registry (n : Nat) (f : Tile → Tile) : (s.updTile n f).registry = s.registry := rfl
@[simp] theorem updTile_rngQueue (n : Nat) (f : Tile → Tile) : (s.updTile n f).rngQueue = s.rngQueue := rfl
@[simp] theorem updTile_seqAborting (n : Nat) (f : Tile → Tile) : (s.updTile n f).seqAborting = s.seqAborting := rfl
@[simp] theorem updTile_abortGroups (n : Nat) (f : Tile → Tile) : (s.updTile n f).abortGroups = s.abortGroups := rfl
@[simp] theorem updTile_stage (n : Nat) (f : Tile → Tile) : (s.updTile n f).stage = s.stage := rfl
@[simp] theorem updTile_badWindows (n : Nat) (f : Tile → Tile) : (s.updTile n f).badWindows = s.badWindows := rfl
@[simp] theorem updTile_refUnqual (n : Nat) (f : Tile → Tile) : (s.updTile n f).refUnqual = s.refUnqual := rfl
@[simp] theorem updTile_pcieUp (n : Nat) (f : Tile → Tile) : (s.updTile n f).pcieUp = s.pcieUp := rfl
@[simp] theorem updTile_pcieCfg (n : Nat) (f : Tile → Tile) : (s.updTile n f).pcieCfg = s.pcieCfg := rfl
@[simp] theorem updTile_vfEnable (n : Nat) (f : Tile → Tile) : (s.updTile n f).vfEnable = s.vfEnable := rfl
@[simp] theorem updTile_resetPhase (n : Nat) (f : Tile → Tile) : (s.updTile n f).resetPhase = s.resetPhase := rfl
@[simp] theorem updTile_remaps (n : Nat) (f : Tile → Tile) : (s.updTile n f).remaps = s.remaps := rfl
@[simp] theorem updTile_switched (n : Nat) (f : Tile → Tile) : (s.updTile n f).switched = s.switched := rfl
@[simp] theorem updTile_repairing (n : Nat) (f : Tile → Tile) : (s.updTile n f).repairing = s.repairing := rfl
@[simp] theorem updTile_spdm (n : Nat) (f : Tile → Tile) : (s.updTile n f).spdm = s.spdm := rfl
@[simp] theorem updTile_sensorsOff (n : Nat) (f : Tile → Tile) : (s.updTile n f).sensorsOff = s.sensorsOff := rfl
@[simp] theorem updTile_flashA (n : Nat) (f : Tile → Tile) : (s.updTile n f).flashA = s.flashA := rfl
@[simp] theorem updTile_flashB (n : Nat) (f : Tile → Tile) : (s.updTile n f).flashB = s.flashB := rfl
@[simp] theorem updTile_fwKey (n : Nat) (f : Tile → Tile) : (s.updTile n f).fwKey = s.fwKey := rfl
@[simp] theorem updTile_d2dFails (n : Nat) (f : Tile → Tile) : (s.updTile n f).d2dFails = s.d2dFails := rfl
@[simp] theorem updTile_disc (n : Nat) (f : Tile → Tile) : (s.updTile n f).disc = s.disc := rfl
@[simp] theorem updTile_power (n : Nat) (f : Tile → Tile) : (s.updTile n f).power = s.power := rfl
@[simp] theorem updTile_hold (n : Nat) (f : Tile → Tile) : (s.updTile n f).hold = s.hold := rfl
@[simp] theorem updTile_tripped (n : Nat) (f : Tile → Tile) : (s.updTile n f).tripped = s.tripped := rfl
@[simp] theorem updTile_cold (n : Nat) (f : Tile → Tile) : (s.updTile n f).cold = s.cold := rfl
@[simp] theorem updTile_resetLow (n : Nat) (f : Tile → Tile) : (s.updTile n f).resetLow = s.resetLow := rfl
@[simp] theorem updTile_bistTiles (n : Nat) (f : Tile → Tile) : (s.updTile n f).bistTiles = s.bistTiles := rfl
@[simp] theorem updTile_tapIr (n : Nat) (f : Tile → Tile) : (s.updTile n f).tapIr = s.tapIr := rfl
@[simp] theorem updTile_bridge (n : Nat) (f : Tile → Tile) : (s.updTile n f).bridge = s.bridge := rfl
@[simp] theorem updTile_smbus (n : Nat) (f : Tile → Tile) : (s.updTile n f).smbus = s.smbus := rfl
@[simp] theorem updTile_freeCtr (n : Nat) (f : Tile → Tile) : (s.updTile n f).freeCtr = s.freeCtr := rfl
@[simp] theorem updTile_seen (n : Nat) (f : Tile → Tile) : (s.updTile n f).seen = s.seen := rfl
@[simp] theorem updTile_datum (n : Nat) (f : Tile → Tile) : (s.updTile n f).datum = s.datum := rfl
@[simp] theorem updTile_modeSent (n : Nat) (f : Tile → Tile) : (s.updTile n f).modeSent = s.modeSent := rfl
@[simp] theorem updTile_cycles (n : Nat) (f : Tile → Tile) : (s.updTile n f).cycles = s.cycles := rfl
@[simp] theorem updTile_inSegs (n : Nat) (f : Tile → Tile) : (s.updTile n f).inSegs = s.inSegs := rfl
@[simp] theorem updTile_collPast (n : Nat) (f : Tile → Tile) : (s.updTile n f).collPast = s.collPast := rfl
@[simp] theorem updTile_cadOld (n : Nat) (f : Tile → Tile) : (s.updTile n f).cadOld = s.cadOld := rfl
@[simp] theorem updTile_commitAt (n : Nat) (f : Tile → Tile) : (s.updTile n f).commitAt = s.commitAt := rfl
@[simp] theorem updTile_selfRefresh (n : Nat) (f : Tile → Tile) : (s.updTile n f).selfRefresh = s.selfRefresh := rfl
@[simp] theorem updTile_ueWords (n : Nat) (f : Tile → Tile) : (s.updTile n f).ueWords = s.ueWords := rfl
@[simp] theorem updTile_rngArr (n : Nat) (f : Tile → Tile) : (s.updTile n f).rngArr = s.rngArr := rfl
@[simp] theorem updTile_pcieLanes (n : Nat) (f : Tile → Tile) : (s.updTile n f).pcieLanes = s.pcieLanes := rfl
@[simp] theorem updTile_pcieRate (n : Nat) (f : Tile → Tile) : (s.updTile n f).pcieRate = s.pcieRate := rfl
@[simp] theorem updTile_flrWaits (n : Nat) (f : Tile → Tile) : (s.updTile n f).flrWaits = s.flrWaits := rfl
@[simp] theorem updTile_abortSeen (n : Nat) (f : Tile → Tile) : (s.updTile n f).abortSeen = s.abortSeen := rfl
@[simp] theorem updTile_h0Failed (n : Nat) (f : Tile → Tile) : (s.updTile n f).h0Failed = s.h0Failed := rfl

/-! ## takeFree changes only freeCtr -/

@[simp] theorem takeFree_pending (n : Nat) : (s.takeFree n).pending = s.pending := rfl
@[simp] theorem takeFree_out (n : Nat) : (s.takeFree n).out = s.out := rfl
@[simp] theorem takeFree_mem (n : Nat) : (s.takeFree n).mem = s.mem := rfl
@[simp] theorem takeFree_csr (n : Nat) : (s.takeFree n).csr = s.csr := rfl
@[simp] theorem takeFree_locked (n : Nat) : (s.takeFree n).locked = s.locked := rfl
@[simp] theorem takeFree_count (n : Nat) : (s.takeFree n).count = s.count := rfl
@[simp] theorem takeFree_otp (n : Nat) : (s.takeFree n).otp = s.otp := rfl
@[simp] theorem takeFree_tiles (n : Nat) : (s.takeFree n).tiles = s.tiles := rfl
@[simp] theorem takeFree_rings (n : Nat) : (s.takeFree n).rings = s.rings := rfl
@[simp] theorem takeFree_loading (n : Nat) : (s.takeFree n).loading = s.loading := rfl
@[simp] theorem takeFree_lastRing (n : Nat) : (s.takeFree n).lastRing = s.lastRing := rfl
@[simp] theorem takeFree_fetched (n : Nat) : (s.takeFree n).fetched = s.fetched := rfl
@[simp] theorem takeFree_segs (n : Nat) : (s.takeFree n).segs = s.segs := rfl
@[simp] theorem takeFree_heldSegs (n : Nat) : (s.takeFree n).heldSegs = s.heldSegs := rfl
@[simp] theorem takeFree_hostReads (n : Nat) : (s.takeFree n).hostReads = s.hostReads := rfl
@[simp] theorem takeFree_staged (n : Nat) : (s.takeFree n).staged = s.staged := rfl
@[simp] theorem takeFree_fenced (n : Nat) : (s.takeFree n).fenced = s.fenced := rfl
@[simp] theorem takeFree_nextXid (n : Nat) : (s.takeFree n).nextXid = s.nextXid := rfl
@[simp] theorem takeFree_admitted (n : Nat) : (s.takeFree n).admitted = s.admitted := rfl
@[simp] theorem takeFree_readyReq (n : Nat) : (s.takeFree n).readyReq = s.readyReq := rfl
@[simp] theorem takeFree_contribs (n : Nat) : (s.takeFree n).contribs = s.contribs := rfl
@[simp] theorem takeFree_carried (n : Nat) : (s.takeFree n).carried = s.carried := rfl
@[simp] theorem takeFree_insts (n : Nat) : (s.takeFree n).insts = s.insts := rfl
@[simp] theorem takeFree_collSeq (n : Nat) : (s.takeFree n).collSeq = s.collSeq := rfl
@[simp] theorem takeFree_splitTick (n : Nat) : (s.takeFree n).splitTick = s.splitTick := rfl
@[simp] theorem takeFree_peerAborted (n : Nat) : (s.takeFree n).peerAborted = s.peerAborted := rfl
@[simp] theorem takeFree_seqs (n : Nat) : (s.takeFree n).seqs = s.seqs := rfl
@[simp] theorem takeFree_substs (n : Nat) : (s.takeFree n).substs = s.substs := rfl
@[simp] theorem takeFree_gazTick (n : Nat) : (s.takeFree n).gazTick = s.gazTick := rfl
@[simp] theorem takeFree_expiredTick (n : Nat) : (s.takeFree n).expiredTick = s.expiredTick := rfl
@[simp] theorem takeFree_ports (n : Nat) : (s.takeFree n).ports = s.ports := rfl
@[simp] theorem takeFree_held (n : Nat) : (s.takeFree n).held = s.held := rfl
@[simp] theorem takeFree_lostMark (n : Nat) : (s.takeFree n).lostMark = s.lostMark := rfl
@[simp] theorem takeFree_overflowed (n : Nat) : (s.takeFree n).overflowed = s.overflowed := rfl
@[simp] theorem takeFree_nextXfer (n : Nat) : (s.takeFree n).nextXfer = s.nextXfer := rfl
@[simp] theorem takeFree_denyTick (n : Nat) : (s.takeFree n).denyTick = s.denyTick := rfl
@[simp] theorem takeFree_registry (n : Nat) : (s.takeFree n).registry = s.registry := rfl
@[simp] theorem takeFree_rngQueue (n : Nat) : (s.takeFree n).rngQueue = s.rngQueue := rfl
@[simp] theorem takeFree_seqAborting (n : Nat) : (s.takeFree n).seqAborting = s.seqAborting := rfl
@[simp] theorem takeFree_abortGroups (n : Nat) : (s.takeFree n).abortGroups = s.abortGroups := rfl
@[simp] theorem takeFree_stage (n : Nat) : (s.takeFree n).stage = s.stage := rfl
@[simp] theorem takeFree_badWindows (n : Nat) : (s.takeFree n).badWindows = s.badWindows := rfl
@[simp] theorem takeFree_refUnqual (n : Nat) : (s.takeFree n).refUnqual = s.refUnqual := rfl
@[simp] theorem takeFree_pcieUp (n : Nat) : (s.takeFree n).pcieUp = s.pcieUp := rfl
@[simp] theorem takeFree_pcieCfg (n : Nat) : (s.takeFree n).pcieCfg = s.pcieCfg := rfl
@[simp] theorem takeFree_vfEnable (n : Nat) : (s.takeFree n).vfEnable = s.vfEnable := rfl
@[simp] theorem takeFree_resetPhase (n : Nat) : (s.takeFree n).resetPhase = s.resetPhase := rfl
@[simp] theorem takeFree_remaps (n : Nat) : (s.takeFree n).remaps = s.remaps := rfl
@[simp] theorem takeFree_switched (n : Nat) : (s.takeFree n).switched = s.switched := rfl
@[simp] theorem takeFree_repairing (n : Nat) : (s.takeFree n).repairing = s.repairing := rfl
@[simp] theorem takeFree_spdm (n : Nat) : (s.takeFree n).spdm = s.spdm := rfl
@[simp] theorem takeFree_sensorsOff (n : Nat) : (s.takeFree n).sensorsOff = s.sensorsOff := rfl
@[simp] theorem takeFree_flashA (n : Nat) : (s.takeFree n).flashA = s.flashA := rfl
@[simp] theorem takeFree_flashB (n : Nat) : (s.takeFree n).flashB = s.flashB := rfl
@[simp] theorem takeFree_fwKey (n : Nat) : (s.takeFree n).fwKey = s.fwKey := rfl
@[simp] theorem takeFree_d2dFails (n : Nat) : (s.takeFree n).d2dFails = s.d2dFails := rfl
@[simp] theorem takeFree_disc (n : Nat) : (s.takeFree n).disc = s.disc := rfl
@[simp] theorem takeFree_power (n : Nat) : (s.takeFree n).power = s.power := rfl
@[simp] theorem takeFree_hold (n : Nat) : (s.takeFree n).hold = s.hold := rfl
@[simp] theorem takeFree_tripped (n : Nat) : (s.takeFree n).tripped = s.tripped := rfl
@[simp] theorem takeFree_cold (n : Nat) : (s.takeFree n).cold = s.cold := rfl
@[simp] theorem takeFree_resetLow (n : Nat) : (s.takeFree n).resetLow = s.resetLow := rfl
@[simp] theorem takeFree_bistTiles (n : Nat) : (s.takeFree n).bistTiles = s.bistTiles := rfl
@[simp] theorem takeFree_tapIr (n : Nat) : (s.takeFree n).tapIr = s.tapIr := rfl
@[simp] theorem takeFree_bridge (n : Nat) : (s.takeFree n).bridge = s.bridge := rfl
@[simp] theorem takeFree_smbus (n : Nat) : (s.takeFree n).smbus = s.smbus := rfl
@[simp] theorem takeFree_seen (n : Nat) : (s.takeFree n).seen = s.seen := rfl
@[simp] theorem takeFree_datum (n : Nat) : (s.takeFree n).datum = s.datum := rfl
@[simp] theorem takeFree_modeSent (n : Nat) : (s.takeFree n).modeSent = s.modeSent := rfl
@[simp] theorem takeFree_cycles (n : Nat) : (s.takeFree n).cycles = s.cycles := rfl
@[simp] theorem takeFree_inSegs (n : Nat) : (s.takeFree n).inSegs = s.inSegs := rfl
@[simp] theorem takeFree_collPast (n : Nat) : (s.takeFree n).collPast = s.collPast := rfl
@[simp] theorem takeFree_cadOld (n : Nat) : (s.takeFree n).cadOld = s.cadOld := rfl
@[simp] theorem takeFree_commitAt (n : Nat) : (s.takeFree n).commitAt = s.commitAt := rfl
@[simp] theorem takeFree_selfRefresh (n : Nat) : (s.takeFree n).selfRefresh = s.selfRefresh := rfl
@[simp] theorem takeFree_ueWords (n : Nat) : (s.takeFree n).ueWords = s.ueWords := rfl
@[simp] theorem takeFree_rngArr (n : Nat) : (s.takeFree n).rngArr = s.rngArr := rfl
@[simp] theorem takeFree_pcieLanes (n : Nat) : (s.takeFree n).pcieLanes = s.pcieLanes := rfl
@[simp] theorem takeFree_pcieRate (n : Nat) : (s.takeFree n).pcieRate = s.pcieRate := rfl
@[simp] theorem takeFree_flrWaits (n : Nat) : (s.takeFree n).flrWaits = s.flrWaits := rfl
@[simp] theorem takeFree_abortSeen (n : Nat) : (s.takeFree n).abortSeen = s.abortSeen := rfl
@[simp] theorem takeFree_h0Failed (n : Nat) : (s.takeFree n).h0Failed = s.h0Failed := rfl

/-! ## writeS changes only tiles -/

@[simp] theorem writeS_pending (n : Nat) (w v : W64) : (s.writeS n w v).pending = s.pending := rfl
@[simp] theorem writeS_out (n : Nat) (w v : W64) : (s.writeS n w v).out = s.out := rfl
@[simp] theorem writeS_mem (n : Nat) (w v : W64) : (s.writeS n w v).mem = s.mem := rfl
@[simp] theorem writeS_csr (n : Nat) (w v : W64) : (s.writeS n w v).csr = s.csr := rfl
@[simp] theorem writeS_locked (n : Nat) (w v : W64) : (s.writeS n w v).locked = s.locked := rfl
@[simp] theorem writeS_count (n : Nat) (w v : W64) : (s.writeS n w v).count = s.count := rfl
@[simp] theorem writeS_otp (n : Nat) (w v : W64) : (s.writeS n w v).otp = s.otp := rfl
@[simp] theorem writeS_rings (n : Nat) (w v : W64) : (s.writeS n w v).rings = s.rings := rfl
@[simp] theorem writeS_loading (n : Nat) (w v : W64) : (s.writeS n w v).loading = s.loading := rfl
@[simp] theorem writeS_lastRing (n : Nat) (w v : W64) : (s.writeS n w v).lastRing = s.lastRing := rfl
@[simp] theorem writeS_fetched (n : Nat) (w v : W64) : (s.writeS n w v).fetched = s.fetched := rfl
@[simp] theorem writeS_segs (n : Nat) (w v : W64) : (s.writeS n w v).segs = s.segs := rfl
@[simp] theorem writeS_heldSegs (n : Nat) (w v : W64) : (s.writeS n w v).heldSegs = s.heldSegs := rfl
@[simp] theorem writeS_hostReads (n : Nat) (w v : W64) : (s.writeS n w v).hostReads = s.hostReads := rfl
@[simp] theorem writeS_staged (n : Nat) (w v : W64) : (s.writeS n w v).staged = s.staged := rfl
@[simp] theorem writeS_fenced (n : Nat) (w v : W64) : (s.writeS n w v).fenced = s.fenced := rfl
@[simp] theorem writeS_nextXid (n : Nat) (w v : W64) : (s.writeS n w v).nextXid = s.nextXid := rfl
@[simp] theorem writeS_admitted (n : Nat) (w v : W64) : (s.writeS n w v).admitted = s.admitted := rfl
@[simp] theorem writeS_readyReq (n : Nat) (w v : W64) : (s.writeS n w v).readyReq = s.readyReq := rfl
@[simp] theorem writeS_contribs (n : Nat) (w v : W64) : (s.writeS n w v).contribs = s.contribs := rfl
@[simp] theorem writeS_carried (n : Nat) (w v : W64) : (s.writeS n w v).carried = s.carried := rfl
@[simp] theorem writeS_insts (n : Nat) (w v : W64) : (s.writeS n w v).insts = s.insts := rfl
@[simp] theorem writeS_collSeq (n : Nat) (w v : W64) : (s.writeS n w v).collSeq = s.collSeq := rfl
@[simp] theorem writeS_splitTick (n : Nat) (w v : W64) : (s.writeS n w v).splitTick = s.splitTick := rfl
@[simp] theorem writeS_peerAborted (n : Nat) (w v : W64) : (s.writeS n w v).peerAborted = s.peerAborted := rfl
@[simp] theorem writeS_seqs (n : Nat) (w v : W64) : (s.writeS n w v).seqs = s.seqs := rfl
@[simp] theorem writeS_substs (n : Nat) (w v : W64) : (s.writeS n w v).substs = s.substs := rfl
@[simp] theorem writeS_gazTick (n : Nat) (w v : W64) : (s.writeS n w v).gazTick = s.gazTick := rfl
@[simp] theorem writeS_expiredTick (n : Nat) (w v : W64) : (s.writeS n w v).expiredTick = s.expiredTick := rfl
@[simp] theorem writeS_ports (n : Nat) (w v : W64) : (s.writeS n w v).ports = s.ports := rfl
@[simp] theorem writeS_held (n : Nat) (w v : W64) : (s.writeS n w v).held = s.held := rfl
@[simp] theorem writeS_lostMark (n : Nat) (w v : W64) : (s.writeS n w v).lostMark = s.lostMark := rfl
@[simp] theorem writeS_overflowed (n : Nat) (w v : W64) : (s.writeS n w v).overflowed = s.overflowed := rfl
@[simp] theorem writeS_nextXfer (n : Nat) (w v : W64) : (s.writeS n w v).nextXfer = s.nextXfer := rfl
@[simp] theorem writeS_denyTick (n : Nat) (w v : W64) : (s.writeS n w v).denyTick = s.denyTick := rfl
@[simp] theorem writeS_registry (n : Nat) (w v : W64) : (s.writeS n w v).registry = s.registry := rfl
@[simp] theorem writeS_rngQueue (n : Nat) (w v : W64) : (s.writeS n w v).rngQueue = s.rngQueue := rfl
@[simp] theorem writeS_seqAborting (n : Nat) (w v : W64) : (s.writeS n w v).seqAborting = s.seqAborting := rfl
@[simp] theorem writeS_abortGroups (n : Nat) (w v : W64) : (s.writeS n w v).abortGroups = s.abortGroups := rfl
@[simp] theorem writeS_stage (n : Nat) (w v : W64) : (s.writeS n w v).stage = s.stage := rfl
@[simp] theorem writeS_badWindows (n : Nat) (w v : W64) : (s.writeS n w v).badWindows = s.badWindows := rfl
@[simp] theorem writeS_refUnqual (n : Nat) (w v : W64) : (s.writeS n w v).refUnqual = s.refUnqual := rfl
@[simp] theorem writeS_pcieUp (n : Nat) (w v : W64) : (s.writeS n w v).pcieUp = s.pcieUp := rfl
@[simp] theorem writeS_pcieCfg (n : Nat) (w v : W64) : (s.writeS n w v).pcieCfg = s.pcieCfg := rfl
@[simp] theorem writeS_vfEnable (n : Nat) (w v : W64) : (s.writeS n w v).vfEnable = s.vfEnable := rfl
@[simp] theorem writeS_resetPhase (n : Nat) (w v : W64) : (s.writeS n w v).resetPhase = s.resetPhase := rfl
@[simp] theorem writeS_remaps (n : Nat) (w v : W64) : (s.writeS n w v).remaps = s.remaps := rfl
@[simp] theorem writeS_switched (n : Nat) (w v : W64) : (s.writeS n w v).switched = s.switched := rfl
@[simp] theorem writeS_repairing (n : Nat) (w v : W64) : (s.writeS n w v).repairing = s.repairing := rfl
@[simp] theorem writeS_spdm (n : Nat) (w v : W64) : (s.writeS n w v).spdm = s.spdm := rfl
@[simp] theorem writeS_sensorsOff (n : Nat) (w v : W64) : (s.writeS n w v).sensorsOff = s.sensorsOff := rfl
@[simp] theorem writeS_flashA (n : Nat) (w v : W64) : (s.writeS n w v).flashA = s.flashA := rfl
@[simp] theorem writeS_flashB (n : Nat) (w v : W64) : (s.writeS n w v).flashB = s.flashB := rfl
@[simp] theorem writeS_fwKey (n : Nat) (w v : W64) : (s.writeS n w v).fwKey = s.fwKey := rfl
@[simp] theorem writeS_d2dFails (n : Nat) (w v : W64) : (s.writeS n w v).d2dFails = s.d2dFails := rfl
@[simp] theorem writeS_disc (n : Nat) (w v : W64) : (s.writeS n w v).disc = s.disc := rfl
@[simp] theorem writeS_power (n : Nat) (w v : W64) : (s.writeS n w v).power = s.power := rfl
@[simp] theorem writeS_hold (n : Nat) (w v : W64) : (s.writeS n w v).hold = s.hold := rfl
@[simp] theorem writeS_tripped (n : Nat) (w v : W64) : (s.writeS n w v).tripped = s.tripped := rfl
@[simp] theorem writeS_cold (n : Nat) (w v : W64) : (s.writeS n w v).cold = s.cold := rfl
@[simp] theorem writeS_resetLow (n : Nat) (w v : W64) : (s.writeS n w v).resetLow = s.resetLow := rfl
@[simp] theorem writeS_bistTiles (n : Nat) (w v : W64) : (s.writeS n w v).bistTiles = s.bistTiles := rfl
@[simp] theorem writeS_tapIr (n : Nat) (w v : W64) : (s.writeS n w v).tapIr = s.tapIr := rfl
@[simp] theorem writeS_bridge (n : Nat) (w v : W64) : (s.writeS n w v).bridge = s.bridge := rfl
@[simp] theorem writeS_smbus (n : Nat) (w v : W64) : (s.writeS n w v).smbus = s.smbus := rfl
@[simp] theorem writeS_freeCtr (n : Nat) (w v : W64) : (s.writeS n w v).freeCtr = s.freeCtr := rfl
@[simp] theorem writeS_seen (n : Nat) (w v : W64) : (s.writeS n w v).seen = s.seen := rfl
@[simp] theorem writeS_datum (n : Nat) (w v : W64) : (s.writeS n w v).datum = s.datum := rfl
@[simp] theorem writeS_modeSent (n : Nat) (w v : W64) : (s.writeS n w v).modeSent = s.modeSent := rfl
@[simp] theorem writeS_cycles (n : Nat) (w v : W64) : (s.writeS n w v).cycles = s.cycles := rfl
@[simp] theorem writeS_inSegs (n : Nat) (w v : W64) : (s.writeS n w v).inSegs = s.inSegs := rfl
@[simp] theorem writeS_collPast (n : Nat) (w v : W64) : (s.writeS n w v).collPast = s.collPast := rfl
@[simp] theorem writeS_cadOld (n : Nat) (w v : W64) : (s.writeS n w v).cadOld = s.cadOld := rfl
@[simp] theorem writeS_commitAt (n : Nat) (w v : W64) : (s.writeS n w v).commitAt = s.commitAt := rfl
@[simp] theorem writeS_selfRefresh (n : Nat) (w v : W64) : (s.writeS n w v).selfRefresh = s.selfRefresh := rfl
@[simp] theorem writeS_ueWords (n : Nat) (w v : W64) : (s.writeS n w v).ueWords = s.ueWords := rfl
@[simp] theorem writeS_rngArr (n : Nat) (w v : W64) : (s.writeS n w v).rngArr = s.rngArr := rfl
@[simp] theorem writeS_pcieLanes (n : Nat) (w v : W64) : (s.writeS n w v).pcieLanes = s.pcieLanes := rfl
@[simp] theorem writeS_pcieRate (n : Nat) (w v : W64) : (s.writeS n w v).pcieRate = s.pcieRate := rfl
@[simp] theorem writeS_flrWaits (n : Nat) (w v : W64) : (s.writeS n w v).flrWaits = s.flrWaits := rfl
@[simp] theorem writeS_abortSeen (n : Nat) (w v : W64) : (s.writeS n w v).abortSeen = s.abortSeen := rfl
@[simp] theorem writeS_h0Failed (n : Nat) (w v : W64) : (s.writeS n w v).h0Failed = s.h0Failed := rfl

/-! ## updFlight changes only tiles -/

@[simp] theorem updFlight_pending (n q : Nat) (f : InFlight → InFlight) : (s.updFlight n q f).pending = s.pending := rfl
@[simp] theorem updFlight_out (n q : Nat) (f : InFlight → InFlight) : (s.updFlight n q f).out = s.out := rfl
@[simp] theorem updFlight_mem (n q : Nat) (f : InFlight → InFlight) : (s.updFlight n q f).mem = s.mem := rfl
@[simp] theorem updFlight_csr (n q : Nat) (f : InFlight → InFlight) : (s.updFlight n q f).csr = s.csr := rfl
@[simp] theorem updFlight_locked (n q : Nat) (f : InFlight → InFlight) : (s.updFlight n q f).locked = s.locked := rfl
@[simp] theorem updFlight_count (n q : Nat) (f : InFlight → InFlight) : (s.updFlight n q f).count = s.count := rfl
@[simp] theorem updFlight_otp (n q : Nat) (f : InFlight → InFlight) : (s.updFlight n q f).otp = s.otp := rfl
@[simp] theorem updFlight_rings (n q : Nat) (f : InFlight → InFlight) : (s.updFlight n q f).rings = s.rings := rfl
@[simp] theorem updFlight_loading (n q : Nat) (f : InFlight → InFlight) : (s.updFlight n q f).loading = s.loading := rfl
@[simp] theorem updFlight_lastRing (n q : Nat) (f : InFlight → InFlight) : (s.updFlight n q f).lastRing = s.lastRing := rfl
@[simp] theorem updFlight_fetched (n q : Nat) (f : InFlight → InFlight) : (s.updFlight n q f).fetched = s.fetched := rfl
@[simp] theorem updFlight_segs (n q : Nat) (f : InFlight → InFlight) : (s.updFlight n q f).segs = s.segs := rfl
@[simp] theorem updFlight_heldSegs (n q : Nat) (f : InFlight → InFlight) : (s.updFlight n q f).heldSegs = s.heldSegs := rfl
@[simp] theorem updFlight_hostReads (n q : Nat) (f : InFlight → InFlight) : (s.updFlight n q f).hostReads = s.hostReads := rfl
@[simp] theorem updFlight_staged (n q : Nat) (f : InFlight → InFlight) : (s.updFlight n q f).staged = s.staged := rfl
@[simp] theorem updFlight_fenced (n q : Nat) (f : InFlight → InFlight) : (s.updFlight n q f).fenced = s.fenced := rfl
@[simp] theorem updFlight_nextXid (n q : Nat) (f : InFlight → InFlight) : (s.updFlight n q f).nextXid = s.nextXid := rfl
@[simp] theorem updFlight_admitted (n q : Nat) (f : InFlight → InFlight) : (s.updFlight n q f).admitted = s.admitted := rfl
@[simp] theorem updFlight_readyReq (n q : Nat) (f : InFlight → InFlight) : (s.updFlight n q f).readyReq = s.readyReq := rfl
@[simp] theorem updFlight_contribs (n q : Nat) (f : InFlight → InFlight) : (s.updFlight n q f).contribs = s.contribs := rfl
@[simp] theorem updFlight_carried (n q : Nat) (f : InFlight → InFlight) : (s.updFlight n q f).carried = s.carried := rfl
@[simp] theorem updFlight_insts (n q : Nat) (f : InFlight → InFlight) : (s.updFlight n q f).insts = s.insts := rfl
@[simp] theorem updFlight_collSeq (n q : Nat) (f : InFlight → InFlight) : (s.updFlight n q f).collSeq = s.collSeq := rfl
@[simp] theorem updFlight_splitTick (n q : Nat) (f : InFlight → InFlight) : (s.updFlight n q f).splitTick = s.splitTick := rfl
@[simp] theorem updFlight_peerAborted (n q : Nat) (f : InFlight → InFlight) : (s.updFlight n q f).peerAborted = s.peerAborted := rfl
@[simp] theorem updFlight_seqs (n q : Nat) (f : InFlight → InFlight) : (s.updFlight n q f).seqs = s.seqs := rfl
@[simp] theorem updFlight_substs (n q : Nat) (f : InFlight → InFlight) : (s.updFlight n q f).substs = s.substs := rfl
@[simp] theorem updFlight_gazTick (n q : Nat) (f : InFlight → InFlight) : (s.updFlight n q f).gazTick = s.gazTick := rfl
@[simp] theorem updFlight_expiredTick (n q : Nat) (f : InFlight → InFlight) : (s.updFlight n q f).expiredTick = s.expiredTick := rfl
@[simp] theorem updFlight_ports (n q : Nat) (f : InFlight → InFlight) : (s.updFlight n q f).ports = s.ports := rfl
@[simp] theorem updFlight_held (n q : Nat) (f : InFlight → InFlight) : (s.updFlight n q f).held = s.held := rfl
@[simp] theorem updFlight_lostMark (n q : Nat) (f : InFlight → InFlight) : (s.updFlight n q f).lostMark = s.lostMark := rfl
@[simp] theorem updFlight_overflowed (n q : Nat) (f : InFlight → InFlight) : (s.updFlight n q f).overflowed = s.overflowed := rfl
@[simp] theorem updFlight_nextXfer (n q : Nat) (f : InFlight → InFlight) : (s.updFlight n q f).nextXfer = s.nextXfer := rfl
@[simp] theorem updFlight_denyTick (n q : Nat) (f : InFlight → InFlight) : (s.updFlight n q f).denyTick = s.denyTick := rfl
@[simp] theorem updFlight_registry (n q : Nat) (f : InFlight → InFlight) : (s.updFlight n q f).registry = s.registry := rfl
@[simp] theorem updFlight_rngQueue (n q : Nat) (f : InFlight → InFlight) : (s.updFlight n q f).rngQueue = s.rngQueue := rfl
@[simp] theorem updFlight_seqAborting (n q : Nat) (f : InFlight → InFlight) : (s.updFlight n q f).seqAborting = s.seqAborting := rfl
@[simp] theorem updFlight_abortGroups (n q : Nat) (f : InFlight → InFlight) : (s.updFlight n q f).abortGroups = s.abortGroups := rfl
@[simp] theorem updFlight_stage (n q : Nat) (f : InFlight → InFlight) : (s.updFlight n q f).stage = s.stage := rfl
@[simp] theorem updFlight_badWindows (n q : Nat) (f : InFlight → InFlight) : (s.updFlight n q f).badWindows = s.badWindows := rfl
@[simp] theorem updFlight_refUnqual (n q : Nat) (f : InFlight → InFlight) : (s.updFlight n q f).refUnqual = s.refUnqual := rfl
@[simp] theorem updFlight_pcieUp (n q : Nat) (f : InFlight → InFlight) : (s.updFlight n q f).pcieUp = s.pcieUp := rfl
@[simp] theorem updFlight_pcieCfg (n q : Nat) (f : InFlight → InFlight) : (s.updFlight n q f).pcieCfg = s.pcieCfg := rfl
@[simp] theorem updFlight_vfEnable (n q : Nat) (f : InFlight → InFlight) : (s.updFlight n q f).vfEnable = s.vfEnable := rfl
@[simp] theorem updFlight_resetPhase (n q : Nat) (f : InFlight → InFlight) : (s.updFlight n q f).resetPhase = s.resetPhase := rfl
@[simp] theorem updFlight_remaps (n q : Nat) (f : InFlight → InFlight) : (s.updFlight n q f).remaps = s.remaps := rfl
@[simp] theorem updFlight_switched (n q : Nat) (f : InFlight → InFlight) : (s.updFlight n q f).switched = s.switched := rfl
@[simp] theorem updFlight_repairing (n q : Nat) (f : InFlight → InFlight) : (s.updFlight n q f).repairing = s.repairing := rfl
@[simp] theorem updFlight_spdm (n q : Nat) (f : InFlight → InFlight) : (s.updFlight n q f).spdm = s.spdm := rfl
@[simp] theorem updFlight_sensorsOff (n q : Nat) (f : InFlight → InFlight) : (s.updFlight n q f).sensorsOff = s.sensorsOff := rfl
@[simp] theorem updFlight_flashA (n q : Nat) (f : InFlight → InFlight) : (s.updFlight n q f).flashA = s.flashA := rfl
@[simp] theorem updFlight_flashB (n q : Nat) (f : InFlight → InFlight) : (s.updFlight n q f).flashB = s.flashB := rfl
@[simp] theorem updFlight_fwKey (n q : Nat) (f : InFlight → InFlight) : (s.updFlight n q f).fwKey = s.fwKey := rfl
@[simp] theorem updFlight_d2dFails (n q : Nat) (f : InFlight → InFlight) : (s.updFlight n q f).d2dFails = s.d2dFails := rfl
@[simp] theorem updFlight_disc (n q : Nat) (f : InFlight → InFlight) : (s.updFlight n q f).disc = s.disc := rfl
@[simp] theorem updFlight_power (n q : Nat) (f : InFlight → InFlight) : (s.updFlight n q f).power = s.power := rfl
@[simp] theorem updFlight_hold (n q : Nat) (f : InFlight → InFlight) : (s.updFlight n q f).hold = s.hold := rfl
@[simp] theorem updFlight_tripped (n q : Nat) (f : InFlight → InFlight) : (s.updFlight n q f).tripped = s.tripped := rfl
@[simp] theorem updFlight_cold (n q : Nat) (f : InFlight → InFlight) : (s.updFlight n q f).cold = s.cold := rfl
@[simp] theorem updFlight_resetLow (n q : Nat) (f : InFlight → InFlight) : (s.updFlight n q f).resetLow = s.resetLow := rfl
@[simp] theorem updFlight_bistTiles (n q : Nat) (f : InFlight → InFlight) : (s.updFlight n q f).bistTiles = s.bistTiles := rfl
@[simp] theorem updFlight_tapIr (n q : Nat) (f : InFlight → InFlight) : (s.updFlight n q f).tapIr = s.tapIr := rfl
@[simp] theorem updFlight_bridge (n q : Nat) (f : InFlight → InFlight) : (s.updFlight n q f).bridge = s.bridge := rfl
@[simp] theorem updFlight_smbus (n q : Nat) (f : InFlight → InFlight) : (s.updFlight n q f).smbus = s.smbus := rfl
@[simp] theorem updFlight_freeCtr (n q : Nat) (f : InFlight → InFlight) : (s.updFlight n q f).freeCtr = s.freeCtr := rfl
@[simp] theorem updFlight_seen (n q : Nat) (f : InFlight → InFlight) : (s.updFlight n q f).seen = s.seen := rfl
@[simp] theorem updFlight_datum (n q : Nat) (f : InFlight → InFlight) : (s.updFlight n q f).datum = s.datum := rfl
@[simp] theorem updFlight_modeSent (n q : Nat) (f : InFlight → InFlight) : (s.updFlight n q f).modeSent = s.modeSent := rfl
@[simp] theorem updFlight_cycles (n q : Nat) (f : InFlight → InFlight) : (s.updFlight n q f).cycles = s.cycles := rfl
@[simp] theorem updFlight_inSegs (n q : Nat) (f : InFlight → InFlight) : (s.updFlight n q f).inSegs = s.inSegs := rfl
@[simp] theorem updFlight_collPast (n q : Nat) (f : InFlight → InFlight) : (s.updFlight n q f).collPast = s.collPast := rfl
@[simp] theorem updFlight_cadOld (n q : Nat) (f : InFlight → InFlight) : (s.updFlight n q f).cadOld = s.cadOld := rfl
@[simp] theorem updFlight_commitAt (n q : Nat) (f : InFlight → InFlight) : (s.updFlight n q f).commitAt = s.commitAt := rfl
@[simp] theorem updFlight_selfRefresh (n q : Nat) (f : InFlight → InFlight) : (s.updFlight n q f).selfRefresh = s.selfRefresh := rfl
@[simp] theorem updFlight_ueWords (n q : Nat) (f : InFlight → InFlight) : (s.updFlight n q f).ueWords = s.ueWords := rfl
@[simp] theorem updFlight_rngArr (n q : Nat) (f : InFlight → InFlight) : (s.updFlight n q f).rngArr = s.rngArr := rfl
@[simp] theorem updFlight_pcieLanes (n q : Nat) (f : InFlight → InFlight) : (s.updFlight n q f).pcieLanes = s.pcieLanes := rfl
@[simp] theorem updFlight_pcieRate (n q : Nat) (f : InFlight → InFlight) : (s.updFlight n q f).pcieRate = s.pcieRate := rfl
@[simp] theorem updFlight_flrWaits (n q : Nat) (f : InFlight → InFlight) : (s.updFlight n q f).flrWaits = s.flrWaits := rfl
@[simp] theorem updFlight_abortSeen (n q : Nat) (f : InFlight → InFlight) : (s.updFlight n q f).abortSeen = s.abortSeen := rfl
@[simp] theorem updFlight_h0Failed (n q : Nat) (f : InFlight → InFlight) : (s.updFlight n q f).h0Failed = s.h0Failed := rfl

end Sys2Proof.Laws
end

