-- ==== Sys2Proof/Laws/Tile.lean ====
section
/-! SUPPORT. What each update of a tile leaves alone, one lemma per field and update. -/
namespace Sys2Proof.Laws

open Sys2Proof.Machine

variable (t : Tile)


/-! ## setWord changes only csr -/

@[simp] theorem tile_setWord_sreg (off : Nat) (v : W64) : (t.setWord off v).sreg = t.sreg := rfl
@[simp] theorem tile_setWord_dreg (off : Nat) (v : W64) : (t.setWord off v).dreg = t.dreg := rfl
@[simp] theorem tile_setWord_kreg (off : Nat) (v : W64) : (t.setWord off v).kreg = t.kreg := rfl
@[simp] theorem tile_setWord_pc (off : Nat) (v : W64) : (t.setWord off v).pc = t.pc := rfl
@[simp] theorem tile_setWord_ibuf (off : Nat) (v : W64) : (t.setWord off v).ibuf = t.ibuf := rfl
@[simp] theorem tile_setWord_fills (off : Nat) (v : W64) : (t.setWord off v).fills = t.fills := rfl
@[simp] theorem tile_setWord_fetchErr (off : Nat) (v : W64) : (t.setWord off v).fetchErr = t.fetchErr := rfl
@[simp] theorem tile_setWord_wait (off : Nat) (v : W64) : (t.setWord off v).wait = t.wait := rfl
@[simp] theorem tile_setWord_haltReq (off : Nat) (v : W64) : (t.setWord off v).haltReq = t.haltReq := rfl
@[simp] theorem tile_setWord_stepping (off : Nat) (v : W64) : (t.setWord off v).stepping = t.stepping := rfl
@[simp] theorem tile_setWord_dbgFrom (off : Nat) (v : W64) : (t.setWord off v).dbgFrom = t.dbgFrom := rfl
@[simp] theorem tile_setWord_bpPassed (off : Nat) (v : W64) : (t.setWord off v).bpPassed = t.bpPassed := rfl
@[simp] theorem tile_setWord_wbuf (off : Nat) (v : W64) : (t.setWord off v).wbuf = t.wbuf := rfl
@[simp] theorem tile_setWord_acc (off : Nat) (v : W64) : (t.setWord off v).acc = t.acc := rfl
@[simp] theorem tile_setWord_bins (off : Nat) (v : W64) : (t.setWord off v).bins = t.bins := rfl
@[simp] theorem tile_setWord_chains (off : Nat) (v : W64) : (t.setWord off v).chains = t.chains := rfl
@[simp] theorem tile_setWord_mq (off : Nat) (v : W64) : (t.setWord off v).mq = t.mq := rfl
@[simp] theorem tile_setWord_convs (off : Nat) (v : W64) : (t.setWord off v).convs = t.convs := rfl
@[simp] theorem tile_setWord_srf (off : Nat) (v : W64) : (t.setWord off v).srf = t.srf := rfl
@[simp] theorem tile_setWord_fu (off : Nat) (v : W64) : (t.setWord off v).fu = t.fu := rfl
@[simp] theorem tile_setWord_inflight (off : Nat) (v : W64) : (t.setWord off v).inflight = t.inflight := rfl
@[simp] theorem tile_setWord_seq (off : Nat) (v : W64) : (t.setWord off v).seq = t.seq := rfl
@[simp] theorem tile_setWord_phase (off : Nat) (v : W64) : (t.setWord off v).phase = t.phase := rfl
@[simp] theorem tile_setWord_mode (off : Nat) (v : W64) : (t.setWord off v).mode = t.mode := rfl
@[simp] theorem tile_setWord_modeLate (off : Nat) (v : W64) : (t.setWord off v).modeLate = t.modeLate := rfl
@[simp] theorem tile_setWord_ovfSlots (off : Nat) (v : W64) : (t.setWord off v).ovfSlots = t.ovfSlots := rfl
@[simp] theorem tile_setWord_tq (off : Nat) (v : W64) : (t.setWord off v).tq = t.tq := rfl
@[simp] theorem tile_setWord_corrected (off : Nat) (v : W64) : (t.setWord off v).corrected = t.corrected := rfl
@[simp] theorem tile_setWord_scrubLine (off : Nat) (v : W64) : (t.setWord off v).scrubLine = t.scrubLine := rfl

/-! ## setFld changes only csr -/

@[simp] theorem tile_setFld_sreg (f : Fld) (v : Nat) : (t.setFld f v).sreg = t.sreg := rfl
@[simp] theorem tile_setFld_dreg (f : Fld) (v : Nat) : (t.setFld f v).dreg = t.dreg := rfl
@[simp] theorem tile_setFld_kreg (f : Fld) (v : Nat) : (t.setFld f v).kreg = t.kreg := rfl
@[simp] theorem tile_setFld_pc (f : Fld) (v : Nat) : (t.setFld f v).pc = t.pc := rfl
@[simp] theorem tile_setFld_ibuf (f : Fld) (v : Nat) : (t.setFld f v).ibuf = t.ibuf := rfl
@[simp] theorem tile_setFld_fills (f : Fld) (v : Nat) : (t.setFld f v).fills = t.fills := rfl
@[simp] theorem tile_setFld_fetchErr (f : Fld) (v : Nat) : (t.setFld f v).fetchErr = t.fetchErr := rfl
@[simp] theorem tile_setFld_wait (f : Fld) (v : Nat) : (t.setFld f v).wait = t.wait := rfl
@[simp] theorem tile_setFld_haltReq (f : Fld) (v : Nat) : (t.setFld f v).haltReq = t.haltReq := rfl
@[simp] theorem tile_setFld_stepping (f : Fld) (v : Nat) : (t.setFld f v).stepping = t.stepping := rfl
@[simp] theorem tile_setFld_dbgFrom (f : Fld) (v : Nat) : (t.setFld f v).dbgFrom = t.dbgFrom := rfl
@[simp] theorem tile_setFld_bpPassed (f : Fld) (v : Nat) : (t.setFld f v).bpPassed = t.bpPassed := rfl
@[simp] theorem tile_setFld_wbuf (f : Fld) (v : Nat) : (t.setFld f v).wbuf = t.wbuf := rfl
@[simp] theorem tile_setFld_acc (f : Fld) (v : Nat) : (t.setFld f v).acc = t.acc := rfl
@[simp] theorem tile_setFld_bins (f : Fld) (v : Nat) : (t.setFld f v).bins = t.bins := rfl
@[simp] theorem tile_setFld_chains (f : Fld) (v : Nat) : (t.setFld f v).chains = t.chains := rfl
@[simp] theorem tile_setFld_mq (f : Fld) (v : Nat) : (t.setFld f v).mq = t.mq := rfl
@[simp] theorem tile_setFld_convs (f : Fld) (v : Nat) : (t.setFld f v).convs = t.convs := rfl
@[simp] theorem tile_setFld_srf (f : Fld) (v : Nat) : (t.setFld f v).srf = t.srf := rfl
@[simp] theorem tile_setFld_fu (f : Fld) (v : Nat) : (t.setFld f v).fu = t.fu := rfl
@[simp] theorem tile_setFld_inflight (f : Fld) (v : Nat) : (t.setFld f v).inflight = t.inflight := rfl
@[simp] theorem tile_setFld_seq (f : Fld) (v : Nat) : (t.setFld f v).seq = t.seq := rfl
@[simp] theorem tile_setFld_phase (f : Fld) (v : Nat) : (t.setFld f v).phase = t.phase := rfl
@[simp] theorem tile_setFld_mode (f : Fld) (v : Nat) : (t.setFld f v).mode = t.mode := rfl
@[simp] theorem tile_setFld_modeLate (f : Fld) (v : Nat) : (t.setFld f v).modeLate = t.modeLate := rfl
@[simp] theorem tile_setFld_ovfSlots (f : Fld) (v : Nat) : (t.setFld f v).ovfSlots = t.ovfSlots := rfl
@[simp] theorem tile_setFld_tq (f : Fld) (v : Nat) : (t.setFld f v).tq = t.tq := rfl
@[simp] theorem tile_setFld_corrected (f : Fld) (v : Nat) : (t.setFld f v).corrected = t.corrected := rfl
@[simp] theorem tile_setFld_scrubLine (f : Fld) (v : Nat) : (t.setFld f v).scrubLine = t.scrubLine := rfl

/-! ## addFld changes only csr -/

@[simp] theorem tile_addFld_sreg (f : Fld) (v : Nat) : (t.addFld f v).sreg = t.sreg := rfl
@[simp] theorem tile_addFld_dreg (f : Fld) (v : Nat) : (t.addFld f v).dreg = t.dreg := rfl
@[simp] theorem tile_addFld_kreg (f : Fld) (v : Nat) : (t.addFld f v).kreg = t.kreg := rfl
@[simp] theorem tile_addFld_pc (f : Fld) (v : Nat) : (t.addFld f v).pc = t.pc := rfl
@[simp] theorem tile_addFld_ibuf (f : Fld) (v : Nat) : (t.addFld f v).ibuf = t.ibuf := rfl
@[simp] theorem tile_addFld_fills (f : Fld) (v : Nat) : (t.addFld f v).fills = t.fills := rfl
@[simp] theorem tile_addFld_fetchErr (f : Fld) (v : Nat) : (t.addFld f v).fetchErr = t.fetchErr := rfl
@[simp] theorem tile_addFld_wait (f : Fld) (v : Nat) : (t.addFld f v).wait = t.wait := rfl
@[simp] theorem tile_addFld_haltReq (f : Fld) (v : Nat) : (t.addFld f v).haltReq = t.haltReq := rfl
@[simp] theorem tile_addFld_stepping (f : Fld) (v : Nat) : (t.addFld f v).stepping = t.stepping := rfl
@[simp] theorem tile_addFld_dbgFrom (f : Fld) (v : Nat) : (t.addFld f v).dbgFrom = t.dbgFrom := rfl
@[simp] theorem tile_addFld_bpPassed (f : Fld) (v : Nat) : (t.addFld f v).bpPassed = t.bpPassed := rfl
@[simp] theorem tile_addFld_wbuf (f : Fld) (v : Nat) : (t.addFld f v).wbuf = t.wbuf := rfl
@[simp] theorem tile_addFld_acc (f : Fld) (v : Nat) : (t.addFld f v).acc = t.acc := rfl
@[simp] theorem tile_addFld_bins (f : Fld) (v : Nat) : (t.addFld f v).bins = t.bins := rfl
@[simp] theorem tile_addFld_chains (f : Fld) (v : Nat) : (t.addFld f v).chains = t.chains := rfl
@[simp] theorem tile_addFld_mq (f : Fld) (v : Nat) : (t.addFld f v).mq = t.mq := rfl
@[simp] theorem tile_addFld_convs (f : Fld) (v : Nat) : (t.addFld f v).convs = t.convs := rfl
@[simp] theorem tile_addFld_srf (f : Fld) (v : Nat) : (t.addFld f v).srf = t.srf := rfl
@[simp] theorem tile_addFld_fu (f : Fld) (v : Nat) : (t.addFld f v).fu = t.fu := rfl
@[simp] theorem tile_addFld_inflight (f : Fld) (v : Nat) : (t.addFld f v).inflight = t.inflight := rfl
@[simp] theorem tile_addFld_seq (f : Fld) (v : Nat) : (t.addFld f v).seq = t.seq := rfl
@[simp] theorem tile_addFld_phase (f : Fld) (v : Nat) : (t.addFld f v).phase = t.phase := rfl
@[simp] theorem tile_addFld_mode (f : Fld) (v : Nat) : (t.addFld f v).mode = t.mode := rfl
@[simp] theorem tile_addFld_modeLate (f : Fld) (v : Nat) : (t.addFld f v).modeLate = t.modeLate := rfl
@[simp] theorem tile_addFld_ovfSlots (f : Fld) (v : Nat) : (t.addFld f v).ovfSlots = t.ovfSlots := rfl
@[simp] theorem tile_addFld_tq (f : Fld) (v : Nat) : (t.addFld f v).tq = t.tq := rfl
@[simp] theorem tile_addFld_corrected (f : Fld) (v : Nat) : (t.addFld f v).corrected = t.corrected := rfl
@[simp] theorem tile_addFld_scrubLine (f : Fld) (v : Nat) : (t.addFld f v).scrubLine = t.scrubLine := rfl

/-! ## setState changes only csr -/

@[simp] theorem tile_setState_sreg (v : Nat) : (t.setState v).sreg = t.sreg := rfl
@[simp] theorem tile_setState_dreg (v : Nat) : (t.setState v).dreg = t.dreg := rfl
@[simp] theorem tile_setState_kreg (v : Nat) : (t.setState v).kreg = t.kreg := rfl
@[simp] theorem tile_setState_pc (v : Nat) : (t.setState v).pc = t.pc := rfl
@[simp] theorem tile_setState_ibuf (v : Nat) : (t.setState v).ibuf = t.ibuf := rfl
@[simp] theorem tile_setState_fills (v : Nat) : (t.setState v).fills = t.fills := rfl
@[simp] theorem tile_setState_fetchErr (v : Nat) : (t.setState v).fetchErr = t.fetchErr := rfl
@[simp] theorem tile_setState_wait (v : Nat) : (t.setState v).wait = t.wait := rfl
@[simp] theorem tile_setState_haltReq (v : Nat) : (t.setState v).haltReq = t.haltReq := rfl
@[simp] theorem tile_setState_stepping (v : Nat) : (t.setState v).stepping = t.stepping := rfl
@[simp] theorem tile_setState_dbgFrom (v : Nat) : (t.setState v).dbgFrom = t.dbgFrom := rfl
@[simp] theorem tile_setState_bpPassed (v : Nat) : (t.setState v).bpPassed = t.bpPassed := rfl
@[simp] theorem tile_setState_wbuf (v : Nat) : (t.setState v).wbuf = t.wbuf := rfl
@[simp] theorem tile_setState_acc (v : Nat) : (t.setState v).acc = t.acc := rfl
@[simp] theorem tile_setState_bins (v : Nat) : (t.setState v).bins = t.bins := rfl
@[simp] theorem tile_setState_chains (v : Nat) : (t.setState v).chains = t.chains := rfl
@[simp] theorem tile_setState_mq (v : Nat) : (t.setState v).mq = t.mq := rfl
@[simp] theorem tile_setState_convs (v : Nat) : (t.setState v).convs = t.convs := rfl
@[simp] theorem tile_setState_srf (v : Nat) : (t.setState v).srf = t.srf := rfl
@[simp] theorem tile_setState_fu (v : Nat) : (t.setState v).fu = t.fu := rfl
@[simp] theorem tile_setState_inflight (v : Nat) : (t.setState v).inflight = t.inflight := rfl
@[simp] theorem tile_setState_seq (v : Nat) : (t.setState v).seq = t.seq := rfl
@[simp] theorem tile_setState_phase (v : Nat) : (t.setState v).phase = t.phase := rfl
@[simp] theorem tile_setState_mode (v : Nat) : (t.setState v).mode = t.mode := rfl
@[simp] theorem tile_setState_modeLate (v : Nat) : (t.setState v).modeLate = t.modeLate := rfl
@[simp] theorem tile_setState_ovfSlots (v : Nat) : (t.setState v).ovfSlots = t.ovfSlots := rfl
@[simp] theorem tile_setState_tq (v : Nat) : (t.setState v).tq = t.tq := rfl
@[simp] theorem tile_setState_corrected (v : Nat) : (t.setState v).corrected = t.corrected := rfl
@[simp] theorem tile_setState_scrubLine (v : Nat) : (t.setState v).scrubLine = t.scrubLine := rfl

/-! ## setS changes only sreg -/

@[simp] theorem tile_setS_csr (r : Nat) (v : W64) : (t.setS r v).csr = t.csr := by unfold Tile.setS; split <;> rfl
@[simp] theorem tile_setS_dreg (r : Nat) (v : W64) : (t.setS r v).dreg = t.dreg := by unfold Tile.setS; split <;> rfl
@[simp] theorem tile_setS_kreg (r : Nat) (v : W64) : (t.setS r v).kreg = t.kreg := by unfold Tile.setS; split <;> rfl
@[simp] theorem tile_setS_pc (r : Nat) (v : W64) : (t.setS r v).pc = t.pc := by unfold Tile.setS; split <;> rfl
@[simp] theorem tile_setS_ibuf (r : Nat) (v : W64) : (t.setS r v).ibuf = t.ibuf := by unfold Tile.setS; split <;> rfl
@[simp] theorem tile_setS_fills (r : Nat) (v : W64) : (t.setS r v).fills = t.fills := by unfold Tile.setS; split <;> rfl
@[simp] theorem tile_setS_fetchErr (r : Nat) (v : W64) : (t.setS r v).fetchErr = t.fetchErr := by unfold Tile.setS; split <;> rfl
@[simp] theorem tile_setS_wait (r : Nat) (v : W64) : (t.setS r v).wait = t.wait := by unfold Tile.setS; split <;> rfl
@[simp] theorem tile_setS_haltReq (r : Nat) (v : W64) : (t.setS r v).haltReq = t.haltReq := by unfold Tile.setS; split <;> rfl
@[simp] theorem tile_setS_stepping (r : Nat) (v : W64) : (t.setS r v).stepping = t.stepping := by unfold Tile.setS; split <;> rfl
@[simp] theorem tile_setS_dbgFrom (r : Nat) (v : W64) : (t.setS r v).dbgFrom = t.dbgFrom := by unfold Tile.setS; split <;> rfl
@[simp] theorem tile_setS_bpPassed (r : Nat) (v : W64) : (t.setS r v).bpPassed = t.bpPassed := by unfold Tile.setS; split <;> rfl
@[simp] theorem tile_setS_wbuf (r : Nat) (v : W64) : (t.setS r v).wbuf = t.wbuf := by unfold Tile.setS; split <;> rfl
@[simp] theorem tile_setS_acc (r : Nat) (v : W64) : (t.setS r v).acc = t.acc := by unfold Tile.setS; split <;> rfl
@[simp] theorem tile_setS_bins (r : Nat) (v : W64) : (t.setS r v).bins = t.bins := by unfold Tile.setS; split <;> rfl
@[simp] theorem tile_setS_chains (r : Nat) (v : W64) : (t.setS r v).chains = t.chains := by unfold Tile.setS; split <;> rfl
@[simp] theorem tile_setS_mq (r : Nat) (v : W64) : (t.setS r v).mq = t.mq := by unfold Tile.setS; split <;> rfl
@[simp] theorem tile_setS_convs (r : Nat) (v : W64) : (t.setS r v).convs = t.convs := by unfold Tile.setS; split <;> rfl
@[simp] theorem tile_setS_srf (r : Nat) (v : W64) : (t.setS r v).srf = t.srf := by unfold Tile.setS; split <;> rfl
@[simp] theorem tile_setS_fu (r : Nat) (v : W64) : (t.setS r v).fu = t.fu := by unfold Tile.setS; split <;> rfl
@[simp] theorem tile_setS_inflight (r : Nat) (v : W64) : (t.setS r v).inflight = t.inflight := by unfold Tile.setS; split <;> rfl
@[simp] theorem tile_setS_seq (r : Nat) (v : W64) : (t.setS r v).seq = t.seq := by unfold Tile.setS; split <;> rfl
@[simp] theorem tile_setS_phase (r : Nat) (v : W64) : (t.setS r v).phase = t.phase := by unfold Tile.setS; split <;> rfl
@[simp] theorem tile_setS_mode (r : Nat) (v : W64) : (t.setS r v).mode = t.mode := by unfold Tile.setS; split <;> rfl
@[simp] theorem tile_setS_modeLate (r : Nat) (v : W64) : (t.setS r v).modeLate = t.modeLate := by unfold Tile.setS; split <;> rfl
@[simp] theorem tile_setS_ovfSlots (r : Nat) (v : W64) : (t.setS r v).ovfSlots = t.ovfSlots := by unfold Tile.setS; split <;> rfl
@[simp] theorem tile_setS_tq (r : Nat) (v : W64) : (t.setS r v).tq = t.tq := by unfold Tile.setS; split <;> rfl
@[simp] theorem tile_setS_corrected (r : Nat) (v : W64) : (t.setS r v).corrected = t.corrected := by unfold Tile.setS; split <;> rfl
@[simp] theorem tile_setS_scrubLine (r : Nat) (v : W64) : (t.setS r v).scrubLine = t.scrubLine := by unfold Tile.setS; split <;> rfl

/-! ## setDw changes only dreg -/

@[simp] theorem tile_setDw_csr (d w : Nat) (v : W64) : (t.setDw d w v).csr = t.csr := rfl
@[simp] theorem tile_setDw_sreg (d w : Nat) (v : W64) : (t.setDw d w v).sreg = t.sreg := rfl
@[simp] theorem tile_setDw_kreg (d w : Nat) (v : W64) : (t.setDw d w v).kreg = t.kreg := rfl
@[simp] theorem tile_setDw_pc (d w : Nat) (v : W64) : (t.setDw d w v).pc = t.pc := rfl
@[simp] theorem tile_setDw_ibuf (d w : Nat) (v : W64) : (t.setDw d w v).ibuf = t.ibuf := rfl
@[simp] theorem tile_setDw_fills (d w : Nat) (v : W64) : (t.setDw d w v).fills = t.fills := rfl
@[simp] theorem tile_setDw_fetchErr (d w : Nat) (v : W64) : (t.setDw d w v).fetchErr = t.fetchErr := rfl
@[simp] theorem tile_setDw_wait (d w : Nat) (v : W64) : (t.setDw d w v).wait = t.wait := rfl
@[simp] theorem tile_setDw_haltReq (d w : Nat) (v : W64) : (t.setDw d w v).haltReq = t.haltReq := rfl
@[simp] theorem tile_setDw_stepping (d w : Nat) (v : W64) : (t.setDw d w v).stepping = t.stepping := rfl
@[simp] theorem tile_setDw_dbgFrom (d w : Nat) (v : W64) : (t.setDw d w v).dbgFrom = t.dbgFrom := rfl
@[simp] theorem tile_setDw_bpPassed (d w : Nat) (v : W64) : (t.setDw d w v).bpPassed = t.bpPassed := rfl
@[simp] theorem tile_setDw_wbuf (d w : Nat) (v : W64) : (t.setDw d w v).wbuf = t.wbuf := rfl
@[simp] theorem tile_setDw_acc (d w : Nat) (v : W64) : (t.setDw d w v).acc = t.acc := rfl
@[simp] theorem tile_setDw_bins (d w : Nat) (v : W64) : (t.setDw d w v).bins = t.bins := rfl
@[simp] theorem tile_setDw_chains (d w : Nat) (v : W64) : (t.setDw d w v).chains = t.chains := rfl
@[simp] theorem tile_setDw_mq (d w : Nat) (v : W64) : (t.setDw d w v).mq = t.mq := rfl
@[simp] theorem tile_setDw_convs (d w : Nat) (v : W64) : (t.setDw d w v).convs = t.convs := rfl
@[simp] theorem tile_setDw_srf (d w : Nat) (v : W64) : (t.setDw d w v).srf = t.srf := rfl
@[simp] theorem tile_setDw_fu (d w : Nat) (v : W64) : (t.setDw d w v).fu = t.fu := rfl
@[simp] theorem tile_setDw_inflight (d w : Nat) (v : W64) : (t.setDw d w v).inflight = t.inflight := rfl
@[simp] theorem tile_setDw_seq (d w : Nat) (v : W64) : (t.setDw d w v).seq = t.seq := rfl
@[simp] theorem tile_setDw_phase (d w : Nat) (v : W64) : (t.setDw d w v).phase = t.phase := rfl
@[simp] theorem tile_setDw_mode (d w : Nat) (v : W64) : (t.setDw d w v).mode = t.mode := rfl
@[simp] theorem tile_setDw_modeLate (d w : Nat) (v : W64) : (t.setDw d w v).modeLate = t.modeLate := rfl
@[simp] theorem tile_setDw_ovfSlots (d w : Nat) (v : W64) : (t.setDw d w v).ovfSlots = t.ovfSlots := rfl
@[simp] theorem tile_setDw_tq (d w : Nat) (v : W64) : (t.setDw d w v).tq = t.tq := rfl
@[simp] theorem tile_setDw_corrected (d w : Nat) (v : W64) : (t.setDw d w v).corrected = t.corrected := rfl
@[simp] theorem tile_setDw_scrubLine (d w : Nat) (v : W64) : (t.setDw d w v).scrubLine = t.scrubLine := rfl

/-! ## setD changes only dreg -/

@[simp] theorem tile_setD_csr (d : Nat) (ws : List W64) : (t.setD d ws).csr = t.csr := by simp [Tile.setD, List.range, List.range.loop]
@[simp] theorem tile_setD_sreg (d : Nat) (ws : List W64) : (t.setD d ws).sreg = t.sreg := by simp [Tile.setD, List.range, List.range.loop]
@[simp] theorem tile_setD_kreg (d : Nat) (ws : List W64) : (t.setD d ws).kreg = t.kreg := by simp [Tile.setD, List.range, List.range.loop]
@[simp] theorem tile_setD_pc (d : Nat) (ws : List W64) : (t.setD d ws).pc = t.pc := by simp [Tile.setD, List.range, List.range.loop]
@[simp] theorem tile_setD_ibuf (d : Nat) (ws : List W64) : (t.setD d ws).ibuf = t.ibuf := by simp [Tile.setD, List.range, List.range.loop]
@[simp] theorem tile_setD_fills (d : Nat) (ws : List W64) : (t.setD d ws).fills = t.fills := by simp [Tile.setD, List.range, List.range.loop]
@[simp] theorem tile_setD_fetchErr (d : Nat) (ws : List W64) : (t.setD d ws).fetchErr = t.fetchErr := by simp [Tile.setD, List.range, List.range.loop]
@[simp] theorem tile_setD_wait (d : Nat) (ws : List W64) : (t.setD d ws).wait = t.wait := by simp [Tile.setD, List.range, List.range.loop]
@[simp] theorem tile_setD_haltReq (d : Nat) (ws : List W64) : (t.setD d ws).haltReq = t.haltReq := by simp [Tile.setD, List.range, List.range.loop]
@[simp] theorem tile_setD_stepping (d : Nat) (ws : List W64) : (t.setD d ws).stepping = t.stepping := by simp [Tile.setD, List.range, List.range.loop]
@[simp] theorem tile_setD_dbgFrom (d : Nat) (ws : List W64) : (t.setD d ws).dbgFrom = t.dbgFrom := by simp [Tile.setD, List.range, List.range.loop]
@[simp] theorem tile_setD_bpPassed (d : Nat) (ws : List W64) : (t.setD d ws).bpPassed = t.bpPassed := by simp [Tile.setD, List.range, List.range.loop]
@[simp] theorem tile_setD_wbuf (d : Nat) (ws : List W64) : (t.setD d ws).wbuf = t.wbuf := by simp [Tile.setD, List.range, List.range.loop]
@[simp] theorem tile_setD_acc (d : Nat) (ws : List W64) : (t.setD d ws).acc = t.acc := by simp [Tile.setD, List.range, List.range.loop]
@[simp] theorem tile_setD_bins (d : Nat) (ws : List W64) : (t.setD d ws).bins = t.bins := by simp [Tile.setD, List.range, List.range.loop]
@[simp] theorem tile_setD_chains (d : Nat) (ws : List W64) : (t.setD d ws).chains = t.chains := by simp [Tile.setD, List.range, List.range.loop]
@[simp] theorem tile_setD_mq (d : Nat) (ws : List W64) : (t.setD d ws).mq = t.mq := by simp [Tile.setD, List.range, List.range.loop]
@[simp] theorem tile_setD_convs (d : Nat) (ws : List W64) : (t.setD d ws).convs = t.convs := by simp [Tile.setD, List.range, List.range.loop]
@[simp] theorem tile_setD_srf (d : Nat) (ws : List W64) : (t.setD d ws).srf = t.srf := by simp [Tile.setD, List.range, List.range.loop]
@[simp] theorem tile_setD_fu (d : Nat) (ws : List W64) : (t.setD d ws).fu = t.fu := by simp [Tile.setD, List.range, List.range.loop]
@[simp] theorem tile_setD_inflight (d : Nat) (ws : List W64) : (t.setD d ws).inflight = t.inflight := by simp [Tile.setD, List.range, List.range.loop]
@[simp] theorem tile_setD_seq (d : Nat) (ws : List W64) : (t.setD d ws).seq = t.seq := by simp [Tile.setD, List.range, List.range.loop]
@[simp] theorem tile_setD_phase (d : Nat) (ws : List W64) : (t.setD d ws).phase = t.phase := by simp [Tile.setD, List.range, List.range.loop]
@[simp] theorem tile_setD_mode (d : Nat) (ws : List W64) : (t.setD d ws).mode = t.mode := by simp [Tile.setD, List.range, List.range.loop]
@[simp] theorem tile_setD_modeLate (d : Nat) (ws : List W64) : (t.setD d ws).modeLate = t.modeLate := by simp [Tile.setD, List.range, List.range.loop]
@[simp] theorem tile_setD_ovfSlots (d : Nat) (ws : List W64) : (t.setD d ws).ovfSlots = t.ovfSlots := by simp [Tile.setD, List.range, List.range.loop]
@[simp] theorem tile_setD_tq (d : Nat) (ws : List W64) : (t.setD d ws).tq = t.tq := by simp [Tile.setD, List.range, List.range.loop]
@[simp] theorem tile_setD_corrected (d : Nat) (ws : List W64) : (t.setD d ws).corrected = t.corrected := by simp [Tile.setD, List.range, List.range.loop]
@[simp] theorem tile_setD_scrubLine (d : Nat) (ws : List W64) : (t.setD d ws).scrubLine = t.scrubLine := by simp [Tile.setD, List.range, List.range.loop]

/-! ## setK changes only kreg -/

@[simp] theorem tile_setK_csr (n : Nat) (v : W64) : (t.setK n v).csr = t.csr := by unfold Tile.setK; split <;> rfl
@[simp] theorem tile_setK_sreg (n : Nat) (v : W64) : (t.setK n v).sreg = t.sreg := by unfold Tile.setK; split <;> rfl
@[simp] theorem tile_setK_dreg (n : Nat) (v : W64) : (t.setK n v).dreg = t.dreg := by unfold Tile.setK; split <;> rfl
@[simp] theorem tile_setK_pc (n : Nat) (v : W64) : (t.setK n v).pc = t.pc := by unfold Tile.setK; split <;> rfl
@[simp] theorem tile_setK_ibuf (n : Nat) (v : W64) : (t.setK n v).ibuf = t.ibuf := by unfold Tile.setK; split <;> rfl
@[simp] theorem tile_setK_fills (n : Nat) (v : W64) : (t.setK n v).fills = t.fills := by unfold Tile.setK; split <;> rfl
@[simp] theorem tile_setK_fetchErr (n : Nat) (v : W64) : (t.setK n v).fetchErr = t.fetchErr := by unfold Tile.setK; split <;> rfl
@[simp] theorem tile_setK_wait (n : Nat) (v : W64) : (t.setK n v).wait = t.wait := by unfold Tile.setK; split <;> rfl
@[simp] theorem tile_setK_haltReq (n : Nat) (v : W64) : (t.setK n v).haltReq = t.haltReq := by unfold Tile.setK; split <;> rfl
@[simp] theorem tile_setK_stepping (n : Nat) (v : W64) : (t.setK n v).stepping = t.stepping := by unfold Tile.setK; split <;> rfl
@[simp] theorem tile_setK_dbgFrom (n : Nat) (v : W64) : (t.setK n v).dbgFrom = t.dbgFrom := by unfold Tile.setK; split <;> rfl
@[simp] theorem tile_setK_bpPassed (n : Nat) (v : W64) : (t.setK n v).bpPassed = t.bpPassed := by unfold Tile.setK; split <;> rfl
@[simp] theorem tile_setK_wbuf (n : Nat) (v : W64) : (t.setK n v).wbuf = t.wbuf := by unfold Tile.setK; split <;> rfl
@[simp] theorem tile_setK_acc (n : Nat) (v : W64) : (t.setK n v).acc = t.acc := by unfold Tile.setK; split <;> rfl
@[simp] theorem tile_setK_bins (n : Nat) (v : W64) : (t.setK n v).bins = t.bins := by unfold Tile.setK; split <;> rfl
@[simp] theorem tile_setK_chains (n : Nat) (v : W64) : (t.setK n v).chains = t.chains := by unfold Tile.setK; split <;> rfl
@[simp] theorem tile_setK_mq (n : Nat) (v : W64) : (t.setK n v).mq = t.mq := by unfold Tile.setK; split <;> rfl
@[simp] theorem tile_setK_convs (n : Nat) (v : W64) : (t.setK n v).convs = t.convs := by unfold Tile.setK; split <;> rfl
@[simp] theorem tile_setK_srf (n : Nat) (v : W64) : (t.setK n v).srf = t.srf := by unfold Tile.setK; split <;> rfl
@[simp] theorem tile_setK_fu (n : Nat) (v : W64) : (t.setK n v).fu = t.fu := by unfold Tile.setK; split <;> rfl
@[simp] theorem tile_setK_inflight (n : Nat) (v : W64) : (t.setK n v).inflight = t.inflight := by unfold Tile.setK; split <;> rfl
@[simp] theorem tile_setK_seq (n : Nat) (v : W64) : (t.setK n v).seq = t.seq := by unfold Tile.setK; split <;> rfl
@[simp] theorem tile_setK_phase (n : Nat) (v : W64) : (t.setK n v).phase = t.phase := by unfold Tile.setK; split <;> rfl
@[simp] theorem tile_setK_mode (n : Nat) (v : W64) : (t.setK n v).mode = t.mode := by unfold Tile.setK; split <;> rfl
@[simp] theorem tile_setK_modeLate (n : Nat) (v : W64) : (t.setK n v).modeLate = t.modeLate := by unfold Tile.setK; split <;> rfl
@[simp] theorem tile_setK_ovfSlots (n : Nat) (v : W64) : (t.setK n v).ovfSlots = t.ovfSlots := by unfold Tile.setK; split <;> rfl
@[simp] theorem tile_setK_tq (n : Nat) (v : W64) : (t.setK n v).tq = t.tq := by unfold Tile.setK; split <;> rfl
@[simp] theorem tile_setK_corrected (n : Nat) (v : W64) : (t.setK n v).corrected = t.corrected := by unfold Tile.setK; split <;> rfl
@[simp] theorem tile_setK_scrubLine (n : Nat) (v : W64) : (t.setK n v).scrubLine = t.scrubLine := by unfold Tile.setK; split <;> rfl

/-! ## touchLine changes only ibuf -/

@[simp] theorem tile_touchLine_csr (l : IbufLine) : (t.touchLine l).csr = t.csr := rfl
@[simp] theorem tile_touchLine_sreg (l : IbufLine) : (t.touchLine l).sreg = t.sreg := rfl
@[simp] theorem tile_touchLine_dreg (l : IbufLine) : (t.touchLine l).dreg = t.dreg := rfl
@[simp] theorem tile_touchLine_kreg (l : IbufLine) : (t.touchLine l).kreg = t.kreg := rfl
@[simp] theorem tile_touchLine_pc (l : IbufLine) : (t.touchLine l).pc = t.pc := rfl
@[simp] theorem tile_touchLine_fills (l : IbufLine) : (t.touchLine l).fills = t.fills := rfl
@[simp] theorem tile_touchLine_fetchErr (l : IbufLine) : (t.touchLine l).fetchErr = t.fetchErr := rfl
@[simp] theorem tile_touchLine_wait (l : IbufLine) : (t.touchLine l).wait = t.wait := rfl
@[simp] theorem tile_touchLine_haltReq (l : IbufLine) : (t.touchLine l).haltReq = t.haltReq := rfl
@[simp] theorem tile_touchLine_stepping (l : IbufLine) : (t.touchLine l).stepping = t.stepping := rfl
@[simp] theorem tile_touchLine_dbgFrom (l : IbufLine) : (t.touchLine l).dbgFrom = t.dbgFrom := rfl
@[simp] theorem tile_touchLine_bpPassed (l : IbufLine) : (t.touchLine l).bpPassed = t.bpPassed := rfl
@[simp] theorem tile_touchLine_wbuf (l : IbufLine) : (t.touchLine l).wbuf = t.wbuf := rfl
@[simp] theorem tile_touchLine_acc (l : IbufLine) : (t.touchLine l).acc = t.acc := rfl
@[simp] theorem tile_touchLine_bins (l : IbufLine) : (t.touchLine l).bins = t.bins := rfl
@[simp] theorem tile_touchLine_chains (l : IbufLine) : (t.touchLine l).chains = t.chains := rfl
@[simp] theorem tile_touchLine_mq (l : IbufLine) : (t.touchLine l).mq = t.mq := rfl
@[simp] theorem tile_touchLine_convs (l : IbufLine) : (t.touchLine l).convs = t.convs := rfl
@[simp] theorem tile_touchLine_srf (l : IbufLine) : (t.touchLine l).srf = t.srf := rfl
@[simp] theorem tile_touchLine_fu (l : IbufLine) : (t.touchLine l).fu = t.fu := rfl
@[simp] theorem tile_touchLine_inflight (l : IbufLine) : (t.touchLine l).inflight = t.inflight := rfl
@[simp] theorem tile_touchLine_seq (l : IbufLine) : (t.touchLine l).seq = t.seq := rfl
@[simp] theorem tile_touchLine_phase (l : IbufLine) : (t.touchLine l).phase = t.phase := rfl
@[simp] theorem tile_touchLine_mode (l : IbufLine) : (t.touchLine l).mode = t.mode := rfl
@[simp] theorem tile_touchLine_modeLate (l : IbufLine) : (t.touchLine l).modeLate = t.modeLate := rfl
@[simp] theorem tile_touchLine_ovfSlots (l : IbufLine) : (t.touchLine l).ovfSlots = t.ovfSlots := rfl
@[simp] theorem tile_touchLine_tq (l : IbufLine) : (t.touchLine l).tq = t.tq := rfl
@[simp] theorem tile_touchLine_corrected (l : IbufLine) : (t.touchLine l).corrected = t.corrected := rfl
@[simp] theorem tile_touchLine_scrubLine (l : IbufLine) : (t.touchLine l).scrubLine = t.scrubLine := rfl

/-! ## enterDebug changes only csr, dbgFrom, haltReq, stepping, wait -/

@[simp] theorem tile_enterDebug_sreg (r : Nat) : (t.enterDebug r).sreg = t.sreg := by simp [Tile.enterDebug]
@[simp] theorem tile_enterDebug_dreg (r : Nat) : (t.enterDebug r).dreg = t.dreg := by simp [Tile.enterDebug]
@[simp] theorem tile_enterDebug_kreg (r : Nat) : (t.enterDebug r).kreg = t.kreg := by simp [Tile.enterDebug]
@[simp] theorem tile_enterDebug_pc (r : Nat) : (t.enterDebug r).pc = t.pc := by simp [Tile.enterDebug]
@[simp] theorem tile_enterDebug_ibuf (r : Nat) : (t.enterDebug r).ibuf = t.ibuf := by simp [Tile.enterDebug]
@[simp] theorem tile_enterDebug_fills (r : Nat) : (t.enterDebug r).fills = t.fills := by simp [Tile.enterDebug]
@[simp] theorem tile_enterDebug_fetchErr (r : Nat) : (t.enterDebug r).fetchErr = t.fetchErr := by simp [Tile.enterDebug]
@[simp] theorem tile_enterDebug_bpPassed (r : Nat) : (t.enterDebug r).bpPassed = t.bpPassed := by simp [Tile.enterDebug]
@[simp] theorem tile_enterDebug_wbuf (r : Nat) : (t.enterDebug r).wbuf = t.wbuf := by simp [Tile.enterDebug]
@[simp] theorem tile_enterDebug_acc (r : Nat) : (t.enterDebug r).acc = t.acc := by simp [Tile.enterDebug]
@[simp] theorem tile_enterDebug_bins (r : Nat) : (t.enterDebug r).bins = t.bins := by simp [Tile.enterDebug]
@[simp] theorem tile_enterDebug_chains (r : Nat) : (t.enterDebug r).chains = t.chains := by simp [Tile.enterDebug]
@[simp] theorem tile_enterDebug_mq (r : Nat) : (t.enterDebug r).mq = t.mq := by simp [Tile.enterDebug]
@[simp] theorem tile_enterDebug_convs (r : Nat) : (t.enterDebug r).convs = t.convs := by simp [Tile.enterDebug]
@[simp] theorem tile_enterDebug_srf (r : Nat) : (t.enterDebug r).srf = t.srf := by simp [Tile.enterDebug]
@[simp] theorem tile_enterDebug_fu (r : Nat) : (t.enterDebug r).fu = t.fu := by simp [Tile.enterDebug]
@[simp] theorem tile_enterDebug_inflight (r : Nat) : (t.enterDebug r).inflight = t.inflight := by simp [Tile.enterDebug]
@[simp] theorem tile_enterDebug_seq (r : Nat) : (t.enterDebug r).seq = t.seq := by simp [Tile.enterDebug]
@[simp] theorem tile_enterDebug_phase (r : Nat) : (t.enterDebug r).phase = t.phase := by simp [Tile.enterDebug]
@[simp] theorem tile_enterDebug_mode (r : Nat) : (t.enterDebug r).mode = t.mode := by simp [Tile.enterDebug]
@[simp] theorem tile_enterDebug_modeLate (r : Nat) : (t.enterDebug r).modeLate = t.modeLate := by simp [Tile.enterDebug]
@[simp] theorem tile_enterDebug_ovfSlots (r : Nat) : (t.enterDebug r).ovfSlots = t.ovfSlots := by simp [Tile.enterDebug]
@[simp] theorem tile_enterDebug_tq (r : Nat) : (t.enterDebug r).tq = t.tq := by simp [Tile.enterDebug]
@[simp] theorem tile_enterDebug_corrected (r : Nat) : (t.enterDebug r).corrected = t.corrected := by simp [Tile.enterDebug]
@[simp] theorem tile_enterDebug_scrubLine (r : Nat) : (t.enterDebug r).scrubLine = t.scrubLine := by simp [Tile.enterDebug]

/-! ## boundary changes only csr, dbgFrom, haltReq, stepping, wait -/

@[simp] theorem tile_boundary_sreg  : (t.boundary).sreg = t.sreg := by unfold Tile.boundary; (repeat' split) <;> simp
@[simp] theorem tile_boundary_dreg  : (t.boundary).dreg = t.dreg := by unfold Tile.boundary; (repeat' split) <;> simp
@[simp] theorem tile_boundary_kreg  : (t.boundary).kreg = t.kreg := by unfold Tile.boundary; (repeat' split) <;> simp
@[simp] theorem tile_boundary_pc  : (t.boundary).pc = t.pc := by unfold Tile.boundary; (repeat' split) <;> simp
@[simp] theorem tile_boundary_ibuf  : (t.boundary).ibuf = t.ibuf := by unfold Tile.boundary; (repeat' split) <;> simp
@[simp] theorem tile_boundary_fills  : (t.boundary).fills = t.fills := by unfold Tile.boundary; (repeat' split) <;> simp
@[simp] theorem tile_boundary_fetchErr  : (t.boundary).fetchErr = t.fetchErr := by unfold Tile.boundary; (repeat' split) <;> simp
@[simp] theorem tile_boundary_bpPassed  : (t.boundary).bpPassed = t.bpPassed := by unfold Tile.boundary; (repeat' split) <;> simp
@[simp] theorem tile_boundary_wbuf  : (t.boundary).wbuf = t.wbuf := by unfold Tile.boundary; (repeat' split) <;> simp
@[simp] theorem tile_boundary_acc  : (t.boundary).acc = t.acc := by unfold Tile.boundary; (repeat' split) <;> simp
@[simp] theorem tile_boundary_bins  : (t.boundary).bins = t.bins := by unfold Tile.boundary; (repeat' split) <;> simp
@[simp] theorem tile_boundary_chains  : (t.boundary).chains = t.chains := by unfold Tile.boundary; (repeat' split) <;> simp
@[simp] theorem tile_boundary_mq  : (t.boundary).mq = t.mq := by unfold Tile.boundary; (repeat' split) <;> simp
@[simp] theorem tile_boundary_convs  : (t.boundary).convs = t.convs := by unfold Tile.boundary; (repeat' split) <;> simp
@[simp] theorem tile_boundary_srf  : (t.boundary).srf = t.srf := by unfold Tile.boundary; (repeat' split) <;> simp
@[simp] theorem tile_boundary_fu  : (t.boundary).fu = t.fu := by unfold Tile.boundary; (repeat' split) <;> simp
@[simp] theorem tile_boundary_inflight  : (t.boundary).inflight = t.inflight := by unfold Tile.boundary; (repeat' split) <;> simp
@[simp] theorem tile_boundary_seq  : (t.boundary).seq = t.seq := by unfold Tile.boundary; (repeat' split) <;> simp
@[simp] theorem tile_boundary_phase  : (t.boundary).phase = t.phase := by unfold Tile.boundary; (repeat' split) <;> simp
@[simp] theorem tile_boundary_mode  : (t.boundary).mode = t.mode := by unfold Tile.boundary; (repeat' split) <;> simp
@[simp] theorem tile_boundary_modeLate  : (t.boundary).modeLate = t.modeLate := by unfold Tile.boundary; (repeat' split) <;> simp
@[simp] theorem tile_boundary_ovfSlots  : (t.boundary).ovfSlots = t.ovfSlots := by unfold Tile.boundary; (repeat' split) <;> simp
@[simp] theorem tile_boundary_tq  : (t.boundary).tq = t.tq := by unfold Tile.boundary; (repeat' split) <;> simp
@[simp] theorem tile_boundary_corrected  : (t.boundary).corrected = t.corrected := by unfold Tile.boundary; (repeat' split) <;> simp
@[simp] theorem tile_boundary_scrubLine  : (t.boundary).scrubLine = t.scrubLine := by unfold Tile.boundary; (repeat' split) <;> simp

/-! ## advance changes only csr, dbgFrom, haltReq, stepping, wait, pc, bpPassed -/

@[simp] theorem tile_advance_sreg (p : Nat) : (t.advance p).sreg = t.sreg := by unfold Tile.advance; simp
@[simp] theorem tile_advance_dreg (p : Nat) : (t.advance p).dreg = t.dreg := by unfold Tile.advance; simp
@[simp] theorem tile_advance_kreg (p : Nat) : (t.advance p).kreg = t.kreg := by unfold Tile.advance; simp
@[simp] theorem tile_advance_ibuf (p : Nat) : (t.advance p).ibuf = t.ibuf := by unfold Tile.advance; simp
@[simp] theorem tile_advance_fills (p : Nat) : (t.advance p).fills = t.fills := by unfold Tile.advance; simp
@[simp] theorem tile_advance_fetchErr (p : Nat) : (t.advance p).fetchErr = t.fetchErr := by unfold Tile.advance; simp
@[simp] theorem tile_advance_wbuf (p : Nat) : (t.advance p).wbuf = t.wbuf := by unfold Tile.advance; simp
@[simp] theorem tile_advance_acc (p : Nat) : (t.advance p).acc = t.acc := by unfold Tile.advance; simp
@[simp] theorem tile_advance_bins (p : Nat) : (t.advance p).bins = t.bins := by unfold Tile.advance; simp
@[simp] theorem tile_advance_chains (p : Nat) : (t.advance p).chains = t.chains := by unfold Tile.advance; simp
@[simp] theorem tile_advance_mq (p : Nat) : (t.advance p).mq = t.mq := by unfold Tile.advance; simp
@[simp] theorem tile_advance_convs (p : Nat) : (t.advance p).convs = t.convs := by unfold Tile.advance; simp
@[simp] theorem tile_advance_srf (p : Nat) : (t.advance p).srf = t.srf := by unfold Tile.advance; simp
@[simp] theorem tile_advance_fu (p : Nat) : (t.advance p).fu = t.fu := by unfold Tile.advance; simp
@[simp] theorem tile_advance_inflight (p : Nat) : (t.advance p).inflight = t.inflight := by unfold Tile.advance; simp
@[simp] theorem tile_advance_seq (p : Nat) : (t.advance p).seq = t.seq := by unfold Tile.advance; simp
@[simp] theorem tile_advance_phase (p : Nat) : (t.advance p).phase = t.phase := by unfold Tile.advance; simp
@[simp] theorem tile_advance_mode (p : Nat) : (t.advance p).mode = t.mode := by unfold Tile.advance; simp
@[simp] theorem tile_advance_modeLate (p : Nat) : (t.advance p).modeLate = t.modeLate := by unfold Tile.advance; simp
@[simp] theorem tile_advance_ovfSlots (p : Nat) : (t.advance p).ovfSlots = t.ovfSlots := by unfold Tile.advance; simp
@[simp] theorem tile_advance_tq (p : Nat) : (t.advance p).tq = t.tq := by unfold Tile.advance; simp
@[simp] theorem tile_advance_corrected (p : Nat) : (t.advance p).corrected = t.corrected := by unfold Tile.advance; simp
@[simp] theorem tile_advance_scrubLine (p : Nat) : (t.advance p).scrubLine = t.scrubLine := by unfold Tile.advance; simp
@[simp] theorem tile_advance_pc (p : Nat) : (t.advance p).pc = p := by unfold Tile.advance; simp
@[simp] theorem tile_advance_bpPassed (p : Nat) : (t.advance p).bpPassed = false := by unfold Tile.advance; simp

end Sys2Proof.Laws
end

