-- ==== Sys2Proof/Laws/Issue.lean ====
section
/-! SUPPORT. What the issue of an instruction can do, said once (spec/07_nolpa_programming.md R211, R212, R223). -/
namespace Sys2Proof.Laws

open Sys2Proof.Machine

/-- The state an issuing instruction's effect starts from: recency of the instruction buffer alone has changed. -/
theorem issue_next (i : Issue) (isRow : W64 → Bool) (run : Nat → State → State) (s : State) (h : s.Issues i)
    (hr : isRow i.word = true) :
    ∃ b, issue i isRow run s = .next (run i.tile (s.setTile i.tile { s.tile i.tile with ibuf := b })) := by
  obtain ⟨h1, h2, h3, h4, h5, h6, h7⟩ := h
  have touch : ∀ (t : Tile) (a : Nat), ∃ b, t.touchAt a = { t with ibuf := b } := fun t a => by
    unfold Tile.touchAt
    cases t.lineAt a with
    | none => exact ⟨t.ibuf, rfl⟩
    | some l => exact ⟨_, rfl⟩
  unfold issue
  simp only [h1, h2, h3, h4, h6, h7, hr, and_self, if_true, ne_eq, not_true_eq_false, if_false, Bool.not_true,
    Bool.false_and, Bool.false_eq_true]
  obtain ⟨b, hb⟩ := touch (s.tile i.tile) (s.tile i.tile).pc
  cases hx : isX i.word with
  | true =>
    simp only [h5 hx, if_true, not_true_eq_false, if_false]
    rw [hb]
    obtain ⟨b', hb'⟩ := touch { s.tile i.tile with ibuf := b } (((s.tile i.tile).pc + 8) % 2 ^ 48)
    exact ⟨b', by rw [hb']⟩
  | false =>
    simp only [Bool.false_eq_true, if_false, not_true_eq_false]
    exact ⟨b, by rw [hb]⟩

/-- Every issue answers a next state: an instruction that does not issue leaves its command without effect, or is an
exception or a fill. -/
theorem issue_completes (i : Issue) (isRow : W64 → Bool) (run : Nat → State → State) (s : State) :
    ∃ t, issue i isRow run s = .next t := by
  unfold issue
  dsimp only
  repeat' split
  all_goals exact ⟨_, rfl⟩

/-- A T-class instruction enters its engine and its effect follows. -/
theorem issueT_next (i : Issue) (isRow : W64 → Bool) (eff : Nat → Nat → State → State) (s : State) (h : s.Issues i)
    (hr : isRow i.word = true) :
    ∃ b, issueT i isRow eff s = .next (eff i.tile (s.tile i.tile).seq
      ((s.setTile i.tile { s.tile i.tile with ibuf := b }).enter i.tile i.word)) := by
  obtain ⟨b, hb⟩ := issue_next i isRow (fun n s => eff n (s.tile n).seq (s.enter n i.word)) s h hr
  exact ⟨b, by simpa [issueT] using hb⟩

/-- A T-class instruction of an engine other than the matrix engine that does not have to wait starts at once. -/
theorem issueE_next (i : Issue) (isRow : W64 → Bool) (mark run : State → Nat → TOp → State) (s : State) (h : s.Issues i)
    (hr : isRow i.word = true) :
    ∃ b, let u := s.setTile i.tile { s.tile i.tile with ibuf := b }
      let o := u.top i.tile i
      let e := mark (u.enter i.tile i.word) i.tile o
      issueE i isRow mark run s = .next
        (if u.mustWait i.tile o then e.updTile i.tile (fun t => { t with tq := t.tq ++ [o] }) else run e i.tile o) :=
  issue_next i isRow _ s h hr

theorem canIssue_wait (t : Tile) (h : t.canIssue = true) : t.state = tsRunning ∧ t.wait = .none ∧ t.haltReq = false := by
  unfold Tile.canIssue at h
  simp only [Bool.and_eq_true, beq_iff_eq, Bool.not_eq_true'] at h
  exact ⟨h.1.1.1, h.1.1.2, h.1.2⟩

end Sys2Proof.Laws
end

