-- ==== Sys2Proof/Laws/Advance.lean ====
section
/-! SUPPORT. What moving past an instruction does to its tile (spec/07_nolpa_programming.md R211, R241, R243). -/
namespace Sys2Proof.Laws

open Sys2Proof.Machine

/-- A debug entry writes TC_STATUS.state and TC_DBG_STS, and leaves the other registers alone. -/
theorem enterDebug_word (t : Tile) (r o : Nat) (h1 : o ≠ Csr.tcStatus) (h2 : o ≠ Csr.tcDbgSts) :
    (t.enterDebug r).word o = t.word o := by
  unfold Tile.enterDebug Tile.setState
  rw [twrd_setFld_other _ _ _ _ h2, twrd_setFld_other _ _ _ _ h2, twrd_setFld_other _ _ _ _ h1]
  rfl

theorem enterDebug_state (t : Tile) (r : Nat) : (t.enterDebug r).state = tsDebug := by
  unfold Tile.enterDebug Tile.setState Tile.state
  rw [tfld_setFld_other _ _ _ _ (by decide) (by decide), tfld_setFld_other _ _ _ _ (by decide) (by decide),
    tfld_setFld_same _ _ _ (by decide)]
  rfl

theorem enterDebug_reason (t : Tile) (r : Nat) : (t.enterDebug r).fld Csr.tcDbgSts_reason = r % 4 := by
  unfold Tile.enterDebug Tile.setState
  rw [tfld_setFld_other _ _ _ _ (by decide) (by decide), tfld_setFld_same _ _ _ (by decide)]
  rfl

theorem enterDebug_halted (t : Tile) (r : Nat) : (t.enterDebug r).fld Csr.tcDbgSts_halted = 0 := by
  unfold Tile.enterDebug Tile.setState
  rw [tfld_setFld_same _ _ _ (by decide)]
  rfl

/-- The fields of TC_STATUS above its state stay. -/
theorem enterDebug_fld (t : Tile) (r : Nat) (g : Fld) (h : g.off = Csr.tcStatus) (hl : 2 ≤ g.lo) :
    (t.enterDebug r).fld g = t.fld g := by
  unfold Tile.enterDebug Tile.setState
  rw [tfld_setFld_other _ _ _ _ (by decide) (Or.inl (by rw [h]; decide)),
    tfld_setFld_other _ _ _ _ (by decide) (Or.inl (by rw [h]; decide)),
    tfld_setFld_other _ _ _ _ (by decide) (Or.inr (Or.inr (by simpa using hl)))]
  rfl

/-- What `advance` does, for a tile that runs and waits for nothing. -/
theorem advance_cases (t : Tile) (pc' : Nat) (hs : t.state = tsRunning) (hw : t.wait = .none) (hh : t.haltReq = false) :
    let u : Tile := { t.setWord Csr.tcInstret (t.word Csr.tcInstret + 1) with pc := pc', bpPassed := false }
    t.advance pc' = if t.stepping then u.enterDebug haltStep else u := by
  intro u
  have hs' : u.state = tsRunning := by
    rw [← hs]
    show bits ((t.setWord Csr.tcInstret _).word _) _ _ = _
    rw [twrd_setWord, if_neg (by decide)]
    rfl
  have e : t.advance pc' = u.boundary := rfl
  have hb : u.atBoundary = true := by
    show (match t.wait with | .mem .. => false | _ => true) = true
    rw [hw]
  have h1 : u.stepping = t.stepping := rfl
  have h2 : u.haltReq = t.haltReq := rfl
  rw [e]
  unfold Tile.boundary
  rw [hs', hb, h1, h2, hh]
  simp

end Sys2Proof.Laws
end

