-- ==== Sys2Proof/Laws/Events.lean ====
section
/-! SUPPORT. What raising an event can do, said once (spec/06_memory_and_ordering.md R198, R200). -/
namespace Sys2Proof.Laws

open Sys2Proof.Machine

/-- `t` follows from `s` by the delivery of event records: memory with its words reported uncorrectable, registers
from 0x700000 up, the holding queues with their marks, the ticks of reported denials and the output alone may have
changed, and memory keeps its canonical form. -/
structure EventsOnly (s t : State) : Prop where
  frame : t = { s with mem := t.mem, ueWords := t.ueWords, csr := t.csr, held := t.held, lostMark := t.lostMark,
                       overflowed := t.overflowed, denyTick := t.denyTick, out := t.out }
  low : ∀ o, o < 0x700000 → t.word o = s.word o
  wf : Memory.wf s.mem = true → Memory.wf t.mem = true

theorem eventsOnly_refl (s : State) : EventsOnly s s := ⟨rfl, fun _ _ => rfl, id⟩

theorem eventsOnly_trans {s t u : State} (h : EventsOnly s t) (k : EventsOnly t u) : EventsOnly s u := by
  refine ⟨?_, fun o ho => (k.low o ho).trans (h.low o ho), fun w => k.wf (h.wf w)⟩
  have e := k.frame
  rw [h.frame] at e
  exact e

theorem eventsOnly_setFld (s : State) (f : Fld) (v : Nat) (h : 0x700000 ≤ f.off) : EventsOnly s (s.setFld f v) :=
  ⟨rfl, fun o ho => word_setFld_other s f v o (by omega), id⟩

theorem eventsOnly_addFld (s : State) (f : Fld) (n : Nat) (h : 0x700000 ≤ f.off) : EventsOnly s (s.addFld f n) :=
  eventsOnly_setFld s f _ h

theorem eventsOnly_writeBytes (s : State) (a : Nat) (bs : List Byte) : EventsOnly s (s.writeBytes a bs) :=
  ⟨rfl, fun _ _ => rfl, wf_writeBytes s a bs⟩

theorem eventsOnly_emit (s : State) (o : Out) : EventsOnly s (s.emit o) := by
  unfold State.emit
  split
  · exact eventsOnly_refl s
  · exact ⟨rfl, fun _ _ => rfl, id⟩

theorem eventsOnly_setLost (s : State) (o : Nat) (b : Bool) : EventsOnly s (s.setLost o b) := ⟨rfl, fun _ _ => rfl, id⟩

theorem eventsOnly_setOverflowed (s : State) (o : Nat) (b : Bool) : EventsOnly s (s.setOverflowed o b) :=
  ⟨rfl, fun _ _ => rfl, id⟩

theorem eventsOnly_setHeld (s : State) (o : Nat) (q : List (Nat × EvRec)) : EventsOnly s (s.setHeld o q) := by
  unfold State.setHeld
  refine eventsOnly_trans (t := { s with held := NMap.set (fun _ => []) s.held o q }) ⟨rfl, fun _ _ => rfl, id⟩
    (eventsOnly_setFld _ _ _ ?_)
  split
  · decide
  · show 0x700000 ≤ Csr.memPevqLost o
    unfold Csr.memPevqLost
    omega

theorem eventsOnly_writeM (s : State) (r : EvRec) : EventsOnly s (s.writeM r) :=
  eventsOnly_trans (eventsOnly_trans (eventsOnly_writeBytes s _ _) (eventsOnly_setLost _ _ _))
    (eventsOnly_setFld _ _ _ (by decide))

theorem eventsOnly_dropM (s : State) : EventsOnly s s.dropM := by
  unfold State.dropM
  have h : EventsOnly s ((s.addFld Csr.memMevqLost_lost 1).setLost ownM true) :=
    eventsOnly_trans (eventsOnly_addFld s _ _ (by decide)) (eventsOnly_setLost _ _ _)
  dsimp only
  split
  · exact h
  · refine eventsOnly_trans (eventsOnly_trans h (eventsOnly_setOverflowed _ ownM true)) ?_
    split
    · exact eventsOnly_setHeld _ _ _
    · exact eventsOnly_addFld _ _ _ (by decide)

theorem eventsOnly_putM (s : State) (r : EvRec) (hold : Bool) : EventsOnly s (s.putM r hold) := by
  unfold State.putM
  dsimp only
  repeat' split
  · exact eventsOnly_dropM s
  · exact eventsOnly_writeM s r
  · exact eventsOnly_setHeld _ _ _
  · exact eventsOnly_dropM s

theorem eventsOnly_foldl {α : Type} (f : State → α → State) (h : ∀ s x, EventsOnly s (f s x)) (l : List α) (s : State) :
    EventsOnly s (l.foldl f s) := by
  induction l generalizing s with
  | nil => exact eventsOnly_refl s
  | cons x l ih => exact eventsOnly_trans (h s x) (ih (f s x))

theorem eventsOnly_signalVectors (s : State) (r : Nat) : EventsOnly s (s.signalVectors r) := by
  unfold State.signalVectors
  refine eventsOnly_foldl _ (fun s v => ?_) _ s
  split
  · exact eventsOnly_emit s _
  · exact eventsOnly_refl s

theorem eventsOnly_storeRecord (s : State) (r : Nat) (c : Ring) (e : EvRec) : EventsOnly s (s.storeRecord r c e) := by
  unfold State.storeRecord
  dsimp only
  refine eventsOnly_trans ?_ (eventsOnly_signalVectors _ _)
  refine eventsOnly_trans (eventsOnly_trans (eventsOnly_writeBytes s _ _) (eventsOnly_setLost _ _ _))
    (eventsOnly_setFld _ _ _ ?_)
  show 0x700000 ≤ Csr.memRingSts r
  unfold Csr.memRingSts
  omega

theorem memPevqLost_high (p : Nat) : 0x700000 ≤ (Csr.memPevqLost_lost p).off := by
  show 0x700000 ≤ Csr.memPevqLost p
  unfold Csr.memPevqLost
  omega

theorem eventsOnly_dropP (s : State) (p : Nat) : EventsOnly s (s.dropP p) := by
  unfold State.dropP
  have h : EventsOnly s ((s.addFld (Csr.memPevqLost_lost p) 1).setLost p true) :=
    eventsOnly_trans (eventsOnly_addFld s _ _ (memPevqLost_high p)) (eventsOnly_setLost _ _ _)
  dsimp only
  split
  · exact h
  · exact eventsOnly_trans (eventsOnly_trans h (eventsOnly_setOverflowed _ p true)) (eventsOnly_putM _ _ _)

theorem eventsOnly_countDeny (s : State) (o : Origin) (a : Nat) : EventsOnly s (s.countDeny o a) := by
  unfold State.countDeny
  generalize (match o with
    | .loc p _ => (p, 0)
    | .remote _ p _ => (p, 1)
    | .vf p => (p, 2)
    | _ => (0, 2) : Nat × Nat) = x
  obtain ⟨p, g⟩ := x
  dsimp only
  refine eventsOnly_trans ?_ (eventsOnly_addFld _ _ _ (by decide))
  split
  · exact eventsOnly_trans (eventsOnly_trans (eventsOnly_setFld s _ _ (by decide)) (eventsOnly_setFld _ _ _ (by decide)))
      (eventsOnly_setFld _ _ _ (by decide))
  · exact eventsOnly_refl s

/-- A record written into a ring, where the report of a denial does what `EventsOnly` says. -/
theorem eventsOnly_writeRecord (d : State → Origin → Nat → State) (hd : ∀ s o a, EventsOnly s (d s o a)) (s : State) (r : Nat)
    (e : EvRec) : EventsOnly s (s.writeRecord d r e) := by
  unfold State.writeRecord
  dsimp only
  repeat' split
  · exact eventsOnly_refl s
  · exact eventsOnly_trans (hd _ _ _) (eventsOnly_dropP _ _)
  · exact eventsOnly_dropP _ _
  · exact eventsOnly_storeRecord _ _ _ _

theorem eventsOnly_putRing (d : State → Origin → Nat → State) (hd : ∀ s o a, EventsOnly s (d s o a)) (s : State) (r : Nat)
    (e : EvRec) : EventsOnly s (s.putRing d r e) := by
  unfold State.putRing
  dsimp only
  repeat' split
  · exact eventsOnly_writeRecord d hd _ _ _
  · exact eventsOnly_setHeld _ _ _
  · exact eventsOnly_dropP _ _

/-- The tick of a source's last report noted. -/
theorem eventsOnly_denyTick (s : State) (m : NMap (Option W64)) : EventsOnly s { s with denyTick := m } :=
  ⟨rfl, fun _ _ => rfl, id⟩

theorem eventsOnly_reportDeny (s : State) (o : Origin) (a : Nat) : EventsOnly s (s.reportDeny o a) := by
  unfold State.reportDeny
  refine eventsOnly_trans ?_ (eventsOnly_putM _ _ _)
  repeat' split
  · exact eventsOnly_putRing _ eventsOnly_countDeny _ _ _
  · exact eventsOnly_addFld _ _ _ (memPevqLost_high _)
  · exact eventsOnly_refl _

/-- A denial reported. -/
theorem deny_frame (s : State) (o : Origin) (a : Nat) : EventsOnly s (s.deny o a) := by
  have h := eventsOnly_countDeny s o a
  unfold State.deny
  generalize s.countDeny o a = u at h ⊢
  dsimp only
  split
  · exact h
  · exact eventsOnly_trans h (eventsOnly_trans (eventsOnly_denyTick u _) (eventsOnly_reportDeny _ o a))

theorem eventsOnly_putP (s : State) (r : Nat) (e : EvRec) : EventsOnly s (s.putP r e) :=
  eventsOnly_putRing _ deny_frame s r e

theorem eventsOnly_putPart (s : State) (p : Nat) (e : EvRec) : EventsOnly s (s.putPart p e) := by
  unfold State.putPart
  split
  · exact eventsOnly_putP _ _ _
  · exact eventsOnly_addFld _ _ _ (memPevqLost_high p)

/-- An event raised to the M level. -/
theorem raiseM_frame (s : State) (e : Event) : EventsOnly s (s.raiseM e) := eventsOnly_putM _ _ _

/-- An event raised. -/
theorem raise_frame (s : State) (e : Event) : EventsOnly s (s.raise e) := by
  unfold State.raise
  dsimp only
  split
  · exact eventsOnly_trans (eventsOnly_putPart s _ _) (eventsOnly_putM _ _ _)
  · exact eventsOnly_putM _ _ _

theorem raiseXfer_frame (s : State) (evq : Nat) (e : Event) : EventsOnly s (s.raiseXfer evq e) :=
  eventsOnly_trans (eventsOnly_putP s _ _) (eventsOnly_putM _ _ _)

theorem raiseAll_frame (s : State) (es : List Event) : EventsOnly s (s.raiseAll es) :=
  eventsOnly_foldl _ (fun s e => raise_frame s e) es s

theorem drainP_frame (p n : Nat) (s : State) : EventsOnly s (s.drainP p n) := by
  induction n generalizing s with
  | zero => exact eventsOnly_refl s
  | succ n ih =>
    unfold State.drainP
    dsimp only
    split
    · exact eventsOnly_refl s
    · exact eventsOnly_trans (eventsOnly_trans (eventsOnly_setHeld s _ _)
        (eventsOnly_writeRecord _ deny_frame _ _ _)) (ih _)

theorem drainM_frame (n : Nat) (s : State) : EventsOnly s (s.drainM n) := by
  induction n generalizing s with
  | zero => exact eventsOnly_refl s
  | succ n ih =>
    unfold State.drainM
    split
    · exact eventsOnly_refl s
    · rename_i e q _
      split
      · dsimp only
        refine eventsOnly_trans (eventsOnly_trans (eventsOnly_setHeld s ownM q) ?_) (ih _)
        split
        · exact eventsOnly_dropM _
        · exact eventsOnly_writeM _ _
      · exact eventsOnly_refl s

/-! What a raised event leaves alone, field by field, where statements ask for it. -/

@[simp] theorem raise_pending (s : State) (e : Event) : (s.raise e).pending = s.pending := by rw [(raise_frame s e).frame]
@[simp] theorem raise_tiles (s : State) (e : Event) : (s.raise e).tiles = s.tiles := by rw [(raise_frame s e).frame]
@[simp] theorem raise_rings (s : State) (e : Event) : (s.raise e).rings = s.rings := by rw [(raise_frame s e).frame]
@[simp] theorem raise_count (s : State) (e : Event) : (s.raise e).count = s.count := by rw [(raise_frame s e).frame]
@[simp] theorem raise_otp (s : State) (e : Event) : (s.raise e).otp = s.otp := by rw [(raise_frame s e).frame]
@[simp] theorem raise_seqs (s : State) (e : Event) : (s.raise e).seqs = s.seqs := by rw [(raise_frame s e).frame]
@[simp] theorem raise_power (s : State) (e : Event) : (s.raise e).power = s.power := by rw [(raise_frame s e).frame]
@[simp] theorem raise_disc (s : State) (e : Event) : (s.raise e).disc = s.disc := by rw [(raise_frame s e).frame]
@[simp] theorem raise_datum (s : State) (e : Event) : (s.raise e).datum = s.datum := by rw [(raise_frame s e).frame]
@[simp] theorem raise_ports (s : State) (e : Event) : (s.raise e).ports = s.ports := by rw [(raise_frame s e).frame]
@[simp] theorem raise_tile (s : State) (e : Event) (n : Nat) : (s.raise e).tile n = s.tile n := by
  unfold State.tile; rw [raise_tiles]
@[simp] theorem raiseM_pending (s : State) (e : Event) : (s.raiseM e).pending = s.pending := by rw [(raiseM_frame s e).frame]
@[simp] theorem raiseM_tiles (s : State) (e : Event) : (s.raiseM e).tiles = s.tiles := by rw [(raiseM_frame s e).frame]
@[simp] theorem raiseM_rings (s : State) (e : Event) : (s.raiseM e).rings = s.rings := by rw [(raiseM_frame s e).frame]
@[simp] theorem raiseM_count (s : State) (e : Event) : (s.raiseM e).count = s.count := by rw [(raiseM_frame s e).frame]
@[simp] theorem raiseM_otp (s : State) (e : Event) : (s.raiseM e).otp = s.otp := by rw [(raiseM_frame s e).frame]
@[simp] theorem raiseM_power (s : State) (e : Event) : (s.raiseM e).power = s.power := by rw [(raiseM_frame s e).frame]
@[simp] theorem raiseM_disc (s : State) (e : Event) : (s.raiseM e).disc = s.disc := by rw [(raiseM_frame s e).frame]
@[simp] theorem raiseM_datum (s : State) (e : Event) : (s.raiseM e).datum = s.datum := by rw [(raiseM_frame s e).frame]
@[simp] theorem raiseM_ports (s : State) (e : Event) : (s.raiseM e).ports = s.ports := by rw [(raiseM_frame s e).frame]
@[simp] theorem raiseM_tile (s : State) (e : Event) (n : Nat) : (s.raiseM e).tile n = s.tile n := by
  unfold State.tile; rw [raiseM_tiles]

end Sys2Proof.Laws
end

