-- ==== Sys2Proof/Laws/Exec.lean ====
section
/-! SUPPORT. Each command's arm of exec, one lemma per command. -/
namespace Sys2Proof.Laws

open Sys2Proof.Machine

@[simp] theorem exec_registerWrite (who : Who) (addr : Nat) (size : Nat) (value : W64) (s : State) :
    exec (.registerWrite who addr size value) s = execRegisterWrite who addr size value s := rfl
@[simp] theorem exec_coldReset (s : State) :
    exec (.coldReset) s = execColdReset s := rfl
@[simp] theorem exec_startupBegin (pos : Nat) (s : State) :
    exec (.startupBegin pos) s = execStartupBegin pos s := rfl
@[simp] theorem exec_warmReset (s : State) :
    exec (.warmReset) s = execWarmReset s := rfl
@[simp] theorem exec_resetNRelease (s : State) :
    exec (.resetNRelease) s = execResetNRelease s := rfl
@[simp] theorem exec_perstAssert (s : State) :
    exec (.perstAssert) s = execPerstAssert s := rfl
@[simp] theorem exec_pcieTrainingStart (s : State) :
    exec (.pcieTrainingStart) s = execPcieTrainingStart s := rfl
@[simp] theorem exec_ioscStable (s : State) :
    exec (.ioscStable) s = execIoscStable s := rfl
@[simp] theorem exec_clkmonWindow (edges : Nat) (s : State) :
    exec (.clkmonWindow edges) s = execClkmonWindow edges s := rfl
@[simp] theorem exec_refclkUnqualTimeout (s : State) :
    exec (.refclkUnqualTimeout) s = execRefclkUnqualTimeout s := rfl
@[simp] theorem exec_pllWrite (dom : Nat) (b : Bool) (value : W64) (s : State) :
    exec (.pllWrite dom b value) s = execPllWrite dom b value s := rfl
@[simp] theorem exec_pllReady (dom : Nat) (b : Bool) (s : State) :
    exec (.pllReady dom b) s = execPllReady dom b s := rfl
@[simp] theorem exec_pllUnlock (pll : Pll) (s : State) :
    exec (.pllUnlock pll) s = execPllUnlock pll s := rfl
@[simp] theorem exec_clkSwitchRequest (dom : Nat) (source : Nat) (s : State) :
    exec (.clkSwitchRequest dom source) s = execClkSwitchRequest dom source s := rfl
@[simp] theorem exec_heldSwitchProceed (dom : Nat) (s : State) :
    exec (.heldSwitchProceed dom) s = execHeldSwitchProceed dom s := rfl
@[simp] theorem exec_crossingBackpressureTimeout (xing : Nat) (s : State) :
    exec (.crossingBackpressureTimeout xing) s = execCrossingBackpressureTimeout xing s := rfl
@[simp] theorem exec_crossingReadyRequest (xing : Nat) (s : State) :
    exec (.crossingReadyRequest xing) s = execCrossingReadyRequest xing s := rfl
@[simp] theorem exec_crossingReadyAck (xing : Nat) (s : State) :
    exec (.crossingReadyAck xing) s = execCrossingReadyAck xing s := rfl
@[simp] theorem exec_mxw (i : Issue) (s : State) :
    exec (.mxw i) s = execMxw i s := rfl
@[simp] theorem exec_mxwLoadStart (tile : Nat) (s : State) :
    exec (.mxwLoadStart tile) s = execMxwLoadStart tile s := rfl
@[simp] theorem exec_mxmOpen (i : Issue) (s : State) :
    exec (.mxmOpen i) s = execMxmOpen i s := rfl
@[simp] theorem exec_mxmAdd (i : Issue) (s : State) :
    exec (.mxmAdd i) s = execMxmAdd i s := rfl
@[simp] theorem exec_outputConversion (tile : Nat) (slot : Nat) (s : State) :
    exec (.outputConversion tile slot) s = execOutputConversion tile slot s := rfl
@[simp] theorem exec_cfgCtrClr (tile : Nat) (slot : Nat) (value : W64) (s : State) :
    exec (.cfgCtrClr tile slot value) s = execCfgCtrClr tile slot value s := rfl
@[simp] theorem exec_cfgFmtcClr (tile : Nat) (value : W64) (s : State) :
    exec (.cfgFmtcClr tile value) s = execCfgFmtcClr tile value s := rfl
@[simp] theorem exec_cvt (i : Issue) (s : State) :
    exec (.cvt i) s = execCvt i s := rfl
@[simp] theorem exec_fadd (i : Issue) (s : State) :
    exec (.fadd i) s = execFadd i s := rfl
@[simp] theorem exec_fsub (i : Issue) (s : State) :
    exec (.fsub i) s = execFsub i s := rfl
@[simp] theorem exec_fmul (i : Issue) (s : State) :
    exec (.fmul i) s = execFmul i s := rfl
@[simp] theorem exec_fma (i : Issue) (s : State) :
    exec (.fma i) s = execFma i s := rfl
@[simp] theorem exec_fdiv (i : Issue) (s : State) :
    exec (.fdiv i) s = execFdiv i s := rfl
@[simp] theorem exec_fsqrt (i : Issue) (s : State) :
    exec (.fsqrt i) s = execFsqrt i s := rfl
@[simp] theorem exec_fmin (i : Issue) (s : State) :
    exec (.fmin i) s = execFmin i s := rfl
@[simp] theorem exec_fmax (i : Issue) (s : State) :
    exec (.fmax i) s = execFmax i s := rfl
@[simp] theorem exec_fcmpEq (i : Issue) (s : State) :
    exec (.fcmpEq i) s = execFcmpEq i s := rfl
@[simp] theorem exec_fcmpLt (i : Issue) (s : State) :
    exec (.fcmpLt i) s = execFcmpLt i s := rfl
@[simp] theorem exec_fcmpLe (i : Issue) (s : State) :
    exec (.fcmpLe i) s = execFcmpLe i s := rfl
@[simp] theorem exec_fcmpUn (i : Issue) (s : State) :
    exec (.fcmpUn i) s = execFcmpUn i s := rfl
@[simp] theorem exec_lmul (i : Issue) (s : State) :
    exec (.lmul i) s = execLmul i s := rfl
@[simp] theorem exec_ldiv (i : Issue) (s : State) :
    exec (.ldiv i) s = execLdiv i s := rfl
@[simp] theorem exec_lrcp (i : Issue) (s : State) :
    exec (.lrcp i) s = execLrcp i s := rfl
@[simp] theorem exec_lsqrt (i : Issue) (s : State) :
    exec (.lsqrt i) s = execLsqrt i s := rfl
@[simp] theorem exec_lrsqrt (i : Issue) (s : State) :
    exec (.lrsqrt i) s = execLrsqrt i s := rfl
@[simp] theorem exec_lcmpEq (i : Issue) (s : State) :
    exec (.lcmpEq i) s = execLcmpEq i s := rfl
@[simp] theorem exec_lcmpLt (i : Issue) (s : State) :
    exec (.lcmpLt i) s = execLcmpLt i s := rfl
@[simp] theorem exec_lcmpLe (i : Issue) (s : State) :
    exec (.lcmpLe i) s = execLcmpLe i s := rfl
@[simp] theorem exec_lcmpUn (i : Issue) (s : State) :
    exec (.lcmpUn i) s = execLcmpUn i s := rfl
@[simp] theorem exec_iaddW (i : Issue) (s : State) :
    exec (.iaddW i) s = execIaddW i s := rfl
@[simp] theorem exec_isubW (i : Issue) (s : State) :
    exec (.isubW i) s = execIsubW i s := rfl
@[simp] theorem exec_imulW (i : Issue) (s : State) :
    exec (.imulW i) s = execImulW i s := rfl
@[simp] theorem exec_andW (i : Issue) (s : State) :
    exec (.andW i) s = execAndW i s := rfl
@[simp] theorem exec_orW (i : Issue) (s : State) :
    exec (.orW i) s = execOrW i s := rfl
@[simp] theorem exec_xorW (i : Issue) (s : State) :
    exec (.xorW i) s = execXorW i s := rfl
@[simp] theorem exec_sllW (i : Issue) (s : State) :
    exec (.sllW i) s = execSllW i s := rfl
@[simp] theorem exec_srlW (i : Issue) (s : State) :
    exec (.srlW i) s = execSrlW i s := rfl
@[simp] theorem exec_sraW (i : Issue) (s : State) :
    exec (.sraW i) s = execSraW i s := rfl
@[simp] theorem exec_iminW (i : Issue) (s : State) :
    exec (.iminW i) s = execIminW i s := rfl
@[simp] theorem exec_imaxW (i : Issue) (s : State) :
    exec (.imaxW i) s = execImaxW i s := rfl
@[simp] theorem exec_icmpEqW (i : Issue) (s : State) :
    exec (.icmpEqW i) s = execIcmpEqW i s := rfl
@[simp] theorem exec_icmpLtW (i : Issue) (s : State) :
    exec (.icmpLtW i) s = execIcmpLtW i s := rfl
@[simp] theorem exec_icmpLtuW (i : Issue) (s : State) :
    exec (.icmpLtuW i) s = execIcmpLtuW i s := rfl
@[simp] theorem exec_iaddD (i : Issue) (s : State) :
    exec (.iaddD i) s = execIaddD i s := rfl
@[simp] theorem exec_isubD (i : Issue) (s : State) :
    exec (.isubD i) s = execIsubD i s := rfl
@[simp] theorem exec_andD (i : Issue) (s : State) :
    exec (.andD i) s = execAndD i s := rfl
@[simp] theorem exec_orD (i : Issue) (s : State) :
    exec (.orD i) s = execOrD i s := rfl
@[simp] theorem exec_xorD (i : Issue) (s : State) :
    exec (.xorD i) s = execXorD i s := rfl
@[simp] theorem exec_sllD (i : Issue) (s : State) :
    exec (.sllD i) s = execSllD i s := rfl
@[simp] theorem exec_srlD (i : Issue) (s : State) :
    exec (.srlD i) s = execSrlD i s := rfl
@[simp] theorem exec_sraD (i : Issue) (s : State) :
    exec (.sraD i) s = execSraD i s := rfl
@[simp] theorem exec_sel (i : Issue) (s : State) :
    exec (.sel i) s = execSel i s := rfl
@[simp] theorem exec_perm (i : Issue) (s : State) :
    exec (.perm i) s = execPerm i s := rfl
@[simp] theorem exec_ladd (i : Issue) (s : State) :
    exec (.ladd i) s = execLadd i s := rfl
@[simp] theorem exec_laddSub (i : Issue) (s : State) :
    exec (.laddSub i) s = execLaddSub i s := rfl
@[simp] theorem exec_fntExp (i : Issue) (s : State) :
    exec (.fntExp i) s = execFntExp i s := rfl
@[simp] theorem exec_fntExp2 (i : Issue) (s : State) :
    exec (.fntExp2 i) s = execFntExp2 i s := rfl
@[simp] theorem exec_fntLog (i : Issue) (s : State) :
    exec (.fntLog i) s = execFntLog i s := rfl
@[simp] theorem exec_fntLog2 (i : Issue) (s : State) :
    exec (.fntLog2 i) s = execFntLog2 i s := rfl
@[simp] theorem exec_fntReciprocal (i : Issue) (s : State) :
    exec (.fntReciprocal i) s = execFntReciprocal i s := rfl
@[simp] theorem exec_fntRsqrt (i : Issue) (s : State) :
    exec (.fntRsqrt i) s = execFntRsqrt i s := rfl
@[simp] theorem exec_fntTable (i : Issue) (s : State) :
    exec (.fntTable i) s = execFntTable i s := rfl
@[simp] theorem exec_fntF (i : Issue) (s : State) :
    exec (.fntF i) s = execFntF i s := rfl
@[simp] theorem exec_redMax (i : Issue) (s : State) :
    exec (.redMax i) s = execRedMax i s := rfl
@[simp] theorem exec_redMin (i : Issue) (s : State) :
    exec (.redMin i) s = execRedMin i s := rfl
@[simp] theorem exec_redSum (i : Issue) (s : State) :
    exec (.redSum i) s = execRedSum i s := rfl
@[simp] theorem exec_redMom (i : Issue) (s : State) :
    exec (.redMom i) s = execRedMom i s := rfl
@[simp] theorem exec_redPsum (i : Issue) (s : State) :
    exec (.redPsum i) s = execRedPsum i s := rfl
@[simp] theorem exec_redMomfin (i : Issue) (s : State) :
    exec (.redMomfin i) s = execRedMomfin i s := rfl
@[simp] theorem exec_redSoftmax (i : Issue) (s : State) :
    exec (.redSoftmax i) s = execRedSoftmax i s := rfl
@[simp] theorem exec_redSoftmaxBwd (i : Issue) (s : State) :
    exec (.redSoftmaxBwd i) s = execRedSoftmaxBwd i s := rfl
@[simp] theorem exec_had (i : Issue) (s : State) :
    exec (.had i) s = execHad i s := rfl
@[simp] theorem exec_movCopy (i : Issue) (s : State) :
    exec (.movCopy i) s = execMovCopy i s := rfl
@[simp] theorem exec_movSrf (i : Issue) (s : State) :
    exec (.movSrf i) s = execMovSrf i s := rfl
@[simp] theorem exec_movFuslot (i : Issue) (s : State) :
    exec (.movFuslot i) s = execMovFuslot i s := rfl
@[simp] theorem exec_coll (i : Issue) (s : State) :
    exec (.coll i) s = execColl i s := rfl
@[simp] theorem exec_rngRaw (i : Issue) (s : State) :
    exec (.rngRaw i) s = execRngRaw i s := rfl
@[simp] theorem exec_rngUniform (i : Issue) (s : State) :
    exec (.rngUniform i) s = execRngUniform i s := rfl
@[simp] theorem exec_rngBern (i : Issue) (s : State) :
    exec (.rngBern i) s = execRngBern i s := rfl
@[simp] theorem exec_histRead (i : Issue) (s : State) :
    exec (.histRead i) s = execHistRead i s := rfl
@[simp] theorem exec_histMerge (i : Issue) (s : State) :
    exec (.histMerge i) s = execHistMerge i s := rfl
@[simp] theorem exec_histAdapt (i : Issue) (s : State) :
    exec (.histAdapt i) s = execHistAdapt i s := rfl
@[simp] theorem exec_phase (i : Issue) (s : State) :
    exec (.phase i) s = execPhase i s := rfl
@[simp] theorem exec_tCompletion (tile : Nat) (engine : Nat) (s : State) :
    exec (.tCompletion tile engine) s = execTCompletion tile engine s := rfl
@[simp] theorem exec_add (i : Issue) (s : State) :
    exec (.add i) s = execAdd i s := rfl
@[simp] theorem exec_sub (i : Issue) (s : State) :
    exec (.sub i) s = execSub i s := rfl
@[simp] theorem exec_mul (i : Issue) (s : State) :
    exec (.mul i) s = execMul i s := rfl
@[simp] theorem exec_mulh (i : Issue) (s : State) :
    exec (.mulh i) s = execMulh i s := rfl
@[simp] theorem exec_mulhu (i : Issue) (s : State) :
    exec (.mulhu i) s = execMulhu i s := rfl
@[simp] theorem exec_div (i : Issue) (s : State) :
    exec (.div i) s = execDiv i s := rfl
@[simp] theorem exec_divu (i : Issue) (s : State) :
    exec (.divu i) s = execDivu i s := rfl
@[simp] theorem exec_rem (i : Issue) (s : State) :
    exec (.rem i) s = execRem i s := rfl
@[simp] theorem exec_remu (i : Issue) (s : State) :
    exec (.remu i) s = execRemu i s := rfl
@[simp] theorem exec_and (i : Issue) (s : State) :
    exec (.and i) s = execAnd i s := rfl
@[simp] theorem exec_or (i : Issue) (s : State) :
    exec (.or i) s = execOr i s := rfl
@[simp] theorem exec_xor (i : Issue) (s : State) :
    exec (.xor i) s = execXor i s := rfl
@[simp] theorem exec_sll (i : Issue) (s : State) :
    exec (.sll i) s = execSll i s := rfl
@[simp] theorem exec_srl (i : Issue) (s : State) :
    exec (.srl i) s = execSrl i s := rfl
@[simp] theorem exec_sra (i : Issue) (s : State) :
    exec (.sra i) s = execSra i s := rfl
@[simp] theorem exec_slt (i : Issue) (s : State) :
    exec (.slt i) s = execSlt i s := rfl
@[simp] theorem exec_sltu (i : Issue) (s : State) :
    exec (.sltu i) s = execSltu i s := rfl
@[simp] theorem exec_min (i : Issue) (s : State) :
    exec (.min i) s = execMin i s := rfl
@[simp] theorem exec_max (i : Issue) (s : State) :
    exec (.max i) s = execMax i s := rfl
@[simp] theorem exec_minu (i : Issue) (s : State) :
    exec (.minu i) s = execMinu i s := rfl
@[simp] theorem exec_maxu (i : Issue) (s : State) :
    exec (.maxu i) s = execMaxu i s := rfl
@[simp] theorem exec_clz (i : Issue) (s : State) :
    exec (.clz i) s = execClz i s := rfl
@[simp] theorem exec_popc (i : Issue) (s : State) :
    exec (.popc i) s = execPopc i s := rfl
@[simp] theorem exec_addi (i : Issue) (s : State) :
    exec (.addi i) s = execAddi i s := rfl
@[simp] theorem exec_andi (i : Issue) (s : State) :
    exec (.andi i) s = execAndi i s := rfl
@[simp] theorem exec_ori (i : Issue) (s : State) :
    exec (.ori i) s = execOri i s := rfl
@[simp] theorem exec_xori (i : Issue) (s : State) :
    exec (.xori i) s = execXori i s := rfl
@[simp] theorem exec_slli (i : Issue) (s : State) :
    exec (.slli i) s = execSlli i s := rfl
@[simp] theorem exec_srli (i : Issue) (s : State) :
    exec (.srli i) s = execSrli i s := rfl
@[simp] theorem exec_srai (i : Issue) (s : State) :
    exec (.srai i) s = execSrai i s := rfl
@[simp] theorem exec_slti (i : Issue) (s : State) :
    exec (.slti i) s = execSlti i s := rfl
@[simp] theorem exec_lih (i : Issue) (s : State) :
    exec (.lih i) s = execLih i s := rfl
@[simp] theorem exec_dgetw (i : Issue) (s : State) :
    exec (.dgetw i) s = execDgetw i s := rfl
@[simp] theorem exec_dsetw (i : Issue) (s : State) :
    exec (.dsetw i) s = execDsetw i s := rfl
@[simp] theorem exec_dmov (i : Issue) (s : State) :
    exec (.dmov i) s = execDmov i s := rfl
@[simp] theorem exec_daddb (i : Issue) (s : State) :
    exec (.daddb i) s = execDaddb i s := rfl
@[simp] theorem exec_nop (i : Issue) (s : State) :
    exec (.nop i) s = execNop i s := rfl
@[simp] theorem exec_lix (i : Issue) (s : State) :
    exec (.lix i) s = execLix i s := rfl
@[simp] theorem exec_addx (i : Issue) (s : State) :
    exec (.addx i) s = execAddx i s := rfl
@[simp] theorem exec_jal (i : Issue) (s : State) :
    exec (.jal i) s = execJal i s := rfl
@[simp] theorem exec_jalr (i : Issue) (s : State) :
    exec (.jalr i) s = execJalr i s := rfl
@[simp] theorem exec_beq (i : Issue) (s : State) :
    exec (.beq i) s = execBeq i s := rfl
@[simp] theorem exec_bne (i : Issue) (s : State) :
    exec (.bne i) s = execBne i s := rfl
@[simp] theorem exec_blt (i : Issue) (s : State) :
    exec (.blt i) s = execBlt i s := rfl
@[simp] theorem exec_bge (i : Issue) (s : State) :
    exec (.bge i) s = execBge i s := rfl
@[simp] theorem exec_bltu (i : Issue) (s : State) :
    exec (.bltu i) s = execBltu i s := rfl
@[simp] theorem exec_bgeu (i : Issue) (s : State) :
    exec (.bgeu i) s = execBgeu i s := rfl
@[simp] theorem exec_jx (i : Issue) (s : State) :
    exec (.jx i) s = execJx i s := rfl
@[simp] theorem exec_ld (i : Issue) (s : State) :
    exec (.ld i) s = execLd i s := rfl
@[simp] theorem exec_st (i : Issue) (s : State) :
    exec (.st i) s = execSt i s := rfl
@[simp] theorem exec_amoAddI32 (i : Issue) (s : State) :
    exec (.amoAddI32 i) s = execAmoAddI32 i s := rfl
@[simp] theorem exec_amoAddI64 (i : Issue) (s : State) :
    exec (.amoAddI64 i) s = execAmoAddI64 i s := rfl
@[simp] theorem exec_amoFadd (i : Issue) (s : State) :
    exec (.amoFadd i) s = execAmoFadd i s := rfl
@[simp] theorem exec_amoMaxI32 (i : Issue) (s : State) :
    exec (.amoMaxI32 i) s = execAmoMaxI32 i s := rfl
@[simp] theorem exec_amoMaxI64 (i : Issue) (s : State) :
    exec (.amoMaxI64 i) s = execAmoMaxI64 i s := rfl
@[simp] theorem exec_amoMinI32 (i : Issue) (s : State) :
    exec (.amoMinI32 i) s = execAmoMinI32 i s := rfl
@[simp] theorem exec_amoMinI64 (i : Issue) (s : State) :
    exec (.amoMinI64 i) s = execAmoMinI64 i s := rfl
@[simp] theorem exec_amoFmax (i : Issue) (s : State) :
    exec (.amoFmax i) s = execAmoFmax i s := rfl
@[simp] theorem exec_amoFmin (i : Issue) (s : State) :
    exec (.amoFmin i) s = execAmoFmin i s := rfl
@[simp] theorem exec_cas (i : Issue) (s : State) :
    exec (.cas i) s = execCas i s := rfl
@[simp] theorem exec_dld (i : Issue) (s : State) :
    exec (.dld i) s = execDld i s := rfl
@[simp] theorem exec_dst (i : Issue) (s : State) :
    exec (.dst i) s = execDst i s := rfl
@[simp] theorem exec_memAccessComplete (tile : Nat) (s : State) :
    exec (.memAccessComplete tile) s = execMemAccessComplete tile s := rfl
@[simp] theorem exec_wtk (i : Issue) (s : State) :
    exec (.wtk i) s = execWtk i s := rfl
@[simp] theorem exec_wtkRelease (tile : Nat) (s : State) :
    exec (.wtkRelease tile) s = execWtkRelease tile s := rfl
@[simp] theorem exec_fence (i : Issue) (s : State) :
    exec (.fence i) s = execFence i s := rfl
@[simp] theorem exec_fenceComplete (tile : Nat) (s : State) :
    exec (.fenceComplete tile) s = execFenceComplete tile s := rfl
@[simp] theorem exec_tks (i : Issue) (s : State) :
    exec (.tks i) s = execTks i s := rfl
@[simp] theorem exec_ecall (i : Issue) (s : State) :
    exec (.ecall i) s = execEcall i s := rfl
@[simp] theorem exec_eret (i : Issue) (s : State) :
    exec (.eret i) s = execEret i s := rfl
@[simp] theorem exec_brk (i : Issue) (s : State) :
    exec (.brk i) s = execBrk i s := rfl
@[simp] theorem exec_csrr (i : Issue) (s : State) :
    exec (.csrr i) s = execCsrr i s := rfl
@[simp] theorem exec_csrw (i : Issue) (s : State) :
    exec (.csrw i) s = execCsrw i s := rfl
@[simp] theorem exec_iflush (i : Issue) (s : State) :
    exec (.iflush i) s = execIflush i s := rfl
@[simp] theorem exec_ipf (i : Issue) (s : State) :
    exec (.ipf i) s = execIpf i s := rfl
@[simp] theorem exec_halt (i : Issue) (s : State) :
    exec (.halt i) s = execHalt i s := rfl
@[simp] theorem exec_haltComplete (tile : Nat) (s : State) :
    exec (.haltComplete tile) s = execHaltComplete tile s := rfl
@[simp] theorem exec_doubleFaultIdle (tile : Nat) (s : State) :
    exec (.doubleFaultIdle tile) s = execDoubleFaultIdle tile s := rfl
@[simp] theorem exec_ibufFillComplete (tile : Nat) (line : Nat) (ecc : Ecc) (s : State) :
    exec (.ibufFillComplete tile line ecc) s = execIbufFillComplete tile line ecc s := rfl
@[simp] theorem exec_breakpointHit (tile : Nat) (s : State) :
    exec (.breakpointHit tile) s = execBreakpointHit tile s := rfl
@[simp] theorem exec_tcHaltRequest (tile : Nat) (s : State) :
    exec (.tcHaltRequest tile) s = execTcHaltRequest tile s := rfl
@[simp] theorem exec_tcResume (tile : Nat) (s : State) :
    exec (.tcResume tile) s = execTcResume tile s := rfl
@[simp] theorem exec_tcStep (tile : Nat) (s : State) :
    exec (.tcStep tile) s = execTcStep tile s := rfl
@[simp] theorem exec_debugHaltComplete (tile : Nat) (s : State) :
    exec (.debugHaltComplete tile) s = execDebugHaltComplete tile s := rfl
@[simp] theorem exec_dbgPhalt (part : Nat) (mask : W64) (s : State) :
    exec (.dbgPhalt part mask) s = execDbgPhalt part mask s := rfl
@[simp] theorem exec_dbgPresume (part : Nat) (mask : W64) (s : State) :
    exec (.dbgPresume part mask) s = execDbgPresume part mask s := rfl
@[simp] theorem exec_sramScrub (tile : Nat) (ecc : Ecc) (s : State) :
    exec (.sramScrub tile ecc) s = execSramScrub tile ecc s := rfl
@[simp] theorem exec_hbmRefresh (stack : Nat) (s : State) :
    exec (.hbmRefresh stack) s = execHbmRefresh stack s := rfl
@[simp] theorem exec_hbmEcs (stack : Nat) (ecc : Ecc) (s : State) :
    exec (.hbmEcs stack ecc) s = execHbmEcs stack ecc s := rfl
@[simp] theorem exec_hbmTrained (stack : Nat) (ok : Bool) (s : State) :
    exec (.hbmTrained stack ok) s = execHbmTrained stack ok s := rfl
@[simp] theorem exec_ringLoad (part : Nat) (ring : Nat) (s : State) :
    exec (.ringLoad part ring) s = execRingLoad part ring s := rfl
@[simp] theorem exec_ringLoadComplete (part : Nat) (ecc : Ecc) (s : State) :
    exec (.ringLoadComplete part ecc) s = execRingLoadComplete part ecc s := rfl
@[simp] theorem exec_ringStop (part : Nat) (ring : Nat) (s : State) :
    exec (.ringStop part ring) s = execRingStop part ring s := rfl
@[simp] theorem exec_ringResume (part : Nat) (ring : Nat) (s : State) :
    exec (.ringResume part ring) s = execRingResume part ring s := rfl
@[simp] theorem exec_ringDoorbell (ring : Nat) (value : W64) (s : State) :
    exec (.ringDoorbell ring value) s = execRingDoorbell ring value s := rfl
@[simp] theorem exec_eventRingConsume (ring : Nat) (value : W64) (s : State) :
    exec (.eventRingConsume ring value) s = execEventRingConsume ring value s := rfl
@[simp] theorem exec_mevqConsume (value : W64) (s : State) :
    exec (.mevqConsume value) s = execMevqConsume value s := rfl
@[simp] theorem exec_mevqCfgWrite (value : W64) (s : State) :
    exec (.mevqCfgWrite value) s = execMevqCfgWrite value s := rfl
@[simp] theorem exec_pevqLostRead (part : Nat) (half : Half) (s : State) :
    exec (.pevqLostRead part half) s = execPevqLostRead part half s := rfl
@[simp] theorem exec_mevqLostRead (half : Half) (s : State) :
    exec (.mevqLostRead half) s = execMevqLostRead half s := rfl
@[simp] theorem exec_memTtClr (part : Nat) (value : W64) (s : State) :
    exec (.memTtClr part value) s = execMemTtClr part value s := rfl
@[simp] theorem exec_descFetch (part : Nat) (ecc : Ecc) (s : State) :
    exec (.descFetch part ecc) s = execDescFetch part ecc s := rfl
@[simp] theorem exec_descNop (ring : Nat) (s : State) :
    exec (.descNop ring) s = execDescNop ring s := rfl
@[simp] theorem exec_descCopy (ring : Nat) (ecc : Ecc) (s : State) :
    exec (.descCopy ring ecc) s = execDescCopy ring ecc s := rfl
@[simp] theorem exec_descFill (ring : Nat) (ecc : Ecc) (s : State) :
    exec (.descFill ring ecc) s = execDescFill ring s ecc := rfl
@[simp] theorem exec_launch (ring : Nat) (s : State) :
    exec (.launch ring) s = execLaunch ring s := rfl
@[simp] theorem exec_descComplete (ring : Nat) (s : State) :
    exec (.descComplete ring) s = execDescComplete ring s := rfl
@[simp] theorem exec_hostReadCompletion (ring : Nat) (data : List (BitVec 8)) (ecc : Ecc) (s : State) :
    exec (.hostReadCompletion ring data ecc) s = execHostReadCompletion ring data s ecc := rfl
@[simp] theorem exec_hostBarRead (who : Who) (bar : Nat) (offset : Nat) (size : Nat) (ecc : Ecc) (s : State) :
    exec (.hostBarRead who bar offset size ecc) s = execHostBarRead who bar offset size s ecc := rfl
@[simp] theorem exec_hostBarWrite (who : Who) (bar : Nat) (offset : Nat) (size : Nat) (value : W64) (ecc : Ecc) (s : State) :
    exec (.hostBarWrite who bar offset size value ecc) s = execHostBarWrite who bar offset size value s ecc := rfl
@[simp] theorem exec_cfgTileMapWrite (die : Nat) (row : Nat) (value : W64) (s : State) :
    exec (.cfgTileMapWrite die row value) s = execCfgTileMapWrite die row value s := rfl
@[simp] theorem exec_remapSwitch (die : Nat) (row : Nat) (s : State) :
    exec (.remapSwitch die row) s = execRemapSwitch die row s := rfl
@[simp] theorem exec_remapDone (die : Nat) (row : Nat) (s : State) :
    exec (.remapDone die row) s = execRemapDone die row s := rfl
@[simp] theorem exec_d2dRetryFail (link : Nat) (s : State) :
    exec (.d2dRetryFail link) s = execD2dRetryFail link s := rfl
@[simp] theorem exec_d2dRetrainDone (link : Nat) (trained : Option Nat) (s : State) :
    exec (.d2dRetrainDone link trained) s = execD2dRetrainDone link trained s := rfl
@[simp] theorem exec_datumTick (s : State) :
    exec (.datumTick) s = execDatumTick s := rfl
@[simp] theorem exec_datumRefEdge (interval : Nat) (offset : Int) (s : State) :
    exec (.datumRefEdge interval offset) s = execDatumRefEdge interval offset s := rfl
@[simp] theorem exec_tickEdgeSeen (unit : TickUnit) (s : State) :
    exec (.tickEdgeSeen unit) s = execTickEdgeSeen unit s := rfl
@[simp] theorem exec_dtmCtlWrite (value : W64) (s : State) :
    exec (.dtmCtlWrite value) s = execDtmCtlWrite value s := rfl
@[simp] theorem exec_dtmLoad (value : W64) (s : State) :
    exec (.dtmLoad value) s = execDtmLoad value s := rfl
@[simp] theorem exec_dtmRelayWrite (value : W64) (s : State) :
    exec (.dtmRelayWrite value) s = execDtmRelayWrite value s := rfl
@[simp] theorem exec_dtmModePendWrite (isT : Bool) (value : W64) (s : State) :
    exec (.dtmModePendWrite isT value) s = execDtmModePendWrite isT value s := rfl
@[simp] theorem exec_modeArm (value : W64) (s : State) :
    exec (.modeArm value) s = execModeArm value s := rfl
@[simp] theorem exec_modeCancel (value : W64) (s : State) :
    exec (.modeCancel value) s = execModeCancel value s := rfl
@[simp] theorem exec_modeSend (s : State) :
    exec (.modeSend) s = execModeSend s := rfl
@[simp] theorem exec_modeApply (s : State) :
    exec (.modeApply) s = execModeApply s := rfl
@[simp] theorem exec_dtmPtClr (value : W64) (s : State) :
    exec (.dtmPtClr value) s = execDtmPtClr value s := rfl
@[simp] theorem exec_stezerDataRx (port : Nat) (pkt : Packet) (s : State) :
    exec (.stezerDataRx port pkt) s = execStezerDataRx port pkt s := rfl
@[simp] theorem exec_linkctlRx (port : Nat) (pkt : Packet) (s : State) :
    exec (.linkctlRx port pkt) s = execLinkctlRx port pkt s := rfl
@[simp] theorem exec_ackTimer (port : Nat) (s : State) :
    exec (.ackTimer port) s = execAckTimer port s := rfl
@[simp] theorem exec_replayTimeout (port : Nat) (s : State) :
    exec (.replayTimeout port) s = execReplayTimeout port s := rfl
@[simp] theorem exec_heartbeatRx (port : Nat) (pkt : Packet) (rx : W64) (s : State) :
    exec (.heartbeatRx port pkt rx) s = execHeartbeatRx port pkt s rx := rfl
@[simp] theorem exec_portSilent (port : Nat) (s : State) :
    exec (.portSilent port) s = execPortSilent port s := rfl
@[simp] theorem exec_portTrained (port : Nat) (s : State) :
    exec (.portTrained port) s = execPortTrained port s := rfl
@[simp] theorem exec_portTrainTimeout (port : Nat) (s : State) :
    exec (.portTrainTimeout port) s = execPortTrainTimeout port s := rfl
@[simp] theorem exec_lnkPortTrain (port : Nat) (s : State) :
    exec (.lnkPortTrain port) s = execLnkPortTrain port s := rfl
@[simp] theorem exec_lnkPortDisable (port : Nat) (s : State) :
    exec (.lnkPortDisable port) s = execLnkPortDisable port s := rfl
@[simp] theorem exec_gazEntry (port : Nat) (pos : Nat) (lo : W64) (hi : W64) (s : State) :
    exec (.gazEntry port pos lo hi) s = execGazEntry port pos lo hi s := rfl
@[simp] theorem exec_splitFreezeTimeout (group : Nat) (s : State) :
    exec (.splitFreezeTimeout group) s = execSplitFreezeTimeout group s := rfl
@[simp] theorem exec_lnkSubstGo (value : W64) (s : State) :
    exec (.lnkSubstGo value) s = execLnkSubstGo value s := rfl
@[simp] theorem exec_gazSubst (port : Nat) (logical : Nat) (phys : Nat) (t : Nat) (s : State) :
    exec (.gazSubst port logical phys t) s = execGazSubst port logical phys t s := rfl
@[simp] theorem exec_substApply (s : State) :
    exec (.substApply) s = execSubstApply s := rfl
@[simp] theorem exec_segWrite (seg : Segment) (ecc : Ecc) (s : State) :
    exec (.segWrite seg ecc) s = execSegWrite seg s ecc := rfl
@[simp] theorem exec_segRead (seg : Segment) (ecc : Ecc) (s : State) :
    exec (.segRead seg ecc) s = execSegRead seg s ecc := rfl
@[simp] theorem exec_segSignal (seg : Segment) (ecc : Ecc) (s : State) :
    exec (.segSignal seg ecc) s = execSegSignal seg s ecc := rfl
@[simp] theorem exec_segColl (st : CollStream) (s : State) :
    exec (.segColl st) s = execSegColl st s := rfl
@[simp] theorem exec_segAck (seg : Segment) (ecc : Ecc) (s : State) :
    exec (.segAck seg ecc) s = execSegAck seg s ecc := rfl
@[simp] theorem exec_segRdata (seg : Segment) (ecc : Ecc) (s : State) :
    exec (.segRdata seg ecc) s = execSegRdata seg s ecc := rfl
@[simp] theorem exec_segmentLostTimeout (xid : Nat) (s : State) :
    exec (.segmentLostTimeout xid) s = execSegmentLostTimeout xid s := rfl
@[simp] theorem exec_allreduce (group : Nat) (ecc : Ecc) (s : State) :
    exec (.allreduce group ecc) s = execAllreduce group s ecc := rfl
@[simp] theorem exec_reduceScatter (group : Nat) (ecc : Ecc) (s : State) :
    exec (.reduceScatter group ecc) s = execReduceScatter group s ecc := rfl
@[simp] theorem exec_allgather (group : Nat) (ecc : Ecc) (s : State) :
    exec (.allgather group ecc) s = execAllgather group s ecc := rfl
@[simp] theorem exec_broadcast (group : Nat) (ecc : Ecc) (s : State) :
    exec (.broadcast group ecc) s = execBroadcast group s ecc := rfl
@[simp] theorem exec_alltoall (group : Nat) (ecc : Ecc) (s : State) :
    exec (.alltoall group ecc) s = execAlltoall group s ecc := rfl
@[simp] theorem exec_barrier (group : Nat) (ecc : Ecc) (s : State) :
    exec (.barrier group ecc) s = execBarrier group s ecc := rfl
@[simp] theorem exec_collFoldStart (group : Nat) (s : State) :
    exec (.collFoldStart group) s = execCollFoldStart group s := rfl
@[simp] theorem exec_collDeadline (hub : Nat) (group : Nat) (s : State) :
    exec (.collDeadline hub group) s = execCollDeadline hub group s := rfl
@[simp] theorem exec_colGrpWrite (group : Nat) (word : Nat) (value : W64) (s : State) :
    exec (.colGrpWrite group word value) s = execColGrpWrite group word value s := rfl
@[simp] theorem exec_rngRegister (part : Nat) (s : State) :
    exec (.rngRegister part) s = execRngRegister part s := rfl
@[simp] theorem exec_rngRelease (part : Nat) (s : State) :
    exec (.rngRelease part) s = execRngRelease part s := rfl
@[simp] theorem exec_rngLookup (part : Nat) (s : State) :
    exec (.rngLookup part) s = execRngLookup part s := rfl
@[simp] theorem exec_rngClear (part : Nat) (s : State) :
    exec (.rngClear part) s = execRngClear part s := rfl
@[simp] theorem exec_seqStart (part : Nat) (s : State) :
    exec (.seqStart part) s = execSeqStart part s := rfl
@[simp] theorem exec_seqStop (part : Nat) (s : State) :
    exec (.seqStop part) s = execSeqStop part s := rfl
@[simp] theorem exec_seqAbort (part : Nat) (s : State) :
    exec (.seqAbort part) s = execSeqAbort part s := rfl
@[simp] theorem exec_seqAbortComplete (part : Nat) (s : State) :
    exec (.seqAbortComplete part) s = execSeqAbortComplete part s := rfl
@[simp] theorem exec_seqLaunch (part : Nat) (s : State) :
    exec (.seqLaunch part) s = execSeqLaunch part s := rfl
@[simp] theorem exec_seqSignalWaitMet (part : Nat) (s : State) :
    exec (.seqSignalWaitMet part) s = execSeqSignalWaitMet part s := rfl
@[simp] theorem exec_seqStragglerDeadline (part : Nat) (s : State) :
    exec (.seqStragglerDeadline part) s = execSeqStragglerDeadline part s := rfl
@[simp] theorem exec_seqCollDone (part : Nat) (s : State) :
    exec (.seqCollDone part) s = execSeqCollDone part s := rfl
@[simp] theorem exec_seqGateDone (part : Nat) (ecc : Ecc) (s : State) :
    exec (.seqGateDone part ecc) s = execSeqGateDone part ecc s := rfl
@[simp] theorem exec_seqUpdateDone (part : Nat) (s : State) :
    exec (.seqUpdateDone part) s = execSeqUpdateDone part s := rfl
@[simp] theorem exec_evalWindowStart (part : Nat) (s : State) :
    exec (.evalWindowStart part) s = execEvalWindowStart part s := rfl
@[simp] theorem exec_evalOverrun (part : Nat) (s : State) :
    exec (.evalOverrun part) s = execEvalOverrun part s := rfl
@[simp] theorem exec_partReset (part : Nat) (s : State) :
    exec (.partReset part) s = execPartReset part s := rfl
@[simp] theorem exec_flr (who : Who) (s : State) :
    exec (.flr who) s = execFlr who s := rfl
@[simp] theorem exec_partResetZero (part : Nat) (failed : W64) (s : State) :
    exec (.partResetZero part failed) s = execPartResetZero part failed s := rfl
@[simp] theorem exec_partResetDone (part : Nat) (s : State) :
    exec (.partResetDone part) s = execPartResetDone part s := rfl
@[simp] theorem exec_partWithdraw (part : Nat) (s : State) :
    exec (.partWithdraw part) s = execPartWithdraw part s := rfl
@[simp] theorem exec_prtCommit (value : W64) (s : State) :
    exec (.prtCommit value) s = execPrtCommit value s := rfl
@[simp] theorem exec_commitDone (s : State) :
    exec (.commitDone) s = execCommitDone s := rfl
@[simp] theorem exec_prtDenyRead (half : Half) (s : State) :
    exec (.prtDenyRead half) s = execPrtDenyRead half s := rfl
@[simp] theorem exec_prtSysidWrite (value : W64) (s : State) :
    exec (.prtSysidWrite value) s = execPrtSysidWrite value s := rfl
@[simp] theorem exec_prtLcsCmd (value : W64) (actor : Nat) (s : State) :
    exec (.prtLcsCmd value actor) s = execPrtLcsCmd value s actor := rfl
@[simp] theorem exec_lcsProgramDone (s : State) :
    exec (.lcsProgramDone) s = execLcsProgramDone s := rfl
@[simp] theorem exec_getVersion (via : Transport) (s : State) :
    exec (.getVersion via) s = execGetVersion s via := rfl
@[simp] theorem exec_getCapabilities (via : Transport) (s : State) :
    exec (.getCapabilities via) s = execGetCapabilities s via := rfl
@[simp] theorem exec_negotiateAlgorithms (supported : Bool) (via : Transport) (s : State) :
    exec (.negotiateAlgorithms supported via) s = execNegotiateAlgorithms supported s via := rfl
@[simp] theorem exec_getDigests (via : Transport) (s : State) :
    exec (.getDigests via) s = execGetDigests s via := rfl
@[simp] theorem exec_getCertificate (slot : Nat) (offset : Nat) (length : Nat) (via : Transport) (s : State) :
    exec (.getCertificate slot offset length via) s = execGetCertificate slot offset length s via := rfl
@[simp] theorem exec_challenge (slot : Nat) (nonce : W64) (via : Transport) (s : State) :
    exec (.challenge slot nonce via) s = execChallenge slot nonce s via := rfl
@[simp] theorem exec_getMeasurements (block : Nat) (via : Transport) (s : State) :
    exec (.getMeasurements block via) s = execGetMeasurements block s via := rfl
@[simp] theorem exec_keyExchange (slot : Nat) (exchange : W64) (via : Transport) (s : State) :
    exec (.keyExchange slot exchange via) s = execKeyExchange slot exchange s via := rfl
@[simp] theorem exec_finish (session : Nat) (verified : Bool) (via : Transport) (s : State) :
    exec (.finish session verified via) s = execFinish session verified s via := rfl
@[simp] theorem exec_spdmHeartbeat (session : Nat) (via : Transport) (s : State) :
    exec (.spdmHeartbeat session via) s = execSpdmHeartbeat session s via := rfl
@[simp] theorem exec_endSession (session : Nat) (via : Transport) (s : State) :
    exec (.endSession session via) s = execEndSession session s via := rfl
@[simp] theorem exec_getSensorReading (sensor : Nat) (s : State) :
    exec (.getSensorReading sensor) s = execGetSensorReading sensor s := rfl
@[simp] theorem exec_setNumericSensorEnable (sensor : Nat) (enable : Bool) (s : State) :
    exec (.setNumericSensorEnable sensor enable) s = execSetNumericSensorEnable sensor enable s := rfl
@[simp] theorem exec_pldmGetPdr (record : Nat) (s : State) :
    exec (.pldmGetPdr record) s = execPldmGetPdr record s := rfl
@[simp] theorem exec_pldmFwUpdate (image : FwImage) (s : State) :
    exec (.pldmFwUpdate image) s = execPldmFwUpdate image s := rfl
@[simp] theorem exec_activateFirmware (s : State) :
    exec (.activateFirmware) s = execActivateFirmware s := rfl
@[simp] theorem exec_powerSample (reading : PowerReading) (s : State) :
    exec (.powerSample reading) s = execPowerSample reading s := rfl
@[simp] theorem exec_opStepSwitch (die : Nat) (s : State) :
    exec (.opStepSwitch die) s = execOpStepSwitch die s := rfl
@[simp] theorem exec_powerWindowEdge (s : State) :
    exec (.powerWindowEdge) s = execPowerWindowEdge s := rfl
@[simp] theorem exec_pwrCapWrite (value : W64) (s : State) :
    exec (.pwrCapWrite value) s = execPwrCapWrite value s := rfl
@[simp] theorem exec_pwrWinWrite (value : W64) (s : State) :
    exec (.pwrWinWrite value) s = execPwrWinWrite value s := rfl
@[simp] theorem exec_pwrPrioWrite (value : W64) (s : State) :
    exec (.pwrPrioWrite value) s = execPwrPrioWrite value s := rfl
@[simp] theorem exec_pwrThrClr (part : Nat) (value : W64) (s : State) :
    exec (.pwrThrClr part value) s = execPwrThrClr part value s := rfl
@[simp] theorem exec_ilimSample (rail : Nat) (amps : Nat) (s : State) :
    exec (.ilimSample rail amps) s = execIlimSample rail amps s := rfl
@[simp] theorem exec_droopDetect (die : Nat) (mv : Nat) (s : State) :
    exec (.droopDetect die mv) s = execDroopDetect die mv s := rfl
@[simp] theorem exec_droopHoldExpire (die : Nat) (mv : Nat) (s : State) :
    exec (.droopHoldExpire die mv) s = execDroopHoldExpire die mv s := rfl
@[simp] theorem exec_thermalCrit (die : Nat) (s : State) :
    exec (.thermalCrit die) s = execThermalCrit die s := rfl
@[simp] theorem exec_thermalTrip (die : Nat) (s : State) :
    exec (.thermalTrip die) s = execThermalTrip die s := rfl
@[simp] theorem exec_avsTimeout (rail : Nat) (s : State) :
    exec (.avsTimeout rail) s = execAvsTimeout rail s := rfl
@[simp] theorem exec_surveyRun (s : State) :
    exec (.surveyRun) s = execSurveyRun s := rfl
@[simp] theorem exec_surveyPeriodic (s : State) :
    exec (.surveyPeriodic) s = execSurveyPeriodic s := rfl
@[simp] theorem exec_surveyComplete (needs : List (List Int)) (s : State) :
    exec (.surveyComplete needs) s = execSurveyComplete needs s := rfl
@[simp] theorem exec_svcRepair (value : W64) (s : State) :
    exec (.svcRepair value) s = execSvcRepair value s := rfl
@[simp] theorem exec_svcReplSet (value : W64) (s : State) :
    exec (.svcReplSet value) s = execSvcReplSet value s := rfl
@[simp] theorem exec_bootSlotSelect (a : FwImage) (b : FwImage) (fwUs : Nat) (s : State) :
    exec (.bootSlotSelect a b fwUs) s = execBootSlotSelect a b s fwUs := rfl
@[simp] theorem exec_bistComplete (dieFail : Nat) (tiles : List (Nat × Nat × Nat)) (s : State) :
    exec (.bistComplete dieFail tiles) s = execBistComplete dieFail tiles s := rfl
@[simp] theorem exec_deviceReady (rec : StartTimes) (s : State) :
    exec (.deviceReady rec) s = execDeviceReady rec s := rfl
@[simp] theorem exec_lnkDiscStart (s : State) :
    exec (.lnkDiscStart) s = execLnkDiscStart s := rfl
@[simp] theorem exec_discExchangeTimeout (s : State) :
    exec (.discExchangeTimeout) s = execDiscExchangeTimeout s := rfl
@[simp] theorem exec_joinWindowClose (s : State) :
    exec (.joinWindowClose) s = execJoinWindowClose s := rfl
@[simp] theorem exec_gazQuiet (s : State) :
    exec (.gazQuiet) s = execGazQuiet s := rfl
@[simp] theorem exec_gazClaim (port : Nat) (pos : Nat) (closed : Bool) (s : State) :
    exec (.gazClaim port pos closed) s = execGazClaim port pos closed s := rfl
@[simp] theorem exec_originElected (s : State) :
    exec (.originElected) s = execOriginElected s := rfl
@[simp] theorem exec_datumAbsent (s : State) :
    exec (.datumAbsent) s = execDatumAbsent s := rfl
@[simp] theorem exec_gazAligned (port : Nat) (pos : Nat) (s : State) :
    exec (.gazAligned port pos) s = execGazAligned port pos s := rfl
@[simp] theorem exec_discAlign (s : State) :
    exec (.discAlign) s = execDiscAlign s := rfl
@[simp] theorem exec_discReadyFlood (s : State) :
    exec (.discReadyFlood) s = execDiscReadyFlood s := rfl
@[simp] theorem exec_gazReady (port : Nat) (tr : Nat) (s : State) :
    exec (.gazReady port tr) s = execGazReady port tr s := rfl
@[simp] theorem exec_systemReady (s : State) :
    exec (.systemReady) s = execSystemReady s := rfl
@[simp] theorem exec_tapExtest (s : State) :
    exec (.tapExtest) s = execTapExtest s := rfl
@[simp] theorem exec_tapSamplePreload (s : State) :
    exec (.tapSamplePreload) s = execTapSamplePreload s := rfl
@[simp] theorem exec_tapIdcode (s : State) :
    exec (.tapIdcode) s = execTapIdcode s := rfl
@[simp] theorem exec_tapClamp (s : State) :
    exec (.tapClamp) s = execTapClamp s := rfl
@[simp] theorem exec_tapHighz (s : State) :
    exec (.tapHighz) s = execTapHighz s := rfl
@[simp] theorem exec_tapExtestPulse (s : State) :
    exec (.tapExtestPulse) s = execTapExtestPulse s := rfl
@[simp] theorem exec_tapExtestTrain (s : State) :
    exec (.tapExtestTrain) s = execTapExtestTrain s := rfl
@[simp] theorem exec_tapBridge (s : State) :
    exec (.tapBridge) s = execTapBridge s := rfl
@[simp] theorem exec_tapBypass (s : State) :
    exec (.tapBypass) s = execTapBypass s := rfl
@[simp] theorem exec_jtagBridgeAccess (dr : BitVec 120) (s : State) :
    exec (.jtagBridgeAccess dr) s = execJtagBridgeAccess dr s := rfl
@[simp] theorem exec_laneLockLoss (port : Nat) (s : State) :
    exec (.laneLockLoss port) s = execLaneLockLoss port s := rfl
@[simp] theorem exec_configurationRequest (vfEnable : Option Bool) (s : State) :
    exec (.configurationRequest vfEnable) s = execConfigurationRequest vfEnable s := rfl
@[simp] theorem exec_smbusArp (address : Nat) (s : State) :
    exec (.smbusArp address) s = execSmbusArp address s := rfl
@[simp] theorem exec_testLogicReset (s : State) :
    exec (.testLogicReset) s = execTestLogicReset s := rfl

end Sys2Proof.Laws
end

