-- ==== Sys2Proof/WellFormed.lean ====
section
/-! DEFINITION. Well-formed commands: operands that name units the device has. -/
namespace Sys2Proof

/-- An origin that exists: one of the 32 VFs. -/
def Who.wf : Who → Bool
  | .vf p => decide (p < 32)
  | _ => true

/-- A tick unit that exists: one of 16 compute dies or 4 hubs. -/
def TickUnit.wf : TickUnit → Bool
  | .die d => decide (d < 16)
  | .hub h => decide (h < 4)

/-- A host access of a size that its BAR takes (spec/13_partitions_and_protection.md R388). -/
def hostSize (size : Nat) : Bool := size == 1 || size == 2 || size == 4 || size == 8

/-- A command whose operands name tiles (2048 is the management controller), partitions, rings, ports and other units
of the device (spec/05_tiles_dies_device.md Table 5.5). -/
def Instr.wf : Instr → Bool
  | .registerWrite who _ size _ => who.wf && (size == 4 || size == 8)
  | .coldReset => true
  | .startupBegin _ => true
  | .warmReset => true
  | .resetNRelease => true
  | .perstAssert => true
  | .pcieTrainingStart => true
  | .ioscStable => true
  | .clkmonWindow _ => true
  | .refclkUnqualTimeout => true
  | .pllWrite dom _ _ => decide (dom < 54)
  | .pllReady dom _ => decide (dom < 54)
  | .pllUnlock pll => decide (pll.dom < 54)
  | .clkSwitchRequest dom _ => decide (dom < 54)
  | .heldSwitchProceed dom => decide (dom < 54)
  | .crossingBackpressureTimeout xing => decide (xing < 101)
  | .crossingReadyRequest xing => decide (xing < 101)
  | .crossingReadyAck xing => decide (xing < 101)
  | .mxw i => decide (i.tile ≤ 2048)
  | .mxwLoadStart tile => decide (tile < 2048)
  | .mxmOpen i => decide (i.tile ≤ 2048)
  | .mxmAdd i => decide (i.tile ≤ 2048)
  | .outputConversion tile slot => decide (tile < 2048) && decide (slot < 8)
  | .cfgCtrClr tile slot _ => decide (tile < 2048) && decide (slot < 16)
  | .cfgFmtcClr tile _ => decide (tile < 2048)
  | .cvt i => decide (i.tile ≤ 2048)
  | .fadd i => decide (i.tile ≤ 2048)
  | .fsub i => decide (i.tile ≤ 2048)
  | .fmul i => decide (i.tile ≤ 2048)
  | .fma i => decide (i.tile ≤ 2048)
  | .fdiv i => decide (i.tile ≤ 2048)
  | .fsqrt i => decide (i.tile ≤ 2048)
  | .fmin i => decide (i.tile ≤ 2048)
  | .fmax i => decide (i.tile ≤ 2048)
  | .fcmpEq i => decide (i.tile ≤ 2048)
  | .fcmpLt i => decide (i.tile ≤ 2048)
  | .fcmpLe i => decide (i.tile ≤ 2048)
  | .fcmpUn i => decide (i.tile ≤ 2048)
  | .lmul i => decide (i.tile ≤ 2048)
  | .ldiv i => decide (i.tile ≤ 2048)
  | .lrcp i => decide (i.tile ≤ 2048)
  | .lsqrt i => decide (i.tile ≤ 2048)
  | .lrsqrt i => decide (i.tile ≤ 2048)
  | .lcmpEq i => decide (i.tile ≤ 2048)
  | .lcmpLt i => decide (i.tile ≤ 2048)
  | .lcmpLe i => decide (i.tile ≤ 2048)
  | .lcmpUn i => decide (i.tile ≤ 2048)
  | .iaddW i => decide (i.tile ≤ 2048)
  | .isubW i => decide (i.tile ≤ 2048)
  | .imulW i => decide (i.tile ≤ 2048)
  | .andW i => decide (i.tile ≤ 2048)
  | .orW i => decide (i.tile ≤ 2048)
  | .xorW i => decide (i.tile ≤ 2048)
  | .sllW i => decide (i.tile ≤ 2048)
  | .srlW i => decide (i.tile ≤ 2048)
  | .sraW i => decide (i.tile ≤ 2048)
  | .iminW i => decide (i.tile ≤ 2048)
  | .imaxW i => decide (i.tile ≤ 2048)
  | .icmpEqW i => decide (i.tile ≤ 2048)
  | .icmpLtW i => decide (i.tile ≤ 2048)
  | .icmpLtuW i => decide (i.tile ≤ 2048)
  | .iaddD i => decide (i.tile ≤ 2048)
  | .isubD i => decide (i.tile ≤ 2048)
  | .andD i => decide (i.tile ≤ 2048)
  | .orD i => decide (i.tile ≤ 2048)
  | .xorD i => decide (i.tile ≤ 2048)
  | .sllD i => decide (i.tile ≤ 2048)
  | .srlD i => decide (i.tile ≤ 2048)
  | .sraD i => decide (i.tile ≤ 2048)
  | .sel i => decide (i.tile ≤ 2048)
  | .perm i => decide (i.tile ≤ 2048)
  | .ladd i => decide (i.tile ≤ 2048)
  | .laddSub i => decide (i.tile ≤ 2048)
  | .fntExp i => decide (i.tile ≤ 2048)
  | .fntExp2 i => decide (i.tile ≤ 2048)
  | .fntLog i => decide (i.tile ≤ 2048)
  | .fntLog2 i => decide (i.tile ≤ 2048)
  | .fntReciprocal i => decide (i.tile ≤ 2048)
  | .fntRsqrt i => decide (i.tile ≤ 2048)
  | .fntTable i => decide (i.tile ≤ 2048)
  | .fntF i => decide (i.tile ≤ 2048)
  | .redMax i => decide (i.tile ≤ 2048)
  | .redMin i => decide (i.tile ≤ 2048)
  | .redSum i => decide (i.tile ≤ 2048)
  | .redMom i => decide (i.tile ≤ 2048)
  | .redPsum i => decide (i.tile ≤ 2048)
  | .redMomfin i => decide (i.tile ≤ 2048)
  | .redSoftmax i => decide (i.tile ≤ 2048)
  | .redSoftmaxBwd i => decide (i.tile ≤ 2048)
  | .had i => decide (i.tile ≤ 2048)
  | .movCopy i => decide (i.tile ≤ 2048)
  | .movSrf i => decide (i.tile ≤ 2048)
  | .movFuslot i => decide (i.tile ≤ 2048)
  | .coll i => decide (i.tile ≤ 2048)
  | .rngRaw i => decide (i.tile ≤ 2048)
  | .rngUniform i => decide (i.tile ≤ 2048)
  | .rngBern i => decide (i.tile ≤ 2048)
  | .histRead i => decide (i.tile ≤ 2048)
  | .histMerge i => decide (i.tile ≤ 2048)
  | .histAdapt i => decide (i.tile ≤ 2048)
  | .phase i => decide (i.tile ≤ 2048)
  | .tCompletion tile engine => decide (tile < 2048) && decide (engine < 7)
  | .add i => decide (i.tile ≤ 2048)
  | .sub i => decide (i.tile ≤ 2048)
  | .mul i => decide (i.tile ≤ 2048)
  | .mulh i => decide (i.tile ≤ 2048)
  | .mulhu i => decide (i.tile ≤ 2048)
  | .div i => decide (i.tile ≤ 2048)
  | .divu i => decide (i.tile ≤ 2048)
  | .rem i => decide (i.tile ≤ 2048)
  | .remu i => decide (i.tile ≤ 2048)
  | .and i => decide (i.tile ≤ 2048)
  | .or i => decide (i.tile ≤ 2048)
  | .xor i => decide (i.tile ≤ 2048)
  | .sll i => decide (i.tile ≤ 2048)
  | .srl i => decide (i.tile ≤ 2048)
  | .sra i => decide (i.tile ≤ 2048)
  | .slt i => decide (i.tile ≤ 2048)
  | .sltu i => decide (i.tile ≤ 2048)
  | .min i => decide (i.tile ≤ 2048)
  | .max i => decide (i.tile ≤ 2048)
  | .minu i => decide (i.tile ≤ 2048)
  | .maxu i => decide (i.tile ≤ 2048)
  | .clz i => decide (i.tile ≤ 2048)
  | .popc i => decide (i.tile ≤ 2048)
  | .addi i => decide (i.tile ≤ 2048)
  | .andi i => decide (i.tile ≤ 2048)
  | .ori i => decide (i.tile ≤ 2048)
  | .xori i => decide (i.tile ≤ 2048)
  | .slli i => decide (i.tile ≤ 2048)
  | .srli i => decide (i.tile ≤ 2048)
  | .srai i => decide (i.tile ≤ 2048)
  | .slti i => decide (i.tile ≤ 2048)
  | .lih i => decide (i.tile ≤ 2048)
  | .dgetw i => decide (i.tile ≤ 2048)
  | .dsetw i => decide (i.tile ≤ 2048)
  | .dmov i => decide (i.tile ≤ 2048)
  | .daddb i => decide (i.tile ≤ 2048)
  | .nop i => decide (i.tile ≤ 2048)
  | .lix i => decide (i.tile ≤ 2048)
  | .addx i => decide (i.tile ≤ 2048)
  | .jal i => decide (i.tile ≤ 2048)
  | .jalr i => decide (i.tile ≤ 2048)
  | .beq i => decide (i.tile ≤ 2048)
  | .bne i => decide (i.tile ≤ 2048)
  | .blt i => decide (i.tile ≤ 2048)
  | .bge i => decide (i.tile ≤ 2048)
  | .bltu i => decide (i.tile ≤ 2048)
  | .bgeu i => decide (i.tile ≤ 2048)
  | .jx i => decide (i.tile ≤ 2048)
  | .ld i => decide (i.tile ≤ 2048)
  | .st i => decide (i.tile ≤ 2048)
  | .amoAddI32 i => decide (i.tile ≤ 2048)
  | .amoAddI64 i => decide (i.tile ≤ 2048)
  | .amoFadd i => decide (i.tile ≤ 2048)
  | .amoMaxI32 i => decide (i.tile ≤ 2048)
  | .amoMaxI64 i => decide (i.tile ≤ 2048)
  | .amoMinI32 i => decide (i.tile ≤ 2048)
  | .amoMinI64 i => decide (i.tile ≤ 2048)
  | .amoFmax i => decide (i.tile ≤ 2048)
  | .amoFmin i => decide (i.tile ≤ 2048)
  | .cas i => decide (i.tile ≤ 2048)
  | .dld i => decide (i.tile ≤ 2048)
  | .dst i => decide (i.tile ≤ 2048)
  | .memAccessComplete tile => decide (tile < 2048)
  | .wtk i => decide (i.tile ≤ 2048)
  | .wtkRelease tile => decide (tile < 2048)
  | .fence i => decide (i.tile ≤ 2048)
  | .fenceComplete tile => decide (tile < 2048)
  | .tks i => decide (i.tile ≤ 2048)
  | .ecall i => decide (i.tile ≤ 2048)
  | .eret i => decide (i.tile ≤ 2048)
  | .brk i => decide (i.tile ≤ 2048)
  | .csrr i => decide (i.tile ≤ 2048)
  | .csrw i => decide (i.tile ≤ 2048)
  | .iflush i => decide (i.tile ≤ 2048)
  | .ipf i => decide (i.tile ≤ 2048)
  | .halt i => decide (i.tile ≤ 2048)
  | .haltComplete tile => decide (tile < 2048)
  | .doubleFaultIdle tile => decide (tile < 2048)
  | .ibufFillComplete tile _ _ => decide (tile < 2048)
  | .breakpointHit tile => decide (tile < 2048)
  | .tcHaltRequest tile => decide (tile < 2048)
  | .tcResume tile => decide (tile < 2048)
  | .tcStep tile => decide (tile < 2048)
  | .debugHaltComplete tile => decide (tile < 2048)
  | .dbgPhalt part _ => decide (part < 32)
  | .dbgPresume part _ => decide (part < 32)
  | .sramScrub tile _ => decide (tile < 2048)
  | .hbmRefresh stack => decide (stack < 8)
  | .hbmEcs stack _ => decide (stack < 8)
  | .hbmTrained stack _ => decide (stack < 8)
  | .ringLoad part ring => decide (part < 32) && decide (ring < 1024)
  | .ringLoadComplete part _ => decide (part < 32)
  | .ringStop part ring => decide (part < 32) && decide (ring < 1024)
  | .ringResume part ring => decide (part < 32) && decide (ring < 1024)
  | .ringDoorbell ring _ => decide (ring < 32768)
  | .eventRingConsume ring _ => decide (ring < 32768)
  | .mevqConsume _ => true
  | .mevqCfgWrite _ => true
  | .pevqLostRead part _ => decide (part < 32)
  | .mevqLostRead _ => true
  | .memTtClr part _ => decide (part < 32)
  | .descFetch part _ => decide (part < 32)
  | .descNop ring => decide (ring < 32768)
  | .descCopy ring _ => decide (ring < 32768)
  | .descFill ring _ => decide (ring < 32768)
  | .launch ring => decide (ring < 32768)
  | .descComplete ring => decide (ring < 32768)
  | .hostReadCompletion ring _ _ => decide (ring < 32768)
  | .hostBarRead who bar _ size _ => who.wf && (bar == 0 || bar == 2 || bar == 4) && hostSize size
  | .hostBarWrite who bar _ size _ _ => who.wf && (bar == 0 || bar == 2 || bar == 4) && hostSize size
  | .cfgTileMapWrite die row _ => decide (die < 16) && decide (row < 8)
  | .remapSwitch die row => decide (die < 16) && decide (row < 8)
  | .remapDone die row => decide (die < 16) && decide (row < 8)
  | .d2dRetryFail link => decide (link < 44)
  | .d2dRetrainDone link _ => decide (link < 44)
  | .datumTick => true
  | .datumRefEdge _ _ => true
  | .tickEdgeSeen unit => unit.wf
  | .dtmCtlWrite _ => true
  | .dtmLoad _ => true
  | .dtmRelayWrite _ => true
  | .dtmModePendWrite _ _ => true
  | .modeArm _ => true
  | .modeCancel _ => true
  | .modeSend => true
  | .modeApply => true
  | .dtmPtClr _ => true
  | .stezerDataRx port _ => decide (port < 24)
  | .linkctlRx port _ => decide (port < 24)
  | .ackTimer port => decide (port < 24)
  | .replayTimeout port => decide (port < 24)
  | .heartbeatRx port _ _ => decide (port < 24)
  | .portSilent port => decide (port < 24)
  | .portTrained port => decide (port < 24)
  | .portTrainTimeout port => decide (port < 24)
  | .lnkPortTrain port => decide (port < 24)
  | .lnkPortDisable port => decide (port < 24)
  | .gazEntry port pos _ _ => decide (port < 24) && decide (pos < 4352)
  | .splitFreezeTimeout group => decide (group < 1024)
  | .lnkSubstGo _ => true
  | .gazSubst port _ _ _ => decide (port < 24)
  | .substApply => true
  | .segWrite _ _ => true
  | .segRead _ _ => true
  | .segSignal _ _ => true
  | .segColl _ => true
  | .segAck _ _ => true
  | .segRdata _ _ => true
  | .segmentLostTimeout xid => decide (xid < 16384)
  | .allreduce group _ => decide (group < 1024)
  | .reduceScatter group _ => decide (group < 1024)
  | .allgather group _ => decide (group < 1024)
  | .broadcast group _ => decide (group < 1024)
  | .alltoall group _ => decide (group < 1024)
  | .barrier group _ => decide (group < 1024)
  | .collFoldStart group => decide (group < 1024)
  | .collDeadline hub group => decide (hub < 4) && decide (group < 1024)
  | .colGrpWrite group word _ => decide (group < 1024) && decide (word < 3)
  | .rngRegister part => decide (part < 32)
  | .rngRelease part => decide (part < 32)
  | .rngLookup part => decide (part < 32)
  | .rngClear part => decide (part < 32)
  | .seqStart part => decide (part < 32)
  | .seqStop part => decide (part < 32)
  | .seqAbort part => decide (part < 32)
  | .seqAbortComplete part => decide (part < 32)
  | .seqLaunch part => decide (part < 32)
  | .seqSignalWaitMet part => decide (part < 32)
  | .seqStragglerDeadline part => decide (part < 32)
  | .seqCollDone part => decide (part < 32)
  | .seqGateDone part _ => decide (part < 32)
  | .seqUpdateDone part => decide (part < 32)
  | .evalWindowStart part => decide (part < 32)
  | .evalOverrun part => decide (part < 32)
  | .partReset part => decide (part < 32)
  | .flr who => who.wf
  | .partResetZero part _ => decide (part < 32)
  | .partResetDone part => decide (part < 32)
  | .partWithdraw part => decide (part < 32)
  | .prtCommit _ => true
  | .commitDone => true
  | .prtDenyRead _ => true
  | .prtSysidWrite _ => true
  | .prtLcsCmd _ actor => decide (actor < 3)
  | .lcsProgramDone => true
  | .getVersion _ => true
  | .getCapabilities _ => true
  | .negotiateAlgorithms _ _ => true
  | .getDigests _ => true
  | .getCertificate _ _ _ _ => true
  | .challenge _ _ _ => true
  | .getMeasurements _ _ => true
  | .keyExchange _ _ _ => true
  | .finish _ _ _ => true
  | .spdmHeartbeat _ _ => true
  | .endSession _ _ => true
  | .getSensorReading _ => true
  | .setNumericSensorEnable _ _ => true
  | .pldmGetPdr _ => true
  | .pldmFwUpdate _ => true
  | .activateFirmware => true
  | .powerSample _ => true
  | .opStepSwitch die => decide (die < 16)
  | .powerWindowEdge => true
  | .pwrCapWrite _ => true
  | .pwrWinWrite _ => true
  | .pwrPrioWrite _ => true
  | .pwrThrClr part _ => decide (part < 32)
  | .ilimSample rail _ => decide (rail < 4)
  | .droopDetect die _ => decide (die < 16)
  | .droopHoldExpire die _ => decide (die < 16)
  | .thermalCrit die => decide (die < 20)
  | .thermalTrip die => decide (die < 20)
  | .avsTimeout rail => decide (rail < 4)
  | .surveyRun => true
  | .surveyPeriodic => true
  | .surveyComplete _ => true
  | .svcRepair _ => true
  | .svcReplSet _ => true
  | .bootSlotSelect _ _ _ => true
  | .bistComplete _ _ => true
  | .deviceReady _ => true
  | .lnkDiscStart => true
  | .discExchangeTimeout => true
  | .joinWindowClose => true
  | .gazQuiet => true
  | .gazClaim port pos _ => decide (port < 24) && decide (pos < 4352)
  | .originElected => true
  | .datumAbsent => true
  | .gazAligned port pos => decide (port < 24) && decide (pos < 4352)
  | .discAlign => true
  | .discReadyFlood => true
  | .gazReady port _ => decide (port < 24)
  | .systemReady => true
  | .tapExtest => true
  | .tapSamplePreload => true
  | .tapIdcode => true
  | .tapClamp => true
  | .tapHighz => true
  | .tapExtestPulse => true
  | .tapExtestTrain => true
  | .tapBridge => true
  | .tapBypass => true
  | .jtagBridgeAccess _ => true
  | .laneLockLoss port => decide (port < 24)
  | .configurationRequest _ => true
  | .smbusArp _ => true
  | .testLogicReset => true

end Sys2Proof
end

