-- ==== Sys2Proof/Tests/Slice0.lean ====
section
/-! SUPPORT. Tests of single steps, with results from the spec's own worked examples where it gives them; the
well-formedness smoke; and for each statement with hypotheses, states that meet them. -/
open Sys2Proof Sys2Proof.Machine Sys2Proof.Claims
namespace Sys2Proof.Tests
set_option Elab.async false

/-! ## Helpers -/

/-- An instruction word from its fields (spec/07_nolpa_programming.md Table 7.3). -/
def word (op a b c d l : Nat) : W64 :=
  BitVec.ofNat 64 (op * 2 ^ 56 + a * 2 ^ 50 + b * 2 ^ 44 + c * 2 ^ 38 + d * 2 ^ 32 + l)

/-- The issue of a word on tile 0. -/
def iss (w : W64) (imm : W64 := 0) : Issue := ⟨0, w, imm, .ok, false⟩

/-- A RUNNING tile at pc 0 whose buffer holds a word and the one behind it. -/
def runTile (w : W64) (imm : W64 := 0) : Tile :=
  { Tile.reset.setState tsRunning with
    ibuf := [⟨0, (toBytes 8 w.toNat ++ toBytes 8 imm.toNat).zipIdx.map (fun p => (p.2, p.1))⟩] }

/-- Register fields set one after another. -/
def sets (s : State) (fs : List (Fld × Nat)) : State := fs.foldl (fun s p => s.setFld p.1 p.2) s

/-- A device that is READY: partition 0 is, in job slot 0, which owns granule 0 with every right; the die-to-die links
are up and the crossings admit traffic. -/
def ready : State := sets
  { State.reset with stage := 7, admitted := List.range 101, count := 1000 }
  ([(Csr.prtPart_state 0, 0), (Csr.prtBindSts_state, 1), (Csr.prtPart_assigned_act 0, 1), (⟨Csr.prtGranAct 0, 0, 16⟩, 0xFFA0), (Csr.prtJobAct_valid 0, 1)] ++
    (List.range 44).map (fun k => (Csr.cfgD2dSts_up k, 1)))

/-- That device with a tile 0. -/
def withTile (t : Tile) : State := { ready with tiles := [(0, t)] }

/-- The state after a step. -/
def after (r : Res) : State := match r with
  | .next t => t
  | _ => State.reset

/-- Tile 0 after a command on a tile that holds its word. -/
def ran (c : Issue → Instr) (w : W64) (f : Tile → Tile := id) (imm : W64 := 0) : Tile :=
  (after (exec (c (iss w imm)) (withTile (f (runTile w imm))))).tile 0

/-- State.Issues as a computation. -/
def issuesB (s : State) (i : Issue) : Bool :=
  let t := s.tile i.tile
  decide (i.tile ≤ mcCore) && t.canIssue && s.fetchWord i.tile t.pc i.word == some i.word && !i.parity &&
  (!isX i.word || s.fetchWord i.tile ((t.pc + 8) % 2 ^ 48) i.imm == some i.imm) && coreOk i.tile i.word && !s.stalls i.tile i.word

theorem issues_iff (s : State) (i : Issue) : s.Issues i ↔ issuesB s i = true := by
  simp only [State.Issues, issuesB]
  cases isX i.word <;> simp [and_assoc]

/-! ## The tile core -/

/-- The worked example of R212: ADDI s5, s3, -16. -/
theorem test_addi_word : word 0x18 5 3 0 0 0xFFFFFFF0 = 0x18143000FFFFFFF0 := by decide

theorem test_addi : (ran .addi (word 0x18 5 3 0 0 0xFFFFFFF0) (·.setS 3 10)).s 5 = -6 ∧
    (ran .addi (word 0x18 5 3 0 0 0xFFFFFFF0) (·.setS 3 10)).pc = 8 := by decide +kernel

theorem test_add_wraps : (ran .add (word 0x01 1 1 2 0 0) (fun t => (t.setS 1 (-1)).setS 2 1)).s 1 = 0 := by decide +kernel

theorem test_s0_discards : (ran .add (word 0x01 0 1 2 0 0) (fun t => (t.setS 1 3).setS 2 1)).s 0 = 0 := by decide +kernel

/-- R213: division by zero, and the most negative number by -1. -/
theorem test_div_corners :
    (ran .div (word 0x06 1 2 3 0 0) (·.setS 2 7)).s 1 = -1 ∧
    (ran .rem (word 0x08 1 2 3 0 0) (·.setS 2 7)).s 1 = 7 ∧
    (ran .div (word 0x06 1 2 3 0 0) (fun t => (t.setS 2 (BitVec.intMin 64)).setS 3 (-1))).s 1 = BitVec.intMin 64 ∧
    (ran .rem (word 0x08 1 2 3 0 0) (fun t => (t.setS 2 (BitVec.intMin 64)).setS 3 (-1))).s 1 = 0 ∧
    (ran .div (word 0x06 1 2 3 0 0) (fun t => (t.setS 2 (-7)).setS 3 2)).s 1 = -3 ∧
    (ran .rem (word 0x08 1 2 3 0 0) (fun t => (t.setS 2 (-7)).setS 3 2)).s 1 = -1 := by decide +kernel

theorem test_lix : (ran .lix (word 0xF0 4 0 0 0 0) id 0x123456789ABCDEF0).s 4 = 0x123456789ABCDEF0 ∧
    (ran .lix (word 0xF0 4 0 0 0 0) id 0x123456789ABCDEF0).pc = 16 := by decide +kernel

/-- R212: a word of zeros takes TC_UNDEF, here from J with a vector. -/
theorem test_zero_word_is_undefined :
    (ran .nop 0 (·.setFld Csr.tcTvec_vec 0x100)).pc = 0x800 ∧
    (ran .nop 0 (·.setFld Csr.tcTvec_vec 0x100)).word Csr.tcCause = 0x0A40 := by decide +kernel

/-- R214: a link to the instruction behind, by the old ra. -/
theorem test_jalr_links_by_the_old_ra :
    (ran .jalr (word 0x41 3 3 0 0 2) (·.setS 3 0x40)).pc = 0x50 ∧
    (ran .jalr (word 0x41 3 3 0 0 2) (·.setS 3 0x40)).s 3 = 8 := by decide +kernel

theorem test_blt_is_signed :
    (ran .blt (word 0x44 0 1 2 0 4) (·.setS 1 (-1))).pc = 32 ∧
    (ran .bltu (word 0x46 0 1 2 0 4) (·.setS 1 (-1))).pc = 8 := by decide +kernel

/-- R215: a store of two bytes, little-endian, and a sign-extended load, in the tile's own SRAM. -/
theorem test_store_bytes :
    let s := withTile ((runTile (word 0x61 0 1 2 0 0x01000004)).setS 1 (BitVec.ofNat 64 (sramBase 0)) |>.setS 2 0xABCD)
    let t := after (exec (.st (iss (word 0x61 0 1 2 0 0x01000004))) s)
    t.bytes (sramBase 0 + 3) 4 = [0, 0xCD, 0xAB, 0] := by decide +kernel

theorem test_load_waits_and_completes :
    let s := (withTile ((runTile (word 0x60 5 1 0 0 0x04000000)).setS 1 (BitVec.ofNat 64 (sramBase 0)))).store (sramBase 0) 1 0x80
    let t := after (exec (.ld (iss (word 0x60 5 1 0 0 0x04000000))) s)
    (t.tile 0).s 5 = 0 ∧ (t.tile 0).pc = 0 ∧
    ((after (exec (.memAccessComplete 0) t)).tile 0).s 5 = -128 ∧ ((after (exec (.memAccessComplete 0) t)).tile 0).pc = 8 := by
  decide +kernel

/-- R220, R228: ECALL from J enters the handler at P with its code. -/
theorem test_ecall_enters_the_handler :
    let b := ran .ecall (word 0xD0 0 0 0 0 77) (·.setFld Csr.tcTvec_vec 0x100)
    b.pc = 0x800 ∧ b.word Csr.tcCause = 0x0A42 ∧ b.word Csr.tcTval = 77 ∧ b.fld Csr.tcStatus_priv = 1 ∧
    b.word Csr.tcEpc = 0 := by decide +kernel

theorem test_eret_returns :
    let b := ran .eret (word 0xD1 0 0 0 0 0) (fun t => (t.setFld Csr.tcStatus_priv 1).setFld Csr.tcEpc_epc 0x208)
    b.pc = 0x208 ∧ b.fld Csr.tcStatus_priv = 0 := by decide +kernel

/-- The worked example of R219: k3 signalled, mask 8. -/
theorem test_wtk_example :
    let w := word 0xC0 4 7 0 2 8
    let s := withTile ((runTile w).setS 7 5000)
    let t := after (exec (.wtk (iss w)) s)
    ((after (exec (.wtkRelease 0) t)).tile 0).s 4 = 8 ∧
    ((after (exec (.wtkRelease 0) { t with tiles := [(0, (t.tile 0).setK 3 1)], seen := [(0, 5000)] })).tile 0).s 4 = 1 := by
  decide +kernel


/-- A WTK with an empty mask and a deadline, a Waypoint, waits for its tick, which it then writes as a timeout (R218).
-/
theorem test_waypoint_waits :
    let s (n : W64) : State := { withTile { runTile 0 with wait := .wtk 4 true (some 1001) false 1 } with seen := [(0, n)] }
    ((after (exec (.wtkRelease 0) (s 1000))).tile 0).wait = .wtk 4 true (some 1001) false 1 ∧
    ((after (exec (.wtkRelease 0) (s 1001))).tile 0).wait = .none ∧
    ((after (exec (.wtkRelease 0) (s 1001))).tile 0).s 4 = 1 := by decide +kernel
/-! ## Numbers: the worked examples of the spec -/

/-- R16: the L6 row of the example, packed little-endian. -/
theorem test_l6_row : ((List.range 4).map (Fmt.l6.unpack [0x50, 0xF4, 0xB0])) = [0x10, 0x11, 0x0F, 0x2C] := by decide +kernel

/-- R35: L16 0x3B66 into L8 at equal scale logs. -/
theorem test_l16_to_l8 : (toL .l8 none (Fmt.l16.value 0x3B66 0) 0).code = 0x2D := by decide +kernel

/-- R31: FP32 -0.3 into L8; R32: the two sides of its threshold t = 1,682,349. -/
theorem test_f32_to_l8 : (toL .l8 none (Fmt.fp32.value 0xBE99999A 0) 0).code = 0xB2 ∧
    (toL .l8 (some 1682348) (Fmt.fp32.value 0xBE99999A 0) 0).code = 0xB3 ∧
    (toL .l8 (some 1682349) (Fmt.fp32.value 0xBE99999A 0) 0).code = 0xB2 := by decide +kernel

/-- The limits of L8 at scale log 0: 250.0, 300.0, 0.004 and -0.004. -/
theorem test_l8_limits : toL .l8 none (Fmt.fp32.value 0x437A0000 0) 0 = ⟨0x7F, false, false, {}⟩ ∧
    toL .l8 none (Fmt.fp32.value 0x43960000 0) 0 = ⟨0x7F, true, false, {}⟩ ∧
    toL .l8 none (Fmt.fp32.value 0x3B83126F 0) 0 = ⟨0, false, true, {}⟩ ∧
    toL .l8 none (Fmt.fp32.value 0xBB83126F 0) 0 = ⟨0, false, true, {}⟩ := by decide +kernel

/-- R34: I8 37 with zero point -12 and scale log -2048 into L8. -/
theorem test_i8_to_l8 : (toL .l8 none ((Fmt.i8.value 37 (-12)).scale (-2048)) 0).code = 0x4C := by decide +kernel

/-- R55 to R65: the L8 block of four live products, into a running sum of +0. -/
theorem test_graticule_l8 : addBlock 0 (gratBlock .l8 .l8 0 ([0x4C, 0x35, 0xC6, 0x40] ++ List.replicate 28 0)
    ([0x43, 0x52, 0x3E, 0xBB] ++ List.replicate 28 0)) 0 none = some 0x405C1EFA := by decide +kernel

/-- R59 to R66: the L16 product; rounded to even, and by draws on either side of t = 15,925,248. -/
theorem test_graticule_l16 :
    let b := gratBlock .l16 .l16 0 (0x4160 :: List.replicate 31 0) (0x3FA3 :: List.replicate 31 0)
    addBlock 0 b 0 none = some 0x3FB5B9F8 ∧ addBlock 0 b 0 (some 15925247) = some 0x3FB5B9F8 ∧
    addBlock 0 b 0 (some 15925248) = some 0x3FB5B9F7 := by decide +kernel

/-- R120: the L16 codes 0x4300 and 0x4080 added and subtracted. -/
theorem test_ladd_example :
    let a := LVal.ofCode .l16 0x4300 0
    let b := LVal.ofCode .l16 0x4080 0
    (toL .l16 none (lSum false a b) 0).code = 0x4403 ∧ (toL .l16 none (lSum true a b) 0).code = 0x416D := by decide +kernel

/-- R119: the reciprocal square root of 0x4300. -/
theorem test_lrsqrt_example : (toL .l16 none (Builtin.rsqrt.eval (Fmt.l16.value 0x4300 0)).1 0).code = 0x3E80 := by decide +kernel

/-- R129: the folded record of the example: mean 0.125, variance 0.984375, rstd 1.007900. -/
theorem test_momfin_example :
    let m := momfin 2048 0x4070000000000000 0x40A0000000000000 0x3EE4F8B588E368F1
    m.1 = 0x3FC0000000000000 ∧ m.2.1 = 0x3FEF800000000000 ∧ m.2.2.1 / 2 ^ 7 = 0x3F8102DF / 2 ^ 7 := by decide +kernel

/-- R314: three FP32P elements folded in order of rank, in FP32 and in FP64. -/
theorem test_fold_order :
    let fold := fun (dt : Nat) => foldData dt 1 (some (foldData dt 1 (some (foldData dt 1 none (toBytes 4 0x4B800000)))
      (toBytes 4 0x3F800000))) (toBytes 4 0x3F800000)
    fold 0 = toBytes 4 0x4B800000 ∧ fold 1 = toBytes 8 0x4170000020000000 := by decide +kernel

/-- R331: the first round of the all-zero evaluation. -/
theorem test_bearing_round : bearRound 0 0 0 ⟨0, 0, 0, 0⟩ = ⟨0, 0, 0x1294BDC7, 0x2F71C4A5⟩ ∧
    bearRound 0 0 1 ⟨0, 0, 0x1294BDC7, 0x2F71C4A5⟩ = ⟨0x2F71C4A5, 0, 0x84E176D0, 0x84270BB6⟩ := by decide +kernel


/-- The spec's example after R107: bins 41:10, 40:200, 18:5, 19:30, the rest between, choose L12 with scale log -3072.
-/
theorem test_hist_adapt_example :
    adaptChoice ⟨true, true, true, true, true, 1, 16, 1⟩ .l8 (adaptRange
      ((List.range 64).map (fun k => if k = 41 then 10 else if k = 40 then 200 else if k = 18 then 5 else if k = 19 then 30
        else if k = 30 then 999455 else 0)) 15) = (.l12, -3072) := by decide +kernel
/-! ## Well-formedness: each check refuses a term -/

theorem test_wf_tile_0 : ([
  .mxw, .mxmOpen, .mxmAdd, .cvt, .fadd, .fsub, .fmul, .fma, .fdiv, .fsqrt, .fmin, .fmax, .fcmpEq, .fcmpLt, .fcmpLe,
  .fcmpUn, .lmul, .ldiv, .lrcp, .lsqrt, .lrsqrt, .lcmpEq, .lcmpLt, .lcmpLe, .lcmpUn, .iaddW, .isubW, .imulW, .andW,
  .orW, .xorW, .sllW, .srlW, .sraW, .iminW, .imaxW, .icmpEqW, .icmpLtW, .icmpLtuW, .iaddD] : List (Issue → Instr)).all (fun c =>
    (c ⟨2048, 0, 0, .ok, false⟩).wf && !(c ⟨2049, 0, 0, .ok, false⟩).wf) = true := by decide +kernel

theorem test_wf_tile_1 : ([
  .isubD, .andD, .orD, .xorD, .sllD, .srlD, .sraD, .sel, .perm, .ladd, .laddSub, .fntExp, .fntExp2, .fntLog,
  .fntLog2, .fntReciprocal, .fntRsqrt, .fntTable, .fntF, .redMax, .redMin, .redSum, .redMom, .redPsum, .redMomfin,
  .redSoftmax, .redSoftmaxBwd, .had, .movCopy, .movSrf, .movFuslot, .coll, .rngRaw, .rngUniform, .rngBern,
  .histRead, .histMerge, .histAdapt, .phase, .add] : List (Issue → Instr)).all (fun c =>
    (c ⟨2048, 0, 0, .ok, false⟩).wf && !(c ⟨2049, 0, 0, .ok, false⟩).wf) = true := by decide +kernel

theorem test_wf_tile_2 : ([
  .sub, .mul, .mulh, .mulhu, .div, .divu, .rem, .remu, .and, .or, .xor, .sll, .srl, .sra, .slt, .sltu, .min, .max,
  .minu, .maxu, .clz, .popc, .addi, .andi, .ori, .xori, .slli, .srli, .srai, .slti, .lih, .dgetw, .dsetw, .dmov,
  .daddb, .nop, .lix, .addx, .jal, .jalr] : List (Issue → Instr)).all (fun c =>
    (c ⟨2048, 0, 0, .ok, false⟩).wf && !(c ⟨2049, 0, 0, .ok, false⟩).wf) = true := by decide +kernel

theorem test_wf_tile_3 : ([
  .beq, .bne, .blt, .bge, .bltu, .bgeu, .jx, .ld, .st, .amoAddI32, .amoAddI64, .amoFadd, .amoMaxI32, .amoMaxI64,
  .amoMinI32, .amoMinI64, .amoFmax, .amoFmin, .cas, .dld, .dst, .wtk, .fence, .tks, .ecall, .eret, .brk, .csrr,
  .csrw, .iflush, .ipf, .halt] : List (Issue → Instr)).all (fun c =>
    (c ⟨2048, 0, 0, .ok, false⟩).wf && !(c ⟨2049, 0, 0, .ok, false⟩).wf) = true := by decide +kernel

theorem test_wf_refuses_0 : ([
  .registerWrite (.vf 32) 0 4 0, .registerWrite .m 0 3 0, .pllWrite 54 false 0, .pllReady 54 false, .pllUnlock ⟨54, false⟩,
  .clkSwitchRequest 54 0, .heldSwitchProceed 54, .crossingBackpressureTimeout 101, .crossingReadyRequest 101,
  .crossingReadyAck 101, .mxwLoadStart 2048, .outputConversion 2048 0, .outputConversion 0 8, .cfgCtrClr 2048 0 0,
  .cfgCtrClr 0 16 0, .cfgFmtcClr 2048 0, .tCompletion 2048 0, .tCompletion 0 7, .memAccessComplete 2048,
  .wtkRelease 2048, .fenceComplete 2048, .haltComplete 2048, .doubleFaultIdle 2048, .ibufFillComplete 2048 0 .ok,
  .breakpointHit 2048, .tcHaltRequest 2048, .tcResume 2048, .tcStep 2048, .debugHaltComplete 2048, .dbgPhalt 32 0,
  .dbgPresume 32 0, .sramScrub 2048 .ok, .hbmRefresh 8, .hbmEcs 8 .ok, .hbmTrained 8 false, .ringLoad 32 0,
  .ringLoad 0 1024, .ringLoadComplete 32 .ok, .ringStop 32 0, .ringStop 0 1024] : List Instr).all (fun c => !c.wf) = true := by decide +kernel

theorem test_wf_refuses_1 : ([
  .ringResume 32 0, .ringResume 0 1024, .ringDoorbell 32768 0, .eventRingConsume 32768 0, .pevqLostRead 32 .full,
  .memTtClr 32 0, .descFetch 32 .ok, .descNop 32768, .descCopy 32768 .ok, .descFill 32768, .launch 32768,
  .descComplete 32768, .hostReadCompletion 32768 [], .hostBarRead (.vf 32) 0 0 4, .hostBarRead .m 0 0 3,
  .hostBarRead .m 1 0 4, .hostBarWrite (.vf 32) 0 0 4 0, .hostBarWrite .m 0 0 3 0, .hostBarWrite .m 1 0 4 0,
  .cfgTileMapWrite 16 0 0, .cfgTileMapWrite 0 8 0, .remapSwitch 16 0, .remapSwitch 0 8, .remapDone 16 0,
  .remapDone 0 8, .d2dRetryFail 44, .d2dRetrainDone 44 none, .tickEdgeSeen (.die 16), .tickEdgeSeen (.hub 4),
  .stezerDataRx 24 ⟨0, [], 0⟩, .linkctlRx 24 ⟨0, [], 0⟩, .ackTimer 24, .replayTimeout 24,
  .heartbeatRx 24 ⟨0, [], 0⟩, .portSilent 24, .portTrained 24, .portTrainTimeout 24,
  .lnkPortTrain 24, .lnkPortDisable 24, .gazEntry 24 0 0 0] : List Instr).all (fun c => !c.wf) = true := by decide +kernel

theorem test_wf_refuses_2 : ([
  .gazEntry 0 4352 0 0, .splitFreezeTimeout 1024, .gazSubst 24 0 0 0, .segmentLostTimeout 16384, .allreduce 1024,
  .reduceScatter 1024, .allgather 1024, .broadcast 1024, .alltoall 1024, .barrier 1024, .collFoldStart 1024,
  .collDeadline 4 0, .collDeadline 0 1024, .colGrpWrite 1024 0 0, .colGrpWrite 0 3 0, .rngRegister 32,
  .rngRelease 32, .rngLookup 32, .rngClear 32, .seqStart 32, .seqStop 32, .seqAbort 32, .seqAbortComplete 32,
  .seqLaunch 32, .seqSignalWaitMet 32, .seqStragglerDeadline 32, .seqCollDone 32, .seqGateDone 32 .ok,
  .seqUpdateDone 32, .evalWindowStart 32, .evalOverrun 32, .partReset 32, .flr (.vf 32), .partResetZero 32 0,
  .partResetDone 32, .partWithdraw 32, .opStepSwitch 16, .pwrThrClr 32 0, .ilimSample 4 0, .droopDetect 16 0] : List Instr).all (fun c => !c.wf) = true := by decide +kernel

theorem test_wf_refuses_3 : ([
  .droopHoldExpire 16 0, .thermalCrit 20, .thermalTrip 20, .avsTimeout 4, .gazClaim 24 0 false,
  .gazClaim 0 4352 false, .gazAligned 24 0, .gazAligned 0 4352, .gazReady 24 0, .laneLockLoss 24] : List Instr).all (fun c => !c.wf) = true := by decide +kernel

/-! ## States that meet the statements' hypotheses: the tile core -/

/-- Words of the S class, one for each row of Table 7.5 and TKS. -/
def scalarWords : List W64 :=
  ((List.range 0x15).map (fun k => word (k + 1) 1 2 3 0 0)) ++ [word 0x16 1 2 0 0 0, word 0x17 31 2 0 0 0] ++
  ([0x18, 0x19, 0x1A, 0x1B, 0x1C, 0x1D, 0x1E, 0x1F, 0x20].map (fun k => word k 0 2 0 0 63)) ++
  [word 0xF0 1 0 0 0 0, word 0xF1 1 2 0 0 0, word 0x30 1 63 0 0 7, word 0x31 63 1 0 0 7, word 0x32 1 2 0 0 0,
    word 0x33 1 2 31 0 0, word 0x3F 0 0 0 0 0, word 0xC2 1 31 0 0 0]

/-- Hypotheses of ScalarOperationsGiveTheirResults: every row has a word that issues. -/
theorem witness_scalar : (scalarRows.map (fun e => e.op) ++ dregRows.map (fun e => e.2.1)).all (fun o =>
      scalarWords.any (fun w => fOp w == o)) = true ∧
    ∀ w ∈ scalarWords, (withTile (runTile w)).Issues (iss w) := by
  simp only [issues_iff, ← List.all_eq_true]; decide +kernel

/-- Words of the B class. -/
def branchWords : List W64 :=
  [word 0x40 1 0 0 0 0xFFFFFFFF, word 0x41 1 2 0 0 1] ++
  ([0x42, 0x43, 0x44, 0x45, 0x46, 0x47].map (fun k => word k 0 1 2 0 0xFFFFFFFF)) ++ [word 0xF2 0 0 0 0 0]

/-- Hypotheses of BranchesGoToTheirTargets: each row issues; taken to a target below 2^48, not taken, to one that is no
multiple of 8, and to 2^48 and beyond. -/
theorem witness_branches :
    (branchRows.map (fun e => e.op) = branchWords.map fOp) ∧
    (∀ w ∈ branchWords, (withTile (runTile w)).Issues (iss w)) ∧
    (let e := BranchRow.cond .beq 0x42 (fun a b => decide (a = b))
     e.taken (runTile 0) (word 0x42 0 1 2 0 4) = true ∧ (e.target (runTile 0) (iss (word 0x42 0 1 2 0 4))).toNat = 32 ∧
     e.taken ((runTile 0).setS 1 1) (word 0x42 0 1 2 0 4) = false ∧
     2 ^ 48 ≤ (e.target (runTile 0) (iss (word 0x42 0 1 2 0 0xFFFFFFFF))).toNat) ∧
    ((runTile 0).setS 2 4).s (fB (word 0x41 1 2 0 0 0)) + 8 * imm32 (word 0x41 1 2 0 0 0) = 4 := by
  simp only [issues_iff, ← List.all_eq_true]; decide +kernel

/-- A tile at P. -/
def atP (t : Tile) : Tile := t.setFld Csr.tcStatus_priv 1

/-- Hypotheses of ExceptionsAreTaken: ECALL at J and at P, BRK without brk_en, ERET, CSRW and CSRR at J. -/
theorem witness_exceptions :
    (∀ w ∈ [word 0xD0 0 0 0 0 77, word 0xD2 0 0 0 0 0, word 0xD1 0 0 0 0 0, word 0xD4 0 1 0 0 8, word 0xD3 1 0 0 0 8],
      (withTile (runTile w)).Issues (iss w)) ∧
    (runTile 0).fld Csr.tcStatus_priv = 0 ∧ (runTile 0).fld Csr.tcDbgCtl_brk_en = 0 ∧
    (withTile (atP (runTile (word 0xD0 0 0 0 0 1)))).Issues (iss (word 0xD0 0 0 0 0 1)) ∧
    8 * bits (word 0xD3 1 0 0 0 8) 3 14 ∉ [Csr.cfgTileId, Csr.tcStatus, Csr.tcCycle, Csr.tcInstret] := by
  simp only [issues_iff, ← List.all_eq_true]; decide +kernel

/-- Hypotheses of EretRestoresAndBrkHalts and TileRegistersReadAndWritten. -/
theorem witness_control :
    (∀ w ∈ [word 0xD1 0 0 0 0 0, word 0xD3 1 0 0 0 8, word 0xD4 0 1 0 0 8],
      (withTile (atP (runTile w))).Issues (iss w)) ∧ (atP (runTile 0)).fld Csr.tcStatus_priv = 1 ∧
    (withTile ((runTile (word 0xD2 0 0 0 0 0)).setFld Csr.tcDbgCtl_brk_en 1)).Issues (iss (word 0xD2 0 0 0 0 0)) ∧
    ((runTile (word 0xD2 0 0 0 0 0)).setFld Csr.tcDbgCtl_brk_en 1).fld Csr.tcDbgCtl_brk_en = 1 ∧
    8 * bits (word 0xD3 1 0 0 0 0) 3 14 ∈ [Csr.cfgTileId, Csr.tcStatus, Csr.tcCycle, Csr.tcInstret] := by
  simp only [issues_iff, ← List.all_eq_true]; decide +kernel

/-- A state whose tile 0 holds a word and `a` in s1. -/
def memAt (w : W64) (a : Nat) : State := withTile ((runTile w).setS 1 (BitVec.ofNat 64 a))

/-- Words of the loads and stores, with the kind of access and the size. -/
def memWords : List (W64 × Access × Nat) := [
  (word 0x60 5 1 0 0 0x03000000, .read, 8), (word 0x61 0 1 2 0 0, .write, 1), (word 0x64 5 1 0 0 0, .read, 64),
  (word 0x65 5 1 0 0 0, .write, 64)]

/-- Words of the atomics. -/
def amoWords : List (W64 × Nat) :=
  ((List.range 9).map (fun k => (word 0x62 5 1 2 0 (k * 2 ^ 24), if k = 1 ∨ k = 4 ∨ k = 6 then 8 else 4))) ++
  [(word 0x63 5 1 2 3 0, 4), (word 0x63 5 1 2 3 0x01000000, 8)]

/-- Hypotheses of LoadsReadTheirHome, StoresWriteTheirHome and AtomicsReadAndModifyOnce: at the last bytes of the
tile's own SRAM, at the first of package memory, and, for the loads and stores, at a register the tile may use. -/
theorem witness_memory :
    (∀ e ∈ memWords, ∀ a ∈ [sramBase 0 + sramSize - 64, 0, 0x021000000000 + Csr.tcDbgCtl / 64 * 64],
      let s := { memAt e.1 a with tiles := [(0, atP ((memAt e.1 a).tile 0))] }
      (e.2.2 = 1 ∧ isCsr a = true) ∨ (s.Issues (iss e.1) ∧ Reaches s (iss e.1) e.2.1 e.2.2)) ∧
    (∀ e ∈ amoWords, ∀ a ∈ [sramBase 0 + sramSize - 8, 0],
      (memAt e.1 a).Issues (iss e.1) ∧ Reaches (memAt e.1 a) (iss e.1) .atomic e.2) ∧
    amoRows.map (fun e => e.op) = (amoWords.take 9).map (fun e => bits e.1 24 4) := by
  simp only [issues_iff, Reaches]; decide +kernel

/-- Hypotheses of MClassFaultsArePrecise: each cause at an address where the next would not do. -/
theorem witness_mclass_faults :
    (∀ a ∈ [sramBase 0 + 1, 0x010000000000 - 8, 2 ^ 48], (memAt (word 0x60 5 1 0 0 0x03000000) a).Issues
      (iss (word 0x60 5 1 0 0 0x03000000))) ∧
    region (0x010000000000 - 8) = .unmapped ∧ memRange csrBase 4 = false ∧
    (memAt (word 0x62 5 1 2 0 0) csrBase).Issues (iss (word 0x62 5 1 2 0 0)) := by
  simp only [issues_iff, ← List.all_eq_true]; decide +kernel

/-- A RUNNING tile that waits. -/
def waiting (w : Wait) : State := withTile { runTile 0 with wait := w }

/-- Hypotheses of MemAccessCompletes, of the releases of WtkWaitsAndReleases (its condition met, its deadline seen, a
faulted token) and of FencesAndPhases. -/
theorem witness_waits :
    (∀ r ∈ [MemWait.load 5 7, .desc 63 [1], .store, .fault 0x0901 8],
      ((waiting (.mem 8 r)).tile 0).wait = .mem 8 r ∧ ((waiting (.mem 8 r)).tile 0).state = tsRunning) ∧
    (∀ w ∈ [word 0xC0 4 7 0 2 8, word 0xC1 0 0 0 0 0x1, word 0xC1 0 0 0 0 0x11, word 0xC3 0 0 0 0 0x3, word 0xC3 0 0 0 0 0x1F],
      (withTile (runTile w)).Issues (iss w)) ∧
    (let a := (waiting (.wtk 4 false (some 1000) true 8)).tile 0
     a.busy 3 = false ∧ (a.setK 3 1).busy 3 = true ∧ bit ((a.setK 3 2).k 3) 1 = true) ∧
    (1000 : W64).toNat ≤ (({ waiting .none with seen := [(0, 1000)] } : State).seenDie 0).toNat ∧
    ((waiting (.fence [1] none)).tile 0).wait = .fence [1] none := by
  simp only [issues_iff, ← List.all_eq_true]; decide +kernel

/-- Hypotheses of HaltFlushAndPrefetch and FillCapturesMemory. -/
theorem witness_halt_and_fill :
    (∀ w ∈ [word 0xD7 0 0 0 0 0x1FFFF, word 0xD5 0 0 0 0 0, word 0xD6 0 1 0 0 64], (withTile (runTile w)).Issues (iss w)) ∧
    (let s := withTile { runTile 0 with fills := [sramBase 0 / 1024] }
     sramBase 0 / 1024 ∈ (s.tile 0).fills ∧ (s.tile 0).wait ≠ .iflush ∧ s.fetchFault 0 (sramBase 0) = none) := by
  simp only [issues_iff, ← List.all_eq_true]; decide +kernel

/-! ## The tensor engines -/

/-- A tensor descriptor over the tile's own SRAM, dense, of `n` elements in rows of `m`. -/
def tensor (off : Nat) (f : Fmt) (n m : Nat) (ext4 : Nat := 1) : List W64 :=
  let g := f.granule
  let st := fun (k : Nat) => BitVec.ofNat 64 (k * 2 ^ 24)
  [BitVec.ofNat 64 (sramBase 0 + off + f.code * 2 ^ 60), 1 <<< 23, BitVec.ofNat 64 (n - 1) + (if f.packed then 0 else st g),
    BitVec.ofNat 64 (m - 1) + st (g * n), 0, 0, BitVec.ofNat 64 (ext4 - 1) + st (g * n * m), 0]

/-- A tile with a word whose d1 is a destination at 0x4000 of one format, d2 to d4 sources at 0x1000, 0x2000, 0x3000. -/
def vecTile (w : W64) (dst src : Fmt) (n : Nat := 4) : Tile :=
  ((((runTile w).setD 1 (tensor 0x4000 dst n 1)).setD 2 (tensor 0x1000 src n 1)).setD 3 (tensor 0x2000 src n 1)).setD 4
    (tensor 0x3000 src n 1)

/-- A VOP word on d1 to d4 with token k1. -/
def vop (fn : Nat) : W64 := word 0x88 1 1 2 (if vopHasB fn then 3 else 0) (fn + if vopHasC fn then 4 * 2 ^ 11 else 0)

/-- A value that the rules give, rather than a fault. -/
def isOk {α : Type} : Except Nat α → Bool
  | .ok _ => true
  | .error _ => false

/-- The function codes of a VOP with a format its rule admits. -/
def vopCases : List (Nat × Fmt) :=
  ((List.range 12).map (fun k => (k, Fmt.fp32))) ++ ([0x10, 0x11, 0x12, 0x13, 0x14, 0x18, 0x19, 0x1A, 0x1B].map (·, Fmt.l16)) ++
  ([0x20, 0x21, 0x22, 0x23, 0x24, 0x25, 0x26, 0x27, 0x28, 0x29, 0x2A, 0x2C, 0x2D, 0x2E, 0x40, 0x41].map (·, Fmt.fp32)) ++
  ([0x30, 0x31, 0x33, 0x34, 0x35, 0x36, 0x37, 0x38].map (·, Fmt.fp64))

/-- Hypotheses of IeeeFunctionsOnElements, LogarithmicFunctionsOnElements, WordFunctionsOnElements and
ComparisonsWriteMasks: every function is ready on some operands. -/
theorem witness_vop : ∀ e ∈ vopCases, VopReady (withTile (vecTile (vop e.1) e.2 e.2)) (iss (vop e.1)) e.1 := by
  simp only [VopReady, Starts, issues_iff]; decide +kernel

/-- The further hypotheses of the L group, LADD and CVT: the values of the elements, their scales and the seed exist. -/
theorem witness_values :
    (∀ w ∈ [word 0x89 1 1 2 3 0, word 0x89 1 1 2 3 1, word 0x84 1 1 2 0 1], (withTile (vecTile w .l8 .l16)).Issues (iss w)) ∧
    (let s := { withTile (vecTile (vop 0x10) .l16 .l16) with registry := [(0, [⟨0, 0, 7, 0⟩])] }
     let v := vopOf s (iss (vop 0x10))
     v.dd.indices.all (fun c => isOk (s.lval 0 v.a c) && isOk (v.lb s 0 c) && isOk ((s.tile 0).elemScale v.dd c)) = true ∧
     s.resolve 0 v.dd.tid v.dd.sid = some 7) ∧
    (let s := withTile (vecTile (word 0x84 1 1 2 0 1) .l8 .l16)
     let d := fun k => Desc.ofWords ((s.tile 0).d k)
     s.checkOpnds 0 [⟨d 1, .elems⟩] [⟨d 2, .elems⟩] (!cvtOk (d 2).fmt (d 1).fmt || !(d 1).fmt.selOk 1)
       ((d 1).ext != (d 2).ext) eVeShape = none ∧
     (d 1).indices.all (fun c => isOk (s.value 0 (d 2) c) && isOk ((s.tile 0).elemScale (d 1) c)) = true) ∧
    (let s := withTile (vecTile (word 0x89 1 1 2 3 0) .l8 .l16)
     let d := fun k => Desc.ofWords ((s.tile 0).d k)
     s.checkOpnds 0 [⟨d 1, .elems⟩] [⟨d 2, .elems⟩, ⟨d 3, .elems⟩]
       (!((d 1).fmt.isL && (d 2).fmt.isL && (d 3).fmt.isL) || !(d 1).fmt.selOk 0)
       ((d 1).ext != (d 2).ext || (d 1).ext != (d 3).ext) eVeShape = none) := by
  simp only [issues_iff, ← List.all_eq_true]
  refine ⟨?_, ?_, ?_, ?_⟩ <;> decide +kernel

/-- 1.0 + 2.0, and 1.0 < 2.0, on elements of the tile's own SRAM; the other bytes stay. -/
theorem test_fadd_elements :
    let s := (withTile (vecTile (vop 0) .fp32 .fp32)).store (sramBase 0 + 0x1008) 4 0x3F800000 |>.store (sramBase 0 + 0x2008) 4 0x40000000
    let t := after (exec (.fadd (iss (vop 0))) s)
    t.bytes (sramBase 0 + 0x4004) 8 = toBytes 4 0 ++ toBytes 4 0x40400000 ∧ (t.tile 0).k 1 = 1 ∧
    ((after (exec (.tCompletion 0 1) t)).tile 0).k 1 = 0 := by decide +kernel

theorem test_fcmp_mask :
    let s := (withTile (vecTile (vop 9) .fp32 .fp32)).store (sramBase 0 + 0x1008) 4 0x3F800000 |>.store (sramBase 0 + 0x2008) 4 0x40000000
    (after (exec (.fcmpLt (iss (vop 9))) s)).byte (sramBase 0 + 0x4000) = 4 := by decide +kernel

/-- The example of R256: CVT of -0.3 into L8. -/
theorem test_cvt_example :
    let w := word 0x84 2 1 2 0 0
    let s := (withTile (vecTile w .l8 .fp32)).store (sramBase 0 + 0x1000) 4 0xBE99999A
    (after (exec (.cvt (iss w)) s)).byte (sramBase 0 + 0x4000) = 0xB2 := by decide +kernel

/-- R20: a narrow tensor without group scales faults with FMT_USE and writes nothing. -/
theorem test_cvt_narrow_needs_scales :
    let w := word 0x84 2 1 2 0 0
    let s := (withTile (vecTile w .l4 .fp32)).store (sramBase 0 + 0x1000) 4 0x3F800000
    let t := after (exec (.cvt (iss w)) s)
    t.mem = s.mem ∧ (t.tile 0).inflight.map (fun f => f.fault) = [0x0404] := by decide +kernel

/-- Words of FNT: built-ins, a table image, and the fused form. -/
def fntWords : List W64 := [0, 1, 2, 3, 4, 5].map (fun k => word 0x8C 1 1 2 0 k)

/-- A table image of one linear segment. -/
def image : FuImage := ⟨false, 0, 0, 0, 0, 0, 0, 0, 0, [⟨0, 0, 0⟩]⟩

/-- Hypotheses of FunctionUnitOnElements: built-in, table image and fused form. -/
theorem witness_fnt :
    (∀ e ∈ fntWords.map (·, 0) ++ [(word 0x8C 1 1 2 0 0x0F, 0), (word 0x8C 1 1 2 5 0x400, 0), (word 0x8C 1 1 2 5 0x40F, 0)],
      FntReady (withTile { vecTile e.1 .fp32 .fp32 with fu := [(0, image)] }) ⟨e.2, e.1, 0, .ok, false⟩) ∧
    (let s := withTile (vecTile (word 0x8C 1 1 2 0 0) .fp32 .fp32)
     (Desc.ofWords ((s.tile 0).d 2)).indices.all (fun c => isOk (s.value 0 (Desc.ofWords ((s.tile 0).d 2)) c)) = true) := by
  simp only [FntReady, Starts, issues_iff]; decide +kernel

/-- A tile with a RED word: destination d1 of `rn` by `rm` elements, sources d2 and d3 of `n` by `m`. -/
def redTile (w : W64) (dst src : Fmt) (rn rm n m : Nat) (ext4 : Nat := 1) : Tile :=
  ((((runTile w).setD 1 (tensor 0x4040 dst rn rm)).setD 2 (tensor 0x1000 src n m ext4)).setD 3 (tensor 0x2000 src n m)).setS 5
    0x0000500005000000

/-- Hypotheses of ReductionsWriteRecords and SoftMaximum. -/
theorem witness_red :
    (∀ e ∈ [(0, redTile (word 0x90 1 1 2 0 0) .fp32 .fp32 2 1 4 2), (1, redTile (word 0x90 1 1 2 0 1) .l16 .l16 2 1 4 2),
        (2, redTile (word 0x90 1 1 2 0 2) .fp64 .fp32 2 1 4 2)],
      RedReady (withTile e.2) (iss (word 0x90 1 1 2 0 e.1)) e.1) ∧
    (∀ e ∈ [(3, redTile (word 0x90 1 1 2 0 3) .fp64 .fp32 2 1 4 2), (4, redTile (word 0x90 1 1 2 0 4) .fp32p .fp32p 4 1 4 1 3),
        (6, redTile (word 0x90 1 1 2 5 6) .fp32 .fp32 4 2 4 2), (7, redTile (word 0x90 1 1 2 3 7) .fp32 .fp32 4 2 4 2)],
      RedReady (withTile e.2) (iss (word 0x90 1 1 2 (if e.1 = 6 then 5 else if e.1 = 7 then 3 else 0) e.1)) e.1) ∧
    RedReady (withTile ((redTile (word 0x90 1 1 2 5 5) .fp64 .fp64 4 1 4 1))) (iss (word 0x90 1 1 2 5 5)) 5 ∧
    (let s := withTile (redTile (word 0x90 1 1 2 0 2) .fp64 .fp32 2 1 4 2)
     (List.range 2).all (fun j => isOk (s.redRow 0 (redOf s (iss (word 0x90 1 1 2 0 2))) j)) = true) ∧
    (let s := withTile (redTile (word 0x90 1 1 2 5 6) .fp32 .fp32 4 2 4 2)
     (List.range 2).all (fun j => isOk (s.softmaxRow 0 (redOf s (iss (word 0x90 1 1 2 5 6))) 0 j)) = true) := by
  simp only [RedReady, Starts, issues_iff]
  refine ⟨?_, ?_, ?_, ?_, ?_⟩ <;> decide +kernel

/-- The rows of the example of R136 and R137: the second row's scores are all masked. -/
theorem test_softmax_masked_row :
    let w := word 0x90 1 1 2 5 6
    let t := (redTile w .fp32 .fp32 4 2 4 2).setS 5
      (BitVec.ofNat 64 (2 ^ 63 + 0x7000 * 2 ^ 41 + 0x5000 / 8 * 2 ^ 22 + 0x6000))
    let s := (withTile t).store (sramBase 0 + 0x1000) 8 0x400000003F800000 |>.store (sramBase 0 + 0x1008) 8 0x3F00000000000000
      |>.store (sramBase 0 + 0x6000) 2 0x0F04
    let u := after (exec (.redSoftmax (iss w)) s)
    (List.range 8).map (fun k => u.load (sramBase 0 + 0x4040 + 4 * k) 4 / 2 ^ 10) =
      [0x3E6CC5FC / 2 ^ 10, 0x3F20E779 / 2 ^ 10, 0, 0x3E0F9C20 / 2 ^ 10, 0, 0, 0, 0] ∧
    (u.words (sramBase 0 + 0x5000) 2).map (fun x => (bits x 0 32, bits x 32 32 / 2 ^ 10)) =
      [(0x40000000, 0x3FCBA62F / 2 ^ 10), (0xFE800000, 0)] ∧
    u.byte (sramBase 0 + 0x7000) = 2 := by decide +kernel

/-- Hypotheses of RotationAndFills: HAD along 32 elements of a registered pair, and RNG in its three modes. -/
theorem witness_had_rng :
    (let w := word 0x94 1 1 2 5 0
     let t := (((runTile w).setD 1 ((tensor 0x4000 .fp32 32 1).set 1 (BitVec.ofNat 64 (2 ^ 20 - 256 * 5 + 2 ^ 23)))).setD 2
       (tensor 0x1000 .fp32 32 1)).setS 5 (BitVec.ofNat 64 (3 + 4 * 2 ^ 32))
     let s := { withTile t with registry := [(0, [⟨3, 4, 7, 0⟩])] }
     issuesB s (iss w) = true ∧ (HadArgs.ofWord t w).check s 0 = none ∧ s.resolve 0 3 4 = some 7) ∧
    (∀ e ∈ [(0, Fmt.fp32), (1, .l8), (2, .l8)],
      let w := word 0xA0 1 1 2 (if e.1 = 2 then 5 else 0) e.1
      let s := { withTile (vecTile w e.2 .fp32) with registry := [(0, [⟨0, 0, 7, 0⟩])] }
      let dd := Desc.ofWords ((s.tile 0).d 1)
      issuesB s (iss w) = true ∧ s.resolve 0 dd.tid dd.sid = some 7 ∧
      (if e.1 = 0 then s.checkOpnds 0 [⟨dd, .raw⟩] [] (!(dd.fmt == .fp32 || dd.fmt == .fp32p)) false eVeShape
       else if e.1 = 1 then s.checkOpnds 0 [⟨dd, .elems⟩] [] (!fromF32Ok dd.fmt) false eVeShape
       else s.checkOpnds 0 [⟨dd, .mask dd.count⟩] [] false false eVeShape) = none) := by
  refine ⟨?_, ?_⟩ <;> decide +kernel

/-- The example of R101: 8.0 at position 0 of a block n, here of 8, with a stream's bit 0 of 1, gives n times
-8.0. -/
theorem test_had_example :
    (hadBlock 3 (Fmt.fp32.flip 0x41000000 :: List.replicate 7 0)).1 = List.replicate 8 0xC1000000 := by decide +kernel

/-- A weight buffer of four K positions and one column, all 1.0. -/
def buffer : WBuf := ⟨.l8, -256, 4, 1, 0, 0, 0, [List.replicate 4 0x40 ++ List.replicate 28 0], [0]⟩

/-- A tile with an MXM word: activation d1 of four by two, output d2 of one by two, and that buffer. -/
def mxmTile (w : W64) : Tile :=
  { (((runTile w).setD 1 (tensor 0x1000 .l8 4 2)).setD 2 (tensor 0x4000 .l8 1 2)).setS 5 0x40000000 with wbuf := [(0, buffer)] }

/-- An open chain of that buffer's column. -/
def chain : Chain :=
  { faulted := false, stoch := false, preset := 0, replays := 0, rowBase := 0, rows := 2, spillS := 64, spillBase := 0
    spilled := false, blocks := 1, drops := 0, tid := 0, sid := 0, seed := 0, openSeq := 0, outReg := 1, scAcc := -256, n := 1
    rc := 0, sg := false, sgBase := 0, sgGroups := 0, closing := false, groups := 0, grpKey := none }

/-- Hypotheses of WeightBlocksAreLoaded and MatrixMultipliesAccumulate: an MXW that issues and one that may load, an
MXM that opens a chain and one that adds to it. -/
theorem witness_matrix :
    issuesB (withTile (runTile (word 0x80 1 1 2 3 1))) (iss (word 0x80 1 1 2 3 1)) = true ∧
    (let o : MxwOp := ⟨1, 0, tensor 0x1000 .l8 4 1, 0, 0, 0, .ok⟩
     let s := withTile { runTile 0 with mq := [.mxw o] }
     (s.tile 0).mq = [.mxw o] ∧ (s.tile 0).state ≠ tsDebug ∧ (Desc.ofWords o.dw).gs = 0 ∧ o.check s 0 = none ∧
     isOk (o.groupScales (s.tile 0) (Desc.ofWords o.dw)) = true) ∧
    (let i := iss (word 0x81 1 1 2 5 0)
     let s := withTile { mxmTile i.word with mode := BitVec.ofNat 64 (63 * 2 ^ 33) }
     let o := mxmOf s i
     issuesB s i = true ∧ o.check s 0 = none ∧ (o.opens buffer).stoch = false ∧ (o.opens buffer).spillS = 64 ∧
     (List.range 2).all (fun r => (newSum s o buffer o.preset r 0 0).isSome) = true) ∧
    (let i := iss (word 0x81 1 1 2 5 0x10)
     let s := withTile { mxmTile i.word with chains := [(0, chain)] }
     let o := mxmOf s i
     issuesB s i = true ∧ o.check s 0 = none ∧ (s.tile 0).chain? o.slot = some chain ∧
     (List.range 2).all (fun r => (newSum s o buffer 0 r 0 ((s.tile 0).run r 0)).isSome) = true) := by
  refine ⟨?_, ?_, ?_, ?_⟩ <;> decide +kernel

/-- A closed chain of one entry as the example of R88 has it: run 3.43939066, bias -0.25, clip -4 to 4, and its
record. -/
def convState (dst : Fmt) (sc zp : Nat) (ctl : List Byte) : State :=
  let out := (tensor 0x4000 dst 1 1).set 1 (BitVec.ofNat 64 (sc + 2 ^ 23 + 2 ^ 28 + zp * 2 ^ 48))
  let o : MxmOp := ⟨1, 0, tensor 0x1000 .l8 4 1, out, 1, 0, 0x20, 0, false, .ok, 0, none⟩
  let t : Tile := { runTile 0 with
    chains := [(2, { chain with rows := 1, scAcc := -768, closing := true, spillBase := 0x8000 })]
    convs := [⟨2, o, ctl ++ List.replicate (12 - ctl.length) 0 ++ toBytes 8 0x40800000C0800000 ++ toBytes 4 0x5000 ++ List.replicate 40 0, none, 0⟩], acc := [(0, .bits 0x405C1EFA)], inflight := [{ State.reset.newFlight 0 0 (word 0x81 1 1 2 5 0) with tok := 1 }], seq := 1 }
  let s := (withTile t).writeBytes (sramBase 0) ctl
  (s.store (sramBase 0 + 12) 8 0x40800000C0800000).store (sramBase 0 + 20) 4 0x5000 |>.store (sramBase 0 + 0x5000) 4 0xBE800000

/-- The example of R88: 0x4F in L8 with scale log -1024, and bin 33. -/
theorem test_output_example :
    let t := after (exec (.outputConversion 0 2) (convState .l8 (2 ^ 20 - 1024) 0 [0, 3]))
    t.byte (sramBase 0 + 0x4000) = 0x4F ∧ ((t.tile 0).slotCounts 0).getD 33 0 = 1 ∧ (t.tile 0).chain? 2 = none := by
  decide +kernel

/-- The example of R90, its 172 into I16 (I8 cannot hold it): bin 39. -/
theorem test_integer_path_example :
    let t := after (exec (.outputConversion 0 2) (convState .i16 (2 ^ 20 - 3840) (2 ^ 16 - 3)
      ([0, 7, 0, 0, 8, 31, 0, 0] ++ toBytes 4 1518500250)))
    t.load (sramBase 0 + 0x4000) 2 = 172 ∧ ((t.tile 0).slotCounts 0).getD 39 0 = 1 := by decide +kernel

/-- Hypotheses of ClosedChainsAreConverted, on the state of that example. -/
theorem witness_conversion :
    let s := convState .l8 (2 ^ 20 - 1024) 0 [0, 3]
    (s.tile 0).convs.map (fun v => (v.slot, v.fault s 0 (Osr.ofBytes v.record), v.mustWait (s.tile 0))) = [(2, none, false)] ∧
    (s.tile 0).mq = [] ∧ (s.tile 0).state ≠ tsDebug ∧ ((s.tile 0).chain? 2).any (fun c => c.replays == 0) = true ∧
    (s.tile 0).inflight.map (fun f => (f.seq, f.fault)) = [(0, 0)] ∧
    (s.tile 0).convs.all (fun v => ((s.tile 0).chain? 2).all (fun c =>
      (OutJob.elems ⟨0, Osr.ofBytes v.record, v.op.dout, c, v.za, v.seed, none⟩ s).all (fun p => isOk p.2))) = true := by
  decide +kernel

/-- A table image of one segment in its region of 64 bytes: linear, from 0 in steps of 1. -/
def imageBytes : List Byte := List.replicate 64 0

/-- Hypotheses of LocalMoves: COPY, SRF and FUSLOT from the tile's own SRAM. -/
theorem witness_moves :
    (let i := iss (word 0x98 1 1 2 0 0)
     let s := withTile (vecTile i.word .fp32 .fp32)
     let j := copyJob s i
     let d := fun k => Desc.ofWords ((s.tile 0).d k)
     MovReady s i 0 ∧ movFault [⟨d 1, .elems⟩, ⟨d 2, .elems⟩] = none ∧ j.overlap = false ∧ j.held s = none ∧
     j.runs.all (fun r => (j.runFail s .ok r).isNone) = true ∧ s.localDev (d 1).dev = true) ∧
    (let i := iss (word 0x98 1 0 2 0 (1 + 4 * 8188))
     let s := withTile (vecTile i.word .l16 .l16)
     let ds := Desc.ofWords ((s.tile 0).d 2)
     let j : MoveJob := { copyJob s i with
       owner := .mov 0 0 (some (.srf 8188)), dst := .stage
       runs := joinRuns ((ds.pieces.zipIdx).map (fun p => (p.1, ((2 * p.2 : Nat) : Int), 2))) }
     MovReady s i 1 ∧ bits i.word 2 13 + ds.n 0 = 8192 ∧ ds.fmtc = 5 ∧ ds.ext.drop 1 = [1, 1, 1, 1] ∧
     movFault [⟨ds, .elems⟩] = none ∧ j.overlap = false ∧ j.held s = none ∧
     j.runs.all (fun r => (j.runFail s .ok r).isNone) = true) ∧
    (let i := iss (word 0x98 1 0 2 0 (2 + 15 * 2 ^ 15))
     let s := withTile (vecTile i.word .i8 .i8 64)
     let ds := Desc.ofWords ((s.tile 0).d 2)
     let j : MoveJob := { copyJob s i with
       owner := .mov 0 0 (some (.slot 15)), dst := .stage, runs := [((ds.base : Int), 0, ds.n 0)] }
     MovReady s i 2 ∧ ds.fmtc = 12 ∧ ds.base % 32 = 0 ∧ ds.n 0 = 64 ∧
     firstFault [(Opnd.descBad ⟨ds, .elems⟩, eDescField), (Opnd.fmtBad ⟨ds, .elems⟩, eFmtUse)] = none ∧
     j.overlap = false ∧ j.held s = none ∧ j.runs.all (fun r => (j.runFail s .ok r).isNone) = true ∧
     (parseImage imageBytes).isSome = true) := by
  simp only [MovReady, Starts, issues_iff]
  refine ⟨?_, ?_, ?_⟩ <;> decide +kernel

/-- Hypotheses of ContourRecords: READ, MERGE and ADAPT at a record of the tile's SRAM. -/
theorem witness_hist : ∀ e ∈ [(word 0xA4 1 0 2 0 0x40, 0), (word 0xA4 1 0 2 0 0x1F, 1), (word 0xA4 1 1 2 0 0x20, 2)],
    let t := ((runTile e.1).setD 1 (tensor 0x4000 .l8 4 1)).setS 2 (BitVec.ofNat 64 (sramBase 0 + 0x200))
    let s := (withTile t).store (sramBase 0 + 0x200 + 4 * 0x45) 4 2
    let o : ContourOp := ⟨1, 0, e.2, bits e.1 0 4, bits e.1 6 1 == 1, fB e.1, t.s 2, false, .ok⟩
    Starts s (iss e.1) ∧ bits e.1 4 2 = e.2 ∧ o.check s 0 = none ∧
      (e.2 = 2 → (s.adapt 0 (sramBase 0 + 0x200) 1).2.1 = none) := by
  simp only [Starts, issues_iff]; decide +kernel

/-- Hypotheses of CompletionSignalsTheToken, of CheckedFaultsWriteNothing (an FADD whose destination is not in the
SRAM of its tile, and a RED.MAX of another shape) and of ElementWritesStayInPlace. -/
theorem witness_completion :
    (let f : InFlight := { State.reset.newFlight 0 0 (vop 0) with done := true }
     engineOf 1 = some .vector ∧ (({ runTile 0 with inflight := [f] } : Tile).oldestDone .vector) = some f ∧
      (runTile 0).state ≠ tsReset ∧ (runTile 0).mq = [] ∧ (runTile 0).tq = []) ∧
    (let s := withTile ((vecTile (vop 0) .fp32 .fp32).setD 1 (tensor 0x300000 .fp32 4 1))
     Starts s (iss (vop 0)) ∧ (vopOf s (iss (vop 0))).check s 0 = some 0x0501) ∧
    (let s := withTile ((redTile (word 0x90 1 1 2 0 0) .fp32 .fp32 3 1 4 2))
     Starts s (iss (word 0x90 1 1 2 0 0)) ∧ (redOf s (iss (word 0x90 1 1 2 0 0))).check s 0 = some 0x0430) ∧
    (Desc.ofWords (tensor 0 .fp32 4 1)).ctrSlot < 16 := by
  simp only [Starts, issues_iff]; decide +kernel


/-! ## Witnesses: the block -/

/-- A tile in a state. -/
def tileIn (st : Nat) : Tile := Tile.reset.setState st

/-- Hypotheses of TilesHaltAndResume: a breakpoint at the pc, tile 2047, partition 31, a tile in DEBUG that is not yet
shown halted, and partitions without a late mode. -/
theorem witness_halts :
    ((let a := ((runTile 0).setFld (Csr.tcDbgBp_en 3) 1).setFld (Csr.tcDbgBp_pc 3) 0
      a.state = tsRunning ∧ a.wait = .none ∧ a.haltReq = false ∧ a.bpPassed = false ∧ a.fld (Csr.tcDbgBp_en 3) = 1 ∧
      a.fld (Csr.tcDbgBp_pc 3) / 8 * 8 = a.pc) ∧
    (let s : State := { ready with tiles := [(2047, tileIn tsDebug)] }
     (s.tile 2047).state = tsDebug ∧ (s.tile 2047).fld Csr.tcDbgSts_halted = 0 ∧
      (∀ f ∈ (s.tile 2047).inflight, f.eng = .move → f.blocked = false) ∧ s.fetched = [])) ∧
    (∀ n, (State.reset.tile n).modeLate = false) ∧ State.reset.seqs = [] := by
  refine ⟨by decide +kernel, fun n => rfl, rfl⟩

/-- Hypotheses of TilesComeToRest. -/
theorem witness_rest :
    (∀ w ∈ [Wait.halt 0xFFFF true, .halt 0 false, .dfault],
      ((waiting w).tile 0).wait = w ∧ ((waiting w).tile 0).state = tsRunning ∧ ((waiting w).tile 0).inflight = []) := by
  decide +kernel

/-- A Logbook entry that is not complete. -/
def openEntry : LogEntry := ⟨0, 1, 0, 0, false, false, 0, 5⟩

/-- Hypotheses of ResetsAndTheirRelease. -/
theorem witness_resets :
    (let s : State := { State.reset with hold := 1, otp := { Otp.blank with log := [openEntry] } }
     (s.hold = 1 ∨ s.stage = bsCold) ∧ scanIr s.tapIr = false ∧
      s.otp.log.find? (fun e => !e.done) = some openEntry) ∧
    (State.reset.hold ≠ 1 ∧ State.reset.stage = bsCold) ∧
    Canonical State.reset ∧ Canonical ready ∧
    (let s : State := { ready with hold := 2 }
     Canonical s ∧ s.hold = 2 ∧ s.tripped = false ∧ scanIr s.tapIr = false) := by
  simp only [Canonical]; decide +kernel

/-- Hypotheses of FirmwareBringsTheDeviceUp: the three stages. -/
theorem witness_firmware : ∀ k ∈ [bsRom, bsBist, bsFinish],
    let s : State := { State.reset with stage := k }
    s.stage = k ∧ s.hold = 0 ∧ s.fld Csr.svcSurvCtl_busy = 0 := by decide +kernel

/-- Hypotheses of RegisterWritesFollowTheirTypes, at a register of each kind of field, and of CountsAreClearedWhole. -/
theorem witness_registers :
    ([Csr.clkMon, Csr.memCtl, Csr.colCtl, Csr.lnkCtl, Csr.prtIdent, Csr.prtBindSts, Csr.svcFltAttr 31].all (fun off =>
      (findReg deviceRegs off).any (fun e => !ownRule.contains e.1.reg) && decide (off < 0xB00000) && off % 8 == 0)) = true ∧
    State.reset.running = true ∧ State.reset.frozen = false := by
  refine ⟨?_, ?_, ?_⟩ <;> decide +kernel

/-- The device with its PCIe link and its configuration space, VFs enabled. -/
def linked : State := { ready with pcieUp := true, pcieCfg := true, vfEnable := true }

/-- The last bytes of package memory, in a stack of hub 3. -/
def farEnd : Nat := 0x8000000000 - 8
/-- The device with the ring of its hubs cut, partition 0 owning the last granule. -/
def cutOff : State := sets linked
  ((⟨Csr.prtGranAct 511, 0, 16⟩, 0xFFA0) :: [40, 41, 42, 43].map (fun k => (Csr.cfgD2dSts_down k, 1)))

/-- Hypotheses of HostAccessesAreServedOrDenied: each BAR at its last bytes, open and not, taken by its home and not,
for the PF and a VF; a home held back and one cut off; a function that does not answer; an offset outside every BAR.
-/
theorem witness_host :
    (∀ w ∈ [Who.pf, .vf 0, .vf 31], w = .vf 31 ∨ linked.answers w = true) ∧ linked.answers .m = false ∧
    State.reset.answers .pf = false ∧
    linked.barOpen .pf .read csrBase = true ∧ linked.barOpen (.vf 0) .write 0 = true ∧
    ({ linked with stage := bsBist } : State).barOpen .pf .write 0 = false ∧
    ({ linked with vfEnable := false } : State).barOpen (.vf 0) .read 0 = false ∧
    homeTakes 0 1 = true ∧ homeTakes csrBase 8 = true ∧ homeTakes (csrBase + 4) 8 = false ∧
    homeTakes (0x8000000000 - 1) 1 = true ∧
    (∀ a ∈ [0, 0x8000000000 - 1], linked.homeReach none 0 a = true ∧ linked.heldAt none none 0 a = none) ∧
    linked.heldAt (some 0) none 0 0 = none ∧
    homeTakes farEnd 8 = true ∧ ({ linked with admitted := [] } : State).heldAt (some 0) none 0 farEnd = some 75 ∧
    cutOff.homeReach none 0 farEnd = false ∧ cutOff.grantedRange (Who.origin (.vf 0)) .read farEnd 8 = true ∧
    0xFFFFF8 + 8 ≤ 0x1000000 ∧ 0x7FFFFFFFFF + 1 ≤ 0x8000000000 ∧ 0xFFFFFF8 + 8 ≤ 0x10000000 := by
  decide +kernel

/-- An offset that no BAR holds. -/
theorem witness_no_bar : (∀ a, ¬ InBar 0 0x1000000 8 a) ∧ (∀ a, ¬ InBar 1 0 8 a) ∧ ∀ a, ¬ InBar 4 0xFFFFFFC 8 a := by
  refine ⟨fun a h => ?_, fun a h => ?_, fun a h => ?_⟩ <;> simp [InBar] at h

/-- Hypotheses of HostPorts: H0 on a READY PLL, the link up, a host read that waits, the TAP's instructions in a
device that runs, in one held by the TAP and in one that is held by the pins, and the bridge selected. -/
theorem witness_ports :
    (let s := sets State.reset [(Csr.clkSrc_cur 16, 1), (Csr.clkPllSts_ready_b 16, 1)]
     s.fld (Csr.clkSrc_cur 16) < 2 ∧ s.srcReady 16 (s.fld (Csr.clkSrc_cur 16)) = true ∧ s.frozen = false ∧ s.hold = 0 ∧ s.pcieUp = false) ∧
    linked.pcieUp = true ∧ linked.frozen = false ∧ linked.running = true ∧
    (∀ e ∈ tapRows.map (fun e => e.2.1), e ∈ [0x00, 0x03, 0x04, 0x08, 0x09] ∨ e ∉ [0x00, 0x03, 0x04, 0x08, 0x09]) ∧
    (let s : State := { State.reset with hold := 2 }
     s.hold = 2 ∧ s.resetLow = false ∧ s.frozen = false ∧ ({ s with tapIr := 0x20 } : State).tapIr = 0x20) ∧
    ({ State.reset with tripped := true } : State).frozen = true ∧ (sets ready [(Csr.dbgCtl_jtag_bridge, 1)]).running = true ∧
    (sets ready [(Csr.dbgCtl_jtag_bridge, 1)]).fld Csr.dbgCtl_jtag_bridge = 1 := by
  refine ⟨?_, ?_, ?_, ?_, ?_, ?_, ?_, ?_, ?_⟩ <;> decide +kernel

/-- Hypotheses of ClocksAndCrossings: PLL words at the bounds of the VCO, one the domain refuses, a PLL that locks, a
domain on a PLL, switches taken, held and refused, the monitor, and a crossing of each kind at its last number. -/
theorem witness_clocks :
    (PllAllowed 0 (BitVec.ofNat 64 (0 + 32 * 4 + 0 + 1 * 2 ^ 26)) ∧ PllAllowed 53 (BitVec.ofNat 64 (32 * 4 + 4 * 2 ^ 26)) ∧
      ¬ PllAllowed 0 0 ∧ ¬ PllAllowed 53 (BitVec.ofNat 64 (32 * 4 + 5 * 2 ^ 26))) ∧
    ((State.reset.setWord (pllReg 53 true) (BitVec.ofNat 64 (2 ^ 29))).word (pllReg 53 true)).getLsbD 29 = true ∧
    State.reset.fld Csr.clkSts_lost_state = 0 ∧
    (sets State.reset [(Csr.clkSrc_cur 53, 0)]).fld (Csr.clkSrc_cur 53) < 2 ∧
    (SourceReady State.reset 53 2 ∧ ¬ SourceReady State.reset 0 0 ∧ State.reset.fld (Csr.clkSrc_cur 0) = 2) ∧
    (let s := sets State.reset [(Csr.clkSrc_cur 15, 0), (Csr.clkPllSts_ready_a 15, 1), (Csr.clkPllSts_ready_b 15, 1),
        (Csr.pwrDroop_div 15, 1), (⟨Csr.clkPllB 15, 0, 30⟩, 32 * 4 + 2 ^ 29), (⟨Csr.clkPllA 15, 0, 30⟩, 32 * 4 + 2 ^ 26 + 2 ^ 29)]
     SourceReady s 15 1 ∧ s.fld (Csr.clkSrc_cur 15) ≠ 1 ∧ s.stretched 15 = true ∧ s.raises 15 1 = true ∧
      s.raises 15 2 = false) ∧
    (let s := sets State.reset [(Csr.clkSrc_pending 53, 1)]
     s.fld (Csr.clkSrc_pending 53) = 1 ∧ s.stretched 53 = false ∧ SourceReady s 53 2 ∧ ¬ SourceReady s 53 0) := by
  simp only [PllAllowed, SourceReady]; refine ⟨?_, ?_, ?_, ?_, ?_, ?_, ?_⟩ <;> decide +kernel

/-- A device with crossings that no longer admit traffic, one that has asked, and a move fenced at partition 31's;
port 23 has a packet of its own that waits to be sent. -/
def crossed : State :=
  { (sets ready [(Csr.prtPart_state 31, 0), (Csr.lnkPortSts_state 23, psHeld)]) with
    admitted := [], readyReq := [99], pcieUp := true
    ports := [(23, { ({} : Port) with queue := [⟨⟨BitVec.ofNat 96 ptGaz, [], 0⟩, none⟩] })]
    fenced := [(31, .move ⟨.desc 5 6, 31, true, none, .pattern 0, .da, []⟩ .ok), (75, .signal (.desc 5 6) .ok),
      (100, .data (.desc 5 6) 0x20000 [1])] }

/-- Hypotheses of the monitor and the crossings. -/
theorem witness_crossings :
    (let s := sets State.reset [(Csr.clkSts_iosc_ok, 1)]
     s.fld Csr.clkSts_iosc_ok = 1 ∧ s.fld Csr.clkSts_ref_ok = 0 ∧ s.fld Csr.clkSts_lost_state = 0 ∧ s.refUnqual = false) ∧
    (∀ x ∈ [31, 75, 99, 100], x ≤ 100 ∧ x ∉ crossed.admitted ∧ (x = 99 ∨ x ∉ crossed.readyReq)) ∧
    (crossed.fld (Csr.prtPart_state 31) = 0 ∧ crossed.fld (Csr.cfgD2dSts_up 43) = 1 ∧ crossed.portState 23 = psHeld ∧
      crossed.pcieUp = true ∧ 99 ∈ crossed.readyReq) ∧
    (∀ x ∈ [31, 75, 100], (crossed.fenced.find? (fun f => f.1 == x)).isSome = true) ∧
    crossed.fenced.find? (fun f => f.1 == 0) = none ∧ (crossed.port 0).queue = [] ∧
    (crossed.port 23).queue = [⟨⟨BitVec.ofNat 96 ptGaz, [], 0⟩, none⟩] ∧
    (⟨BitVec.ofNat 96 ptGaz, [], 0⟩ : Packet).type ≠ ptData := by
  refine ⟨?_, ?_, ?_, ?_, ?_, ?_, ?_, ?_⟩ <;> decide +kernel

/-- Hypotheses of MemoryLinksAndRows: the scrub at the last line of a tile's SRAM, a stack not yet trained, links up
and down, a row with its spare free and one without, a re-map in progress and one switched. -/
theorem witness_upkeep :
    (let s := sets ready [(Csr.memCtl_sram_scrub, 1)]
     s.fld Csr.memCtl_sram_scrub = 1 ∧ sramBase 2047 + 64 * (49152 - 1) + 64 = sramBase 2047 + sramSize ∧
      (s.tile 2047).scrubLine = 0 ∧
      region (0x8000000000 - 1) = .pkg 7) ∧
    (State.reset.fld (Csr.memHbmSts_trained 7) = 0 ∧ State.reset.fld (Csr.memHbmSts_failed 7) = 0) ∧
    ready.fld (Csr.cfgD2dSts_up 43) = 1 ∧ (State.reset.fld (Csr.cfgD2dSts_up 43) = 0 ∧ State.reset.fld (Csr.cfgD2dSts_down 43) = 0) ∧
    (State.reset.fld (Csr.prtPart_assigned_act 31) ≠ 1 ∧ State.reset.fld (Csr.cfgTileMap_factory 15 7) = 16 ∧
      ∀ i < 64, (State.reset.tile (tileOf 31 i)).state = tsReset) ∧
    (let s : State := { State.reset with remaps := [(15, 7, 16), (0, 0, 3)], switched := [(0, 0)] }
     s.remaps.find? (fun x => x.1 == 15 && x.2.1 == 7) = some (15, 7, 16) ∧ (15, 7) ∉ s.switched ∧ (0, 0) ∈ s.switched) ∧
    (let s := { State.reset with repairing := [] }.setFld (Csr.prtPart_state 31) 0
     s.repairOk 31 7 15 = true ∧ s.repairOk 31 7 16 = false ∧ s.repairOk 31 3 0 = false) := by
  refine ⟨?_, ?_, ?_, ?_, ?_, ?_, ?_⟩ <;> decide +kernel

/-- A ring's base in memory. -/
def ringAt (b size : Nat) : Ring := ⟨b, size, 0, 4, 0, []⟩

/-- Ring 3 of partition 0 of a kind, in a state, with 16 entries in granule 0. -/
def ringed (kind st : Nat) : State :=
  sets { ready with rings := [(3, ringAt 0x10000 4)] } [(Csr.memRingSts_kind 3, kind), (Csr.memRingSts_state 3, st)]

/-- Hypotheses of RingsAdvance: a ring in each state, the last ring of the device, a load in progress whose entry R187
admits and one it does not, an index at the ring's end and one past it, and a sequencer's ring. -/
theorem witness_rings :
    (∀ st ∈ [0, 1, 2, 3], (ringed 1 st).fld (Csr.memRingSts_state 3) = st ∧ (ringed 1 st).ring? 3 = some (ringAt 0x10000 4)) ∧
    NMap.find? ({ ready with loading := [(31, 1023)] } : State).loading 31 = some 1023 ∧
    (let ev := sets ready [(Csr.memRingSts_kind 4, 4)]
     let w0 : Nat → W64 := fun kind => BitVec.ofNat 64 (0x10000 + 4 * 2 ^ 48 + kind * 2 ^ 53)
     ev.heldAt (some 0) none 0 0x10000 = none ∧ ({ ev with selfRefresh := [0] } : State).heldAt (some 0) none 0 0x10000 ≠ none ∧
      (∀ kind ∈ [1, 2, 3, 4], (ev.parseContext 3 [w0 kind, 4 * 2 ^ 16, 0, 0, 0, 0, 0, 0]).isSome = true) ∧
      ev.parseContext 3 [w0 1, 5 * 2 ^ 16, 0, 0, 0, 0, 0, 0] = none ∧
      ev.parseContext 3 [w0 0, 4 * 2 ^ 16, 0, 0, 0, 0, 0, 0] = some (0, none) ∧
      ev.parseContext 3 [0, 0, 0, 0, 0, 0, 0, 0] = none) ∧
    (let s := ringed 1 1
     s.fld (Csr.memRingSts_kind 3) ≠ 4 ∧ s.seqHolds 3 = false ∧ s.fld (Csr.memRingSts_state 3) ≠ 0) ∧
    (ringed 4 1).fld (Csr.memRingSts_kind 3) = 4 ∧ State.reset.fld (Csr.memRingSts_state 32767) = 0 := by
  refine ⟨?_, ?_, ?_, ?_, ?_, ?_⟩ <;> decide +kernel

/-- A descriptor of ring 3 with its words. -/
def desc (ws : List W64) : Fetched := ⟨3, 7, ws, none, false, tracked ws, false, 0⟩
/-- Ring 3 with one descriptor fetched. -/
def fetchedOne (ws : List W64) : State := { ringed 1 1 with fetched := [desc ws] }
def copyDesc : List W64 := [1, 0x20000, 0x30000, BitVec.ofNat 64 (64 + 2 * 2 ^ 32), BitVec.ofNat 64 (64 + 64 * 2 ^ 32), 0, 0, 9]
def fillDesc : List W64 := [2, 0, 0x30001, BitVec.ofNat 64 (5 + 2 ^ 32), BitVec.ofNat 64 (0 + 64 * 2 ^ 32), 0, 0x1122334455667788, 9]
def launchDesc : List W64 := [0x10, 1, 0x100, 5, 1, 0x200, 0, 9]

/-- Hypotheses of DescriptorsRunInOrder: NOP, COPY, FILL, a LAUNCH that starts its tile and one that is refused, a
host read that waits for all or a part of its data, an entry to fetch and one to complete. -/
theorem witness_descriptors :
    (fetchedOne [0, 0, 0, 0, 0, 0, 0, 0]).startable 3 0 = some (desc [0, 0, 0, 0, 0, 0, 0, 0]) ∧
    (let s := fetchedOne copyDesc
     let j := descMove s (desc copyDesc) (.side .da) 0x20000
     DescReady s (desc copyDesc) 1 ∧ j.overlap = false ∧ j.held s = none ∧ (∀ r ∈ j.runs, j.runFail s .ok r = none)) ∧
    (let s := fetchedOne fillDesc
     let j := descMove s (desc fillDesc) (.pattern 0x1122334455667788) 0
     DescReady s (desc fillDesc) 2 ∧ j.held s = none ∧ (∀ r ∈ j.runs, j.runFail s .ok r = none)) ∧
    (let s : State := { fetchedOne launchDesc with tiles := [(0, tileIn tsIdle)] }
     s.startable 3 0x10 = some (desc launchDesc) ∧ s.launchCheck 0 launchDesc = 0 ∧
      (fetchedOne launchDesc).launchCheck 0 launchDesc ≠ 0) ∧
    (∀ x ∈ [Side.da, .stage], ({ ready with hostReads := [⟨3, 7, x, 0x20000, 64⟩] } : State).hostReads.find?
      (fun x => x.ring == 3) = some ⟨3, 7, x, 0x20000, 64⟩) ∧
    ready.heldAt (some 0) none 0 0x20000 = none ∧
    ({ ready with selfRefresh := [0] } : State).heldAt (some 0) none 0 0x20000 = some 101 ∧
    ready.accessFail (.loc 0 true) none 0 .write 0x20000 64 = none ∧
    ready.accessFail (.loc 0 true) none 0 .write 0x40000000 64 = some stProt ∧
    (let s := sets (ringed 1 1) [(Csr.memRingIdx_idx 3, 1)]
     s.fld (Csr.prtPart_state 0) = ptReady ∧ s.linkDown 24 = false ∧ s.nextRing 0 = some 3 ∧
      s.accessFail (.loc 0 true) none (hubOf 0) .read 0x10000 64 = none ∧ s.heldAt (some 0) none (hubOf 0) 0x10000 = none ∧
      s.fld (Csr.memTt_in_use 0) < 8192) ∧
    (let f := { desc copyDesc with status := some 0 }
     let s : State := { ringed 1 1 with fetched := [f] }
     s.fetched.find? (fun g => g.ring == 3 && g.status.isSome) = some f) := by
  simp only [DescReady]; refine ⟨?_, ?_, ?_, ?_, ?_, ?_, ?_, ?_, ?_, ?_, ?_⟩ <;> decide +kernel

/-- No tile that a launch names waits to halt or steps. -/
theorem witness_launch : ∀ n, Named 0 1 n = true →
    let s : State := { fetchedOne launchDesc with tiles := [(0, tileIn tsIdle)] }
    (s.tile n).haltReq = false ∧ (s.tile n).stepping = false := by
  intro n h
  have key : ∀ n < 64, let s : State := { fetchedOne launchDesc with tiles := [(0, tileIn tsIdle)] }
      (s.tile n).haltReq = false ∧ (s.tile n).stepping = false := by decide +kernel
  refine key n ?_
  simp only [Named, Bool.and_eq_true, beq_iff_eq] at h
  omega

/-- The Datum unit on its pin reference in a state, with a period of 10 µs. -/
def datumIn (st : Nat) : State := sets ready [(Csr.dtmCtl_src, srcPin), (Csr.dtmSts_state, st)]

/-- Hypotheses of DatumCountsAndModes: each state of the unit, an edge at the quarter and past it, a mode armed, sent
and due, a mode that may be armed and one that may not, and units that have not yet seen the tick. -/
theorem witness_datum :
    (∀ st ∈ [dsAcquire, dsSlew, dsLocked, dsHoldover], (datumIn st).frozen = false ∧ (datumIn st).fld Csr.dtmCtl_src = srcPin ∧
      (datumIn st).fld Csr.dtmSts_state = st ∧ st ≠ dsFree) ∧
    ((datumIn dsLocked).pNow % 4 = 0 ∧ (2 : Int).natAbs * 4 ≤ (datumIn dsLocked).pNow) ∧
    ready.fld Csr.dtmSts_state = dsFree ∧
    ((datumIn dsAcquire).fld Csr.dtmSts_state = dsAcquire ∧
      (((datumIn dsAcquire).pNow : Int) - (datumIn dsAcquire).pNow).natAbs * 1000 ≤ (datumIn dsAcquire).pNow) ∧
    (let s := ((({ ready with modeSent := some (3, 1000) } : State).setWord Csr.dtmModePend 3).setWord Csr.dtmModeT 1000).setFld
        Csr.dtmModeArm_armed 1
     s.fld Csr.dtmModeArm_armed = 1 ∧ (1000 : W64).toNat ≤ s.count.toNat ∧ s.modeSent = some (3, 1000) ∧
      s.word Csr.dtmModePend = 3 ∧ s.word Csr.dtmModeT = 1000 ∧
      ({ s with modeSent := some (4, 1000) } : State).modeSent ≠ some (s.word Csr.dtmModePend, s.word Csr.dtmModeT)) ∧
    (let s := ((ready.setWord Csr.dtmModePend (BitVec.ofNat 64 (1 + 20 * 2 ^ 52 + 33 * 2 ^ 58))).setWord Csr.dtmModeT 1002)
     bits (s.word Csr.dtmModePend) 0 32 = (s.fld Csr.dtmModeCur_epoch + 1) % 2 ^ 32 ∧
      2 ≤ (s.word Csr.dtmModeT).toNat - s.count.toNat ∧ s.fld Csr.dtmModeArm_armed ≠ 1) ∧
    ready.seenDie 15 ≠ ready.count ∧ ready.seenHub 3 ≠ ready.count := by
  refine ⟨?_, ?_, ?_, ?_, ?_, ?_, ?_, ?_⟩ <;> decide +kernel

/-- A segment for package memory of partition 0's granule. -/
def segAt (op bytes : Nat) (data : List Byte) : Segment := ⟨5, 9, op, 1000, bytes, 0x20000, 0, 0, true, data⟩
/-- A segment of this device that waits for its answer. -/
def outSeg (op : Nat) : OutSeg := ⟨5, 9, op, 990, .desc 3 7, .da, 0x20000, 64, 0, [], true⟩

/-- Hypotheses of StezerPorts: ports in each state, one heard long ago, one with packets to replay, packets good,
broken and out of sequence, and a port that owes an acknowledgement. -/
theorem witness_stezer :
    (∀ st ∈ [psDown, psTraining, psUp, psRetrain, psFailed, psHeld],
      (sets ready [(Csr.lnkPortSts_state 23, st)]).portState 23 = st ∧
      (st = psUp → (sets ready [(Csr.lnkPortSts_state 23, st)]).carries 23 ptData = true) ∧
      (st = psHeld → (sets ready [(Csr.lnkPortSts_state 23, st)]).carries 23 ptGaz = true)) ∧
    (sets ready [(Csr.clkSrc_cur 51, 0)]).fld (Csr.clkSrc_cur 51) ≠ 2 ∧
    (let s : State := { ready with seen := [(19, 1000)] }
     8 ≤ (s.seenHub (23 / 6) - (s.port 23).heard).toNat) ∧ ready.frozen = false ∧
    (({ ready with ports := [(23, { (ready.port 23) with unacked := 1 })] } : State).port 23).unacked ≠ 0 ∧
    (∀ ty ∈ [ptData, ptLinkctl, ptGaz, ptHeartbeat], (⟨BitVec.ofNat 96 ty, [], 0⟩ : Packet).type = ty) := by
  refine ⟨?_, ?_, ?_, ?_, ?_, ?_⟩ <;> decide +kernel

/-- A packet with its CRC is good, and with another is not. -/
theorem witness_packets (p : Packet) : p.seal.good = true ∧ ({ p with crc := crc32c p.covered + 1 } : Packet).good = false := by
  constructor
  · simp [Packet.good, Packet.seal, Packet.covered]
  · have h : ({ p with crc := crc32c p.covered + 1 } : Packet).covered = p.covered := rfl
    simp only [Packet.good, h, beq_eq_false_iff_ne]
    bv_omega

/-- The Gazetteer holds position 20, LIVE, as logical 20. -/
def gazOne : State := sets ready [(Csr.lnkGazLo_state 20, gazLive), (Csr.lnkGazLo_version 20, 3), (Csr.lnkGazLo_logical 20, 20),
  (Csr.lnkGazLo_log_valid 20, 1)]

/-- The device with device 9 a peer of job slot 0 for partition 0. -/
def peered : State := (sets ready [(Csr.prtJobActPeers_peers 0, 0x40000)]).store (0x40000 + 36) 4 1

/-- Hypotheses of GazetteerAndSegments: an entry newer, older, and of a second identity; a split that waits; a
substitution that is due; segments served, late and broken; answers to what waits. -/
theorem witness_gaz :
    (gazOne.gazState 20 = gazLive ∧ gazOne.word (Csr.lnkGazHi 20) ≠ 7 ∧ gazOne.gazState 4351 = gazAbsent ∧ 20 ≠ gazOne.here ∧
      gazOne.fld (Csr.lnkGazLo_version 20) < bits (BitVec.ofNat 64 (4 * 2 ^ 40)) 40 24 ∧
      bits (BitVec.ofNat 64 (3 * 2 ^ 40)) 40 24 ≤ gazOne.fld (Csr.lnkGazLo_version 20)) ∧
    NMap.find? ({ ready with splitTick := [(1023, some 5)] } : State).splitTick 1023 = some (some 5) ∧
    (let s : State := { ready with substs := [(5, 40, 1000)] }
     s.substs = [(5, 40, 1000)] ∧ (1000 : W64).toNat ≤ s.count.toNat ∧ 40 ≠ s.here ∧ s.holderOf 5 = none ∧
      gazOne.holderOf 20 = some 20 ∧ 20 ≠ gazOne.here ∧ 20 ≠ 40) ∧
    (∀ x ∈ [(segAt opWrite 2 [1, 2], Access.write, 2), (segAt opRead 64 [], .read, 64), (segAt opSignal 8 [], .atomic, 8)],
      AtHome peered x.1 ∧ segRefused peered x.1 x.2.1 x.2.2 = none ∧ segRefused ready x.1 x.2.1 x.2.2 = some stProt) ∧
    (let g := segAt opRead 64 []
     ready.lifeTicks < ready.ticksSince 900 ∧ ready.ticksSince 1000 ≤ ready.lifeTicks ∧
      ({ ready with selfRefresh := [0] } : State).heldAt none none (hubOf g.part) g.da = some 101 ∧
      ({ ready with inSegs := [⟨9, 5, 0, 1, 0, true⟩] } : State).segBroken g.src g.xid 0 = true ∧ ready.segBroken g.src g.xid 1 = false) ∧
    (∀ op ∈ [opRead, opWrite], let s : State := { ready with segs := [outSeg op] }
      s.segs.find? (fun x => x.xid == 5 && x.dev == 9) = some (outSeg op) ∧
      (op = opRead → s.segs.find? (fun x => x.xid == 5 && x.dev == 9 && x.op == opRead) = some (outSeg op)) ∧
      s.segs.find? (fun x => x.xid == 5) = some (outSeg op)) := by
  simp only [AtHome]; refine ⟨?_, ?_, ?_, ?_, ?_, ?_⟩ <;> decide +kernel

/-- Group 0 of this device, its rank 0 of 1, one local contribution expected, open to partition 0. -/
def grouped : State := sets ready [(Csr.colGrpCfg_valid 0, 1), (⟨Csr.colGrpPart 0, 0, 32⟩, 1)]

/-- An ALLREDUCE of four FP32 elements of group 0. -/
def allreduceDesc : List W64 := [0x20, 0x20000, 0x30000, 4, 0, 0, 0x50000, 9]
def contribOne : Contrib :=
  ⟨0, 0, 2051, .desc 3 7, 0, 0, allreduceDesc, 0, false, false, List.replicate 16 1, false⟩
def streamOne : CollStream :=
  { contribOne.stream with data := List.replicate 16 1, expected := 1, src := 9, sendTick := 1000, xids := [5] }
def instOne (r : Option CollStream) : Inst := ⟨0, 0, none, 0, r.isSome, r, none, false, 0, [2051]⟩

/-- Hypotheses of CollectivesFold: a result to be served, a COLL whose descriptor passes the checks, one whose group
is split, a stream that arrives, an instance to fold, the last group. -/
theorem witness_collectives :
    (let s : State := { grouped with contribs := [contribOne], insts := [instOne (some streamOne)] }
     s.insts.find? (fun y => y.group == 0 && y.failed.isNone && (match y.result with | some k => k.opcode == 0x20 | none => false) &&
        !(s.instContribs 0 y.idx).isEmpty) = some (instOne (some streamOne)) ∧
      s.instContribs 0 0 = [contribOne] ∧ Contrib.compare contribOne streamOne = stOk ∧ s.fld (Csr.colGrpCfg_local_m1 0) = 0 ∧
      descWord contribOne.words 0x28 = 0 ∧ (instOne (some streamOne)).places = [contribOne.place] ∧
      s.collDa (descWord contribOne.words 0x10) = some 0x30000 ∧ s.heldAt (some 0) none (hubOf 0) 0x30000 = none ∧
      s.accessFail (.loc 0 true) none (hubOf 0) .write 0x30000 (resultBytes s streamOne 0 0).length = none ∧
      grouped.insts = []) ∧
    (let w := word 0x9C 4 1 0 0 0
     let s := ({ grouped with tiles := [(0, ((runTile w).setS 1 0x14000))] } : State).storeWords 0x14000 allreduceDesc
     let i := iss w
     Starts s i ∧ s.splitColl 0 w = false ∧ collFault 0 0x14000 = none ∧ s.heldAt (some 0) none (hubOf 0) 0x14000 = none ∧
      s.accessFail (.loc 0 true) none (hubOf 0) .read 0x14000 64 = none ∧ s.words 0x14000 8 = allreduceDesc ∧
      bits (allreduceDesc.headD 0) 8 2 = 0 ∧ s.collRefused allreduceDesc 0 = none ∧ s.collCheck allreduceDesc 0 = none ∧
      cdDlEn allreduceDesc = false ∧ s.heldAt (some 0) none (hubOf 0) 0x20000 = none ∧
      (s.inst? 0 (s.issuedBy 0 0)).bind (fun x => x.failed) = none ∧
      (s.setFld (Csr.colGrpCfg_split 0) 1).splitColl 0 w = true) ∧
    (grouped.fld (Csr.colGrpCfg_valid streamOne.group) = 1 ∧ grouped.fld (Csr.colGrpCfg_split streamOne.group) = 0 ∧
      grouped.ticksSince streamOne.sendTick ≤ grouped.lifeTicks ∧ (∀ x ∈ streamOne.xids, grouped.segBroken streamOne.src x 2 = false) ∧
      grouped.lifeTicks < grouped.ticksSince ({ streamOne with sendTick := 900 } : CollStream).sendTick) ∧
    ({ grouped with inSegs := [⟨9, 5, 2, 1, 0, true⟩] } : State).segBroken 9 5 2 = true ∧
    (let s : State := { grouped with contribs := [contribOne] }
     s.nextInst 0 = some 0 ∧ 0 ∉ s.abortGroups ∧
      s.fld (Csr.colGrpCfg_valid 0) = 1 ∧ s.fld (Csr.colGrpCfg_split 0) = 0 ∧
      ((s.inst? 0 0).getD default).inStream.or ((s.instContribs 0 0).head?.map Contrib.stream) = some contribOne.stream ∧
      s.fld (Csr.colGrpCfg_local_m1 0) + 1 ≤ (s.instContribs 0 0).length ∧ contribOne.stream.status = stOk ∧
      (∀ c ∈ s.instContribs 0 0, Contrib.compare c contribOne.stream = stOk)) := by
  simp only [Starts, issues_iff]; refine ⟨?_, ?_, ?_, ?_, ?_⟩ <;> decide +kernel

/-- Partition 0 with a command record of an operation at 0x20000, its replay bit set or not, queued, and a stream
held. -/
def registered (op : Nat) : State :=
  { (ready.storeWords 0x20000 [BitVec.ofNat 64 (5 + 6 * 2 ^ 32), 77, BitVec.ofNat 64 op, 0]) with
    rngQueue := [(0, [0x20000])], registry := [(0, [⟨5, 6, 77, 0xFFFF⟩])] }

/-- Hypotheses of StreamRegistry: a record of each operation, one with a reserved bit, with the replay bit of RELEASE,
and one outside the partition's memory. -/
theorem witness_registry :
    (∀ op ∈ [0, 8, 1, 2, 3], RecordReady (registered op) 0 0x20000 [] (op % 8)) ∧
    (∀ op ∈ [4, 9, 16, 2 ^ 40, 2 ^ 62], (registered op).recordOk 0 0x20000 = true ∧
      recordBad ((registered op).load 0x20010 8) ((registered op).load 0x20018 8) = true) ∧
    (let s : State := { ready with rngQueue := [(31, [0x7FFFFFFFE0])] }
     s.rngQueued 31 = [0x7FFFFFFFE0] ∧ s.recordOk 31 0x7FFFFFFFE0 = false) := by
  simp only [RecordReady]; refine ⟨?_, ?_, ?_⟩ <;> decide +kernel

/-- A header of kind FORWARD of one stage, one layer and one micro-batch on tile 0, the record at 0x23000. -/
def hdrOne : List W64 := [2 * 2 ^ 32, 1, 0, 0, 0, 0x22000, 0x23000, 0, 0, 0x3F800000, 0, 0, 0, 0, 0, 7]

/-- A sequencer in the middle of its step. -/
def seqOne (a : SeqAt) (todo : List SeqAct) : Seq :=
  ⟨hdrOne, [[0, 0, 0, 0, 0, 0, 0, 0]], a, 0, todo, 7, 0, 0, 0, 0, none, false, false, false, [], none, false, 0, 0⟩

/-- Partition 0's sequencer in a state. -/
def sequenced (st : Nat) (q : Seq) : State := sets { ready with seqs := [(0, q)] } [(Csr.colSeqSts_state 0, st)]

theorem region_low {a : Nat} (h : a < 0x40000000) : region a = .pkg 0 := by
  have : a / 0x1000000000 = 0 := by omega
  simp only [region, this]
  rw [if_pos (by omega)]

/-- Every access within 64 bytes of granule 0 is performed where one is. -/
theorem seqMay64_of {s : State} {p : Nat} {k : Access} {a : Nat} (ha : a + 64 ≤ 0x40000000)
    (hr : (s.ringRoute (hubOf p) 0).isSome = true) (hf : s.flag (Csr.memHbmSts_failed 0) = false)
    (hg : (s.bound && s.granuleOk (.loc p true) k 0) = true) : SeqMay64 s p k a := by
  intro off n h0 hn
  have r1 := region_low (a := a + off) (by omega)
  have r2 := region_low (a := a + off + n - 1) (by omega)
  have d1 : (a + off) / 0x40000000 = 0 := by omega
  have d2 : (a + off + n - 1) / 0x40000000 = 0 := by omega
  have hh : ∀ b, region b = .pkg 0 → s.homeReach none (hubOf p) b = true := by
    intro b hb
    simp [State.homeReach, State.route, State.stackFailed, hb, hr, hf]
  have hG : s.granted (.loc p true) k (a + off) = true := by
    simp only [State.granted, r1, d1]; simp [hg]
  have hc : s.cellsBar k (a + off) n = false := by simp [State.cellsBar, State.inCells, r1]
  simp only [SeqMay, State.accessFail, memRange, r1, r2, hh _ r1, hh _ r2, State.grantedRange, d1, d2, hc]
  simp [hG]

/-- A gate whose descriptor, result and record lie in granule 0. -/
def gated : Seq := { seqOne .gate [] with hdr := hdrOne.set 7 0x25000 }

/-- Hypotheses of SequencersRun, move by move; SEQ_START's header is one that R344 admits. -/
theorem witness_sequencers :
    (let s := (sets ready [(Csr.colSeqBase_hdr 0, 0x20000 / 128)]).storeWords 0x20000 hdrOne
     s.seqState 0 ≠ 1 ∧ s.seqState 0 ≠ 2 ∧ s.words 0x20000 16 = hdrOne ∧ SeqMay s 0 .read 0x20000 128 ∧
      SeqMay s 0 .read 0x22000 64 ∧ SeqMay s 0 .read 0x23008 8 ∧ SeqMay s 0 .read 0x23010 4 ∧ s.seqOwns 0 0x20000 128 = true ∧
      s.seqOwns 0 0x22000 64 = true ∧ s.headerOk 0 hdrOne [s.words 0x22000 8] = true ∧
      s.headerOk 0 (hdrOne.set 0 (2 * 2 ^ 32 + 1)) [] = false ∧ s.seqOwns 1 0x20000 128 = false) ∧
    (∀ st ∈ [1, 2], (sequenced st (seqOne .acts [])).seqState 0 = st) ∧
    (let s : State := { sequenced 1 (seqOne .acts []) with seqAborting := [(0, true)], tiles := [(0, tileIn tsDebug)] }
     s.seq? 0 = some (seqOne .acts []) ∧ NMap.get (fun _ => false) s.seqAborting 0 = true ∧
      (∀ n ∈ maskTiles 0 (seqOne .acts []).tiles, (s.tile n).state = tsIdle ∨ (s.tile n).state = tsDebug)) ∧
    (let q := seqOne .acts [.launch 0 0 0]
     (sequenced 1 q).seq? 0 = some q ∧ (sequenced 1 q).seqOn 0 = true ∧ q.launched = false ∧ q.started = false ∧
      q.record = 0x23000) ∧
    (let q := { seqOne .acts [.wait 0, .launch 0 0 0] with hdr := hdrOne.set 2 0x24000 }
     let s := (sequenced 2 q).store 0x24000 8 1
     s.seq? 0 = some q ∧ s.seqOn 0 = true ∧ q.launched = false ∧ q.sig 0 ≠ 0 ∧ SeqMay s 0 .read (q.sig 0) 8 ∧
      q.cf + 1 ≤ s.load (q.sig 0) 8 ∧ ({ s with rings := s.rings }.setFld ⟨Csr.prtGranAct 0, 0, 16⟩ 0).accessFail (.loc 0 true) none
        (hubOf 0) .read (q.sig 0) 8 = some stProt) ∧
    (∀ q ∈ [{ seqOne .acts [.wait 2] with since := some 990 }, seqOne .coll [], gated, seqOne .update []],
      (sequenced 1 q).seq? 0 = some q ∧ (sequenced 1 q).seqOn 0 = true ∧ (sequenced 1 q).frozen = false ∧
        (sequenced 1 q).seenHub (hubOf 0) ≠ (sequenced 1 q).count) ∧
    (let q := { seqOne .acts [.wait 0] with hdr := (hdrOne.set 2 0x24000).set 8 (10 * 2 ^ 32), since := some 990 }
     let s : State := { sequenced 1 q with seen := [(16, 1000)] }
     s.seq? 0 = some q ∧ q.straggle ≠ 0 ∧ s.signalMet 0 q 0 = false ∧
      (990 : W64).toNat + q.straggle ≤ (s.seenHub (hubOf 0)).toNat) ∧
    (let q := { seqOne .coll [] with posted := [(0, some 0), (1, some stDropped)] }
     let s : State := { ringed 3 1 with seqs := [(0, q)] }.setFld (Csr.colSeqSts_state 0) 1
     s.seq? 0 = some q ∧ s.seqOn 0 = true ∧ (∀ e ∈ q.posted, e.2.isSome) ∧
      (∀ e ∈ q.posted, e.2.getD 0 ∈ [stOk, stDeferred, stDropped]) ∧ s.postRoom 3 = true ∧
      SeqMay s 0 .write (0x10000 + 64 * (s.fld (Csr.memRingIdx_idx 3) % 16)) 64) ∧
    (∀ st ∈ [0, 3], let q := { gated with gate := some (7, some st) }
      let s := (sequenced 1 q).storeWords 0x25000 [0x20, 0x26000, 0x26008, 1, 0, 0, 0x27000, 0]
      s.seq? 0 = some q ∧ s.seqOn 0 = true ∧ q.gateDa = 0x25000 ∧ SeqMay s 0 .read 0x25000 64 ∧ SeqMay s 0 .read 0x26008 8 ∧
        SeqMay s 0 .read 0x23010 4 ∧ SeqMay s 0 .write 0x26000 8 ∧ q.record = 0x23000 ∧ (∀ r ∈ q.layers, lrColl r = 0) ∧
        (∀ r ∈ q.layers, lrUpd r = 0)) ∧
    ((sequenced 1 (seqOne .update [])).seq? 0 = some (seqOne .update []) ∧ (sequenced 1 (seqOne .update [])).seqOn 0 = true ∧
      ready.seqOn 0 = false) ∧
    (∀ a ∈ [SeqAt.evalWait 1000, .eval 900], let s : State := { sequenced 1 (seqOne a []) with seen := [(16, 1000)] }
      s.seq? 0 = some (seqOne a []) ∧ (seqOne a []).overran = false ∧ (1000 : W64).toNat ≤ (s.seenHub (hubOf 0)).toNat ∧
      (900 : W64).toNat + (seqOne a []).evalLen ≤ (s.seenHub (hubOf 0)).toNat) := by
  simp only [SeqMay]; refine ⟨?_, ?_, ?_, ?_, ?_, ?_, ?_, ?_, ?_, ?_, ?_⟩ <;> decide +kernel

/-- The step record can be written in the states of those moves that write it. -/
theorem witness_record : ∀ q ∈ [seqOne .acts [.launch 0 0 0], seqOne .coll [], gated, seqOne .update []],
    SeqMay64 (sequenced 1 q) 0 .write q.record := by
  have h : ∀ q ∈ [seqOne .acts [.launch 0 0 0], seqOne .coll [], gated, seqOne .update []], q.record + 64 ≤ 0x40000000 ∧
      ((sequenced 1 q).ringRoute (hubOf 0) 0).isSome = true ∧ (sequenced 1 q).flag (Csr.memHbmSts_failed 0) = false ∧
      ((sequenced 1 q).bound && (sequenced 1 q).granuleOk (.loc 0 true) .write 0) = true := by decide +kernel
  exact fun q m => seqMay64_of (h q m).1 (h q m).2.1 (h q m).2.2.1 (h q m).2.2.2

/-- Tile 0 IDLE, and no tile of its partition waits to halt or steps: SEQ_LAUNCH's tiles. -/
theorem witness_seq_launch : ∀ n, Named 0 (seqOne .acts []).tiles n = true →
    let s : State := { sequenced 1 (seqOne .acts []) with tiles := [(0, tileIn tsIdle)] }
    (s.tile n).state = tsIdle ∧ (s.tile n).haltReq = false ∧ (s.tile n).stepping = false := by
  intro n h
  have key : ∀ n < 64, Named 0 (seqOne .acts []).tiles n = true →
      let s : State := { sequenced 1 (seqOne .acts []) with tiles := [(0, tileIn tsIdle)] }
      (s.tile n).state = tsIdle ∧ (s.tile n).haltReq = false ∧ (s.tile n).stepping = false := by decide +kernel
  refine key n ?_ h
  simp only [Named, Bool.and_eq_true, beq_iff_eq] at h
  omega

/-- Hypotheses of PartitionsAndTheCadastre: a partition in each state, each phase of a reset, a repair in progress, go
with and without a commit in progress, the identity written and not. -/
theorem witness_partitions :
    (∀ st ∈ [0, 1, 2], (sets ready [(Csr.prtPart_state 31, st)]).fld (Csr.prtPart_state 31) = st) ∧
    (∀ k ∈ [1, 2], let s : State := { ready with resetPhase := [(31, k)], repairing := [31], flrWaits := [31] }
      NMap.find? s.resetPhase 31 = some k ∧ s.remaps = [] ∧ 31 ∈ s.repairing ∧ s.flrWaits = [31]) ∧
    ((1 : W64).getLsbD 0 = true ∧ (2 : W64).getLsbD 0 = false ∧ ready.fld Csr.prtCommit_busy = 0 ∧
      (sets ready [(Csr.prtCommit_busy, 1)]).fld Csr.prtCommit_busy = 1) ∧
    (Csr.prtSysid ∉ ready.locked ∧ Csr.prtSysid ∈ ({ ready with locked := [Csr.prtSysid] } : State).locked) := by
  refine ⟨?_, ?_, ?_, ?_⟩ <;> decide +kernel

/-- Hypotheses of SettingsAndPlatformRequests: each setting at the last value it takes, one past it, with no write
left, with the Logbook full; a change in progress of each setting; firmware that runs; free and exhausted sessions. -/
theorem witness_settings :
    (ChangeAllowed State.reset 1 (2 ^ 61 - 1) ∧ ChangeAllowed State.reset 2 6 ∧ ChangeAllowed State.reset 3 31 ∧
      ¬ ChangeAllowed State.reset 3 32 ∧ ¬ ChangeAllowed State.reset 2 0 ∧ ¬ ChangeAllowed State.reset 0 0 ∧
      ¬ ChangeAllowed { State.reset with otp := { Otp.blank with bindUsed := 32 } } 1 0) ∧
    (∀ id ∈ [1, 2, 3], let e := { openEntry with setting := id }
      let s : State := { ready with otp := { Otp.blank with log := [e] } }
      s.otp.log.find? (fun e => !e.done) = some e ∧ s.frozen = false ∧ s.hold = 0) ∧
    (ready.fwRuns = true ∧ linked.fwRuns = true ∧ linked.pcieUp = true ∧ linked.pcieCfg = true ∧ (let s : State := { ready with stage := bsFailed }
      s.stage = bsFailed ∧ s.hold = 0 ∧ s.frozen = false) ∧ (∃ n < 4, ready.spdm.sessions.any (fun y => y.1 == n) = false) ∧
      let d : Spdm := { algs := true, sessions := [(0, true), (1, false), (2, false), (3, false)] }
      ∀ n < 4, d.sessions.any (fun y => y.1 == n) = true) := by
  simp only [ChangeAllowed]; refine ⟨⟨?_, ?_, ?_, ?_, ?_, ?_, ?_⟩, ?_, ?_⟩ <;> decide +kernel

/-- Hypotheses of PowerAndSurvey: a window edge by the length the register asks for and by the one in force, one that
has come already, the controller on and off, a step whose PLL is ready, a rail ramp and none, a current limit in force
and not, a stretch in force, a die not yet forced on each source, and a Survey that runs. -/
theorem witness_power :
    (let s : State := { ready with seen := [(16, 1000)] }
     s.power.edge ≠ some (s.seenHub 0) ∧ (s.seenHub 0).toNat % windowTicks s = 0 ∧
      (let u := s.setFld Csr.pwrWin_ticks 300
       (u.seenHub 0).toNat % windowTicks u ≠ 0 ∧ 0 < u.fld Csr.pwrWin_eff ∧ (u.seenHub 0).toNat % u.fld Csr.pwrWin_eff = 0) ∧
      (let u := (s.setFld Csr.pwrWin_ticks 300).setFld Csr.pwrWin_eff 7
       (u.seenHub 0).toNat % windowTicks u ≠ 0 ∧ (u.seenHub 0).toNat % u.fld Csr.pwrWin_eff ≠ 0) ∧
      (let u : State := { s with power := { s.power with edge := some 1000 } }
       u.power.edge = some (u.seenHub 0))) ∧
    (let s : State := { ready with power := { ready.power with steps := [⟨15, 3, true, 650, 690⟩] } }
     ⟨15, 3, true, 650, 690⟩ ∈ s.power.steps ∧ ready.power.steps = []) ∧
    (∀ k < 3, (sets ready [(Csr.clkSrc_cur 15, k)]).fld (Csr.clkSrc_cur 15) = k) ∧
    (ready.fld Csr.pwrCtl_en ≠ 1 ∧ (sets ready [(Csr.pwrCtl_en, 1)]).fld Csr.pwrCtl_en = 1) ∧
    (let s : State := sets { ready with power := { ready.power with steps := [⟨15, 3, true, 700, 690⟩] } }
        [(Csr.clkPllSts_ready_b 15, 1)]
     s.power.steps.find? (fun x => x.die == 15) = some ⟨15, 3, true, 700, 690⟩ ∧ s.fld (Csr.clkPllSts_ready_b 15) = 1) ∧
    (3 ∉ ready.power.limited ∧ 3 ∈ ({ ready with power := { ready.power with limited := [3] } } : State).power.limited) ∧
    (∀ n ∈ [1, 2], (sets ready [(Csr.pwrDroop_div 15, n)]).fld (Csr.pwrDroop_div 15) ≠ 0) ∧
    (19 ∉ ready.power.forced ∧ ready.frozen = false) ∧
    (sets ready [(Csr.svcSurvCtl_busy, 1)]).fld Csr.svcSurvCtl_busy = 1 := by
  refine ⟨?_, ?_, ?_, ?_, ?_, ?_, ?_, ?_, ?_⟩ <;> decide +kernel

/-- A device whose discovery is in a state, alone in its Gazetteer at position 0. -/
def discIn (st : Nat) : State := sets ready [(Csr.lnkDisc_state, st), (Csr.lnkGazLo_state 0, gazLive)]

/-- Hypotheses of DiscoveryMakesTheAtlas: each state at a valid and an invalid position, the lowest position without a
better claim, claims better and worse, the Origin with its reference there, absent and free, a device by its
upstream's marker, READY flooded first and again, and T_r come. -/
theorem witness_discovery :
    (∀ st ∈ [diIdle, diTrain, diExchange, diFlood, diAlign, diReady, diIsolated], (discIn st).fld Csr.lnkDisc_state = st) ∧
    (ready.posValid ready.here = true ∧ (sets ready [(Csr.lnkSts_phys, 4351)]).posValid 4351 = false ∧
      ready.fld Csr.lnkDisc_dup_pos ≠ 1) ∧
    ((discIn diFlood).lowest = some (discIn diFlood).here ∧ (discIn diFlood).disc.mine = false ∧
      (discIn diFlood).disc.claim = none) ∧
    (let s : State := { discIn diFlood with disc := { mine := true, claim := some (0, false), aligned := [7] } }
     s.disc.mine = true ∧ s.fld Csr.lnkDisc_origin ≠ 1 ∧ 7 ∈ s.disc.aligned ∧ 8 ∉ s.disc.aligned) ∧
    (let s := sets (discIn diFlood) [(Csr.lnkDisc_origin, 1), (Csr.dtmCtl_src, srcPin), (Csr.dtmSts_state, dsAcquire)]
     s.fld Csr.lnkDisc_origin = 1 ∧ s.fld Csr.dtmCtl_src = srcPin ∧ s.fld Csr.dtmSts_state = dsAcquire) ∧
    (let s := sets (discIn diFlood) [(Csr.lnkDisc_origin, 1), (Csr.dtmSts_state, dsLocked)]
     s.acquired = true ∧ s.fld Csr.lnkDisc_origin = 1) ∧
    (let s : State := sets { discIn diFlood with disc := { aligned := [ready.facing 0] } }
        [(Csr.dtmCtl_src, srcRelay), (Csr.dtmSts_state, dsSlew), (Csr.dtmRelay_up_valid, 1)]
     s.fld Csr.lnkDisc_origin ≠ 1 ∧ s.fld Csr.dtmCtl_src = srcRelay ∧ s.acquired = true ∧ s.fld Csr.dtmRelay_up_valid = 1 ∧
      (sets s [(Csr.dtmSts_aligned, 0)]).facing (s.fld Csr.dtmRelay_upstream) ∈ s.disc.aligned ∧
      ∀ a < 2, (sets s [(Csr.dtmSts_aligned, a)]).fld Csr.dtmSts_aligned = a) ∧
    (let s := sets (discIn diAlign) [(Csr.lnkDisc_origin, 1)]
     s.fld Csr.lnkDisc_origin = 1 ∧ s.fld Csr.lnkDisc_state = diAlign ∧ s.disc.readyAt = none ∧ s.fld Csr.lnkDisc_window ≠ 1) ∧
    (let s : State := { discIn diReady with disc := { again := 2, readyAt := some 1000, lastReady := some 1000 },
                                            seen := [(16, 1000)] }
     s.disc.again = 2 ∧ s.disc.readyAt = some 1000 ∧ (1000 : W64).toNat ≤ (s.seenHub 0).toNat ∧ s.disc.lastReady = some 1000 ∧
      s.disc.lastReady ≠ some 1001) := by
  refine ⟨?_, ?_, ?_, ?_, ?_, ?_, ?_, ?_, ?_⟩ <;> decide +kernel

/-- Hypotheses of the statements of the block as a whole: an empty queue with the clocks running and standing still,
memory in canonical form, steps that answer a next state with commands waiting and without. -/
theorem witness_block :
    (ready.pending = [] ∧ ready.frozen = false ∧ (∀ e ∈ ready.tiles, e.2.phase < 16) ∧
      (after (exec .coldReset ready)).pending = [] ∧ (after (exec .coldReset ready)).frozen = true) ∧
    Memory.wf ready.mem = true ∧ Memory.wf (ready.store 5 1 7).mem = true ∧ step ready = .next (after (step ready)) := by
  refine ⟨?_, ?_, ?_, ?_⟩
  · decide +kernel
  · decide +kernel
  · decide +kernel
  · rfl

/-- A step takes the front command; one queued behind it waits. -/
theorem test_step_takes_the_front : ∃ t, step { ready with pending := [.prtDenyRead .lower, .coldReset] } = .next t ∧
    t.pending = [.coldReset] ∧ t.out = [.data [0, 0, 0, 0]] := ⟨_, rfl, by decide +kernel⟩
end Sys2Proof.Tests
end

section
/-! PROOFS. A write of a device register without a rule of its own goes by the types of its fields (spec/00_scope.md
R7, R9; spec/06_memory_and_ordering.md R171): first what the table of registers fulfils, then each bit of a word under
one field and under all of them, then the store, then the command. -/
namespace Sys2Proof.Proofs

open Sys2Proof Sys2Proof.Machine Sys2Proof.Claims Sys2Proof.Laws

/-! ## The table of registers -/

/-- A field holds a bit of its word. -/
def Holds (f : FieldRow) (b : Nat) : Prop := f.lo ≤ b ∧ b < f.lo + f.w

/-- The fields of a register stand one above the other and inside the word. -/
def Ascending (r : RegRow) : Prop :=
  r.fields.Pairwise (fun f g => f.lo + f.w ≤ g.lo) ∧ ∀ f ∈ r.fields, f.lo + f.w ≤ 64

theorem deviceRegs_ascending : ∀ r ∈ deviceRegs, Ascending r := by
  unfold Ascending; decide +kernel

/-- A field of type LCK stands only in a register whose write has a rule of its own. -/
theorem deviceRegs_lck_ownRule : ∀ r ∈ deviceRegs, r.reg ∉ ownRule → ∀ f ∈ r.fields, f.ty ≠ .lck := by
  decide +kernel

theorem mem_of_findReg {rs : List RegRow} {off : Nat} {r : RegRow} {ix : List Nat}
    (h : findReg rs off = some (r, ix)) : r ∈ rs := by
  induction rs with
  | nil => simp [findReg] at h
  | cons q rs ih =>
    unfold findReg at h
    split at h
    · obtain ⟨rfl, -⟩ := Prod.mk.inj (Option.some.inj h)
      exact List.mem_cons_self
    · exact List.mem_cons_of_mem _ (ih h)

/-! ## One bit of a word, field by field -/

section
variable {step : W64 → FieldRow → W64} {b : Nat}
  (hstep : ∀ w f, ¬ Holds f b → (step w f).getLsbD b = w.getLsbD b)
include hstep

/-- A bit in none of the fields stays, where each step keeps the bits outside its field. -/
theorem getLsbD_foldl_none (fs : List FieldRow) (w : W64) (h : ∀ f ∈ fs, ¬ Holds f b) :
    (fs.foldl step w).getLsbD b = w.getLsbD b := by
  induction fs generalizing w with
  | nil => rfl
  | cons f fs ih =>
    rw [List.foldl_cons, ih _ (fun g hg => h g (List.mem_cons_of_mem _ hg)), hstep _ _ (h f List.mem_cons_self)]

/-- A bit of a field takes what the step of that field makes of a word that has it as it was. -/
theorem getLsbD_foldl_field {r : RegRow} (hr : Ascending r) {f : FieldRow} (hf : f ∈ r.fields) (hb : Holds f b)
    (w : W64) : ∃ u : W64, u.getLsbD b = w.getLsbD b ∧ (r.fields.foldl step w).getLsbD b = (step u f).getLsbD b := by
  obtain ⟨below, above, hsplit⟩ := List.append_of_mem hf
  obtain ⟨hord, -⟩ := hr
  rw [hsplit, List.pairwise_append, List.pairwise_cons] at hord
  obtain ⟨-, ⟨habove, -⟩, hbelow⟩ := hord
  have free_below : ∀ g ∈ below, ¬ Holds g b := fun g hg hgb => by
    have := hbelow g hg f List.mem_cons_self
    unfold Holds at hb hgb; omega
  have free_above : ∀ g ∈ above, ¬ Holds g b := fun g hg hgb => by
    have := habove g hg
    unfold Holds at hb hgb; omega
  refine ⟨below.foldl step w, getLsbD_foldl_none hstep below w free_below, ?_⟩
  rw [hsplit, List.foldl_append, List.foldl_cons, getLsbD_foldl_none hstep above _ free_above]

end

/-- The mask of `w` bits from `lo` up. -/
def maskOf (lo w : Nat) : W64 := w64 ((2 ^ w - 1) * 2 ^ lo)

theorem getLsbD_maskOf (lo w : Nat) {b : Nat} (h64 : b < 64) :
    (maskOf lo w).getLsbD b = decide (lo ≤ b ∧ b < lo + w) := by
  rw [maskOf, BitVec.getLsbD_ofNat, Nat.testBit_mul_two_pow, Nat.testBit_two_pow_sub_one, Bool.eq_iff_iff]
  simp only [h64, decide_true, Bool.true_and, Bool.and_eq_true, decide_eq_true_eq]
  omega

theorem getLsbD_maskOf_of_holds {f : FieldRow} {b : Nat} (h64 : b < 64) (h : Holds f b) :
    (maskOf f.lo f.w).getLsbD b = true := (getLsbD_maskOf _ _ h64).trans (decide_eq_true h)

theorem getLsbD_maskOf_of_not_holds {f : FieldRow} {b : Nat} (h64 : b < 64) (h : ¬ Holds f b) :
    (maskOf f.lo f.w).getLsbD b = false := (getLsbD_maskOf _ _ h64).trans (decide_eq_false h)

/-- A write to a field by its type (R7), with its mask named. -/
theorem fieldWrite_eq (locked : Bool) (v w : W64) (f : FieldRow) : f.write locked v w = match f.ty with
    | .ro | .wo | .otp => w
    | .rw | .rws => (w &&& ~~~maskOf f.lo f.w) ||| (v &&& maskOf f.lo f.w)
    | .w1c => w &&& ~~~(v &&& maskOf f.lo f.w)
    | .lck => if locked then w else (w &&& ~~~maskOf f.lo f.w) ||| (v &&& maskOf f.lo f.w) := rfl

theorem getLsbD_fieldWrite_outside (locked : Bool) (v w : W64) (f : FieldRow) {b : Nat} (h : ¬ Holds f b) :
    (f.write locked v w).getLsbD b = w.getLsbD b := by
  by_cases h64 : b < 64
  · have hm := getLsbD_maskOf_of_not_holds h64 h
    rw [fieldWrite_eq]
    cases f.ty <;> cases locked <;> simp [-BitVec.getLsbD_eq_getElem, hm, h64]
  · rw [BitVec.getLsbD_of_ge _ _ (by omega), BitVec.getLsbD_of_ge _ _ (by omega)]

/-- A bit of a field takes what the field's type says; a field of type LCK is left out, as it has its write once. -/
theorem getLsbD_fieldWrite_inside (locked : Bool) (v w : W64) {f : FieldRow} {b : Nat} (h64 : b < 64) (h : Holds f b)
    (hty : f.ty ≠ .lck) : (f.write locked v w).getLsbD b = writtenBit f.ty (v.getLsbD b) (w.getLsbD b) := by
  have hm := getLsbD_maskOf_of_holds h64 h
  rw [fieldWrite_eq]
  cases ht : f.ty <;> simp [-BitVec.getLsbD_eq_getElem, hm, h64, writtenBit, ht] at hty ⊢

theorem Ascending.lt_64 {r : RegRow} (hr : Ascending r) {f : FieldRow} (hf : f ∈ r.fields) {b : Nat}
    (hb : Holds f b) : b < 64 := Nat.lt_of_lt_of_le hb.2 (hr.2 f hf)

/-- A write leaves the bits in no field of the register. -/
theorem getLsbD_rowWrite_none (r : RegRow) (locked : Bool) (v w : W64) {b : Nat}
    (h : ∀ f ∈ r.fields, ¬ Holds f b) : (r.write locked v w).getLsbD b = w.getLsbD b :=
  getLsbD_foldl_none (fun w f => getLsbD_fieldWrite_outside locked v w f) r.fields w h

/-- A write gives each bit of a field what the field's type says. -/
theorem getLsbD_rowWrite_field {r : RegRow} (hr : Ascending r) {f : FieldRow} (hf : f ∈ r.fields)
    (hlck : f.ty ≠ .lck) (locked : Bool) (v w : W64) {b : Nat} (hb : Holds f b) :
    (r.write locked v w).getLsbD b = writtenBit f.ty (v.getLsbD b) (w.getLsbD b) := by
  obtain ⟨u, hu, hfold⟩ := getLsbD_foldl_field (fun w f => getLsbD_fieldWrite_outside locked v w f) hr hf hb w
  rw [RegRow.write, hfold, getLsbD_fieldWrite_inside locked v u (hr.lt_64 hf hb) hb hlck, hu]

/-- The types whose fields read back what was written. -/
def readsBack (ty : FieldType) : Bool := ty == .rw || ty == .rws || ty == .lck

/-- A mask with the bits of a field besides, where the field reads back. -/
def addHeld (m : W64) (f : FieldRow) : W64 := if readsBack f.ty then m ||| maskOf f.lo f.w else m

theorem held_eq (r : RegRow) : r.held = r.fields.foldl addHeld 0 := rfl

theorem getLsbD_held {r : RegRow} (hr : Ascending r) {f : FieldRow} (hf : f ∈ r.fields) {b : Nat} (hb : Holds f b) :
    r.held.getLsbD b = readsBack f.ty := by
  have h64 := hr.lt_64 hf hb
  have outside (w : W64) (g : FieldRow) (hg : ¬ Holds g b) : (addHeld w g).getLsbD b = w.getLsbD b := by
    unfold addHeld; split
    · rw [BitVec.getLsbD_or, getLsbD_maskOf_of_not_holds h64 hg, Bool.or_false]
    · rfl
  obtain ⟨u, hu, hfold⟩ := getLsbD_foldl_field outside hr hf hb 0
  rw [held_eq, hfold]
  cases hty : readsBack f.ty
  · simpa [addHeld, hty] using hu
  · simp only [addHeld, hty, if_true, BitVec.getLsbD_or, getLsbD_maskOf_of_holds h64 hb, Bool.or_true]

/-! ## Halves of a word -/

/-- A bit lies in a half. -/
abbrev InHalf (h : Half) (b : Nat) : Prop := (halfSpan h).1 ≤ b ∧ b < (halfSpan h).1 + (halfSpan h).2

/-- The mask of a half. -/
def halfMask (h : Half) : W64 := maskOf (halfSpan h).1 (halfSpan h).2

theorem mergeHalf_lower (held old v : W64) :
    mergeHalf held old v .lower = (v &&& halfMask .lower) ||| (old &&& held &&& halfMask .upper) := rfl

theorem mergeHalf_upper (held old v : W64) :
    mergeHalf held old v .upper = (v <<< 32) ||| (old &&& held &&& halfMask .lower) := rfl

theorem getLsbD_halfMask_lower {b : Nat} (h64 : b < 64) : (halfMask .lower).getLsbD b = decide (b < 32) := by
  rw [halfMask, getLsbD_maskOf _ _ h64, decide_eq_decide]; simp only [halfSpan]; omega

theorem getLsbD_halfMask_upper {b : Nat} (h64 : b < 64) : (halfMask .upper).getLsbD b = decide (32 ≤ b) := by
  rw [halfMask, getLsbD_maskOf _ _ h64, decide_eq_decide]; simp only [halfSpan]; omega

/-- In the half that is written stands the value, in the other half what of the old word reads back. -/
theorem getLsbD_mergeHalf (held old v : W64) (h : Half) {b : Nat} (h64 : b < 64) :
    (mergeHalf held old v h).getLsbD b =
      if InHalf h b then v.getLsbD (b - (halfSpan h).1) else old.getLsbD b && held.getLsbD b := by
  cases h with
  | full => rw [if_pos ⟨Nat.zero_le b, h64⟩]; rfl
  | lower =>
    simp only [mergeHalf_lower, BitVec.getLsbD_or, BitVec.getLsbD_and, getLsbD_halfMask_lower h64,
      getLsbD_halfMask_upper h64, InHalf, halfSpan]
    by_cases hb : b < 32 <;> simp [hb, Nat.le_of_not_lt]
  | upper =>
    simp only [mergeHalf_upper, BitVec.getLsbD_or, BitVec.getLsbD_and, BitVec.getLsbD_shiftLeft,
      getLsbD_halfMask_lower h64, InHalf, halfSpan]
    by_cases hb : b < 32 <;> simp [hb, h64, Nat.le_of_not_lt]

/-! ## The store -/

/-- A half is writable where a field meets it that is neither RO nor OTP. -/
theorem writable_iff (r : RegRow) (h : Half) : r.writable h = true ↔ ∃ f ∈ r.fields,
    (f.ty ≠ .ro ∧ f.ty ≠ .otp) ∧ f.lo < (halfSpan h).1 + (halfSpan h).2 ∧ (halfSpan h).1 < f.lo + f.w := by
  simp [RegRow.writable, and_assoc]

/-- A half without a writable field in it holds only bits of fields that a write leaves. -/
theorem writtenBit_of_not_writable {r : RegRow} {h : Half} (hw : ¬ r.writable h = true) {f : FieldRow}
    (hf : f ∈ r.fields) {b : Nat} (hb : Holds f b) (hh : InHalf h b) (x old : Bool) : writtenBit f.ty x old = old := by
  have hmeet : f.lo < (halfSpan h).1 + (halfSpan h).2 ∧ (halfSpan h).1 < f.lo + f.w := by
    unfold Holds at hb; omega
  have hkept : ¬ (f.ty ≠ .ro ∧ f.ty ≠ .otp) := fun hty => hw ((writable_iff r h).mpr ⟨f, hf, hty, hmeet⟩)
  obtain hty | hty : f.ty = .ro ∨ f.ty = .otp := by tauto
  all_goals rw [hty]; rfl

/-- A register without a rule of its own is written by the types of its fields. -/
theorem regWrite_eq_genWrite (s : State) {r : Reg} (ix : List Nat) (off : Nat) (v : W64) (h : r ∉ ownRule) :
    s.regWrite r ix off v = s.genWrite off v := by
  cases r with
  | cfgTileMap | clkFwd | clkPllA | clkPllB | clkSrc | pwrCap | pwrWin | pwrPrio | pwrDroop | pwrTherm
  | pwrThrClr | dtmCtl | dtmLoad | dtmRelay | dtmModePend | dtmModeT | dtmModeArm | dtmPtClr | rngRegCmd
  | lnkSubst | lnkDisc | lnkPortCmd | colGrpCfg | colGrpPart | colGrpMem | colSeqCtl | memRingCmd | memTt
  | memMevqCfg | memMevqCons | memRingIdx | prtCommit | prtSysid | prtPart | prtGran | prtJob | prtJobPeers
  | prtLcsCmd | svcReplSet | svcRepair | svcSurvCtl | dbgPhalt | dbgPresume => exact absurd (by decide) h
  | _ => rfl

/-- A write by types to a register without a field of type LCK sets the register's word and nothing else. -/
theorem genWrite_eq_setWord (s : State) {off : Nat} {r : RegRow} {ix : List Nat} (v : W64)
    (hr : findReg deviceRegs off = some (r, ix)) (hlck : ∀ f ∈ r.fields, f.ty ≠ .lck) :
    s.genWrite off v = s.setWord off (r.write (s.locked.contains off) v (s.word off)) := by
  have hany : r.fields.any (fun f => f.ty == .lck) = false := by simpa using hlck
  simp [State.genWrite, hr, hany]

/-- What a write of a half makes of a register, by the types of its fields. -/
def stored (s : State) (r : RegRow) (off : Nat) (h : Half) (v : W64) : State :=
  if r.writable h then s.setWord off (r.write (s.locked.contains off) (mergeHalf r.held (s.word off) v h) (s.word off))
  else s

/-- An access of `size` bytes from bit `lo` of a word takes a half of it. -/
theorem halfSpan_halfOf {off size lo : Nat} (h8 : off % 8 = 0)
    (h : size = 8 ∧ lo = 0 ∨ size = 4 ∧ lo = 0 ∨ size = 4 ∧ lo = 32) :
    halfSpan (halfOf (off + lo / 8) size) = (lo, 8 * size) := by
  obtain ⟨rfl, rfl⟩ | ⟨rfl, rfl⟩ | ⟨rfl, rfl⟩ := h <;> simp [halfOf, halfSpan, Nat.add_mod, h8]

theorem region_csr {off : Nat} (h : off < 0xB00000) : region (csrBase + off) = .csr off := by
  unfold region csrBase
  rw [if_neg (by omega), if_neg (by omega), if_pos (by omega), Nat.add_sub_cancel_left]

theorem csrStore_eq_stored (s : State) {off a size : Nat} {r : RegRow} {ix : List Nat} (v : W64)
    (hr : findReg deviceRegs off = some (r, ix)) (hown : r.reg ∉ ownRule) (ha : alignDown a 8 = off) :
    s.csrStore a size v = stored s r off (halfOf a size) v := by
  have hlck := deviceRegs_lck_ownRule r (mem_of_findReg hr) hown
  simp only [State.csrStore, ha, hr, regWrite_eq_genWrite s ix off _ hown, genWrite_eq_setWord s _ hr hlck, stored]

theorem exec_registerWrite_m (s : State) {off size lo : Nat} {r : RegRow} {ix : List Nat} (v : W64)
    (hr : findReg deviceRegs off = some (r, ix)) (hown : r.reg ∉ ownRule) (hlt : off < 0xB00000) (h8 : off % 8 = 0)
    (hrun : s.running = true) (hacc : size = 8 ∧ lo = 0 ∨ size = 4 ∧ lo = 0 ∨ size = 4 ∧ lo = 32) :
    exec (.registerWrite .m (csrBase + off + lo / 8) size v) s
      = .next (stored s r off (halfOf (off + lo / 8) size) v) := by
  have hreg : region (csrBase + off + lo / 8) = .csr (off + lo / 8) := by
    rw [Nat.add_assoc]; exact region_csr (by omega)
  have hcsr : isCsr (csrBase + off + lo / 8) = true := by simp [isCsr, hreg]
  have halign : csrAligned (csrBase + off + lo / 8) size = true := by
    obtain ⟨rfl, rfl⟩ | ⟨rfl, rfl⟩ | ⟨rfl, rfl⟩ := hacc <;> simp [csrAligned, csrBase] <;> omega
  have hdown : alignDown (off + lo / 8) 8 = off := by unfold alignDown; omega
  simp [execRegisterWrite, State.registerWrite, hrun, hcsr, halign, State.ioWrite, hreg,
    csrStore_eq_stored s v hr hown hdown]

/-! ## The word after the store -/

theorem word_stored_other (s : State) (r : RegRow) (off : Nat) (h : Half) (v : W64) {o : Nat} (ho : o ≠ off) :
    (stored s r off h v).word o = s.word o := by
  unfold stored; split
  · rw [word_setWord, if_neg ho]
  · rfl

theorem stored_frame (s : State) (r : RegRow) (off : Nat) (h : Half) (v : W64) :
    stored s r off h v = { s with csr := (stored s r off h v).csr } := by
  unfold stored; split <;> rfl

theorem getLsbD_word_stored_none (s : State) {r : RegRow} (off : Nat) (h : Half) (v : W64) {b : Nat}
    (hb : ∀ f ∈ r.fields, ¬ Holds f b) : ((stored s r off h v).word off).getLsbD b = (s.word off).getLsbD b := by
  unfold stored; split
  · rw [word_setWord_same, getLsbD_rowWrite_none _ _ _ _ hb]
  · rfl

theorem writtenBit_readsBack {ty : FieldType} (old : Bool) : writtenBit ty (old && readsBack ty) old = old := by
  cases ty <;> cases old <;> rfl

/-- In the half that is written each bit of a field takes what its type says; the other half stays. -/
theorem getLsbD_word_stored_field (s : State) {r : RegRow} (hr : Ascending r) (off : Nat) (h : Half) (v : W64)
    {f : FieldRow} (hf : f ∈ r.fields) (hlck : f.ty ≠ .lck) {b : Nat} (hb : Holds f b) :
    ((stored s r off h v).word off).getLsbD b = if InHalf h b then
        writtenBit f.ty (v.getLsbD (b - (halfSpan h).1)) ((s.word off).getLsbD b)
      else (s.word off).getLsbD b := by
  by_cases hw : r.writable h = true
  · rw [stored, if_pos hw, word_setWord_same, getLsbD_rowWrite_field hr hf hlck _ _ _ hb,
      getLsbD_mergeHalf _ _ _ _ (hr.lt_64 hf hb), getLsbD_held hr hf hb]
    split
    · rfl
    · exact writtenBit_readsBack _
  · rw [stored, if_neg hw]
    split
    · next hh => exact (writtenBit_of_not_writable hw hf hb hh _ _).symm
    · rfl

/-- Settles O35: the command stores into one register word, and each bit of that word is read off its field. -/
theorem registerWritesFollowTheirTypes : Obligations.RegisterWritesFollowTheirTypes := by
  intro r ix off size lo v s hfind hown hlt h8 hrun hacc
  have hmem := mem_of_findReg hfind
  have hspan := halfSpan_halfOf h8 hacc
  refine ⟨_, exec_registerWrite_m s v hfind hown hlt h8 hrun hacc, stored_frame ..,
    fun o => word_stored_other s r off _ v, fun f hf b hlo hhi => ?_,
    fun b hnone => getLsbD_word_stored_none s off _ v fun f hf hb => ?_⟩
  · have hbit := getLsbD_word_stored_field s (deviceRegs_ascending r hmem) off (halfOf (off + lo / 8) size) v hf
      (deviceRegs_lck_ownRule r hmem hown f hf) ⟨hlo, hhi⟩
    simpa only [InHalf, hspan] using hbit
  · have := hnone f hf
    unfold Holds at hb; omega

end Sys2Proof.Proofs
end

section
/-! PROOFS. Element writes stay in the units of their destination, and the counting that goes with them in the
counters of the tile (spec/01_log_numbers.md R16, spec/07_nolpa_programming.md R207): first what a count changes of a
tile, then what one element changes of the block, then the fold over the elements. -/
namespace Sys2Proof.Proofs

open Sys2Proof Sys2Proof.Machine Sys2Proof.Laws

/-! ## Counting changes the counters of a tile alone -/

/-- Tile `b` is `a` but for its Contour slots and format counters, which fill its CSR words from 0xD000 up. -/
def CountsOnly (a b : Tile) : Prop :=
  b = { a with csr := b.csr } ∧ ∀ o, o < 0xD000 → b.word o = a.word o

theorem CountsOnly.refl (a : Tile) : CountsOnly a a := ⟨rfl, fun _ _ => rfl⟩

theorem CountsOnly.trans {a b c : Tile} (hab : CountsOnly a b) (hbc : CountsOnly b c) : CountsOnly a c :=
  ⟨hbc.1.trans (by rw [hab.1]), fun o ho => (hbc.2 o ho).trans (hab.2 o ho)⟩

theorem countsOnly_setFld (t : Tile) {f : Fld} (v : Nat) (hf : 0xD000 ≤ f.off) : CountsOnly t (t.setFld f v) :=
  ⟨rfl, fun o ho => twrd_setFld_other t f v o (by omega)⟩

theorem countsOnly_addFld (t : Tile) {f : Fld} (v : Nat) (hf : 0xD000 ≤ f.off) : CountsOnly t (t.addFld f v) :=
  countsOnly_setFld t _ hf

theorem CountsOnly.ite {a b c : Tile} (p : Prop) [Decidable p] (hb : CountsOnly a b) (hc : CountsOnly a c) :
    CountsOnly a (if p then b else c) := by
  split
  · exact hb
  · exact hc

theorem CountsOnly.bump {a b : Tile} (h : CountsOnly a b) (slot : Nat) {f : Fld} (hf : 0xD000 ≤ f.off) :
    CountsOnly a (b.bump slot f) := by
  have hsat : ∀ u : Tile, CountsOnly u (u.setFld (Csr.cfgCtrSts_sat_any slot) 1) :=
    fun u => countsOnly_setFld u 1 (show 0xD000 ≤ 0xD120 + 0x200 * slot by omega)
  have hadd := h.trans (countsOnly_addFld b 1 hf)
  exact .ite _ (h.trans (hsat b)) (.ite _ (hadd.trans (hsat _)) hadd)

theorem le_off_ctrBinFld (slot b : Nat) : 0xD000 ≤ (ctrBinFld slot b).off := by
  unfold ctrBinFld
  split <;> (show 0xD000 ≤ 0xD000 + 0x200 * slot + 0x8 * (b / 2); omega)

/-- The last two counts of an element in its Contour slot: saturated and flushed (R103). -/
theorem CountsOnly.bumpSatFlush {a b : Tile} (h : CountsOnly a b) (slot : Nat) (r : ElemRes) :
    let c := if r.clipped || r.ovf then b.bump slot (Csr.cfgCtrSf_sat slot) else b
    CountsOnly a (if r.unf then c.bump slot (Csr.cfgCtrSf_flush slot) else c) := by
  intro c
  have hoff : 0xD000 ≤ 0xD108 + 0x200 * slot := by omega
  have hc : CountsOnly a c := .ite _ (h.bump slot hoff) h
  exact .ite _ (hc.bump slot hoff) hc

theorem countsOnly_countContour (t : Tile) (slot : Nat) (r : ElemRes) : CountsOnly t (t.countContour slot r) := by
  have helem : CountsOnly t (t.bump slot (Csr.cfgCtrElem_elements slot)) :=
    (CountsOnly.refl t).bump slot (show 0xD000 ≤ 0xD110 + 0x200 * slot by omega)
  have hzn : 0xD000 ≤ 0xD100 + 0x200 * slot := by omega
  unfold Tile.countContour
  split
  · exact .refl t
  · next k _ =>
    cases k with
    | nar => exact (helem.bump slot hzn).bumpSatFlush slot r
    | zero => exact (helem.bump slot hzn).bumpSatFlush slot r
    | bin b => exact (helem.bump slot (le_off_ctrBinFld slot b)).bumpSatFlush slot r

theorem countsOnly_countConv (t : Tile) (c : FmtCount) : CountsOnly t (t.countConv c) := by
  have hovf : CountsOnly t (if c.2.1 then t.addFld (Csr.cfgFmtcOvf_count c.1.code) 1 else t) :=
    .ite _ (countsOnly_addFld t 1 (show 0xD000 ≤ 0xF000 + 0x10 * c.1.code by omega)) (.refl t)
  exact .ite _ (hovf.trans (countsOnly_addFld _ 1 (show 0xD000 ≤ 0xF008 + 0x10 * c.1.code by omega))) hovf

theorem countsOnly_countFmt (t : Tile) (f : Fmt) (r : ElemRes) : CountsOnly t (t.countFmt f r) :=
  List.foldlRecOn (motive := CountsOnly t) _ _ (.refl t) fun u hu c _ => hu.trans (countsOnly_countConv u c)

/-! ## One element -/

/-- `t` is `s` after writes of tile `n` into bytes of `W`: other bytes read as before, the tile has counted, and the
rest of the block has not changed. -/
structure WritesWithin (n : Nat) (W : Nat → Prop) (s t : State) : Prop where
  block : t = { s with mem := t.mem, ueWords := t.ueWords, tiles := t.tiles }
  others : ∀ m, m ≠ n → t.tile m = s.tile m
  counts : CountsOnly (s.tile n) (t.tile n)
  bytes : ∀ x, ¬ W x → t.byte x = s.byte x

theorem WritesWithin.refl (n : Nat) (W : Nat → Prop) (s : State) : WritesWithin n W s s :=
  ⟨rfl, fun _ _ => rfl, .refl _, fun _ _ => rfl⟩

theorem WritesWithin.trans {n : Nat} {W : Nat → Prop} {s t u : State} (hst : WritesWithin n W s t)
    (htu : WritesWithin n W t u) : WritesWithin n W s u where
  block := htu.block.trans (by rw [hst.block])
  others m hm := (htu.others m hm).trans (hst.others m hm)
  counts := hst.counts.trans htu.counts
  bytes x hx := (htu.bytes x hx).trans (hst.bytes x hx)

/-- A byte of the unit that holds an element (R16). -/
def InUnit (d : Desc) (c : List Nat) (x : Nat) : Prop :=
  (d.place c).1 ≤ x ∧ x < (d.place c).1 + d.fmt.granule

theorem byte_setElem_other (s : State) (d : Desc) (c : List Nat) (v : Nat) {x : Nat} (hx : ¬ InUnit d c x) :
    (s.setElem d c v).byte x = s.byte x := by
  have hout : x < (d.place c).1 ∨ (d.place c).1 + d.fmt.granule ≤ x := by unfold InUnit at hx; omega
  exact byte_store_other _ _ _ _ _ hout

theorem writesWithin_setElem (n : Nat) (s : State) (d : Desc) (c : List Nat) (v : Nat) {W : Nat → Prop}
    (hW : ∀ x, InUnit d c x → W x) : WritesWithin n W s (s.setElem d c v) :=
  ⟨rfl, fun _ _ => rfl, .refl _, fun x hx => byte_setElem_other s d c v (mt (hW x) hx)⟩

theorem writesWithin_countElem (n : Nat) (W : Nat → Prop) (s : State) (d : Desc) (r : ElemRes) :
    WritesWithin n W s (s.countElem n d r) := by
  unfold State.countElem
  split
  · exact .refl n W s
  · refine ⟨rfl, fun m hm => by rw [tile_updTile, if_neg hm], ?_, fun _ _ => rfl⟩
    rw [tile_updTile_same]
    have hfmt := countsOnly_countFmt (s.tile n) d.fmt r
    exact .ite _ (hfmt.trans (countsOnly_countContour _ _ _)) hfmt

/-! ## All elements -/

/-- A byte of the unit of one of the first `k` elements in linear order (R207). -/
def InUnits (d : Desc) (k x : Nat) : Prop := ∃ j < k, InUnit d (coords d.ext j) x

theorem writesWithin_writeElems (s : State) (n : Nat) (d : Desc) (rs : List (Except Nat ElemRes)) (sel : Nat → Bool) :
    WritesWithin n (InUnits d rs.length) s (s.writeElems n d rs sel) := by
  refine List.foldlRecOn (motive := WritesWithin n (InUnits d rs.length) s) _ _ (.refl ..) ?_
  rintro t ht ⟨e, j⟩ hmem
  have hj : j < rs.length := by simpa using List.snd_lt_of_mem_zipIdx hmem
  cases e with
  | error _ => exact ht
  | ok r =>
    dsimp only
    split
    · have hset : WritesWithin n (InUnits d rs.length) t (t.setElem d (coords d.ext j) r.code) :=
        writesWithin_setElem n t d _ r.code fun x hx => ⟨j, hj, hx⟩
      exact (ht.trans hset).trans (writesWithin_countElem ..)
    · exact ht

/-! ## An element reads back -/

/-- The place of an element lies inside its unit: the codes of a packed unit fill it (R16, R17). -/
theorem place_bits_le_unit (d : Desc) (c : List Nat) :
    d.fmt.bits * (d.place c).2 + d.fmt.bits ≤ 8 * d.fmt.granule := by
  have hplace : (d.place c).2 < d.fmt.perGranule := by
    unfold Desc.place
    split
    · exact Nat.mod_lt _ (by cases d.fmt <;> decide)
    · show 0 < d.fmt.perGranule
      cases d.fmt <;> decide
  have hfill : d.fmt.bits * d.fmt.perGranule ≤ 8 * d.fmt.granule := by cases d.fmt <;> decide
  calc d.fmt.bits * (d.place c).2 + d.fmt.bits = d.fmt.bits * ((d.place c).2 + 1) := by ring
    _ ≤ d.fmt.bits * d.fmt.perGranule := Nat.mul_le_mul_left _ hplace
    _ ≤ 8 * d.fmt.granule := hfill

theorem elem_setElem_same (s : State) (d : Desc) (c : List Nat) (v : Nat) :
    (s.setElem d c v).elem d c = v % 2 ^ d.fmt.bits := by
  unfold State.elem State.setElem
  simp only [load_store_same]
  rw [← field_putField_same _ (d.fmt.bits * (d.place c).2) d.fmt.bits v]
  refine field_of_low _ _ (8 * d.fmt.granule) _ _ ?_ (place_bits_le_unit d c)
  rw [show (256 : Nat) = 2 ^ 8 from rfl, ← pow_mul, Nat.mod_mod]

/-- Settles O30: every step of the fold over the elements writes within their units, and an element's code is a field
of its unit. -/
theorem elementWritesStayInPlace : Obligations.ElementWritesStayInPlace := by
  refine ⟨fun s n d rs sel _ => ?_, elem_setElem_same⟩
  obtain ⟨hblock, hothers, ⟨htile, hwords⟩, hbytes⟩ := writesWithin_writeElems s n d rs sel
  refine ⟨hblock, hothers, htile, hwords, fun x hx => hbytes x ?_⟩
  rintro ⟨j, hj, hlo, hhi⟩
  have := hx j hj
  omega

end Sys2Proof.Proofs
end

section
/-! PROOFS. The matrix engine's blocks entered into running sums (spec/02_products_and_sums.md R50 to R67): first what
reads of memory depend on, then running sums after writes, then one row, then the rows of an MXM. -/
namespace Sys2Proof.Proofs

open Sys2Proof Sys2Proof.Machine Sys2Proof.Claims Sys2Proof.Laws

/-! ## Reads of the same memory -/

theorem bytes_of_mem {s t : State} (h : t.mem = s.mem) (a n : Nat) : t.bytes a n = s.bytes a n := by
  induction n generalizing a with
  | zero => rfl
  | succ n ih => simp only [State.bytes, State.byte, h, ih]

theorem load_of_mem {s t : State} (h : t.mem = s.mem) (a n : Nat) : t.load a n = s.load a n := by
  unfold State.load; rw [bytes_of_mem h]

theorem elem_of_mem {s t : State} (h : t.mem = s.mem) (d : Desc) (c : List Nat) : t.elem d c = s.elem d c := by
  simp only [State.elem, load_of_mem h]

theorem newSum_of_mem {s t : State} (h : t.mem = s.mem) (o : MxmOp) (b : WBuf) (p r col old : Nat) :
    newSum t o b p r col old = newSum s o b p r col old := by
  simp only [newSum, elem_of_mem h]

/-! ## States that differ in one tile -/

theorem onlyTile_refl (n : Nat) (s : State) : s.OnlyTile n s := ⟨rfl, fun _ _ => rfl⟩

theorem onlyTile_trans {n : Nat} {s t u : State} (hst : s.OnlyTile n t) (htu : t.OnlyTile n u) : s.OnlyTile n u :=
  ⟨htu.1.trans (by rw [hst.1]), fun m hm => (htu.2 m hm).trans (hst.2 m hm)⟩

theorem mem_of_onlyTile {n : Nat} {s t : State} (h : s.OnlyTile n t) : t.mem = s.mem := by rw [h.1]

theorem onlyTile_setTile (s : State) (n : Nat) (t : Tile) : s.OnlyTile n (s.setTile n t) :=
  ⟨rfl, fun m hm => by rw [tile_setTile, if_neg hm]⟩

theorem onlyTile_updTile (s : State) (n : Nat) (f : Tile → Tile) : s.OnlyTile n (s.updTile n f) :=
  onlyTile_setTile s n _

theorem onlyTile_setChain (s : State) (n slot : Nat) (c : Chain) : s.OnlyTile n (s.setChain n slot c) :=
  onlyTile_updTile ..

theorem onlyTile_updFlight (s : State) (n seq : Nat) (f : InFlight → InFlight) : s.OnlyTile n (s.updFlight n seq f) :=
  onlyTile_updTile ..

theorem onlyTile_done (s : State) (n seq : Nat) (fl : Flags) (ctr : Option Nat) :
    s.OnlyTile n (s.done n seq fl ctr) := onlyTile_updFlight ..

/-! ## Running sums -/

theorem run_of_acc {a t : Tile} (h : t.acc = a.acc) (row col : Nat) : t.run row col = a.run row col := by
  simp only [Tile.run, h]

/-- A running sum after a write of one: the sum written, or as before. -/
theorem run_setRun (t : Tile) {col col' : Nat} (hc : col < 32) (hc' : col' < 32) (row row' v : Nat) :
    (t.setRun row col v).run row' col' = if row' = row ∧ col' = col then v else t.run row' col' := by
  have hkey : 32 * row' + col' = 32 * row + col ↔ row' = row ∧ col' = col := by omega
  simp only [Tile.run, Tile.setRun, nmap_get_set, hkey]
  split <;> rfl

/-- The sums of a row after its first `k` columns have been written. -/
theorem run_foldl_setRun (t : Tile) (row : Nat) (g : Nat → Nat) {k col : Nat} (hk : k ≤ 32) (hc : col < 32)
    (row' : Nat) :
    ((List.range k).foldl (fun t i => t.setRun row i (g i)) t).run row' col =
      if row' = row ∧ col < k then g col else t.run row' col := by
  induction k with
  | zero => simp
  | succ k ih =>
    rw [List.range_succ, List.foldl_append, List.foldl_cons, List.foldl_nil, run_setRun _ (by omega) hc, ih (by omega)]
    by_cases hrow : row' = row
    · obtain hlt | rfl | hgt := Nat.lt_trichotomy col k
      · simp [hrow, hlt, hlt.ne, Nat.lt_succ_of_lt hlt]
      · simp [hrow]
      · simp [hrow, hgt.ne', Nat.not_lt.mpr hgt.le, Nat.not_lt.mpr (Nat.succ_le_of_lt hgt)]
    · simp [hrow]

/-- Tile `b` is `a` but for its running sums, Graticule bins and counters. -/
def SumsOnly (a b : Tile) : Prop := b = { a with csr := b.csr, acc := b.acc, bins := b.bins }

theorem sumsOnly_refl (a : Tile) : SumsOnly a a := rfl

theorem sumsOnly_trans {a b c : Tile} (hab : SumsOnly a b) (hbc : SumsOnly b c) : SumsOnly a c :=
  hbc.trans (by rw [hab])

theorem sumsOnly_foldl_setRun (t : Tile) (row : Nat) (g : Nat → Nat) (l : List Nat) :
    SumsOnly t (l.foldl (fun t i => t.setRun row i (g i)) t) :=
  List.foldlRecOn (motive := SumsOnly t) _ _ (sumsOnly_refl t) fun _ hu _ _ => sumsOnly_trans hu rfl

/-- Blocks shown in the Graticule bins leave everything else of a tile. -/
theorem foldl_setBins (t : Tile) (l : List (BlockRes × Nat)) :
    ∃ m, l.foldl (fun t p => t.setBins p.2 p.1) t = { t with bins := m } :=
  List.foldlRecOn (motive := fun u : Tile => ∃ m, u = { t with bins := m }) _ _ ⟨t.bins, rfl⟩
    fun _ hu _ _ => by obtain ⟨m, rfl⟩ := hu; exact ⟨_, rfl⟩

/-! ## One row -/

theorem zipIdx_map_range {α : Type} (g : Nat → α) (k : Nat) :
    ((List.range k).map g).zipIdx = (List.range k).map (fun i => (g i, i)) := by
  apply List.ext_getElem <;> simp

/-- The columns of a row together: none of them overflows. -/
theorem foldr_some (l : List Nat) (g : Nat → Option Nat) (v : Nat → Nat) (h : ∀ i ∈ l, g i = some (v i)) :
    (l.map g).foldr (fun x acc => match x, acc with | some v, some l => some (v :: l) | _, _ => none) (some []) =
      some (l.map v) := by
  induction l with
  | nil => rfl
  | cons a l ih =>
    rw [List.map_cons, List.foldr_cons, ih fun i hi => h i (List.mem_cons_of_mem _ hi), h a List.mem_cons_self]
    rfl

/-- A row whose sums do not overflow gives the new sums of its live columns (R55 to R67). -/
theorem row_sums {j : RowJob} {o : MxmOp} {c : Chain} (hda : j.da = o.da) (hst : c.stoch = false) {s : State} {r : Nat}
    {v : Nat → Nat}
    (h : ∀ col < j.buf.cols,
      newSum s o j.buf (c.preset + c.replays) r col ((s.tile j.n).run (c.rowBase + r) col) = some (v col)) :
    ∃ g : Nat → BlockRes, j.row s c r = ((List.range j.buf.cols).map g, some ((List.range j.buf.cols).map v)) := by
  refine ⟨_, Prod.ext rfl ?_⟩
  simp only [RowJob.row, hst, Bool.false_eq_true, if_false, zipIdx_map_range, List.map_map]
  refine foldr_some _ _ v fun col hcol => ?_
  rw [← h col (List.mem_range.mp hcol)]
  simp only [newSum, ← hda]
  rfl

/-- A row's commit without stochastic rounding and group terms changes running sums, bins and counters of its tile, and
the drop count of its chain. -/
theorem commit_sums {j : RowJob} {c : Chain} (hst : c.stoch = false) (hsg : c.sg = false) (s : State) (r : Nat)
    (blocks : List BlockRes) (v : Nat → Nat) :
    ∃ t d, j.commit s c r blocks ((List.range j.buf.cols).map v) = (t, { c with drops := d }) ∧ s.OnlyTile j.n t ∧
      SumsOnly (s.tile j.n) (t.tile j.n) ∧
      ∀ row, ∀ col < 32, (t.tile j.n).run row col =
        if row = c.rowBase + r ∧ col < j.buf.cols then v col else (s.tile j.n).run row col := by
  have hcols : j.buf.cols ≤ 32 := Nat.min_le_left ..
  obtain ⟨m, hm⟩ := foldl_setBins
    ((List.range j.buf.cols).foldl (fun t i => t.setRun (c.rowBase + r) i (v i)) (s.tile j.n)) blocks.zipIdx
  simp only [RowJob.commit, hst, hsg, Bool.false_eq_true, if_false, zipIdx_map_range, List.foldl_map]
  refine ⟨_, _, rfl, onlyTile_updTile .., ?_, fun row col hc => ?_⟩ <;> rw [tile_updTile_same, hm]
  · exact sumsOnly_trans (sumsOnly_foldl_setRun (s.tile j.n) (c.rowBase + r) v (List.range j.buf.cols)) rfl
  · exact run_foldl_setRun (s.tile j.n) (c.rowBase + r) v hcols hc row

/-! ## The rows of an MXM -/

/-- The rows from `r` up, none of which overflows, enter their new sums and leave the rest of the tile. -/
theorem go_sums {j : RowJob} {o : MxmOp} (hda : j.da = o.da) (v : Nat → Nat → Nat) (fuel : Nat) (s : State) (c : Chain)
    (r : Nat) (hst : c.stoch = false) (hsg : c.sg = false) (hfuel : j.rows ≤ r + fuel)
    (h : ∀ r' col, r ≤ r' → r' < j.rows → col < j.buf.cols →
      newSum s o j.buf (c.preset + c.replays) r' col ((s.tile j.n).run (c.rowBase + r') col) = some (v r' col)) :
    ∃ t d, j.go fuel s c r = (t, { c with drops := d }, false) ∧ s.OnlyTile j.n t ∧
      SumsOnly (s.tile j.n) (t.tile j.n) ∧
      ∀ r', ∀ col < j.buf.cols, (t.tile j.n).run (c.rowBase + r') col =
        if r ≤ r' ∧ r' < j.rows then v r' col else (s.tile j.n).run (c.rowBase + r') col := by
  have stop (hr : j.rows ≤ r) (r' col : Nat) : (s.tile j.n).run (c.rowBase + r') col =
      if r ≤ r' ∧ r' < j.rows then v r' col else (s.tile j.n).run (c.rowBase + r') col := by
    rw [if_neg (by omega)]
  induction fuel generalizing s c r with
  | zero =>
    exact ⟨s, c.drops, rfl, onlyTile_refl .., sumsOnly_refl _, fun r' col _ => stop (by omega) r' col⟩
  | succ fuel ih =>
    unfold RowJob.go
    by_cases hr : j.rows ≤ r
    · rw [if_pos hr]
      exact ⟨s, c.drops, rfl, onlyTile_refl .., sumsOnly_refl _, fun r' col _ => stop hr r' col⟩
    · rw [if_neg hr]
      obtain ⟨g, hrow⟩ := row_sums hda hst (v := v r) fun col hcol => h r col le_rfl (by omega) hcol
      obtain ⟨t, d, hcommit, honly, hsums, hrun⟩ := commit_sums hst hsg s r ((List.range j.buf.cols).map g) (v r)
      have hcols : j.buf.cols ≤ 32 := Nat.min_le_left ..
      have hmem : t.mem = s.mem := mem_of_onlyTile honly
      have later (r' col : Nat) (hr' : r + 1 ≤ r') (hcol : col < j.buf.cols) :
          (t.tile j.n).run (c.rowBase + r') col = (s.tile j.n).run (c.rowBase + r') col := by
        rw [hrun _ col (by omega), if_neg (by omega)]
      obtain ⟨u, d', hgo, honly', hsums', hrun'⟩ := ih t { c with drops := d } (r + 1) hst hsg (by omega)
        (fun r' col hle hlt hcol => by
          rw [later r' col hle hcol, newSum_of_mem hmem]; exact h r' col (by omega) hlt hcol)
        (fun hle r' col => by rw [if_neg (by omega)])
      dsimp only at hrun'
      refine ⟨u, d', ?_, onlyTile_trans honly honly', sumsOnly_trans hsums hsums', fun r' col hcol => ?_⟩
      · simp only [hrow, hcommit]; exact hgo
      · rw [hrun' r' col hcol, hrun _ col (by omega)]
        obtain hlt | rfl | hgt := Nat.lt_trichotomy r' r
        · rw [if_neg (by omega), if_neg (by omega), if_neg (by omega)]
        · rw [if_neg (by omega), if_pos (by omega), if_pos (by omega)]
        · by_cases hlast : r' < j.rows
          · rw [if_pos (by omega), if_pos (by omega)]
          · rw [if_neg (by omega), if_neg (by omega), if_neg (by omega)]

end Sys2Proof.Proofs
end

section
/-! PROOFS. An MXM performed (spec/02_products_and_sums.md R50 to R78): first the entries of a chain written one by one,
then the state that an opening MXM starts its rows from, then the MXM itself. -/
namespace Sys2Proof.Proofs

open Sys2Proof Sys2Proof.Machine Sys2Proof.Claims Sys2Proof.Laws

/-! ## The entries of a chain -/

/-- Block `t` is `s` but for the running sums of tile `n`. -/
def AccOnly (n : Nat) (s t : State) : Prop :=
  s.OnlyTile n t ∧ t.tile n = { s.tile n with acc := (t.tile n).acc }

theorem accOnly_updTile {n : Nat} {s t : State} (h : AccOnly n s t) (g : Tile → NMap AccVal) :
    AccOnly n s (t.updTile n fun a => { a with acc := g a }) := by
  obtain ⟨honly, htile⟩ := h
  refine ⟨onlyTile_trans honly (onlyTile_updTile ..), ?_⟩
  rw [tile_updTile_same, htile]

/-- A write of the running sum of every entry of a chain changes running sums alone. -/
theorem accOnly_forEntries (n : Nat) (s : State) (c : Chain) (g : Nat → Nat → Tile → NMap AccVal) :
    AccOnly n s (s.forEntries c fun s row col => s.updTile n fun t => { t with acc := g row col t }) :=
  List.foldlRecOn (motive := AccOnly n s) _ _ ⟨onlyTile_refl .., rfl⟩ fun _ hu _ _ => accOnly_updTile hu _

/-- The running sums of a chain set to zero, entry by entry (R50). -/
def zeroSums (n : Nat) (c : Chain) (s : State) : State :=
  s.forEntries c fun s row col => s.updTile n fun t => t.setRun (c.rowBase + row) col 0

theorem accOnly_zeroSums (n : Nat) (c : Chain) (s : State) : AccOnly n s (zeroSums n c s) := accOnly_forEntries n s c _

theorem run_zeroSums (n : Nat) (c : Chain) (s : State) {row col : Nat} (hrow : row < c.rows) (hcol : col < 32) :
    ((zeroSums n c s).tile n).run (c.rowBase + row) col = 0 := by
  have upTo (k : Nat) (hk : 32 * row + col < k) :
      (((List.range k).foldl (fun s i => s.updTile n fun t => t.setRun (c.rowBase + i / 32) (i % 32) 0) s).tile n).run
        (c.rowBase + row) col = 0 := by
    induction k with
    | zero => omega
    | succ k ih =>
      rw [List.range_succ, List.foldl_append, List.foldl_cons, List.foldl_nil, tile_updTile_same,
        run_setRun _ (Nat.mod_lt k (by decide)) hcol]
      split
      · rfl
      · exact ih (by omega)
  exact upTo (32 * c.rows) (by omega)

/-! ## What an MXM opens -/

/-- The block in which an opening MXM on a tile without open chains starts its rows: chain `c` in its slot, with zero
sums (R50, R51). -/
def opened (s : State) (n slot : Nat) (c : Chain) : State :=
  zeroSums n c ((s.updTile n fun t => { t with ovfSlots := t.ovfSlots.filter (· != slot) }).setChain n slot c)

theorem tile_opened (s : State) (n slot : Nat) (c : Chain) :
    ∃ acc ovf, (opened s n slot c).tile n =
      { s.tile n with acc := acc, ovfSlots := ovf, chains := NMap.insert (s.tile n).chains slot c } := by
  obtain ⟨-, htile⟩ := accOnly_zeroSums n c
    ((s.updTile n fun t => { t with ovfSlots := t.ovfSlots.filter (· != slot) }).setChain n slot c)
  rw [State.setChain, tile_updTile_same, tile_updTile_same] at htile
  exact ⟨_, _, htile⟩

theorem onlyTile_opened (s : State) (n slot : Nat) (c : Chain) : s.OnlyTile n (opened s n slot c) :=
  onlyTile_trans (onlyTile_trans (onlyTile_updTile ..) (onlyTile_setChain ..)) (accOnly_zeroSums ..).1

theorem dropChain_none {s : State} {n slot : Nat} (h : (s.tile n).chain? slot = none) : s.dropChain n slot = s := by
  unfold State.dropChain State.releaseChain
  rw [show NMap.find? (s.tile n).chains slot = none from h]

/-! ## An MXM performed -/

/-- Block `t` is `s` after an MXM that has added its block into chain `c` of its slot: its live columns have the sums
`v`, the chain has one block more, the MXM is done, and the rest of the block stays. -/
structure Accumulated (n : Nat) (o : MxmOp) (cols : Nat) (c : Chain) (v : Nat → Nat → Nat) (s t : State) : Prop where
  only : s.OnlyTile n t
  tile : ∃ csr acc bins chains, t.tile n = { s.tile n with
    csr := csr, acc := acc, bins := bins, chains := chains,
    inflight := (s.tile n).inflight.map (fun x =>
      if x.seq = o.seq then { x with done := true, flags := {}, ctr := none } else x) }
  run : ∀ r col, r < o.rows → col < cols → (t.tile n).run (c.rowBase + r) col = v r col
  chain : ∃ drops groups key, (t.tile n).chain? o.slot = some { c with
    blocks := c.blocks + 1, outReg := o.outReg, drops := drops, groups := groups, grpKey := key }

/-- The chain of an MXM as its rows find it: only the groups it counts may have changed. -/
theorem enterGroup_frame (c : Chain) (b : WBuf) :
    ∃ g k fresh, c.enterGroup b = ({ c with groups := g, grpKey := k }, fresh) := by
  unfold Chain.enterGroup
  generalize (if b.gs = 0 then 0 else 32 * b.rb / gsSize b.gs) = key
  by_cases h : c.grpKey = some key
  · exact ⟨c.groups, c.grpKey, false, if_pos h⟩
  · exact ⟨c.groups + 1, some key, true, if_neg h⟩

/-- An MXM without fault, close, stochastic rounding, group terms, spill and overflow adds its block into the chain that
stands in its slot once an opening one has opened it: `u` is the block from there on. -/
theorem runMxm_accumulates {s u : State} {n : Nat} {o : MxmOp} {b : WBuf} {c : Chain} {v : Nat → Nat → Nat}
    (hcheck : o.check s n = none) (hbuf : NMap.find? (s.tile n).wbuf o.buf = some b) (hecc : o.ecc = .ok)
    (hclose : o.close = false)
    (hu : u = if o.add then s else opened (s.dropChain n o.slot) n o.slot
      { o.opens b with seed := (s.seedOf n o.rng o.dout.tid o.dout.sid).getD 0 })
    (hchain : (u.tile n).chain? o.slot = some c) (hst : c.stoch = false) (hsg : c.sg = false)
    (hspill : (c.blocks + 1) % c.spillS ≠ 0)
    (hsum : ∀ r col, r < o.rows → col < b.cols →
      newSum u o b (c.preset + c.replays) r col ((u.tile n).run (c.rowBase + r) col) = some (v r col)) :
    Accumulated n o b.cols c v u (s.runMxm n o) := by
  obtain ⟨g, k, fresh, hgroup⟩ := enterGroup_frame c b
  obtain ⟨w, d, hgo, honly, hsums, hrun⟩ := go_sums (o := o)
    (j := ⟨n, o.slot, b, o.da, o.rows, c.blocks % 2 ^ 24, g - 1, fresh, o.tok, o.seq⟩) rfl v (o.rows + 4) u
    { c with groups := g, grpKey := k } 0 hst hsg (by show o.rows ≤ _; omega) fun r col _ hr hcol => hsum r col hr hcol
  let c' : Chain := { c with blocks := c.blocks + 1, outReg := o.outReg, drops := d, groups := g, grpKey := k }
  have hrunMxm : s.runMxm n o = (w.setChain n o.slot c').done n o.seq {} none := by
    simp only [opened, zeroSums] at hu
    unfold State.runMxm
    simp only [hcheck, hbuf, hecc, State.detectT, hclose, Bool.false_eq_true, if_false, ← hu, hchain, hgroup, hgo,
      hspill]
    rfl
  dsimp only at hrun hsums
  have htile : (s.runMxm n o).tile n = { w.tile n with
      chains := NMap.insert (w.tile n).chains o.slot c'
      inflight := (w.tile n).inflight.map fun x =>
        if x.seq = o.seq then { x with done := true, flags := {}, ctr := none } else x } := by
    rw [hrunMxm, State.done, State.updFlight, State.setChain, tile_updTile_same, tile_updTile_same]
  refine ⟨?_, ?_, fun r col hr hcol => ?_, ?_⟩
  · rw [hrunMxm]
    exact onlyTile_trans (onlyTile_trans honly (onlyTile_setChain ..)) (onlyTile_done ..)
  · rw [htile, hsums]
    exact ⟨_, _, _, _, rfl⟩
  · rw [htile]
    exact (hrun r col hcol).trans (if_pos ⟨Nat.zero_le r, hr⟩)
  · refine ⟨d, g, k, ?_⟩
    rw [htile]
    exact (nmap_find_insert ..).trans (if_pos rfl)

/-- An opening MXM on a free slot adds its block into zero sums (R50). -/
theorem runMxm_opens {s : State} {n : Nat} {o : MxmOp} {b : WBuf} {v : Nat → Nat → Nat}
    (hcheck : o.check s n = none) (hbuf : NMap.find? (s.tile n).wbuf o.buf = some b) (hecc : o.ecc = .ok)
    (hclose : o.close = false) (hopen : o.add = false) (hfree : (s.tile n).chain? o.slot = none) (hsg : o.sg = false)
    (hst : (o.opens b).stoch = false) (hspill : (o.opens b).spillS ≠ 1)
    (hsum : ∀ r col, r < o.rows → col < b.cols → newSum s o b o.preset r col 0 = some (v r col)) :
    ∃ seed, Accumulated n o b.cols { o.opens b with seed := seed } v
      (opened s n o.slot { o.opens b with seed := seed }) (s.runMxm n o) := by
  let c : Chain := { o.opens b with seed := (s.seedOf n o.rng o.dout.tid o.dout.sid).getD 0 }
  obtain ⟨acc, ovf, htile⟩ := tile_opened s n o.slot c
  have hchain : ((opened s n o.slot c).tile n).chain? o.slot = some c := by
    rw [htile]; exact (nmap_find_insert ..).trans (if_pos rfl)
  have hzero (r col : Nat) (hr : r < o.rows) (hcol : col < b.cols) :
      ((opened s n o.slot c).tile n).run (c.rowBase + r) col = 0 :=
    run_zeroSums n c _ hr (Nat.lt_of_lt_of_le hcol (Nat.min_le_left ..))
  have hfirst : (c.blocks + 1) % c.spillS ≠ 0 :=
    fun h => absurd ((Nat.one_mod_eq_one.mpr hspill).symm.trans h) one_ne_zero
  refine ⟨_, runMxm_accumulates (c := c) hcheck hbuf hecc hclose ?_ hchain hst hsg hfirst fun r col hr hcol => ?_⟩
  · rw [hopen, dropChain_none hfree]; rfl
  · rw [hzero r col hr hcol, newSum_of_mem (mem_of_onlyTile (onlyTile_opened ..))]
    exact hsum r col hr hcol

end Sys2Proof.Proofs
end

section
/-! PROOFS. The issue of an MXM (spec/07_nolpa_programming.md R209, R211; spec/08_nolpa_tensor_reference.md R253,
R254): first what its checks and its waits read of the block, then what its issue leaves of the tile, then the engine's
queue, then the MXM from its command on. -/
namespace Sys2Proof.Proofs

open Sys2Proof Sys2Proof.Machine Sys2Proof.Claims Sys2Proof.Laws

/-! ## What the checks of an operation read -/

theorem touchesCells_of_chains {s t : State} {n : Nat} (h : (t.tile n).chains = (s.tile n).chains) (x : Int × Int)
    (e : Option Nat) : t.touchesCells n x e = s.touchesCells n x e := by
  simp only [State.touchesCells, State.cellRanges, h]

section
variable {n : Nat} {s t : State} (honly : s.OnlyTile n t)
include honly

theorem csr_of_onlyTile : t.csr = s.csr := by rw [honly.1]

theorem registry_of_onlyTile : t.registry = s.registry := by rw [honly.1]

theorem opndUnmapped_of_onlyTile (x : Opnd) : t.opndUnmapped n x = s.opndUnmapped n x := by
  simp only [State.opndUnmapped, State.localDev, State.flag, State.fld, State.word, csr_of_onlyTile honly]

theorem osrBytes_of_onlyTile (o : MxmOp) : t.osrBytes n o = s.osrBytes n o := bytes_of_mem (mem_of_onlyTile honly) ..

theorem rngWaits_of_onlyTile (p k : Nat) : t.rngWaits p k = s.rngWaits p k := by
  rw [honly.1]; rfl

theorem seedOf_of_onlyTile (kept : Option (Option W64)) (tid sid : Nat) :
    t.seedOf n kept tid sid = s.seedOf n kept tid sid := by
  simp only [State.seedOf, State.resolve, State.streams, registry_of_onlyTile honly]

theorem checkOpnds_of_chains (hchains : (t.tile n).chains = (s.tile n).chains) (dsts srcs : List Opnd)
    (fmtExtra shape : Bool) (code : Nat) (chain : Bool) (ins outs : List (Nat × Nat)) (e : Option Nat) (al : Bool) :
    t.checkOpnds n dsts srcs fmtExtra shape code chain ins outs e al =
      s.checkOpnds n dsts srcs fmtExtra shape code chain ins outs e al := by
  simp only [State.checkOpnds, funext (opndUnmapped_of_onlyTile honly), touchesCells_of_chains hchains]

/-- The checks of an MXM read the chains and the weight buffers of its tile, and nothing else of it. -/
theorem mxmCheck_of_chains (hchains : (t.tile n).chains = (s.tile n).chains)
    (hwbuf : (t.tile n).wbuf = (s.tile n).wbuf) (o : MxmOp) : o.check t n = o.check s n := by
  simp only [MxmOp.check, Tile.chain?, hchains, hwbuf, checkOpnds_of_chains honly hchains,
    touchesCells_of_chains hchains, osrBytes_of_onlyTile honly, seedOf_of_onlyTile honly]

end

theorem firstFault_eq_none {l : List (Bool × Nat)} (h : firstFault l = none) : ∀ p ∈ l, p.1 = false := by
  simpa [firstFault] using h

theorem chain_of_checkOpnds {s : State} {n : Nat} {dsts srcs : List Opnd} {fmtExtra shape chain al : Bool} {code : Nat}
    {ins outs : List (Nat × Nat)} {e : Option Nat}
    (h : s.checkOpnds n dsts srcs fmtExtra shape code chain ins outs e al = none) : chain = false :=
  firstFault_eq_none h (chain, eAccChain) (by simp)

/-- An adding MXM without fault goes on with a chain of its own rows (R253). -/
theorem rowBase_of_mxmCheck {s : State} {n : Nat} {o : MxmOp} {b : WBuf} {c : Chain} (hcheck : o.check s n = none)
    (hbuf : NMap.find? (s.tile n).wbuf o.buf = some b) (hadd : o.add = true)
    (hchain : (s.tile n).chain? o.slot = some c) : c.rowBase = o.rowBase := by
  simp only [MxmOp.check, hbuf, hadd, hchain, if_true] at hcheck
  split at hcheck
  · cases hcheck
  · next hfirst =>
    have hbad := chain_of_checkOpnds hfirst
    simp only [Bool.or_eq_false_iff, bne_eq_false_iff_eq] at hbad
    obtain ⟨⟨⟨-, hrowBase⟩, -⟩, -⟩ := hbad
    exact hrowBase

/-! ## The queue of the matrix engine -/

theorem drainMatrix_empty {s : State} {n : Nat} (h : (s.tile n).mq = []) (k : Nat) : s.drainMatrix n k = s := by
  cases k with
  | zero => rfl
  | succ k => unfold State.drainMatrix; rw [h]

/-- An MXM that stands alone in the queue and need not wait is performed. -/
theorem drainMatrix_single {s : State} {n : Nat} {o : MxmOp} (hmq : (s.tile n).mq = [.mxm o])
    (hwait : s.mxmWaits n o = false) (k : Nat) :
    s.drainMatrix n (k + 1) = ((s.updTile n fun t => { t with mq := [] }).runMxm n o).drainMatrix n k := by
  conv_lhs => unfold State.drainMatrix
  rw [hmq]
  simp only [hwait, Bool.false_eq_true, if_false]

/-! ## The issue of an MXM -/

theorem bits_one_eq_bit (w : W64) (i : Nat) : (bits w i 1 == 1) = bit w i := by
  simp [bits, field, bit, BitVec.getLsbD, Nat.testBit_eq_decide_div_mod_eq, beq_eq_decide]

theorem add_mxmOf (s : State) (i : Issue) : (mxmOf s i).add = bit i.word 4 := by
  rw [← bits_one_eq_bit]
  have hlow : field (fL i.word) 4 1 = field i.word.toNat 4 1 :=
    field_of_low _ _ 32 _ _ (by simp [bits, field]) (by decide)
  exact congrArg (· == 1) hlow

theorem priv_advance (t : Tile) (pc : Nat) : (t.advance pc).priv = t.priv := by
  have hword : ({ t.setWord Csr.tcInstret (t.word Csr.tcInstret + 1) with pc := pc, bpPassed := false } : Tile).priv =
      t.priv := by
    unfold Tile.priv Tile.fld
    exact congrArg (bits · _ _ == 1) ((twrd_setWord ..).trans (if_neg (by decide)))
  rw [← hword]
  unfold Tile.advance Tile.boundary
  dsimp only
  repeat' split
  · exact congrArg (· == 1) (enterDebug_fld _ _ _ rfl (by decide))
  · exact congrArg (· == 1) (enterDebug_fld _ _ _ rfl (by decide))
  · rfl
  · rfl

/-- Tile `t` is `a` after the issue of an MXM word: the MXM stands in flight and is not performed yet, and what the
matrix engine reads of the tile has not changed. -/
structure MxmEntered (i : Issue) (a t : Tile) : Prop where
  pc : t.pc = nextPc a i.word
  busy : t.busy (fA i.word) = (fA i.word != 0)
  dreg : t.dreg = a.dreg
  sreg : t.sreg = a.sreg
  mode : t.mode = a.mode
  priv : t.priv = a.priv
  wbuf : t.wbuf = a.wbuf
  acc : t.acc = a.acc
  chains : t.chains = a.chains
  convs : t.convs = a.convs
  tq : t.tq = a.tq
  flight : ∃ f : InFlight, t.inflight = a.inflight ++ [f] ∧ f.seq = a.seq ∧ f.fault = 0 ∧ f.hulls = []

theorem mxmEntered_mq {i : Issue} {a t : Tile} (h : MxmEntered i a t) (q : List MOp) :
    MxmEntered i a { t with mq := q } :=
  ⟨h.pc, h.busy, h.dreg, h.sreg, h.mode, h.priv, h.wbuf, h.acc, h.chains, h.convs, h.tq, h.flight⟩

theorem busy_of_kreg {a t : Tile} (h : t.kreg = a.kreg) (k : Nat) : t.busy k = a.busy k := by
  simp only [Tile.busy, Tile.k, h]

theorem priv_of_csr {a t : Tile} (h : t.csr = a.csr) : t.priv = a.priv := by
  simp only [Tile.priv, Tile.fld, Tile.word, h]

theorem busy_setK_one (t : Tile) (k : Nat) : (t.setK k 1).busy k = (k != 0) := by
  by_cases hk : k = 0
  · simp [hk, Tile.busy, Tile.k, bit]
  · have hbusy : (t.setK k 1).k k = 1 := by rw [k_setK, if_pos ⟨rfl, hk⟩]
    rw [Tile.busy, hbusy, bne_iff_ne.mpr hk]
    rfl

theorem mxmEntered_enter {s : State} {i : Issue} (hop : fOp i.word = 0x81) (b : List IbufLine) :
    MxmEntered i (s.tile i.tile)
      (((s.setTile i.tile { s.tile i.tile with ibuf := b }).enter i.tile i.word).tile i.tile) := by
  rw [State.enter, tile_updTile_same, tile_setTile_same]
  constructor
  case pc => simp [pcNext, nextPc, isX, hop]
  case busy => exact (busy_of_kreg (tile_advance_kreg ..) _).trans (busy_setK_one ..)
  case priv => exact (priv_advance ..).trans (priv_of_csr (tile_setK_csr ..))
  case flight =>
    refine ⟨_, rfl, rfl, rfl, ?_⟩
    simp [State.newFlight, State.movHulls, hop]
  all_goals simp

/-- The MXM that the issue queues is the one of the word, captured from the tile as it was (R209). -/
theorem mxmOp_eq_mxmOf {s u : State} {i : Issue} (h : MxmEntered i (s.tile i.tile) (u.tile i.tile))
    (honly : s.OnlyTile i.tile u) :
    (⟨fA i.word, (s.tile i.tile).seq, (u.tile i.tile).d (fB i.word), (u.tile i.tile).d (fC i.word), fC i.word,
      (u.tile i.tile).s (fD i.word), fL i.word, (u.tile i.tile).mode, (u.tile i.tile).priv, i.ecc,
      u.rngArrived (partOf i.tile), none⟩ : MxmOp) = mxmOf s i := by
  have hd (r : Nat) : (u.tile i.tile).d r = (s.tile i.tile).d r :=
    congrArg (List.map · _) (funext fun w => by simp only [Tile.dw, h.dreg])
  have hs (r : Nat) : (u.tile i.tile).s r = (s.tile i.tile).s r := by simp only [Tile.s, h.sreg]
  have hrng : u.rngArrived (partOf i.tile) = s.rngArrived (partOf i.tile) := by rw [honly.1]; rfl
  rw [hd, hd, hs, h.mode, h.priv, hrng]
  rfl

/-- An MXM in flight that has not moved anything makes no other wait. -/
theorem movesMeet_append (a t : Tile) (n : Nat) (c : Chain) {f : InFlight} (htq : t.tq = a.tq)
    (hflight : t.inflight = a.inflight ++ [f]) (hhulls : f.hulls = []) : t.movesMeet n c = a.movesMeet n c := by
  simp [Tile.movesMeet, htq, hflight, hhulls]

/-- What an MXM waits for is what it waited for when it issued. -/
theorem mxmWaits_of_entered {s u : State} {i : Issue} (h : MxmEntered i (s.tile i.tile) (u.tile i.tile))
    (honly : s.OnlyTile i.tile u) (o : MxmOp) : u.mxmWaits i.tile o = s.mxmWaits i.tile o := by
  obtain ⟨f, hflight, -, -, hhulls⟩ := h.flight
  simp only [State.mxmWaits, h.convs, h.wbuf, osrBytes_of_onlyTile honly, rngWaits_of_onlyTile honly,
    fun c => movesMeet_append _ _ i.tile c h.tq hflight hhulls, Tile.closedMeets, Tile.chain?, h.chains]

theorem onlyTile_enter (s : State) (n : Nat) (w : W64) : s.OnlyTile n (s.enter n w) := by
  unfold State.enter; exact onlyTile_updTile ..

theorem mq_enter (s : State) (n : Nat) (w : W64) : ((s.enter n w).tile n).mq = (s.tile n).mq := by
  rw [State.enter, tile_updTile_same]; simp

/-- An MXM issued: it enters its engine, and the engine's queue runs (R42, R209). -/
theorem issueMxm_next {s : State} {i : Issue} (hissue : s.Issues i) (hop : fOp i.word = 0x81)
    (hclose : (mxmOf s i).close = false) :
    ∃ u, s.OnlyTile i.tile u ∧ MxmEntered i (s.tile i.tile) (u.tile i.tile) ∧
      (u.tile i.tile).mq = (s.tile i.tile).mq ++ [.mxm (mxmOf s i)] ∧
      issueMxm (bit i.word 4) i s = .next (u.drainMatrix i.tile 8) := by
  have hrow : (fOp i.word == 0x81 && (fl i.word 4 1 == 1) == bit i.word 4) = true := by
    simp [hop, fl, bits_one_eq_bit]
  obtain ⟨b, hnext⟩ : ∃ b, issueMxm (bit i.word 4) i s = .next _ :=
    issueT_next i _ _ s hissue hrow
  let e := (s.setTile i.tile { s.tile i.tile with ibuf := b }).enter i.tile i.word
  have honly : s.OnlyTile i.tile e := onlyTile_trans (onlyTile_setTile ..) (onlyTile_enter ..)
  have hent : MxmEntered i (s.tile i.tile) (e.tile i.tile) := mxmEntered_enter hop b
  have hmq : (e.tile i.tile).mq = (s.tile i.tile).mq := (mq_enter ..).trans (by rw [tile_setTile_same])
  refine ⟨e.setTile i.tile { e.tile i.tile with mq := (e.tile i.tile).mq ++ [.mxm (mxmOf s i)] },
    onlyTile_trans honly (onlyTile_setTile ..), ?_, ?_, hnext.trans ?_⟩
  · rw [tile_setTile_same]; exact mxmEntered_mq hent _
  · rw [tile_setTile_same, hmq]
  · dsimp only
    rw [mxmOp_eq_mxmOf hent honly, hclose]
    rfl

/-- An MXM that issues into an empty queue and need not wait is performed with its issue; `u` is the block that it
starts from. -/
theorem issueMxm_performs {s : State} {i : Issue} (hissue : s.Issues i) (hop : fOp i.word = 0x81)
    (hclose : (mxmOf s i).close = false) (hmq : (s.tile i.tile).mq = [])
    (hwait : s.mxmWaits i.tile (mxmOf s i) = false) :
    ∃ u, s.OnlyTile i.tile u ∧ MxmEntered i (s.tile i.tile) (u.tile i.tile) ∧ (u.tile i.tile).mq = [] ∧
      issueMxm (bit i.word 4) i s = .next ((u.runMxm i.tile (mxmOf s i)).drainMatrix i.tile 7) := by
  obtain ⟨u, honly, hent, hq, hnext⟩ := issueMxm_next hissue hop hclose
  rw [hmq, List.nil_append] at hq
  refine ⟨u.updTile i.tile fun t => { t with mq := [] }, onlyTile_trans honly (onlyTile_updTile ..), ?_, ?_, ?_⟩
  · rw [tile_updTile_same]; exact mxmEntered_mq hent []
  · rw [tile_updTile_same]
  · rw [hnext, drainMatrix_single hq ((mxmWaits_of_entered hent honly _).trans hwait)]

/-! ## An MXM from its command on -/

/-- What an MXM that has added its block leaves, from the block `s` of its command on: `u` is the block after its issue
and `w` the one that its rows start from. -/
theorem accumulated_from_issue {i : Issue} {s u w t : State} {cols : Nat} {c : Chain} {v : Nat → Nat → Nat}
    (honly : s.OnlyTile i.tile u) (hent : MxmEntered i (s.tile i.tile) (u.tile i.tile)) (hmq : (u.tile i.tile).mq = [])
    (hstart : u.OnlyTile i.tile w) (htile : ∃ acc ovf chains, w.tile i.tile =
      { u.tile i.tile with acc := acc, ovfSlots := ovf, chains := chains })
    (hacc : Accumulated i.tile (mxmOf s i) cols c v w t) :
    t.drainMatrix i.tile 7 = t ∧ (t.tile i.tile).busy (fA i.word) = (fA i.word != 0) ∧
      (t.tile i.tile).pc = nextPc (s.tile i.tile) i.word ∧
      (∃ f ∈ (t.tile i.tile).inflight, f.seq = (s.tile i.tile).seq ∧ f.done = true ∧ f.fault = 0) ∧ t.mem = s.mem := by
  obtain ⟨acc, ovf, chains, hw⟩ := htile
  obtain ⟨csr, acc', bins, chains', ht⟩ := hacc.tile
  obtain ⟨f, hflight, hseq, hfault, -⟩ := hent.flight
  rw [hw] at ht
  refine ⟨drainMatrix_empty (by rw [ht, hmq]) 7, ?_, by rw [ht, ← hent.pc],
    ⟨{ f with done := true, flags := {}, ctr := none }, ?_, hseq, rfl, hfault⟩, ?_⟩
  · rw [← hent.busy]; exact busy_of_kreg (by rw [ht]) _
  · rw [ht]
    exact List.mem_map.mpr ⟨f, by simp [hflight], if_pos hseq⟩
  · rw [mem_of_onlyTile hacc.only, mem_of_onlyTile hstart, mem_of_onlyTile honly]

/-- Settles O24: the issue of an MXM performs it, and its rows enter their new sums one after another. -/
theorem matrixMultipliesAccumulate : Obligations.MatrixMultipliesAccumulate := by
  intro i s hissue hop hecc n a o hmq hwait hclose hcheck b hbuf
  obtain ⟨u, honly, hent, humq, hnext⟩ := issueMxm_performs hissue hop hclose hmq hwait
  have hcheck' : o.check u n = none := (mxmCheck_of_chains honly hent.chains hent.wbuf o).trans hcheck
  have hbuf' : NMap.find? (u.tile n).wbuf o.buf = some b := by rw [hent.wbuf]; exact hbuf
  have hadd : o.add = bit i.word 4 := add_mxmOf s i
  refine ⟨fun hopen hchains hsg hst hspill v hsum => ?_, fun c hadding hchain hsg hst hspill _ v hsum => ?_⟩
  · have hfree : (u.tile n).chain? o.slot = none := by rw [Tile.chain?, hent.chains, hchains]; rfl
    obtain ⟨seed, hacc⟩ := runMxm_opens (v := v) hcheck' hbuf' hecc hclose (hadd.trans hopen) hfree hsg hst hspill
      fun r col hr hcol => by rw [newSum_of_mem (mem_of_onlyTile honly)]; exact hsum r col hr hcol
    obtain ⟨acc, ovf, hopened⟩ := tile_opened u n o.slot { o.opens b with seed := seed }
    obtain ⟨hdrain, hbusy, hpc, hflight, hmem⟩ :=
      accumulated_from_issue honly hent humq (onlyTile_opened ..) ⟨_, _, _, hopened⟩ hacc
    obtain ⟨d, g, k, hchain⟩ := hacc.chain
    refine ⟨u.runMxm n o, ?_, hbusy, hpc, hacc.run, hflight, hmem, _, hchain, rfl, rfl, rfl, rfl, rfl, rfl, rfl⟩
    rw [exec_mxmOpen, execMxmOpen, ← hopen, hnext, hdrain]
  · rw [hadding] at hadd
    have hrows : c.rowBase = o.rowBase := rowBase_of_mxmCheck hcheck hbuf hadd hchain
    have hrun (row col : Nat) : (u.tile n).run row col = a.run row col := run_of_acc hent.acc row col
    have hacc := runMxm_accumulates (u := u) (c := c) (v := v) hcheck' hbuf' hecc hclose
      (by rw [hadd, if_pos rfl]) (by rw [Tile.chain?, hent.chains]; exact hchain) hst hsg hspill
      (fun r col hr hcol => by
        rw [hrun, hrows, newSum_of_mem (mem_of_onlyTile honly)]
        exact hsum r col hr hcol)
    obtain ⟨hdrain, hbusy, hpc, hflight, hmem⟩ := accumulated_from_issue honly hent humq (onlyTile_refl ..)
      ⟨_, _, _, rfl⟩ hacc
    obtain ⟨d, g, k, hchain⟩ := hacc.chain
    refine ⟨u.runMxm n o, ?_, hbusy, hpc, hrows ▸ hacc.run, hflight, hmem, _, hchain, rfl, rfl, rfl, rfl, rfl⟩
    rw [exec_mxmAdd, execMxmAdd, ← hadding, hnext, hdrain]

end Sys2Proof.Proofs
end

section
/-! PROOFS. What the counts of elements written depend on (spec/01_log_numbers.md R38, spec/03_output_conversion.md
R103): the counters themselves, whatever else of the tile differs. -/
namespace Sys2Proof.Proofs

open Sys2Proof Sys2Proof.Machine Sys2Proof.Claims Sys2Proof.Laws

/-! ## Tiles of the same counters -/

/-- Two tiles hold the same Contour slots and format counters, which fill the CSR words from 0xD000 up. -/
def SameCounters (a b : Tile) : Prop := ∀ o, 0xD000 ≤ o → b.word o = a.word o

theorem SameCounters.fld {a b : Tile} (h : SameCounters a b) {f : Fld} (hf : 0xD000 ≤ f.off) : b.fld f = a.fld f := by
  simp only [Tile.fld, h f.off hf]

theorem SameCounters.setFld {a b : Tile} (h : SameCounters a b) (f : Fld) (v : Nat) :
    SameCounters (a.setFld f v) (b.setFld f v) := fun o ho => by
  simp only [Tile.setFld, twrd_setWord]
  split
  · next ho' => rw [← ho', h o ho]
  · exact h o ho

theorem SameCounters.addFld {a b : Tile} (h : SameCounters a b) {f : Fld} (hf : 0xD000 ≤ f.off) (v : Nat) :
    SameCounters (a.addFld f v) (b.addFld f v) := by
  unfold Tile.addFld
  rw [h.fld hf]
  exact h.setFld f _

theorem SameCounters.ite {a b a' b' : Tile} (p : Prop) [Decidable p] (h : SameCounters a b) (h' : SameCounters a' b') :
    SameCounters (if p then a else a') (if p then b else b') := by
  split
  · exact h
  · exact h'

theorem SameCounters.bump {a b : Tile} (h : SameCounters a b) (slot : Nat) {f : Fld} (hf : 0xD000 ≤ f.off) :
    SameCounters (a.bump slot f) (b.bump slot f) := by
  have hadd := h.addFld hf 1
  unfold Tile.bump
  simp only [h.fld hf, hadd.fld hf]
  exact .ite _ (h.setFld _ 1) (.ite _ (hadd.setFld _ 1) hadd)

/-- The last two counts of an element in its Contour slot: saturated and flushed (R103). -/
theorem SameCounters.bumpSatFlush {a b : Tile} (h : SameCounters a b) (slot : Nat) (r : ElemRes) :
    let satFlush := fun (t : Tile) =>
      let t := if r.clipped || r.ovf then t.bump slot (Csr.cfgCtrSf_sat slot) else t
      if r.unf then t.bump slot (Csr.cfgCtrSf_flush slot) else t
    SameCounters (satFlush a) (satFlush b) := by
  have hoff : 0xD000 ≤ 0xD108 + 0x200 * slot := by omega
  have hsat := SameCounters.ite ((r.clipped || r.ovf) = true) (h.bump slot (f := Csr.cfgCtrSf_sat slot) hoff) h
  exact .ite _ (hsat.bump slot (f := Csr.cfgCtrSf_flush slot) hoff) hsat

theorem SameCounters.countContour {a b : Tile} (h : SameCounters a b) (slot : Nat) (r : ElemRes) :
    SameCounters (a.countContour slot r) (b.countContour slot r) := by
  have hzn : 0xD000 ≤ 0xD100 + 0x200 * slot := by omega
  have helem : 0xD000 ≤ 0xD110 + 0x200 * slot := by omega
  have hfirst := h.bump slot (f := Csr.cfgCtrElem_elements slot) helem
  unfold Tile.countContour
  cases r.kind with
  | none => exact h
  | some k =>
    cases k with
    | nar => exact (hfirst.bump slot hzn).bumpSatFlush slot r
    | zero => exact (hfirst.bump slot hzn).bumpSatFlush slot r
    | bin n => exact (hfirst.bump slot (le_off_ctrBinFld slot n)).bumpSatFlush slot r

theorem SameCounters.countConv {a b : Tile} (h : SameCounters a b) (c : FmtCount) :
    SameCounters (a.countConv c) (b.countConv c) := by
  have hovf : 0xD000 ≤ 0xF000 + 0x10 * c.1.code := by omega
  have hunf : 0xD000 ≤ 0xF008 + 0x10 * c.1.code := by omega
  have hfirst := SameCounters.ite (c.2.1 = true) (h.addFld (f := Csr.cfgFmtcOvf_count c.1.code) hovf 1) h
  exact .ite (c.2.2 = true) (hfirst.addFld (f := Csr.cfgFmtcUnf_count c.1.code) hunf 1) hfirst

theorem SameCounters.countFmt {a b : Tile} (h : SameCounters a b) (f : Fmt) (r : ElemRes) :
    SameCounters (a.countFmt f r) (b.countFmt f r) :=
  List.foldl_rel h fun c _ _ _ hab => hab.countConv c

/-! ## Elements written from states of the same memory and counters -/

/-- Two blocks hold the same memory, and tile `n` the same counters in both. -/
def SameTarget (n : Nat) (s t : State) : Prop := t.mem = s.mem ∧ SameCounters (s.tile n) (t.tile n)

theorem SameTarget.setElem {n : Nat} {s t : State} (h : SameTarget n s t) (d : Desc) (c : List Nat) (v : Nat) :
    SameTarget n (s.setElem d c v) (t.setElem d c v) := by
  refine ⟨?_, h.2⟩
  simp only [State.setElem, State.store, State.writeBytes, load_of_mem h.1, h.1]

theorem SameTarget.countElem {n : Nat} {s t : State} (h : SameTarget n s t) (d : Desc) (r : ElemRes) :
    SameTarget n (s.countElem n d r) (t.countElem n d r) := by
  obtain ⟨hmem, hcounts⟩ := h
  unfold State.countElem
  split
  · exact ⟨hmem, hcounts⟩
  · refine ⟨hmem, ?_⟩
    rw [tile_updTile_same, tile_updTile_same]
    exact .ite _ ((hcounts.countFmt d.fmt r).countContour d.ctrSlot r) (hcounts.countFmt d.fmt r)

/-- What a pass writes and counts depends on memory and counters alone. -/
theorem SameTarget.writeAt {n : Nat} {s t : State} (h : SameTarget n s t) (d : Desc)
    (rs : List (List Nat × Except Nat ElemRes)) (sel : Nat → Bool) :
    SameTarget n (s.writeAt n d rs sel) (t.writeAt n d rs sel) := by
  refine List.foldl_rel h fun p _ u u' hu => ?_
  cases p.1.2 with
  | error _ => exact hu
  | ok r =>
    dsimp only
    split
    · exact (hu.setElem d _ _).countElem d r
    · exact hu

/-- A pass changes memory, and of its tile the counters. -/
theorem writesWithin_writeAt (s : State) (n : Nat) (d : Desc) (rs : List (List Nat × Except Nat ElemRes))
    (sel : Nat → Bool) : WritesWithin n (fun _ => True) s (s.writeAt n d rs sel) := by
  refine List.foldlRecOn (motive := WritesWithin n (fun _ => True) s) _ _ (.refl ..) fun u hu p _ => ?_
  cases p.1.2 with
  | error _ => exact hu
  | ok r =>
    dsimp only
    split
    · exact (hu.trans (writesWithin_setElem n u d _ _ fun _ _ => trivial)).trans (writesWithin_countElem ..)
    · exact hu

end Sys2Proof.Proofs
end

section
/-! PROOFS. The conversion of a closed chain (spec/03_output_conversion.md R84 to R95, R111;
spec/02_products_and_sums.md R71, R73): first what its elements and its checks read, then what the release of the chain
does, then the pass as a whole, then the command. -/
namespace Sys2Proof.Proofs

open Sys2Proof Sys2Proof.Machine Sys2Proof.Claims Sys2Proof.Laws

/-! ## What a conversion reads -/

theorem elemScale_of_srf {a t : Tile} (h : t.srf = a.srf) (d : Desc) (c : List Nat) :
    t.elemScale d c = a.elemScale d c := by
  simp only [Tile.elemScale, Tile.groupScale, h]

/-- The elements of a pass read memory, and of the tile its running sums and scales. -/
theorem outElems_of_tile {s t : State} (j : OutJob) (hmem : t.mem = s.mem) (hacc : (t.tile j.n).acc = (s.tile j.n).acc)
    (hsrf : (t.tile j.n).srf = (s.tile j.n).srf) : j.elems t = j.elems s := by
  simp only [OutJob.elems, OutJob.elem, OutJob.y, OutJob.x, load_of_mem hmem, run_of_acc hacc, elemScale_of_srf hsrf]

/-- The faults of a conversion read the chains and the function-unit slots of the tile. -/
theorem convFault_of_chains {s t : State} {n : Nat} (hchains : (t.tile n).chains = (s.tile n).chains)
    (hfu : (t.tile n).fu = (s.tile n).fu) (v : ConvOp) (o : Osr) : v.fault t n o = v.fault s n o := by
  simp only [ConvOp.fault, touchesCells_of_chains hchains, hfu]

/-! ## Elements without a fault -/

theorem resFault_ok (es : List ElemRes) : resFault (es.map Except.ok) = none := by
  simp [resFault]

theorem resFlags_ok (es : List ElemRes) : resFlags (es.map Except.ok) = allFlags es := by
  simp [resFlags, allFlags, List.foldl_map]

theorem countedSlot_ok (d : Desc) (es : List ElemRes) :
    countedSlot d (es.map Except.ok) (fun _ => true) = slotOf d es := by
  unfold countedSlot slotOf
  refine if_congr ?_ rfl rfl
  rw [Bool.and_eq_true, List.any_eq_true]
  refine and_congr_right fun _ => ⟨?_, ?_⟩
  · rintro ⟨⟨e, k⟩, hmem, hcounted⟩
    obtain ⟨r, hr, rfl⟩ := List.mem_map.mp (List.fst_mem_of_mem_zipIdx hmem)
    exact ⟨r, hr, by simpa using hcounted⟩
  · rintro ⟨r, hr, hcounted⟩
    obtain ⟨k, hk, hget⟩ := List.getElem_of_mem (List.mem_map_of_mem (f := Except.ok (ε := Nat)) hr)
    exact ⟨(.ok r, k), List.mem_zipIdx_iff_getElem?.mpr (List.getElem?_eq_some_iff.mpr ⟨hk, hget⟩),
      by simpa using hcounted⟩

/-! ## The release of a chain -/

/-- Cells zeroed one range after another: their bytes read zero, the others as before. -/
theorem byte_foldl_zeroMem (base : Nat) (l : List (Nat × Nat)) (hl : ∀ r ∈ l, r.1 ≤ r.2) (s : State) (x : Nat) :
    (l.foldl (fun s r => s.zeroMem (base + r.1) (r.2 - r.1)) s).byte x =
      if l.any (fun r => decide (base + r.1 ≤ x) && decide (x < base + r.2)) then 0 else s.byte x := by
  induction l generalizing s with
  | nil => rfl
  | cons r l ih =>
    have hr := hl r List.mem_cons_self
    have hend : base + r.1 + (r.2 - r.1) = base + r.2 := by omega
    rw [List.foldl_cons, ih (fun r' hr' => hl r' (List.mem_cons_of_mem _ hr')), byte_zeroMem, hend]
    simp only [List.any_cons, ← Bool.decide_and]
    by_cases hx : base + r.1 ≤ x ∧ x < base + r.2
    · simp [hx]
    · simp only [hx, decide_false, Bool.false_or, if_false]

theorem tiles_foldl_zeroMem (base : Nat) (l : List (Nat × Nat)) (s : State) :
    (l.foldl (fun s r => s.zeroMem (base + r.1) (r.2 - r.1)) s).tiles = s.tiles :=
  List.foldlRecOn (motive := fun t : State => t.tiles = s.tiles) _ _ rfl fun _ h _ _ => h

theorem cells_ordered (c : Chain) : ∀ r ∈ c.cells, r.1 ≤ r.2 := by
  intro r hr
  unfold Chain.cells at hr
  split at hr <;> simp only [List.mem_cons, List.not_mem_nil, or_false] at hr
  · obtain rfl | rfl := hr <;> exact Nat.le_add_right ..
  · subst hr; exact Nat.le_add_right ..

/-- What the release of a chain leaves (R71): its slot free, its cells zero, everything else of memory and tiles. -/
theorem releaseChain_facts {s : State} {n slot : Nat} {c : Chain} (h : (s.tile n).chain? slot = some c) :
    (s.releaseChain n slot).tile n = { s.tile n with chains := NMap.erase (s.tile n).chains slot } ∧
    (∀ m, m ≠ n → (s.releaseChain n slot).tile m = s.tile m) ∧
    ∀ x, (s.releaseChain n slot).byte x =
      if c.cells.any (fun r => decide (sramBase n + r.1 ≤ x) && decide (x < sramBase n + r.2)) then 0 else s.byte x := by
  have htile (m : Nat) : (c.cells.foldl (fun s r => s.zeroMem (sramBase n + r.1) (r.2 - r.1)) s).tile m = s.tile m := by
    unfold State.tile; rw [tiles_foldl_zeroMem]
  unfold State.releaseChain
  rw [show NMap.find? (s.tile n).chains slot = some c from h]
  dsimp only
  refine ⟨?_, fun m hm => ?_, fun x => byte_foldl_zeroMem _ _ (cells_ordered c) s x⟩
  · rw [tile_updTile_same, htile]
  · rw [tile_updTile, if_neg hm, htile]

/-- The entries of a chain left open change running sums alone, and take free values (R73). -/
theorem freeEntries_facts (s : State) (n : Nat) (c : Chain) :
    (∃ acc, (s.freeEntries n c).tile n = { s.tile n with acc := acc }) ∧
    (∀ m, m ≠ n → (s.freeEntries n c).tile m = s.tile m) ∧ (s.freeEntries n c).mem = s.mem := by
  obtain ⟨honly, htile⟩ := accOnly_forEntries n s c fun row col t =>
    NMap.set (fun _ => AccVal.bits 0) t.acc (32 * (c.rowBase + row) + col) (.free (s.freeCtr + 32 * row + col))
  exact ⟨⟨_, htile⟩, honly.2, (mem_of_onlyTile honly :)⟩

/-! ## The pass -/

/-- The three changes that the end of a conversion makes to its closing MXM, as one. -/
theorem map_ended (l : List InFlight) (seq : Nat) (fl : Flags) (ctr : Option Nat) :
    ((l.map fun x => if x.seq = seq then { x with replays := 0 } else x).map fun x =>
      if x.seq = seq then { x with done := true, flags := fl, ctr := ctr } else x).map (fun x =>
      if x.seq = seq then x else x) =
    l.map fun x => if x.seq = seq then { x with replays := 0, done := true, flags := fl, ctr := ctr } else x := by
  rw [List.map_map, List.map_map]
  refine List.map_congr_left fun x _ => ?_
  by_cases hx : x.seq = seq <;> simp [hx]

/-- Block `t` is `w`, in which a pass has written its elements, after the end of chain `c` and of its closing MXM
`o`. -/
structure ChainEnded (n slot : Nat) (o : MxmOp) (c : Chain) (fl : Flags) (ctr : Option Nat) (w t : State) : Prop where
  tile : ∃ acc, t.tile n = { w.tile n with
    acc := acc
    chains := NMap.erase (w.tile n).chains slot
    inflight := (w.tile n).inflight.map fun x =>
      if x.seq = o.seq then { x with replays := 0, done := true, flags := fl, ctr := ctr } else x }
  others : ∀ m, m ≠ n → t.tile m = w.tile m
  bytes : ∀ x, t.byte x =
    if c.cells.any (fun r => decide (sramBase n + r.1 ≤ x) && decide (x < sramBase n + r.2)) then 0 else w.byte x

/-- What the end of a conversion does to a block that still holds the chain in its slot (R71, R73, R111). -/
theorem chainEnded_of_release {n slot : Nat} {o : MxmOp} {c : Chain} {w : State}
    (hchain : (w.tile n).chain? slot = some c) (fl : Flags) (ctr : Option Nat) :
    ChainEnded n slot o c fl ctr w
      (((((w.freeEntries n c).releaseChain n slot).updFlight n o.seq fun x => { x with replays := 0 }).done n o.seq
        fl ctr).updFlight n o.seq fun x => x) := by
  obtain ⟨⟨acc, hfree⟩, hfreeOthers, hfreeMem⟩ := freeEntries_facts w n c
  obtain ⟨htile, hothers, hbytes⟩ := releaseChain_facts (s := w.freeEntries n c) (slot := slot) (c := c)
    (by rw [hfree]; exact hchain)
  refine ⟨⟨acc, ?_⟩, fun m hm => ?_, fun x => ?_⟩
  · rw [State.done, State.updFlight, State.updFlight, State.updFlight, tile_updTile_same, tile_updTile_same,
      tile_updTile_same, htile, hfree, map_ended]
  · rw [State.done, State.updFlight, State.updFlight, State.updFlight, tile_updTile, if_neg hm, tile_updTile,
      if_neg hm, tile_updTile, if_neg hm, hothers m hm, hfreeOthers m hm]
  · have hbyte : (w.freeEntries n c).byte x = w.byte x := by simp only [State.byte, hfreeMem]
    rw [← hbyte]
    exact hbytes x

/-- The block that a pass writes into: a stochastic one has counted its evaluations (R33). -/
def passStart (s : State) (n : Nat) (v : ConvOp) (evals : Nat) : State :=
  if v.seed.isSome then s.countEvals n evals else s

theorem passStart_facts (s : State) (n : Nat) (v : ConvOp) (k : Nat) :
    s.OnlyTile n (passStart s n v k) ∧ (∃ csr, (passStart s n v k).tile n = { s.tile n with csr := csr }) ∧
      SameCounters (s.tile n) ((passStart s n v k).tile n) := by
  unfold passStart
  split
  · rw [State.countEvals, tile_updTile_same]
    refine ⟨onlyTile_updTile .., ⟨_, rfl⟩, fun o ho => twrd_setFld_other _ _ _ _ ?_⟩
    show o ≠ 0x6000
    omega
  · exact ⟨onlyTile_refl .., ⟨_, rfl⟩, fun _ _ => rfl⟩

/-- A conversion without fault of a chain that did not replay: its elements are written, and the chain ends. -/
theorem convert_ends {s : State} {n : Nat} {v : ConvOp} {c : Chain} {es : List (List Nat × ElemRes)}
    (hchain : (s.tile n).chain? v.slot = some c) (hreplays : c.replays = 0)
    (hfault : v.fault s n (Osr.ofBytes v.record) = none)
    (helems : OutJob.elems ⟨n, Osr.ofBytes v.record, v.op.dout, c, v.za, v.seed,
      if (Osr.ofBytes v.record).act = 2 && v.op.dout.fmt != .fp32p then
        NMap.find? (s.tile n).fu (Osr.ofBytes v.record).fuSlot else none⟩ s = es.map fun p => (p.1, Except.ok p.2)) :
    ∃ k, ChainEnded n v.slot v.op c (allFlags (es.map fun p => p.2)) (slotOf v.op.dout (es.map fun p => p.2))
      ((passStart s n v k).writeAt n v.op.dout (es.map fun p => (p.1, Except.ok p.2)) fun _ => true)
      (s.convert n v c) := by
  have hresults : (es.map fun p => (p.1, (Except.ok p.2 : Except Nat ElemRes))).map (fun r => r.2) =
      (es.map fun p => p.2).map Except.ok := by simp
  obtain ⟨k, hconvert⟩ : ∃ k, s.convert n v c =
      ((((((passStart s n v k).writeAt n v.op.dout (es.map fun p => (p.1, Except.ok p.2)) fun _ => true).freeEntries n
        c).releaseChain n v.slot).updFlight n v.op.seq fun x => { x with replays := 0 }).done n v.op.seq
        (allFlags (es.map fun p => p.2)) (slotOf v.op.dout (es.map fun p => p.2))).updFlight n v.op.seq fun x => x := by
    unfold State.convert
    simp only [hfault, helems, hresults, resFault_ok, resFlags_ok, countedSlot_ok, State.adjustScale, hreplays, if_true,
      Bool.false_eq_true, if_false]
    exact ⟨_, rfl⟩
  refine ⟨k, hconvert ▸ chainEnded_of_release ?_ _ _⟩
  obtain ⟨hcounts, -⟩ := (writesWithin_writeAt (passStart s n v k) n v.op.dout
    (es.map fun p => (p.1, Except.ok p.2)) fun _ => true).counts
  obtain ⟨-, ⟨csr, hstart⟩, -⟩ := passStart_facts s n v k
  rw [hcounts, hstart]
  exact hchain

/-! ## The command -/

/-- The conversion of the closed chain of a slot starts, and the queue of the matrix engine runs behind it. -/
theorem outputConversion_next {s : State} {n : Nat} {v : ConvOp} {c : Chain} (hconvs : (s.tile n).convs = [v])
    (hstate : (s.tile n).state ≠ tsDebug) (hwait : v.mustWait (s.tile n) = false)
    (hchain : (s.tile n).chain? v.slot = some c) :
    exec (.outputConversion n v.slot) s =
      .next (((s.setTile n { s.tile n with convs := [] }).convert n v c).drainMatrix n 8) := by
  simp [execOutputConversion, hconvs, hchain, Tile.enginesRun, hstate, hwait]

/-- Settles O25: the pass writes its elements, whatever evaluations it has counted before, and the end of the chain
zeroes its cells. -/
theorem closedChainsAreConverted : Obligations.ClosedChainsAreConverted := by
  intro n slot s v c es a o osr j hconvs hslot hmq hstate hwait hchain _ hreplays hfault helems f0 hf0 hseq hf0fault
  subst hslot
  let b := s.setTile n { a with convs := [] }
  have hb : b.tile n = { a with convs := [] } := tile_setTile_same ..
  obtain ⟨k, hend⟩ := convert_ends (s := b) (by rw [hb]; exact hchain) hreplays
    (by rw [convFault_of_chains (s := s) (by rw [hb]) (by rw [hb])]; exact hfault)
    (by rw [outElems_of_tile (s := s) (t := b) _ rfl (by rw [hb]) (by rw [hb]), hb]; exact helems)
  obtain ⟨hstart, ⟨csr, hstartTile⟩, hstartCounters⟩ := passStart_facts b n v k
  have hwrite := writesWithin_writeAt (passStart b n v k) n o.dout (es.map fun p => (p.1, Except.ok p.2)) fun _ => true
  obtain ⟨hwriteTile, -⟩ := hwrite.counts
  obtain ⟨acc, htile⟩ := hend.tile
  have htarget : SameTarget n s (passStart b n v k) :=
    ⟨(mem_of_onlyTile hstart).trans rfl, fun o ho => (hstartCounters o ho).trans (by rw [hb]; rfl)⟩
  obtain ⟨hmem, hcounters⟩ := htarget.writeAt o.dout (es.map fun p => (p.1, Except.ok p.2)) fun _ => true
  rw [hwriteTile, hstartTile, hb] at htile
  let f : InFlight := { f0 with
    replays := 0, done := true, flags := allFlags (es.map fun p => p.2), ctr := slotOf o.dout (es.map fun p => p.2) }
  refine ⟨b.convert n v c, ?_, by rw [htile], ?_, ⟨f, ?_, hseq, rfl, hf0fault, rfl, rfl, rfl⟩, fun m hm => ?_,
    fun o ho => ?_, fun x => ?_⟩
  · rw [outputConversion_next hconvs hstate hwait hchain, drainMatrix_empty (by rw [htile]; exact hmq)]
  · rw [htile]
    exact (nmap_find_erase ..).trans (if_pos rfl)
  · rw [htile]
    exact List.mem_map.mpr ⟨f0, hf0, if_pos hseq⟩
  · rw [hend.others m hm, hwrite.others m hm, hstart.2 m hm, tile_setTile, if_neg hm]
  · rw [← hcounters o ho, htile]
    rfl
  · exact (hend.bytes x).trans (congrArg (ite _ 0) (congrArg (NMap.get memDefault · x) hmem))

end Sys2Proof.Proofs
end

section
/-! PROOFS. Writes that clear counts and reads that clear what they return (spec/03_output_conversion.md R104, R110;
spec/06_memory_and_ordering.md R196, R200; spec/09_datum_time.md R289; spec/13_partitions_and_protection.md R383): first
what words set to zero one after another come to, then the counts of a Contour slot, then a field that one command
sets, then the reads. -/
namespace Sys2Proof.Proofs

open Sys2Proof Sys2Proof.Machine Sys2Proof.Claims Sys2Proof.Laws

/-! ## Words set to zero -/

theorem cleared_refl (old : Nat → W64) : Cleared (fun _ => False) old old := fun _ => ⟨False.elim, fun _ => rfl⟩

theorem cleared_trans {P Q : Nat → Prop} {old mid new : Nat → W64} (hP : Cleared P old mid) (hQ : Cleared Q mid new) :
    Cleared (fun o => P o ∨ Q o) old new := fun o => by
  by_cases hq : Q o
  · exact ⟨fun _ => (hQ o).1 hq, fun h => absurd (.inr hq) h⟩
  · rw [(hQ o).2 hq]
    exact ⟨fun h => (hP o).1 (h.resolve_right hq), fun h => (hP o).2 fun hp => h (.inl hp)⟩

theorem cleared_congr {P Q : Nat → Prop} {old new : Nat → W64} (h : Cleared P old new) (hPQ : ∀ o, P o ↔ Q o) :
    Cleared Q old new := fun o => by rw [← hPQ]; exact h o

/-- Steps that each clear words of their own, one after another. -/
theorem cleared_foldl {σ α : Type} (word : σ → Nat → W64) {f : σ → α → σ} {P : α → Nat → Prop}
    (hf : ∀ s x, Cleared (P x) (word s) (word (f s x))) (l : List α) (s : σ) :
    Cleared (fun o => ∃ x ∈ l, P x o) (word s) (word (l.foldl f s)) := by
  induction l generalizing s with
  | nil => exact cleared_congr (cleared_refl _) (by simp)
  | cons x l ih => exact cleared_congr (cleared_trans (hf s x) (ih (f s x))) (by simp)

theorem cleared_setWord (s : State) (off : Nat) : Cleared (· = off) s.word (s.setWord off 0).word := fun o =>
  ⟨fun h => by rw [word_setWord, if_pos h], fun h => by rw [word_setWord, if_neg h]⟩

theorem cleared_tileSetWord (t : Tile) (off : Nat) : Cleared (· = off) t.word (t.setWord off 0).word := fun o =>
  ⟨fun h => by rw [twrd_setWord, if_pos h], fun h => by rw [twrd_setWord, if_neg h]⟩

/-- Steps that change device registers alone, one after another. -/
theorem csrOnly_foldl {α : Type} {f : State → α → State} (hf : ∀ s x, f s x = { s with csr := (f s x).csr })
    (l : List α) (s : State) : l.foldl f s = { s with csr := (l.foldl f s).csr } :=
  List.foldlRecOn (motive := fun t : State => t = { s with csr := t.csr }) _ _ rfl fun t ht x _ =>
    (hf t x).trans (by rw [ht])

/-- Steps that change registers of a tile alone, one after another. -/
theorem tileCsrOnly_foldl {α : Type} {f : Tile → α → Tile} (hf : ∀ t x, f t x = { t with csr := (f t x).csr })
    (l : List α) (t : Tile) : l.foldl f t = { t with csr := (l.foldl f t).csr } :=
  List.foldlRecOn (motive := fun u : Tile => u = { t with csr := u.csr }) _ _ rfl fun u hu x _ =>
    (hf u x).trans (by rw [hu])

/-! ## Contour slots and format counters -/

/-- The words that hold the 69 counts of a Contour slot (Table 3.2). -/
def slotWords (slot : Nat) : List Nat :=
  (List.range 32).map (fun j => Csr.cfgCtrBin slot j) ++ [Csr.cfgCtrZn slot, Csr.cfgCtrSf slot, Csr.cfgCtrElem slot]

theorem mem_slotWords (slot o : Nat) : o ∈ slotWords slot ↔
    (∃ j < 32, o = Csr.cfgCtrBin slot j) ∨ o = Csr.cfgCtrZn slot ∨ o = Csr.cfgCtrSf slot ∨ o = Csr.cfgCtrElem slot := by
  simp [slotWords, eq_comm]

theorem cleared_slotWords (t : Tile) (slot : Nat) : Cleared (· ∈ slotWords slot) t.word
    ((slotWords slot).foldl (fun t o => t.setWord o 0) t).word :=
  cleared_congr (cleared_foldl Tile.word cleared_tileSetWord (slotWords slot) t) (by simp)

theorem clearCounts_eq (t : Tile) (slot : Nat) : t.clearCounts slot =
    ((slotWords slot).foldl (fun t o => t.setWord o 0) t).setFld (Csr.cfgCtrSts_sat_any slot) 0 := rfl

theorem clearCounts_frame (t : Tile) (slot : Nat) :
    t.clearCounts slot = { t with csr := (t.clearCounts slot).csr } := by
  have h := tileCsrOnly_foldl (f := fun t o => t.setWord o 0) (fun _ _ => rfl) (slotWords slot) t
  rw [clearCounts_eq, Tile.setFld, Tile.setWord, h]

/-- HIST READ with clr clears the words of the slot's counts, and besides them sat_any alone (R104, R271). -/
theorem word_clearCounts (t : Tile) {slot o : Nat} (ho : o ≠ Csr.cfgCtrSts slot) :
    (t.clearCounts slot).word o = if o ∈ slotWords slot then 0 else t.word o := by
  rw [clearCounts_eq, twrd_setFld_other _ _ _ _ ho]
  split
  · next h => exact (cleared_slotWords t slot o).1 h
  · next h => exact (cleared_slotWords t slot o).2 h

theorem clearSlot_frame (t : Tile) (slot : Nat) : t.clearSlot slot = { t with csr := (t.clearSlot slot).csr } := by
  rw [Tile.clearSlot, Tile.setWord, clearCounts_frame]

/-- A slot cleared whole: its counts and its status (R104, R105). -/
theorem cleared_clearSlot (t : Tile) (slot : Nat) :
    Cleared (fun o => o ∈ slotWords slot ∨ o = Csr.cfgCtrSts slot) t.word (t.clearSlot slot).word := fun o => by
  rw [Tile.clearSlot, twrd_setWord]
  by_cases ho : o = Csr.cfgCtrSts slot
  · simp [ho]
  · rw [if_neg ho, word_clearCounts t ho]
    simp only [ho, or_false]
    exact ⟨fun h => if_pos h, fun h => if_neg h⟩

theorem cfgCtrClr_clears (n slot : Nat) (v : W64) (s : State) (hn : n < 2048) (hslot : slot < 16) :
    ∃ t, exec (.cfgCtrClr n slot v) s = .next t ∧ s.OnlyTile n t ∧ t.tile n = { s.tile n with csr := (t.tile n).csr } ∧
      Cleared (fun o => v.getLsbD 0 = true ∧ ((∃ j < 32, o = Csr.cfgCtrBin slot j) ∨ o = Csr.cfgCtrZn slot ∨
        o = Csr.cfgCtrSf slot ∨ o = Csr.cfgCtrElem slot ∨ o = Csr.cfgCtrSts slot)) (s.tile n).word (t.tile n).word := by
  refine ⟨s.updTile n fun t => t.writeCtrClr slot v, by simp [execCfgCtrClr, hn, hslot], onlyTile_updTile .., ?_⟩
  rw [tile_updTile_same, Tile.writeCtrClr, bit]
  by_cases hv : v.getLsbD 0 = true
  · rw [if_pos hv]
    refine ⟨clearSlot_frame .., cleared_congr (cleared_clearSlot _ _) fun o => ?_⟩
    simp only [mem_slotWords, or_assoc, hv, true_and]
  · rw [if_neg hv]
    exact ⟨rfl, cleared_congr (cleared_refl _) fun o => by simp only [hv, Bool.false_eq_true, false_and]⟩

/-- The counters of one format cleared (R110). -/
def clearFmt (t : Tile) (f : Nat) : Tile := (t.setWord (Csr.cfgFmtcOvf f) 0).setWord (Csr.cfgFmtcUnf f) 0

theorem cfgFmtcClr_clears (n : Nat) (v : W64) (s : State) (hn : n < 2048) :
    ∃ t, exec (.cfgFmtcClr n v) s = .next t ∧ s.OnlyTile n t ∧ t.tile n = { s.tile n with csr := (t.tile n).csr } ∧
      Cleared (fun o => ∃ f < 16, v.getLsbD f = true ∧ (Fmt.ofCode f).isSome ∧
        (o = Csr.cfgFmtcOvf f ∨ o = Csr.cfgFmtcUnf f)) (s.tile n).word (t.tile n).word := by
  have hclear (t : Tile) (f : Nat) :
      Cleared (fun o => o = Csr.cfgFmtcOvf f ∨ o = Csr.cfgFmtcUnf f) t.word (clearFmt t f).word :=
    cleared_trans (cleared_tileSetWord t _) (cleared_tileSetWord _ _)
  refine ⟨s.updTile n fun t => t.writeFmtcClr v, by simp [execCfgFmtcClr, hn], onlyTile_updTile .., ?_⟩
  rw [tile_updTile_same]
  refine ⟨tileCsrOnly_foldl (f := clearFmt) (fun _ _ => rfl) _ _,
    cleared_congr (cleared_foldl Tile.word hclear _ _) fun o => ?_⟩
  simp only [List.mem_filter, List.mem_range, bit, Bool.and_eq_true, and_assoc]

/-! ## Timers of partitions -/

theorem dtmPtClr_clears (v : W64) (s : State) : ∃ t, exec (.dtmPtClr v) s = .next t ∧ Zeroes
    (fun o => ∃ p < 32, v.getLsbD p = true ∧ ∃ k < 16, o = Csr.dtmPtCycles p k ∨ o = Csr.dtmPtTicks p k) s t := by
  have hslot (p : Nat) (s : State) (k : Nat) : Cleared (fun o => o = Csr.dtmPtCycles p k ∨ o = Csr.dtmPtTicks p k)
      s.word ((s.setWord (Csr.dtmPtCycles p k) 0).setWord (Csr.dtmPtTicks p k) 0).word :=
    cleared_trans (cleared_setWord s _) (cleared_setWord _ _)
  refine ⟨s.clearPhases v, rfl, csrOnly_foldl (fun s p => csrOnly_foldl (fun _ _ => rfl) _ s) _ s,
    cleared_congr (cleared_foldl State.word (fun s p => cleared_foldl State.word (hslot p) _ s) _ s) fun o => ?_⟩
  simp only [List.mem_filter, List.mem_range, bit, and_assoc]

theorem pwrThrClr_clears (p : Nat) (v : W64) (s : State) (hp : p < 32) : ∃ t, exec (.pwrThrClr p v) s = .next t ∧
    Zeroes (fun o => v.getLsbD 0 = true ∧ ∃ k < 5, o = Csr.pwrThrTicks p k ∨ o = Csr.pwrThrCycles p k) s t := by
  have hreason (s : State) (k : Nat) : Cleared (fun o => o = Csr.pwrThrTicks p k ∨ o = Csr.pwrThrCycles p k)
      s.word ((s.setWord (Csr.pwrThrTicks p k) 0).setWord (Csr.pwrThrCycles p k) 0).word :=
    cleared_trans (cleared_setWord s _) (cleared_setWord _ _)
  refine ⟨s.clearReasons p v, by simp [execPwrThrClr, hp], ?_⟩
  rw [State.clearReasons, bit]
  by_cases hv : v.getLsbD 0 = true
  · rw [if_pos hv]
    refine ⟨csrOnly_foldl (fun _ _ => rfl) _ s, cleared_congr (cleared_foldl State.word hreason _ s) fun o => ?_⟩
    simp only [List.mem_range, hv, true_and]
  · rw [if_neg hv]
    exact ⟨rfl, cleared_congr (cleared_refl _) fun o => by simp only [hv, Bool.false_eq_true, false_and]⟩

/-! ## One field set -/

theorem sets_setFld (s : State) {f : Fld} (v : Nat) (hf : f.lo + f.w ≤ 64) : Sets [(f, v)] s (s.setFld f v) := by
  refine ⟨rfl, by simpa using fld_setFld_same s f v hf, fun o b hb => ?_⟩
  obtain ho | hout : o ≠ f.off ∨ (b < f.lo ∨ f.lo + f.w ≤ b) := hb _ List.mem_cons_self
  · rw [word_setFld_other s f v o ho]
  · by_cases ho : o = f.off
    · have hbits := bits_put_other (s.word o) f.lo f.w v b 1 hf (by omega)
      simpa [bits_one_eq_bit, bit, State.setFld, word_setWord, ho] using congrArg (· == 1) hbits
    · rw [word_setFld_other s f v o ho]

theorem memTtClr_sets (p : Nat) (v : W64) (s : State) (hp : p < 32) : ∃ t, exec (.memTtClr p v) s = .next t ∧
    if v.getLsbD 31 then Sets [(Csr.memTt_high_water p, s.fld (Csr.memTt_in_use p))] s t else t = s := by
  refine ⟨s.ttClear p v, by simp [execMemTtClr, hp], ?_⟩
  rw [State.ttClear, bit]
  split
  · exact sets_setFld s _ (by simp)
  · rfl

/-! ## Reads that clear -/

theorem halfBytes_eq (h : Half) (w : W64) : halfBytes h w = match h with
    | .full => toBytes 8 w.toNat
    | .lower => toBytes 4 (w.toNat % 2 ^ 32)
    | .upper => toBytes 4 (w.toNat / 2 ^ 32) := by
  cases h with
  | full => rfl
  | lower => simp [halfBytes, bits, field]
  | upper =>
    have hlt : w.toNat / 2 ^ 32 < 2 ^ 32 := by have := w.isLt; omega
    simp only [halfBytes, bits, field, Nat.mod_eq_of_lt hlt]

/-- Block `s` after the read of a register of field `f` has answered, its mark `mark` taken unless the half is `kept`.
-/
def answered (f : Fld) (mark : State → NMap Bool) (kept h : Half) (s : State) : State :=
  { s with
    out := s.out ++ [.data (halfBytes h (s.word f.off))]
    overflowed := if h = kept then s.overflowed else mark s }

/-- A read that answers the register's bytes and, but for one half, clears its count and the mark that goes with it. -/
theorem readClears_of_exec {c : Half → Instr} {f : Fld} {mark : State → NMap Bool} {kept : Half}
    (hf : f.lo + f.w ≤ 64)
    (hexec : ∀ (h : Half) (s : State), s.frozen = false → exec (c h) s = .next (
      if h = kept then answered f mark kept h s else (answered f mark kept h s).setFld f 0)) :
    ReadClears c f mark kept := by
  intro h s hrun
  refine ⟨_, answered f mark kept h s, hexec h s hrun, ?_, ?_⟩
  · exact congrArg (fun bs => ({ s with out := s.out ++ [.data bs], overflowed := _ } : State)) (halfBytes_eq h _)
  · split
    · rfl
    · exact sets_setFld _ 0 hf

theorem pevqLostRead_clears (p : Nat) (hp : p < 32) : ReadClears (.pevqLostRead p) (Csr.memPevqLost_lost p)
    (fun s => NMap.set (fun _ => false) s.overflowed p false) .upper := by
  refine readClears_of_exec (by simp) fun h s hrun => ?_
  simp only [exec_pevqLostRead, execPevqLostRead, hp, if_true, State.emit, hrun, Bool.false_eq_true, if_false,
    State.readPevqLost]
  by_cases hhalf : h = .upper
  · simp only [hhalf, answered, if_true]
  · simp only [hhalf, answered, if_false]
    rfl

theorem mevqLostRead_clears : ReadClears .mevqLostRead Csr.memMevqLost_lost
    (fun s => NMap.set (fun _ => false) s.overflowed 32 false) .upper := by
  refine readClears_of_exec (by decide) fun h s hrun => ?_
  simp only [exec_mevqLostRead, execMevqLostRead, State.emit, hrun, Bool.false_eq_true, if_false, State.readMevqLost]
  by_cases hhalf : h = .upper
  · simp only [hhalf, answered, if_true]
  · simp only [hhalf, answered, if_false]
    rfl

theorem prtDenyRead_clears : ReadClears .prtDenyRead Csr.prtDeny_count (fun s => s.overflowed) .lower := by
  refine readClears_of_exec (by decide) fun h s hrun => ?_
  simp only [exec_prtDenyRead, execPrtDenyRead, State.emit, hrun, Bool.false_eq_true, if_false, State.readDeny]
  by_cases hhalf : h = .lower <;> simp only [hhalf, answered, if_true, if_false]

/-- Settles O36: each write and each read clears words or one field of its own. -/
theorem countsAreClearedWhole : Obligations.CountsAreClearedWhole :=
  ⟨cfgCtrClr_clears, cfgFmtcClr_clears, memTtClr_sets, dtmPtClr_clears, pwrThrClr_clears, pevqLostRead_clears,
    mevqLostRead_clears, prtDenyRead_clears⟩

end Sys2Proof.Proofs
end

section
/-! PROOFS. T-class instructions of the engines besides the matrix engine, from their command to their end
(spec/07_nolpa_programming.md R209, R211, R225; spec/08_nolpa_tensor_reference.md R245): first what the issue leaves of
the tile, then the start in an engine, then what an engine that has written its results leaves. -/
namespace Sys2Proof.Proofs

open Sys2Proof Sys2Proof.Machine Sys2Proof.Claims Sys2Proof.Laws

/-! ## Moving past an instruction -/

theorem pcNext_eq_nextPc (t : Tile) (w : W64) : pcNext t.pc w = nextPc t w := by
  have hx : isX w = true ↔ fOp w = 0xF0 ∨ fOp w = 0xF1 ∨ fOp w = 0xF2 := by
    simp only [isX, Bool.and_eq_true, decide_eq_true_eq]; omega
  simp only [pcNext, nextPc, hx]

section
variable {t : Tile} (hstate : t.state = tsRunning) (hwait : t.wait = .none) (hhalt : t.haltReq = false) (pc : Nat)
include hstate hwait hhalt

theorem advance_frame : t.advance pc = { t with
    csr := (t.advance pc).csr, dbgFrom := (t.advance pc).dbgFrom, pc := pc, bpPassed := false, stepping := false } := by
  rw [advance_cases t pc hstate hwait hhalt]
  cases t
  dsimp only at hwait hhalt
  subst hwait hhalt
  split
  · rfl
  · next h => simpa using h

theorem word_advance {o : Nat} (ho : o ∉ [Csr.tcInstret, Csr.tcStatus, Csr.tcDbgSts]) :
    (t.advance pc).word o = t.word o := by
  simp only [List.mem_cons, List.not_mem_nil, or_false, not_or] at ho
  obtain ⟨hinstret, hstatus, hdbg⟩ := ho
  rw [advance_cases t pc hstate hwait hhalt]
  split
  · rw [enterDebug_word _ _ _ hstatus hdbg]
    exact (twrd_setWord ..).trans (if_neg hinstret)
  · exact (twrd_setWord ..).trans (if_neg hinstret)

theorem instret_advance : (t.advance pc).word Csr.tcInstret = t.word Csr.tcInstret + 1 := by
  rw [advance_cases t pc hstate hwait hhalt]
  split
  · rw [enterDebug_word _ _ _ (by decide) (by decide)]
    exact (twrd_setWord ..).trans (if_pos rfl)
  · exact (twrd_setWord ..).trans (if_pos rfl)

theorem state_advance : (t.advance pc).state = if t.stepping then tsDebug else tsRunning := by
  rw [advance_cases t pc hstate hwait hhalt]
  split
  · exact enterDebug_state ..
  · rw [← hstate]
    exact congrArg (bits · _ _) ((twrd_setWord ..).trans (if_neg (by decide)))

end

/-! ## The issue -/

theorem newFlight_setTile_ibuf (s : State) (n seq : Nat) (w : W64) (b : List IbufLine) :
    (s.setTile n { s.tile n with ibuf := b }).newFlight n seq w = s.newFlight n seq w := by
  simp only [State.newFlight, tile_setTile_same]
  rfl

theorem mustWait_setTile_ibuf (s : State) (n : Nat) (o : TOp) (b : List IbufLine) :
    (s.setTile n { s.tile n with ibuf := b }).mustWait n o = s.mustWait n o := by
  simp only [State.mustWait, State.convSlots, tile_setTile_same, State.osrBytes, bytes_of_mem (setTile_mem s n _)]
  rfl

theorem top_setTile_ibuf (s : State) (n : Nat) (i : Issue) (b : List IbufLine) :
    (s.setTile n { s.tile n with ibuf := b }).top n i = s.top n i := by
  simp only [State.top, tile_setTile_same]
  rfl

@[simp] theorem top_issue (s : State) (n : Nat) (i : Issue) : (s.top n i).issue = i := rfl

@[simp] theorem top_seq (s : State) (n : Nat) (i : Issue) : (s.top n i).seq = (s.tile n).seq := rfl

/-- An instruction reads the d and s registers as they stood at its issue (R209). -/
@[simp] theorem top_core_d (s : State) (n : Nat) (i : Issue) (t : Tile) (r : Nat) :
    ((s.top n i).core t).d r = (s.tile n).d r := rfl

@[simp] theorem top_core_s (s : State) (n : Nat) (i : Issue) (t : Tile) (r : Nat) :
    ((s.top n i).core t).s r = (s.tile n).s r := rfl

/-- Block `u` is `s` after the issue of a T-class instruction: it stands in its engine and is not performed yet, its
token is busy, and the core has gone on (R211, R225). -/
structure Entered (i : Issue) (s u : State) : Prop where
  only : s.OnlyTile i.tile u
  tile : u.tile i.tile = { s.tile i.tile with
    csr := (u.tile i.tile).csr, ibuf := (u.tile i.tile).ibuf, dbgFrom := (u.tile i.tile).dbgFrom
    kreg := (u.tile i.tile).kreg
    inflight := (s.tile i.tile).inflight ++ [s.newFlight i.tile (s.tile i.tile).seq i.word]
    pc := nextPc (s.tile i.tile) i.word, bpPassed := false, stepping := false, seq := (s.tile i.tile).seq + 1 }
  token : ∀ k, (u.tile i.tile).k k = if k = fA i.word ∧ k ≠ 0 then 1 else (s.tile i.tile).k k
  instret : (u.tile i.tile).word Csr.tcInstret = (s.tile i.tile).word Csr.tcInstret + 1
  state : (u.tile i.tile).state = if (s.tile i.tile).stepping then tsDebug else tsRunning
  words : ∀ o, o ∉ [Csr.tcInstret, Csr.tcStatus, Csr.tcDbgSts] → (u.tile i.tile).word o = (s.tile i.tile).word o

section
variable {i : Issue} {s u : State} (h : Entered i s u)
include h

theorem Entered.chains : (u.tile i.tile).chains = (s.tile i.tile).chains := by rw [h.tile]

theorem Entered.srf : (u.tile i.tile).srf = (s.tile i.tile).srf := by rw [h.tile]

theorem Entered.dreg : (u.tile i.tile).dreg = (s.tile i.tile).dreg := by rw [h.tile]

end

theorem entered_enter {s : State} {i : Issue} (h : s.Issues i) (b : List IbufLine) :
    Entered i s ((s.setTile i.tile { s.tile i.tile with ibuf := b }).enter i.tile i.word) := by
  obtain ⟨hstate, hwait, hhalt⟩ := canIssue_wait _ h.2.1
  let x := ({ s.tile i.tile with ibuf := b } : Tile).setK (fA i.word) 1
  have hcsr : x.csr = (s.tile i.tile).csr := tile_setK_csr ..
  have hword (o : Nat) : x.word o = (s.tile i.tile).word o := by unfold Tile.word; rw [hcsr]
  have hxstate : x.state = tsRunning := hstate ▸ congrArg (bits · _ _) (hword _)
  have hxwait : x.wait = .none := (tile_setK_wait ..).trans hwait
  have hxhalt : x.haltReq = false := (tile_setK_haltReq ..).trans hhalt
  have hxstep : x.stepping = (s.tile i.tile).stepping := tile_setK_stepping ..
  have htile : ((s.setTile i.tile { s.tile i.tile with ibuf := b }).enter i.tile i.word).tile i.tile =
      { x.advance (nextPc (s.tile i.tile) i.word) with
        seq := (s.tile i.tile).seq + 1
        inflight := (s.tile i.tile).inflight ++ [s.newFlight i.tile (s.tile i.tile).seq i.word] } := by
    rw [State.enter, tile_updTile_same, newFlight_setTile_ibuf, tile_setTile_same]
    simp only [pcNext_eq_nextPc]
    rfl
  constructor
  case only => exact onlyTile_trans (onlyTile_setTile ..) (onlyTile_enter ..)
  case tile =>
    rw [htile, advance_frame hxstate hxwait hxhalt]
    simp [x]
  case token =>
    intro k
    have hk : (x.advance (nextPc (s.tile i.tile) i.word)).k k = x.k k := by
      unfold Tile.k; rw [tile_advance_kreg]
    rw [htile]
    refine hk.trans ((k_setK ..).trans (if_congr ?_ rfl rfl))
    exact and_congr_right fun hkey => by rw [hkey]
  case instret => rw [htile]; exact (instret_advance hxstate hxwait hxhalt _).trans (by rw [hword])
  case state => rw [htile]; exact (state_advance hxstate hxwait hxhalt _).trans (by rw [hxstep])
  case words => intro o ho; rw [htile]; exact (word_advance hxstate hxwait hxhalt _ ho).trans (hword o)

/-- A T-class instruction that nothing keeps in its engine's queue starts with its issue. -/
theorem issueE_starts {s : State} {i : Issue} (h : Starts s i) {isRow : W64 → Bool} (hrow : isRow i.word = true)
    (mark run : State → Nat → TOp → State) : ∃ u, Entered i s u ∧ issueE i isRow mark run s =
      .next (run (mark u i.tile (s.top i.tile i)) i.tile (s.top i.tile i)) := by
  obtain ⟨hissue, hwait⟩ := h
  obtain ⟨b, hnext⟩ := issueE_next i isRow mark run s hissue hrow
  refine ⟨_, entered_enter hissue b, hnext.trans ?_⟩
  simp only [top_setTile_ibuf, mustWait_setTile_ibuf, hwait, Bool.false_eq_true, if_false]

/-! ## The end -/

/-- Block `v` is `u` after `k` evaluations have been counted into RNG_TILE_EVAL. -/
structure Evaluated (n k : Nat) (u v : State) : Prop where
  only : u.OnlyTile n v
  tile : v.tile n = { u.tile n with csr := (v.tile n).csr }
  evals : (v.tile n).fld Csr.rngTileEval_evals = min (2 ^ 48 - 1) ((u.tile n).fld Csr.rngTileEval_evals + k)
  words : ∀ o, o ≠ Csr.rngTileEval → (v.tile n).word o = (u.tile n).word o

theorem evaluated_countEvals (u : State) (n k : Nat) : Evaluated n k u (u.countEvals n k) := by
  constructor
  case only => exact onlyTile_updTile ..
  case tile => rw [State.countEvals, tile_updTile_same]; rfl
  case evals =>
    rw [State.countEvals, tile_updTile_same, Tile.addFld, tfld_setFld_same _ _ _ (by decide)]
    exact Nat.mod_eq_of_lt (by simp only; omega)
  case words =>
    intro o ho
    rw [State.countEvals, tile_updTile_same]
    exact twrd_setFld_other _ _ _ _ ho

/-- An instruction that has issued, has counted its evaluations and has written its results within memory and the
counters is done. -/
theorem engineDone_of_writes {i : Issue} {s u v w : State} {k : Nat} {W : Nat → Prop} (hent : Entered i s u)
    (hev : Evaluated i.tile k u v) (hw : WritesWithin i.tile W v w) (fl : Flags) (ctr : Option Nat) :
    EngineDone s (w.done i.tile (s.tile i.tile).seq fl ctr) i fl ctr k := by
  have hwtile : w.tile i.tile = { u.tile i.tile with csr := (w.tile i.tile).csr } :=
    hw.counts.1.trans (by rw [hev.tile])
  have htile : (w.done i.tile (s.tile i.tile).seq fl ctr).tile i.tile = { w.tile i.tile with
      inflight := (w.tile i.tile).inflight.map fun x =>
        if x.seq = (s.tile i.tile).seq then { x with done := true, flags := fl, ctr := ctr } else x } :=
    tile_updTile_same ..
  have hflight : (w.tile i.tile).inflight =
      (s.tile i.tile).inflight ++ [s.newFlight i.tile (s.tile i.tile).seq i.word] := by rw [hwtile, hent.tile]
  have hword (o : Nat) (ho : o < 0xD000) (hne : o ≠ Csr.rngTileEval) :
      (w.tile i.tile).word o = (u.tile i.tile).word o := (hw.counts.2 o ho).trans (hev.words o hne)
  have hblock : w = { s with mem := w.mem, ueWords := w.ueWords, tiles := w.tiles } :=
    hw.block.trans (by rw [hev.only.1, hent.only.1])
  refine ⟨?_, fun m hm => ?_, ?_, fun k => ?_, ?_, fun f hf hseq => ?_, ?_, ?_, ?_, fun o ho hother => ?_⟩
  · show { w with tiles := _ } = _
    rw [hblock]; rfl
  · rw [(onlyTile_done w ..).2 m hm, hw.others m hm, hev.only.2 m hm, hent.only.2 m hm]
  · rw [htile, hwtile, hent.tile]
  · rw [← hent.token k, htile, hwtile]; rfl
  · rw [htile, hflight]
    exact List.mem_map.mpr ⟨_, List.mem_append_right _ List.mem_cons_self, if_pos rfl⟩
  · rw [htile, hflight]
    exact List.mem_map.mpr ⟨f, List.mem_append_left _ hf, if_neg hseq⟩
  · rw [htile, ← hent.instret]; exact hword _ (by decide) (by decide)
  · have hfld : (u.tile i.tile).fld Csr.rngTileEval_evals = (s.tile i.tile).fld Csr.rngTileEval_evals :=
      congrArg (bits · _ _) (hent.words _ (by decide))
    rw [htile, ← hfld, ← hev.evals]
    exact congrArg (bits · _ _) (hw.counts.2 _ (by decide))
  · rw [htile, ← hent.state]; exact congrArg (bits · _ _) (hword _ (by decide) (by decide))
  · simp only [List.mem_cons, List.not_mem_nil, or_false, not_or] at hother
    rw [htile]
    exact (hword o ho hother.2.2.2).trans (hent.words o (by simp [hother]))

theorem sameTarget_of_entered {i : Issue} {s u v : State} {k : Nat} (hent : Entered i s u)
    (hev : Evaluated i.tile k u v) : SameTarget i.tile s v := by
  refine ⟨(mem_of_onlyTile hev.only).trans (mem_of_onlyTile hent.only), fun o ho => ?_⟩
  have hlow : ∀ r ∈ [Csr.tcInstret, Csr.tcStatus, Csr.tcDbgSts, Csr.rngTileEval], r < 0xD000 := by decide
  rw [hev.words o fun h => absurd (hlow o (by simp [h])) (by omega),
    hent.words o fun h => absurd (hlow o (List.mem_append_left [Csr.rngTileEval] h)) (by omega)]

theorem word_done (w : State) (n seq : Nat) (fl : Flags) (ctr : Option Nat) (o : Nat) :
    ((w.done n seq fl ctr).tile n).word o = (w.tile n).word o := by
  rw [State.done, State.updFlight, tile_updTile_same]
  rfl

theorem asIn_done {n : Nat} {s w : State} (h : SameTarget n s w) (seq : Nat) (fl : Flags) (ctr : Option Nat) :
    AsIn (w.done n seq fl ctr) n s := ⟨h.1, fun o ho => (word_done ..).trans (h.2 o ho)⟩

theorem srf_evaluated {i : Issue} {s u v : State} {k : Nat} (hent : Entered i s u) (hev : Evaluated i.tile k u v) :
    (v.tile i.tile).srf = (s.tile i.tile).srf := by rw [hev.tile, ← hent.srf]

/-! ## Elements and masks written -/

/-- Elements in linear order are elements at the indices of their order (R207). -/
theorem writeElems_eq_writeAt (s : State) (n : Nat) (d : Desc) (rs : List (Except Nat ElemRes)) (sel : Nat → Bool) :
    s.writeElems n d rs sel = s.writeAt n d (rs.zipIdx.map fun p => (coords d.ext p.2, p.1)) sel := by
  have hidx : (rs.zipIdx.map fun p => (coords d.ext p.2, p.1)).zipIdx =
      rs.zipIdx.map fun p => ((coords d.ext p.2, p.1), p.2) := by
    apply List.ext_getElem <;> simp
  rw [State.writeAt, hidx, List.foldl_map]
  rfl

/-- An instruction of a tile after its evaluations writes elements without a fault (R225). -/
theorem runElems_wroteElems {i : Issue} {s u v : State} {k : Nat} (hent : Entered i s u)
    (hev : Evaluated i.tile k u v) (tok : Nat) (d : Desc) (rs : List ElemRes) :
    WroteElems s (v.runElems i.tile (s.tile i.tile).seq tok d .ok (rs.map Except.ok)) i d rs k := by
  have hrun : v.runElems i.tile (s.tile i.tile).seq tok d .ok (rs.map Except.ok) =
      (v.writeElems i.tile d (rs.map Except.ok) fun _ => true).done i.tile (s.tile i.tile).seq (allFlags rs)
        (slotOf d rs) := by
    simp [State.runElems, State.detectT, resFault_ok, resFlags_ok, countedSlot_ok]
  rw [hrun]
  refine ⟨engineDone_of_writes hent hev (writesWithin_writeElems ..) _ _, asIn_done ?_ _ _ _⟩
  rw [writeElems_eq_writeAt, writeElems_eq_writeAt]
  exact (sameTarget_of_entered hent hev).writeAt d _ _

/-- Bits of a mask written one after another. -/
def writeMask (s : State) (base : Nat) (bs : List (Bool × Flags)) : State :=
  bs.zipIdx.foldl (fun u p => u.setMaskBit base p.2 p.1.1) s

theorem writesWithin_writeMask (s : State) (n base : Nat) (bs : List (Bool × Flags)) :
    WritesWithin n (fun _ => True) s (writeMask s base bs) :=
  List.foldlRecOn (motive := WritesWithin n (fun _ => True) s) _ _ (.refl ..) fun _ hu _ _ =>
    hu.trans ⟨rfl, fun _ _ => rfl, .refl _, fun _ hx => absurd trivial hx⟩

theorem SameTarget.writeMask {n : Nat} {s t : State} (h : SameTarget n s t) (base : Nat) (bs : List (Bool × Flags)) :
    SameTarget n (writeMask s base bs) (writeMask t base bs) :=
  List.foldl_rel h fun p _ u u' hu => by
    refine ⟨?_, hu.2⟩
    simp only [State.setMaskBit, State.store, State.writeBytes, load_of_mem hu.1, hu.1]

/-- An instruction of a tile after its evaluations writes a mask (R247). -/
theorem runMask_wroteMask {i : Issue} {s u v : State} {k : Nat} (hent : Entered i s u)
    (hev : Evaluated i.tile k u v) (tok base : Nat) (bs : List (Bool × Flags)) :
    WroteMask s (v.runMask i.tile (s.tile i.tile).seq tok base .ok bs) i base bs k := by
  have hrun : v.runMask i.tile (s.tile i.tile).seq tok base .ok bs =
      (Proofs.writeMask v base bs).done i.tile (s.tile i.tile).seq (bs.foldl (fun f b => f.or b.2) {}) none := by
    simp [State.runMask, State.detectT, Proofs.writeMask]
  rw [hrun]
  exact ⟨engineDone_of_writes hent hev (writesWithin_writeMask ..) _ _,
    asIn_done ((sameTarget_of_entered hent hev).writeMask base bs) _ _ _⟩

end Sys2Proof.Proofs
end

section
/-! PROOFS. The block Hadamard rotation and the fills from Bearing streams (spec/03_output_conversion.md R99 to R101;
spec/08_nolpa_tensor_reference.md R265, R270): first what they read of the block, then each of them performed. -/
namespace Sys2Proof.Proofs

open Sys2Proof Sys2Proof.Machine Sys2Proof.Claims Sys2Proof.Laws

/-! ## What a rotation reads -/

/-- The blocks of a HAD read memory, and of the tile its scales. -/
theorem hadBlocks_of_srf {s t : State} {n : Nat} (hmem : t.mem = s.mem) (hsrf : (t.tile n).srf = (s.tile n).srf)
    (h : HadArgs) (seed : W64) : h.blocks t n seed = h.blocks s n seed := by
  have hinput : h.input t n = h.input s n := funext fun c => by
    simp only [HadArgs.input, elem_of_mem hmem, elemScale_of_srf hsrf]
  have hblock : h.block t n seed = h.block s n seed := funext fun c => funext fun b => by
    simp only [HadArgs.block, hinput, elemScale_of_srf hsrf]
  simp only [HadArgs.blocks, hblock]

/-! ## HAD -/

/-- A HAD whose blocks have no fault writes them, one evaluation for each block index (R265). -/
theorem startHad_writes {s u : State} {i : Issue} (hent : Entered i s u) (hecc : i.ecc = .ok) {h : HadArgs}
    (hargs : h = HadArgs.ofWord (s.tile i.tile) i.word) (hcheck : h.check s i.tile = none) {seed : W64}
    (hseed : s.resolve (partOf i.tile) h.tid h.sid = some seed) {rs : List (List Nat × ElemRes)}
    (hblocks : h.blocks s i.tile seed = rs.map fun p => (p.1, Except.ok p.2)) :
    u.startHad i.tile (s.top i.tile i) =
      ((u.countEvals i.tile (h.ds.n h.dim / 2 ^ h.k)).writeAt i.tile h.dd (rs.map fun p => (p.1, Except.ok p.2))
        fun _ => true).done i.tile (s.tile i.tile).seq (allFlags (rs.map fun p => p.2))
        (slotOf h.dd (rs.map fun p => p.2)) := by
  have hofWord : HadArgs.ofWord ((s.top i.tile i).core (u.tile i.tile)) i.word = h := hargs ▸ rfl
  have hcheck' : h.check u i.tile = none := (checkOpnds_of_chains hent.only hent.chains ..).trans hcheck
  have hseed' : u.seedOf i.tile (s.top i.tile i).rng h.tid h.sid = some seed :=
    (seedOf_of_onlyTile hent.only ..).trans hseed
  have hblocks' : h.blocks u i.tile seed = rs.map fun p => (p.1, Except.ok p.2) :=
    (hadBlocks_of_srf (mem_of_onlyTile hent.only) hent.srf h seed).trans hblocks
  have hresults : (rs.map fun p => (p.1, (Except.ok p.2 : Except Nat ElemRes))).map (fun r => r.2) =
      (rs.map fun p => p.2).map Except.ok := by simp
  unfold State.startHad
  simp only [top_issue, top_seq, hofWord, hcheck', hseed', hblocks', hecc, State.detectT, hresults, resFault_ok,
    resFlags_ok, countedSlot_ok, Bool.false_eq_true, if_false]

/-- A HAD from its command on: its blocks stand in memory with their counts, and it is done. -/
theorem had_rotates {i : Issue} {s : State} (hstarts : Starts s i) (hop : fOp i.word = 0x94) (hecc : i.ecc = .ok)
    {h : HadArgs} (hargs : h = HadArgs.ofWord (s.tile i.tile) i.word) (hcheck : h.check s i.tile = none) {seed : W64}
    (hseed : s.resolve (partOf i.tile) h.tid h.sid = some seed) {rs : List (List Nat × ElemRes)}
    (hblocks : h.blocks s i.tile seed = rs.map fun p => (p.1, Except.ok p.2)) :
    ∃ t, exec (.had i) s = .next t ∧
      EngineDone s t i (allFlags (rs.map fun p => p.2)) (slotOf h.dd (rs.map fun p => p.2))
        (h.ds.n h.dim / 2 ^ h.k) ∧
      AsIn t i.tile (s.writeAt i.tile h.dd (rs.map fun p => (p.1, Except.ok p.2)) fun _ => true) := by
  obtain ⟨u, hent, hnext⟩ := issueE_starts hstarts (isRow := fun w => fOp w == 0x94) (by simp [hop])
    (fun s _ _ => s) State.startHad
  have hev := evaluated_countEvals u i.tile (h.ds.n h.dim / 2 ^ h.k)
  rw [startHad_writes hent hecc hargs hcheck hseed hblocks] at hnext
  exact ⟨_, hnext, engineDone_of_writes hent hev (writesWithin_writeAt ..) _ _,
    asIn_done ((sameTarget_of_entered hent hev).writeAt ..) _ _ _⟩

/-! ## RNG -/

/-- An RNG of its word's mode issues and starts, and finds the seed of its stream (R270). -/
theorem issueRng_starts {i : Issue} {s : State} (hstarts : Starts s i) (hop : fOp i.word = 0xA0) {mode : Nat}
    (hmode : bits i.word 0 2 = mode) {tid sid : Nat} {seed : W64}
    (hseed : s.resolve (partOf i.tile) tid sid = some seed) :
    ∃ u, Entered i s u ∧ u.seedOf i.tile (s.top i.tile i).rng tid sid = some seed ∧
      issueRng mode i s = .next (u.startRng i.tile (s.top i.tile i)) := by
  obtain ⟨u, hent, hnext⟩ := issueE_starts hstarts (isRow := fun w => fOp w == 0xA0 && fl w 0 2 == mode)
    (by simp [hop, hmode]) (fun s _ _ => s) State.startRng
  exact ⟨u, hent, (seedOf_of_onlyTile hent.only ..).trans hseed, hnext⟩

/-- An element of `d` that takes the fraction `u` of 2^24 (R270). -/
def uniformElem (d : Desc) (g : Int) (u : Nat) : ElemRes :=
  convElem d 0 0 g (if u = 0 then .zero false else .fin false (.alg (Alg.dyadic (u : Int) (-24)) 1))

section
variable {i : Issue} {s u : State} (hent : Entered i s u) (hecc : i.ecc = .ok) {dd : Desc} {rb : Nat} {seed : W64}
  (hdd : Desc.ofWords ((s.tile i.tile).d (fB i.word)) = dd) (hrb : ((s.tile i.tile).s (fC i.word)).toNat = rb)
  (hfit : rb + (dd.count + 3) / 4 ≤ 2 ^ 62)
  (hseed : u.seedOf i.tile (s.top i.tile i).rng dd.tid dd.sid = some seed)
include hent hecc hdd hrb hfit hseed

theorem startRng_raw (hmode : bits i.word 0 2 = 0)
    (hcheck : s.checkOpnds i.tile [⟨dd, .raw⟩] [] (!(dd.fmt == .fp32 || dd.fmt == .fp32p)) false eVeShape = none) :
    u.startRng i.tile (s.top i.tile i) = (u.countEvals i.tile ((dd.count + 3) / 4)).runElems i.tile
      (s.tile i.tile).seq (fA i.word) dd .ok
      (((List.range dd.count).map fun j => { code := drawRng seed dd.tid dd.sid rb j }).map Except.ok) := by
  have hbelow : decide (2 ^ 62 < rb + (dd.count + 3) / 4) = false := decide_eq_false (by omega)
  have hcheck' := (checkOpnds_of_chains hent.only hent.chains ..).trans hcheck
  unfold State.startRng
  simp only [top_issue, top_seq, top_core_d, top_core_s, hmode, hdd, hrb, hbelow, hcheck', hseed, hecc, List.map_map]
  rfl

theorem startRng_uniform (hmode : bits i.word 0 2 = 1)
    (hcheck : s.checkOpnds i.tile [⟨dd, .elems⟩] [] (!fromF32Ok dd.fmt) false eVeShape = none) {g : List Nat → Int}
    (hscale : ∀ c ∈ dd.indices, (s.tile i.tile).elemScale dd c = .ok (g c)) :
    u.startRng i.tile (s.top i.tile i) = (u.countEvals i.tile ((dd.count + 3) / 4)).runElems i.tile
      (s.tile i.tile).seq (fA i.word) dd .ok ((dd.indices.zipIdx.map fun p =>
        uniformElem dd (g p.1) (drawRng seed dd.tid dd.sid rb p.2 / 2 ^ 8)).map Except.ok) := by
  have hbelow : decide (2 ^ 62 < rb + (dd.count + 3) / 4) = false := decide_eq_false (by omega)
  have hcheck' := (checkOpnds_of_chains hent.only hent.chains ..).trans hcheck
  have hsrf := srf_evaluated hent (evaluated_countEvals u i.tile ((dd.count + 3) / 4))
  unfold State.startRng
  simp only [top_issue, top_seq, top_core_d, top_core_s, hmode, hdd, hrb, hbelow, hcheck', hseed, hecc, List.map_map]
  refine congrArg _ (List.map_congr_left fun p hp => ?_)
  rw [elemScale_of_srf hsrf, hscale _ (List.fst_mem_of_mem_zipIdx hp)]
  rfl

theorem startRng_bern (hmode : bits i.word 0 2 = 2)
    (hcheck : s.checkOpnds i.tile [⟨dd, .mask dd.count⟩] [] false false eVeShape = none) :
    u.startRng i.tile (s.top i.tile i) = (u.countEvals i.tile ((dd.count + 3) / 4)).runMask i.tile
      (s.tile i.tile).seq (fA i.word) dd.base .ok ((List.range dd.count).map fun j =>
        (decide (drawRng seed dd.tid dd.sid rb j < bits ((s.tile i.tile).s (fD i.word)) 0 32), {})) := by
  have hbelow : decide (2 ^ 62 < rb + (dd.count + 3) / 4) = false := decide_eq_false (by omega)
  have hcheck' := (checkOpnds_of_chains hent.only hent.chains ..).trans hcheck
  unfold State.startRng
  simp only [top_issue, top_seq, top_core_d, top_core_s, hmode, hdd, hrb, hbelow, hcheck', hseed, hecc]

end

/-- Settles O22: a HAD writes its blocks, and an RNG the elements or the mask of its mode. -/
theorem rotationAndFills : Obligations.RotationAndFills := by
  refine ⟨?_, ?_⟩
  · intro i s hstarts hop hecc h hcheck seed rs hseed hblocks
    exact had_rotates hstarts hop hecc rfl hcheck hseed hblocks
  intro i s hstarts hop hecc n dd rb e hfit seed hseed word
  refine ⟨fun hmode hcheck => ?_, fun hmode hcheck g hscale => ?_, fun hmode hcheck => ?_⟩
  · obtain ⟨u, hent, hseed', hnext⟩ := issueRng_starts hstarts hop hmode hseed
    rw [startRng_raw hent hecc rfl rfl hfit hseed' hmode hcheck] at hnext
    exact ⟨_, hnext, runElems_wroteElems hent (evaluated_countEvals ..) ..⟩
  · obtain ⟨u, hent, hseed', hnext⟩ := issueRng_starts hstarts hop hmode hseed
    rw [startRng_uniform hent hecc rfl rfl hfit hseed' hmode hcheck hscale] at hnext
    exact ⟨_, hnext, runElems_wroteElems hent (evaluated_countEvals ..) ..⟩
  · obtain ⟨u, hent, hseed', hnext⟩ := issueRng_starts hstarts hop hmode hseed
    rw [startRng_bern hent hecc rfl rfl hfit hseed' hmode hcheck] at hnext
    exact ⟨_, hnext, runMask_wroteMask hent (evaluated_countEvals ..) ..⟩

end Sys2Proof.Proofs
end

section
/-! PROOFS. HIST READ, MERGE and ADAPT (spec/03_output_conversion.md R104, R106 to R109;
spec/08_nolpa_tensor_reference.md R271): first the counts of a slot entered into a record, then what an ADAPT reads and
changes, then the checks, then each form from its command on. -/
namespace Sys2Proof.Proofs

open Sys2Proof Sys2Proof.Machine Sys2Proof.Claims Sys2Proof.Laws

/-! ## Counts entered into a record -/

theorem bytes_congr {s t : State} {a n : Nat} (h : ∀ x, a ≤ x → x < a + n → t.byte x = s.byte x) :
    t.bytes a n = s.bytes a n := by
  induction n generalizing a with
  | zero => rfl
  | succ n ih =>
    rw [State.bytes, State.bytes, h a le_rfl (by omega), ih fun x hx hxn => h x (by omega) (by omega)]

theorem load_congr {s t : State} {a n : Nat} (h : ∀ x, a ≤ x → x < a + n → t.byte x = s.byte x) :
    t.load a n = s.load a n := by unfold State.load; rw [bytes_congr h]

theorem WritesWithin.mono {n : Nat} {W W' : Nat → Prop} {s t : State} (h : WritesWithin n W s t)
    (hW : ∀ x, W x → W' x) : WritesWithin n W' s t :=
  ⟨h.block, h.others, h.counts, fun x hx => h.bytes x (mt (hW x) hx)⟩

/-- Counts entered into the words of a record at `a`, each as `val` has it from the word and the count. -/
def enterCounts (val : Nat → Nat → Nat) (a : Nat) (counts : List Nat) (s : State) : State :=
  counts.zipIdx.foldl (fun s c => s.store (a + 4 * c.2) 4 (val (s.recWord a c.2) c.1)) s

section
variable (val : Nat → Nat → Nat) (a : Nat) (counts : List Nat) (s : State)

theorem enterCounts_concat (c : Nat) : enterCounts val a (counts ++ [c]) s =
    (enterCounts val a counts s).store (a + 4 * counts.length) 4
      (val ((enterCounts val a counts s).recWord a counts.length) c) := by
  simp [enterCounts, List.zipIdx_append]

/-- Counts entered into a record change its bytes alone. -/
theorem writesWithin_enterCounts (n : Nat) :
    WritesWithin n (fun x => a ≤ x ∧ x < a + 4 * counts.length) s (enterCounts val a counts s) := by
  induction counts using List.reverseRecOn with
  | nil => exact .refl ..
  | append_singleton counts c ih =>
    rw [enterCounts_concat, List.length_append, List.length_singleton]
    refine (ih.mono fun x hx => by omega).trans
      ⟨rfl, fun _ _ => rfl, .refl _, fun x hx => byte_store_other _ _ _ _ _ (by omega)⟩

theorem tile_enterCounts (n : Nat) : (enterCounts val a counts s).tile n = s.tile n :=
  List.foldlRecOn (motive := fun t : State => t.tile n = s.tile n) _ _ rfl fun _ h _ _ => h

/-- Each word of the record takes its value from the word and the count that stood there. -/
theorem load_enterCounts {k : Nat} (hk : k < counts.length) :
    (enterCounts val a counts s).load (a + 4 * k) 4 = val (s.load (a + 4 * k) 4) (counts.getD k 0) % 2 ^ 32 := by
  induction counts using List.reverseRecOn with
  | nil => simp at hk
  | append_singleton counts c ih =>
    rw [List.length_append, List.length_singleton] at hk
    rw [enterCounts_concat]
    by_cases hlast : k = counts.length
    · subst hlast
      have hword : (enterCounts val a counts s).recWord a counts.length = s.load (a + 4 * counts.length) 4 :=
        load_congr fun x hx _ => (writesWithin_enterCounts val a counts s 0).bytes x (by omega)
      rw [load_store_same, hword, List.getD_append_right _ _ _ _ le_rfl]
      simp
    · rw [load_congr fun x _ hx => byte_store_other _ _ _ _ _ (.inl (by omega)), ih (by omega),
        List.getD_append _ _ _ _ (by omega)]

end

/-! ## The counts of a slot -/

/-- The fields of the 69 counts of a slot in the order of a record's words (Table 3.2). -/
def slotFlds (slot : Nat) : List Fld :=
  (List.range 64).map (ctrBinFld slot) ++
  [Csr.cfgCtrZn_zero slot, Csr.cfgCtrZn_nar slot, Csr.cfgCtrSf_sat slot, Csr.cfgCtrSf_flush slot,
   Csr.cfgCtrElem_elements slot]

theorem slotCounts_eq (t : Tile) (slot : Nat) : t.slotCounts slot = (slotFlds slot).map t.fld := by
  simp [Tile.slotCounts, slotFlds]

theorem length_slotCounts (t : Tile) (slot : Nat) : (t.slotCounts slot).length = 69 := by simp [Tile.slotCounts]

theorem off_slotFlds {slot : Nat} {f : Fld} (hf : f ∈ slotFlds slot) : f.off ∈ slotWords slot := by
  rw [mem_slotWords]
  simp only [slotFlds, List.mem_append, List.mem_map, List.mem_range, List.mem_cons, List.not_mem_nil, or_false] at hf
  obtain ⟨b, hb, rfl⟩ | rfl | rfl | rfl | rfl | rfl := hf
  · exact .inl ⟨b / 2, by omega, by unfold ctrBinFld; split <;> rfl⟩
  · exact .inr (.inl rfl)
  · exact .inr (.inl rfl)
  · exact .inr (.inr (.inl rfl))
  · exact .inr (.inr (.inl rfl))
  · exact .inr (.inr (.inr rfl))

theorem slotCounts_of_words {a t : Tile} {slot : Nat} (h : ∀ o ∈ slotWords slot, t.word o = a.word o) :
    t.slotCounts slot = a.slotCounts slot := by
  rw [slotCounts_eq, slotCounts_eq]
  exact List.map_congr_left fun f hf => congrArg (bits · f.lo f.w) (h _ (off_slotFlds hf))

theorem slotWords_bounds {slot o : Nat} (h : o ∈ slotWords slot) : 0xD000 ≤ o ∧ o ≠ Csr.cfgCtrSts slot := by
  rw [mem_slotWords] at h
  unfold Csr.cfgCtrBin Csr.cfgCtrZn Csr.cfgCtrSf Csr.cfgCtrElem at h
  unfold Csr.cfgCtrSts
  obtain ⟨j, hj, rfl⟩ | rfl | rfl | rfl := h <;> omega

theorem slotCounts_clearCounts (t : Tile) (slot : Nat) :
    (t.clearCounts slot).slotCounts slot = List.replicate 69 0 := by
  refine List.eq_replicate_iff.mpr ⟨length_slotCounts .., fun c hc => ?_⟩
  rw [slotCounts_eq] at hc
  obtain ⟨f, hf, rfl⟩ := List.mem_map.mp hc
  have hword := off_slotFlds hf
  rw [Tile.fld, word_clearCounts t (slotWords_bounds hword).2, if_pos hword]
  simp [bits, field]

/-! ## What an ADAPT reads and changes -/

/-- Two blocks hold the same memory and the same count of free values, and tile `n` the same d registers. -/
structure SameRecord (n : Nat) (s t : State) : Prop where
  mem : t.mem = s.mem
  free : t.freeCtr = s.freeCtr
  dreg : (t.tile n).dreg = (s.tile n).dreg

theorem SameRecord.store {n : Nat} {s t : State} (h : SameRecord n s t) (a k v : Nat) :
    SameRecord n (s.store a k v) (t.store a k v) :=
  ⟨by simp only [State.store, State.writeBytes, h.mem], h.free, h.dreg⟩

theorem SameRecord.takeFree {n : Nat} {s t : State} (h : SameRecord n s t) (k : Nat) :
    SameRecord n (s.takeFree k) (t.takeFree k) := ⟨h.mem, congrArg (· + k) h.free, h.dreg⟩

/-- The format and the scale log of a d register written anew, as an ADAPT does (R107). -/
def retune (reg fmt : Nat) (sc : Int) (t : Tile) : Tile :=
  (t.setDw reg 0 (withFmt (t.dw reg 0) fmt)).setDw reg 1 (withSc (t.dw reg 1) sc)

theorem retune_frame (reg fmt : Nat) (sc : Int) (t : Tile) :
    retune reg fmt sc t = { t with dreg := (retune reg fmt sc t).dreg } := by
  have htwo (r w r' w' : Nat) (v v' : W64) : (t.setDw r w v).setDw r' w' v' =
      { t with dreg := ((t.setDw r w v).setDw r' w' v').dreg } := rfl
  exact htwo ..

theorem SameRecord.retune {n : Nat} {s t : State} (h : SameRecord n s t) (reg fmt : Nat) (sc : Int) :
    SameRecord n (s.updTile n (Proofs.retune reg fmt sc)) (t.updTile n (Proofs.retune reg fmt sc)) := by
  refine ⟨h.mem, h.free, ?_⟩
  rw [tile_updTile_same, tile_updTile_same]
  simp only [Proofs.retune, Tile.setDw, Tile.dw, h.dreg]

theorem d_of_dreg {a t : Tile} (h : t.dreg = a.dreg) (r : Nat) : t.d r = a.d r :=
  congrArg (List.map · _) (funext fun w => by simp only [Tile.dw, h])

/-- An ADAPT reads memory, free values and the d register that it names. -/
theorem SameRecord.adapt {n : Nat} {s t : State} (h : SameRecord n s t) (a reg : Nat) :
    (t.adapt n a reg).2 = (s.adapt n a reg).2 ∧ SameRecord n (s.adapt n a reg).1 (t.adapt n a reg).1 := by
  have hword : t.recWord a = s.recWord a := funext fun k => load_of_mem h.mem ..
  have hd : (t.tile n).d reg = (s.tile n).d reg := d_of_dreg h.dreg reg
  unfold State.adapt
  simp only [hword, hd, h.free]
  generalize adaptChoice _ _ _ = choice
  obtain ⟨f, delta⟩ := choice
  dsimp only
  -- in turn: the policy faults, nothing was counted, the counts contradict each other, the policy only proposes, the
  -- choice is applied, its scale log is out of range
  split
  · exact ⟨rfl, h⟩
  split
  · exact ⟨rfl, h.store ..⟩
  split
  · split
    · exact ⟨rfl, (((h.takeFree 4).store ..).store ..).retune ..⟩
    · exact ⟨rfl, ((h.takeFree 4).store ..).store ..⟩
  split
  · exact ⟨rfl, (h.store ..).store ..⟩
  split
  · exact ⟨rfl, ((h.store ..).store ..).retune ..⟩
  · exact ⟨rfl, (h.store ..).store ..⟩

/-- Block `t` is `s` but for d registers of tile `n` among its tiles. -/
def DregOnly (n : Nat) (s t : State) : Prop :=
  t.tile n = { s.tile n with dreg := (t.tile n).dreg } ∧ ∀ m, m ≠ n → t.tile m = s.tile m

theorem dregOnly_retune {n : Nat} {s t : State} (h : t.tiles = s.tiles) (reg fmt : Nat) (sc : Int) :
    DregOnly n s (t.updTile n (retune reg fmt sc)) := by
  have htile (m : Nat) : t.tile m = s.tile m := by simp only [State.tile, h]
  refine ⟨?_, fun m hm => by rw [tile_updTile, if_neg hm, htile]⟩
  rw [tile_updTile_same, htile]
  exact retune_frame ..

/-- Among the tiles an ADAPT changes d registers of its own tile alone (R107). -/
theorem dregOnly_adapt (s : State) (n a reg : Nat) : DregOnly n s (s.adapt n a reg).1 := by
  have hsame {t : State} (h : t.tiles = s.tiles) : DregOnly n s t := by
    simp only [DregOnly, State.tile, h, implies_true, and_true]
  unfold State.adapt
  dsimp only
  generalize adaptChoice _ _ _ = choice
  obtain ⟨f, delta⟩ := choice
  dsimp only
  -- the branches in the same order as above
  split
  · exact hsame rfl
  split
  · exact hsame rfl
  split
  · split
    · exact dregOnly_retune rfl ..
    · exact hsame rfl
  split
  · exact hsame rfl
  split
  · exact dregOnly_retune rfl ..
  · exact hsame rfl

/-! ## What the checks of a HIST read -/

section
variable {n : Nat} {s t : State} (honly : s.OnlyTile n t)
include honly

theorem localDev_of_onlyTile (dev : Nat) : t.localDev dev = s.localDev dev := by
  simp only [State.localDev, State.flag, State.fld, State.word, csr_of_onlyTile honly]

theorem granted_of_onlyTile (o : Origin) (k : Access) (a : Nat) : t.granted o k a = s.granted o k a := by
  rw [honly.1]; rfl

theorem inCells_of_chains (hchains : (t.tile n).chains = (s.tile n).chains) (a len : Nat) :
    t.inCells a len = s.inCells a len := by
  have hall (m : Nat) : (t.tile m).chains = (s.tile m).chains := by
    by_cases hm : m = n
    · rw [hm, hchains]
    · rw [honly.2 m hm]
  unfold State.inCells
  split
  · exact touchesCells_of_chains (hall _) ..
  · rfl

/-- The checks of a HIST read the chains of the block and a d register of its tile, and nothing else of the tiles. -/
theorem contourCheck_of_chains (hchains : (t.tile n).chains = (s.tile n).chains)
    (hdreg : (t.tile n).dreg = (s.tile n).dreg) (o : ContourOp) : o.check t n = o.check s n := by
  simp only [ContourOp.check, d_of_dreg hdreg, localDev_of_onlyTile honly, granted_of_onlyTile honly,
    inCells_of_chains honly hchains]

end

/-! ## A HIST performed -/

/-- The HIST that a word issues on tile `n` (R271). -/
def histOf (s : State) (i : Issue) : ContourOp :=
  ⟨fA i.word, (s.tile i.tile).seq, bits i.word 4 2, bits i.word 0 4, bits i.word 6 1 == 1, fB i.word,
    (s.tile i.tile).s (fC i.word), (s.tile i.tile).fld Csr.tcStatus_priv == 1, .ok⟩

theorem contourOp_of_top {s : State} {i : Issue} (hecc : i.ecc = .ok) (t : Tile) :
    ContourOp.of (s.top i.tile i) t = histOf s i := by
  unfold ContourOp.of histOf
  rw [top_issue, hecc]
  rfl

/-- A slot cleared by a READ with clr (R104, R271). -/
def clearRead (clr : Bool) (n slot : Nat) (s : State) : State :=
  if clr then s.updTile n fun t => t.clearCounts slot else s

theorem mem_clearRead (clr : Bool) (n slot : Nat) (s : State) : (clearRead clr n slot s).mem = s.mem := by
  cases clr <;> rfl

theorem tile_clearRead (clr : Bool) (n slot : Nat) (s : State) : (clearRead clr n slot s).tile n =
    { s.tile n with csr := ((clearRead clr n slot s).tile n).csr } ∧
    ∀ m, m ≠ n → (clearRead clr n slot s).tile m = s.tile m := by
  cases clr with
  | false => exact ⟨rfl, fun _ _ => rfl⟩
  | true =>
    rw [clearRead, if_pos rfl, tile_updTile_same]
    exact ⟨clearCounts_frame .., (onlyTile_updTile ..).2⟩

section
variable {s : State} {n : Nat} {o : ContourOp} (hcheck : o.check s n = none) (hecc : o.ecc = .ok)
include hcheck

theorem runHist_read (hform : o.form = 0) : s.runHist n o =
    (clearRead o.clr n o.slot (enterCounts (fun _ c => c) o.da.toNat ((s.tile n).slotCounts o.slot) s)).done n o.seq {}
      none := by
  simp only [State.runHist, hcheck, hform, if_true, Bool.false_eq_true, if_false]
  rfl

include hecc

theorem runHist_merge (hform : o.form = 1) : s.runHist n o =
    (clearRead false n o.slot (enterCounts (fun r c => min (2 ^ 32 - 1) (r + c)) o.da.toNat
      ((s.tile n).slotCounts o.slot) s)).done n o.seq {} none := by
  simp only [State.runHist, hcheck, hform, hecc, State.detectT, ite_self, Bool.false_eq_true, if_false]
  rfl

theorem runHist_adapt (hform : o.form = 2) (hfault : (s.adapt n o.da.toNat o.reg).2.1 = none) : s.runHist n o =
    ((s.adapt n o.da.toNat o.reg).1.done n o.seq {} none).updFlight n o.seq
      fun x => if (s.adapt n o.da.toNat o.reg).2.2 then { x with pend := none } else x := by
  simp only [State.runHist, hcheck, hform, hecc, State.detectT, hfault, ite_self, Bool.false_eq_true, if_false]

end

/-- Block `t` is `s` after a HIST has issued and been performed without fault: `pend` is the d register that stays
pending until its completion (R210). -/
def HistDone (s t : State) (i : Issue) (pend : Option Nat) : Prop :=
  (t.tile i.tile).tq = (s.tile i.tile).tq ∧ (t.tile i.tile).pc = nextPc (s.tile i.tile) i.word ∧
  (∀ k, (t.tile i.tile).k k = if k = fA i.word ∧ k ≠ 0 then 1 else (s.tile i.tile).k k) ∧
  (∃ f ∈ (t.tile i.tile).inflight, f.seq = (s.tile i.tile).seq ∧ f.done = true ∧ f.fault = 0 ∧ f.pend = pend) ∧
  ∀ m, m ≠ i.tile → t.tile m = s.tile m

/-- What stands in flight after the issue of a HIST and a change of each instruction by `g`. -/
theorem histDone_of_map {i : Issue} {s u t : State} (hent : Entered i s u) {g : InFlight → InFlight} {pend : Option Nat}
    {csr dreg : NMap W64} (htile : t.tile i.tile = { u.tile i.tile with
      csr := csr, dreg := dreg, inflight := (u.tile i.tile).inflight.map g })
    (hothers : ∀ m, m ≠ i.tile → t.tile m = u.tile m)
    (hg : ∀ f : InFlight, f.seq = (s.tile i.tile).seq → f.fault = 0 → f.pend = none →
      (g f).seq = f.seq ∧ (g f).done = true ∧ (g f).fault = 0 ∧ (g f).pend = pend) : HistDone s t i pend := by
  obtain ⟨hseq, hdone, hfault, hpend⟩ := hg (s.newFlight i.tile (s.tile i.tile).seq i.word) rfl rfl rfl
  refine ⟨by rw [htile, hent.tile], by rw [htile, hent.tile], fun k => ?_,
    ⟨_, ?_, hseq, hdone, hfault, hpend⟩, fun m hm => (hothers m hm).trans (hent.only.2 m hm)⟩
  · rw [htile]
    exact hent.token k
  · rw [htile, hent.tile]
    exact List.mem_map.mpr ⟨_, List.mem_append_right _ List.mem_cons_self, rfl⟩

/-- A READ or a MERGE that has changed registers of its tile alone, besides memory, is done. -/
theorem histDone_done {i : Issue} {s u w : State} (hent : Entered i s u)
    (htile : w.tile i.tile = { u.tile i.tile with csr := (w.tile i.tile).csr })
    (hothers : ∀ m, m ≠ i.tile → w.tile m = u.tile m) :
    HistDone s (w.done i.tile (s.tile i.tile).seq {} none) i none := by
  refine histDone_of_map hent (csr := (w.tile i.tile).csr) (dreg := (u.tile i.tile).dreg) (t := w.done ..)
    (g := fun x => if x.seq = (s.tile i.tile).seq then { x with done := true, flags := {}, ctr := none } else x)
    ?_ (fun m hm => ((onlyTile_done ..).2 m hm).trans (hothers m hm)) fun f hseq hfault hpend => ?_
  · rw [State.done, State.updFlight, tile_updTile_same, htile]
  · rw [if_pos hseq]
    exact ⟨rfl, rfl, hfault, hpend⟩

/-- The three changes that an ADAPT makes to itself in flight, as one. -/
theorem map_adapted (l : List InFlight) (seq reg : Nat) (wrote : Bool) :
    ((l.map fun x => if x.seq = seq then { x with pend := some reg } else x).map fun x =>
      if x.seq = seq then { x with done := true, flags := {}, ctr := none } else x).map (fun x =>
      if x.seq = seq then (if wrote then { x with pend := none } else x) else x) =
    l.map fun x => if x.seq = seq then
      { x with done := true, flags := {}, ctr := none, pend := if wrote then none else some reg } else x := by
  rw [List.map_map, List.map_map]
  refine List.map_congr_left fun x _ => ?_
  by_cases hx : x.seq = seq <;> cases wrote <;> simp [hx]

/-- An ADAPT that has changed d registers of its tile alone, besides memory, is done: its register stays pending
where nothing was written (R210). -/
theorem histDone_adapt {i : Issue} {s u w : State} (hent : Entered i s u) (reg : Nat) (wrote : Bool)
    (hw : DregOnly i.tile (u.updFlight i.tile (s.tile i.tile).seq fun x => { x with pend := some reg }) w) :
    HistDone s ((w.done i.tile (s.tile i.tile).seq {} none).updFlight i.tile (s.tile i.tile).seq
      fun x => if wrote then { x with pend := none } else x) i (if wrote then none else some reg) := by
  obtain ⟨htile, hothers⟩ := hw
  rw [State.updFlight, tile_updTile_same] at htile
  refine histDone_of_map hent (csr := (u.tile i.tile).csr) (dreg := (w.tile i.tile).dreg)
    (g := fun x => if x.seq = (s.tile i.tile).seq then
        { x with done := true, flags := {}, ctr := none, pend := if wrote then none else some reg } else x)
    ?_ (fun m hm => ?_) fun f hseq hfault hpend => ?_
  · rw [State.updFlight, State.done, State.updFlight, tile_updTile_same, tile_updTile_same, htile]
    simp only [map_adapted]
  · rw [(onlyTile_updFlight ..).2 m hm, (onlyTile_done ..).2 m hm, hothers m hm, (onlyTile_updFlight ..).2 m hm]
  · rw [if_pos hseq]
    exact ⟨rfl, rfl, hfault, rfl⟩

/-! ## A HIST from its command on -/

/-- A HIST of its word's form issues and is performed; the register of an ADAPT is pending from its issue (R210). -/
theorem issueHist_starts {i : Issue} {s : State} (hstarts : Starts s i) (hop : fOp i.word = 0xA4) (hecc : i.ecc = .ok)
    {form : Nat} (hform : bits i.word 4 2 = form) : ∃ u, Entered i s u ∧ issueHist form i s = .next
      ((if form = 2 then u.updFlight i.tile (s.tile i.tile).seq fun x => { x with pend := some (fB i.word) }
        else u).runHist i.tile (histOf s i)) := by
  obtain ⟨u, hent, hnext⟩ := issueE_starts hstarts (isRow := fun w => fOp w == 0xA4 && fl w 4 2 == form)
    (by simp [hop, hform])
    (fun s n o => if form = 2 then s.updFlight n o.seq (fun x => { x with pend := some (fB i.word) }) else s)
    State.startHist
  rw [State.startHist, contourOp_of_top hecc] at hnext
  exact ⟨u, hent, hnext⟩

theorem slotCounts_of_entered {i : Issue} {s u : State} (hent : Entered i s u) (slot : Nat) :
    (u.tile i.tile).slotCounts slot = (s.tile i.tile).slotCounts slot := by
  have hlow : ∀ r ∈ [Csr.tcInstret, Csr.tcStatus, Csr.tcDbgSts], r < 0xD000 := by decide
  exact slotCounts_of_words fun o ho => hent.words o fun h =>
    absurd (hlow o h) (Nat.not_lt.mpr (slotWords_bounds ho).1)

section
variable {i : Issue} {s : State} (hstarts : Starts s i) (hop : fOp i.word = 0xA4) (hecc : i.ecc = .ok)
  (hcheck : (histOf s i).check s i.tile = none)
include hstarts hop hecc hcheck

/-- A READ or a MERGE enters the counts of its slot into its record, and a READ with clr clears the slot. -/
theorem hist_enters {form : Nat} (hform : bits i.word 4 2 = form) {val : Nat → Nat → Nat} {clr : Bool} {da slot : Nat}
    (hnot : form ≠ 2) (hrun : ∀ u : State, (histOf s i).check u i.tile = none → u.runHist i.tile (histOf s i) =
      (clearRead clr i.tile slot (enterCounts val da ((u.tile i.tile).slotCounts slot) u)).done i.tile
        (s.tile i.tile).seq {} none) :
    ∃ t, issueHist form i s = .next t ∧ HistDone s t i none ∧
      (∀ k, k < 69 → t.load (da + 4 * k) 4 =
        val (s.load (da + 4 * k) 4) (((s.tile i.tile).slotCounts slot).getD k 0) % 2 ^ 32) ∧
      (∀ x, (x < da ∨ da + 276 ≤ x) → t.byte x = s.byte x) ∧
      (t.tile i.tile).slotCounts slot = if clr then List.replicate 69 0 else (s.tile i.tile).slotCounts slot := by
  obtain ⟨u, hent, hnext⟩ := issueHist_starts hstarts hop hecc hform
  have hcheck' := (contourCheck_of_chains hent.only hent.chains hent.dreg _).trans hcheck
  rw [if_neg hnot, hrun u hcheck'] at hnext
  let counts := (u.tile i.tile).slotCounts slot
  have hcounts : counts = (s.tile i.tile).slotCounts slot := slotCounts_of_entered hent slot
  have hlen : counts.length = 69 := length_slotCounts ..
  let w := enterCounts val da counts u
  have hw : WritesWithin i.tile _ u w := writesWithin_enterCounts val da counts u i.tile
  have hwtile : w.tile i.tile = u.tile i.tile := tile_enterCounts ..
  obtain ⟨htile, hothers⟩ := tile_clearRead clr i.tile slot w
  let t := (clearRead clr i.tile slot w).done i.tile (s.tile i.tile).seq {} none
  have hmem : t.mem = w.mem := mem_clearRead ..
  have humem : u.mem = s.mem := mem_of_onlyTile hent.only
  refine ⟨t, hnext, histDone_done hent (by rw [htile, hwtile]) fun m hm => (hothers m hm).trans (hw.others m hm),
    fun k hk => ?_, fun x hx => ?_, ?_⟩
  · rw [load_of_mem hmem, load_enterCounts val da counts u (by omega), load_of_mem humem, hcounts]
  · calc t.byte x = w.byte x := congrArg (NMap.get memDefault · x) hmem
      _ = u.byte x := hw.bytes x (by omega)
      _ = s.byte x := congrArg (NMap.get memDefault · x) humem
  · have hslot : (t.tile i.tile).slotCounts slot = ((clearRead clr i.tile slot w).tile i.tile).slotCounts slot :=
      slotCounts_of_words fun o _ => word_done ..
    rw [hslot, ← hcounts]
    cases clr with
    | false => exact congrArg (Tile.slotCounts · slot) hwtile
    | true => rw [clearRead, if_pos rfl, tile_updTile_same, slotCounts_clearCounts, if_pos rfl]

/-- An ADAPT does to memory and to its d register what its record and policy say (R107, R108). -/
theorem histAdapt_adapts (hform : bits i.word 4 2 = 2) {da : Nat} (hda : (histOf s i).da.toNat = da)
    (hfault : (s.adapt i.tile da (fB i.word)).2.1 = none) :
    ∃ t, exec (.histAdapt i) s = .next t ∧
      HistDone s t i (if (s.adapt i.tile da (fB i.word)).2.2 then none else some (fB i.word)) ∧
      t.mem = (s.adapt i.tile da (fB i.word)).1.mem ∧
      (t.tile i.tile).dreg = ((s.adapt i.tile da (fB i.word)).1.tile i.tile).dreg := by
  obtain ⟨u, hent, hnext⟩ := issueHist_starts hstarts hop hecc hform
  rw [if_pos rfl] at hnext
  let v := u.updFlight i.tile (s.tile i.tile).seq fun x => { x with pend := some (fB i.word) }
  have honly : s.OnlyTile i.tile v := onlyTile_trans hent.only (onlyTile_updFlight ..)
  have hvtile : v.tile i.tile = { u.tile i.tile with inflight := (v.tile i.tile).inflight } := by
    rw [show v = u.updTile i.tile _ from rfl, tile_updTile_same]
  have hchains : (v.tile i.tile).chains = (s.tile i.tile).chains := by rw [hvtile]; exact hent.chains
  have hdreg : (v.tile i.tile).dreg = (s.tile i.tile).dreg := by rw [hvtile]; exact hent.dreg
  have hsame : SameRecord i.tile s v := ⟨mem_of_onlyTile honly, by rw [honly.1], hdreg⟩
  obtain ⟨hresult, hadapted⟩ := hsame.adapt da (fB i.word)
  rw [runHist_adapt ((contourCheck_of_chains honly hchains hdreg _).trans hcheck) rfl hform
    (by rw [hda]; exact (congrArg Prod.fst hresult).trans hfault), hda,
    show (histOf s i).reg = fB i.word from rfl, hresult] at hnext
  refine ⟨_, hnext, histDone_adapt hent _ _ (dregOnly_adapt v i.tile da (fB i.word)), hadapted.mem, ?_⟩
  rw [State.updFlight, State.done, State.updFlight, tile_updTile_same, tile_updTile_same]
  exact hadapted.dreg

end

/-- Settles O27: READ and MERGE enter the counts of a slot into a record, and ADAPT reads one. -/
theorem contourRecords : Obligations.ContourRecords := by
  intro i s hstarts hop hecc n a form slot da o hcheck kept Done
  have hdone {t : State} {pend : Option Nat} (h : HistDone s t i pend)
      (hpend : pend = if kept then some (fB i.word) else none) : Done t := by subst hpend; exact h
  have hnot (h : form ≠ 2) : none = if kept then some (fB i.word) else none := (if_neg fun hk => h hk.1).symm
  refine ⟨fun hform => ?_, fun hform => ?_, fun hform hfault => ?_⟩
  · obtain ⟨t, hnext, ht, hload, hbyte, hslot⟩ := hist_enters hstarts hop hecc hcheck hform (clr := o.clr)
      (val := fun _ c => c) (da := da) (slot := slot) (by decide) fun u hu => runHist_read hu hform
    have hclr : o.clr = bit i.word 6 := bits_one_eq_bit ..
    rw [hclr] at hslot
    exact ⟨t, hnext, hdone ht (hnot (by rw [hform]; decide)), hload, hbyte, fun h => by rw [hslot, if_pos h],
      fun h => by rw [hslot, h, if_neg (by decide)]⟩
  · obtain ⟨t, hnext, ht, hload, hbyte, -⟩ := hist_enters hstarts hop hecc hcheck hform (clr := false)
      (val := fun r c => min (2 ^ 32 - 1) (r + c)) (da := da) (slot := slot) (by decide)
      fun u hu => runHist_merge hu rfl hform
    refine ⟨t, hnext, hdone ht (hnot (by rw [hform]; decide)), fun k hk => ?_, hbyte⟩
    rw [hload k hk]
    exact Nat.mod_eq_of_lt (by omega)
  · obtain ⟨t, hnext, ht, hmem, hdreg⟩ := histAdapt_adapts hstarts hop hecc hcheck hform (da := da) rfl hfault
    refine ⟨t, hnext, hdone ht ?_, hmem, hdreg⟩
    by_cases hwrote : (s.adapt n da (fB i.word)).2.2 = true
    · exact (if_pos hwrote).trans (if_neg fun hk => absurd (hwrote.symm.trans hk.2) (by decide)).symm
    · exact (if_neg hwrote).trans (if_pos ⟨hform, Bool.eq_false_of_not_eq_true hwrote⟩).symm

end Sys2Proof.Proofs
end

section
/-! PROOFS. Fields of device registers set one after another (spec/00_scope.md R5, R7): what the fields set before leave
of the next, and what a field of type RW or RWS reads after its word is written. -/
namespace Sys2Proof.Proofs

open Sys2Proof Sys2Proof.Machine Sys2Proof.Claims Sys2Proof.Laws

/-! ## Fields apart from one another -/

theorem flag_iff (s : State) (f : Fld) : s.flag f = true ↔ s.fld f = 1 := beq_iff_eq

theorem not_flag_iff (s : State) (f : Fld) : s.flag f = false ↔ s.fld f ≠ 1 := beq_eq_false_iff_ne

/-- Two fields have no bit of a word in common. -/
abbrev Apart (f g : Fld) : Prop := g.off ≠ f.off ∨ g.lo + g.w ≤ f.lo ∨ f.lo + f.w ≤ g.lo

/-- A field is read off its own bits. -/
theorem bits_eq_of_getLsbD {x y : W64} {lo lo' w : Nat} (h : ∀ i < w, x.getLsbD (lo + i) = y.getLsbD (lo' + i)) :
    bits x lo w = bits y lo' w := by
  refine Nat.eq_of_testBit_eq fun i => ?_
  simp only [bits, field, Nat.testBit_mod_two_pow, Nat.testBit_div_two_pow, Nat.add_comm i]
  by_cases hi : i < w
  · simp only [hi, decide_true, Bool.true_and]
    exact h i hi
  · simp only [hi, decide_false, Bool.false_and]

theorem fld_of_sets {fs : List (Fld × Nat)} {s t : State} (h : Sets fs s t) {g : Fld} (hg : ∀ p ∈ fs, Apart p.1 g) :
    t.fld g = s.fld g := by
  obtain ⟨-, -, hrest⟩ := h
  refine bits_eq_of_getLsbD fun i hi => hrest _ _ fun p hp => ?_
  have := hg p hp
  omega

/-! ## One field more -/

section
variable {fs : List (Fld × Nat)} {s t : State} {f : Fld} (h : Sets fs s t) (hf : f.lo + f.w ≤ 64)
  (hapart : ∀ p ∈ fs, Apart p.1 f)
include h hf hapart

theorem sets_append_setFld (v : Nat) : Sets (fs ++ [(f, v)]) s (t.setFld f v) := by
  obtain ⟨hframe, hval, hrest⟩ := h
  obtain ⟨hframe', hval', hrest'⟩ := sets_setFld t v hf
  refine ⟨hframe'.trans (by rw [hframe]), fun p hp => ?_, fun o b hb => ?_⟩
  · obtain hold | hnew := List.mem_append.mp hp
    · have := hapart p hold
      rw [fld_setFld_other t f p.1 v hf (by omega), hval p hold]
    · exact hval' p hnew
  · rw [hrest' o b fun p hp => hb p (List.mem_append_right _ hp),
      hrest o b fun p hp => hb p (List.mem_append_left _ hp)]

/-- A count adds to what its field held before all of them. -/
theorem sets_append_addFld (n : Nat) : Sets (fs ++ [(f, min (2 ^ f.w - 1) (s.fld f + n))]) s (t.addFld f n) := by
  rw [← fld_of_sets h hapart]
  exact sets_append_setFld h hf hapart _

end

/-! ## Words written by the types of their fields -/

theorem genWrite_frame (s : State) (off : Nat) (v : W64) :
    s.genWrite off v = { s with csr := (s.genWrite off v).csr, locked := (s.genWrite off v).locked } := by
  unfold State.genWrite
  split
  · rfl
  · dsimp only
    split <;> rfl

theorem genWrite_remaps (s : State) (off : Nat) (v : W64) : (s.genWrite off v).remaps = s.remaps := by
  rw [genWrite_frame]

theorem genWrite_repairing (s : State) (off : Nat) (v : W64) : (s.genWrite off v).repairing = s.repairing := by
  rw [genWrite_frame]

/-- A field of type RW reads what was written. -/
theorem fld_genWrite_rw (s : State) {f : Fld} {r : RegRow} {ix : List Nat} {reset : Nat} (v : W64)
    (hr : findReg deviceRegs f.off = some (r, ix)) (hlck : ∀ g ∈ r.fields, g.ty ≠ .lck)
    (hf : ⟨f.lo, f.w, .rw, reset⟩ ∈ r.fields) : (s.genWrite f.off v).fld f = bits v f.lo f.w := by
  rw [genWrite_eq_setWord s v hr hlck, State.fld, word_setWord_same]
  refine bits_eq_of_getLsbD fun i hi => ?_
  exact getLsbD_rowWrite_field (deviceRegs_ascending r (mem_of_findReg hr)) hf (hlck _ hf) _ _ _
    ⟨Nat.le_add_right .., Nat.add_lt_add_left hi _⟩

end Sys2Proof.Proofs
end

section
/-! PROOFS. Memory upkeep, die-to-die links, row re-maps and repairs (spec/05_tiles_dies_device.md R146 to R150, R158;
spec/06_memory_and_ordering.md R168, R169; spec/16_faults_ageing_service.md R448, R450): command by command, in the
order of the statement. -/
namespace Sys2Proof.Proofs

open Sys2Proof Sys2Proof.Machine Sys2Proof.Claims Sys2Proof.Laws

/-! ## Memory -/

/-- Error detection meets a word in aligned bytes that a read takes. -/
theorem wordIn_read {w len : Nat} {a : Int} (halign : a % 8 = 0) (hlo : a ≤ w) (hhi : w < a + len) :
    wordIn .read w a len = true := by
  simp only [wordIn, show (Access.read == Access.write) = false from rfl, Bool.false_and, Bool.not_false, Bool.and_true,
    Bool.and_eq_true, decide_eq_true_eq]
  omega

theorem eccWithin_corrected {k : Access} {w len : Nat} {a : Int} (h : wordIn k w a len = true) :
    eccWithin (.corrected w) k a len = .corrected w := if_pos h

theorem eccWithin_uncorrectable {k : Access} {w len : Nat} {a : Int} (h : wordIn k w a len = true) :
    eccWithin (.uncorrectable w) k a len = .uncorrectable w := if_pos h

theorem sramBase_aligned (n : Nat) : sramBase n % 8 = 0 := by unfold sramBase; omega

theorem wordIn_scrubLine {n line a : Nat} (hlo : sramBase n + 64 * line ≤ a) (hhi : a < sramBase n + 64 * line + 64) :
    wordIn .read a (sramBase n + 64 * line) 64 = true := by
  have := sramBase_aligned n
  exact wordIn_read (by omega) (by omega) (by omega)

/-- What a scrub that has read a line of tile `n` reports in block `u`. -/
def scrubReport (u : State) (n line : Nat) (e : Ecc) : State :=
  match eccWithin e .read (sramBase n + 64 * line) 64 with
  | .ok => u
  | .corrected a => u.memCe a
  | .uncorrectable a => if u.flag (Csr.prtPart_assigned_act (partOf n)) then u.memUe a none else u

theorem sramScrub_eq_scrubReport {n : Nat} (e : Ecc) {s : State} (hn : n < 2048)
    (hon : s.fld Csr.memCtl_sram_scrub = 1) : exec (.sramScrub n e) s = .next (scrubReport
      (s.setTile n { s.tile n with scrubLine := ((s.tile n).scrubLine + 1) % 49152 }) n (s.tile n).scrubLine e) := by
  rw [exec_sramScrub, execSramScrub, if_pos ⟨hn, (flag_iff ..).mpr hon⟩]
  rfl

section
variable {u : State} {n line a : Nat} (hlo : sramBase n + 64 * line ≤ a) (hhi : a < sramBase n + 64 * line + 64)
include hlo hhi

theorem scrubReport_corrected : scrubReport u n line (.corrected a) = u.memCe a := by
  rw [scrubReport, eccWithin_corrected (wordIn_scrubLine hlo hhi)]

theorem scrubReport_uncorrectable : scrubReport u n line (.uncorrectable a) =
    if u.fld (Csr.prtPart_assigned_act (partOf n)) = 1 then u.memUe a none else u := by
  rw [scrubReport, eccWithin_uncorrectable (wordIn_scrubLine hlo hhi)]
  simp only [flag_iff]

end

theorem fld_setTile (s : State) (n : Nat) (t : Tile) (g : Fld) : (s.setTile n t).fld g = s.fld g := by
  simp only [State.fld, State.word, setTile_csr]

theorem sramScrub_takesLine (n : Nat) (e : Ecc) (s : State) (hn : n < 2048) (hon : s.fld Csr.memCtl_sram_scrub = 1) :
    let line := (s.tile n).scrubLine
    let u := s.setTile n { s.tile n with scrubLine := (line + 1) % 49152 }
    ∃ t, exec (.sramScrub n e) s = .next t ∧
      (∀ a, sramBase n + 64 * line ≤ a → a < sramBase n + 64 * line + 64 →
        (e = .corrected a → t = u.memCe a) ∧
        (e = .uncorrectable a →
          t = if s.fld (Csr.prtPart_assigned_act (partOf n)) = 1 then u.memUe a none else u)) ∧
      (e = .ok → t = u) := by
  intro line u
  refine ⟨scrubReport u n line e, sramScrub_eq_scrubReport e hn hon, fun a hlo hhi => ⟨?_, ?_⟩, ?_⟩
  · rintro rfl
    exact scrubReport_corrected hlo hhi
  · rintro rfl
    rw [scrubReport_uncorrectable hlo hhi, fld_setTile]
  · rintro rfl
    rfl

theorem hbmEcs_reports (k a : Nat) (s : State) (hregion : region a = .pkg k) :
    exec (.hbmEcs k (.corrected a)) s = .next (s.memCe a) ∧
    exec (.hbmEcs k (.uncorrectable a)) s = .next (s.memUe a none) := by
  simp only [exec_hbmEcs, execHbmEcs, hregion, if_true, and_self]

theorem hbmTrained_shows (k : Nat) (ok : Bool) (s : State) (hk : k < 8) (htrained : s.fld (Csr.memHbmSts_trained k) = 0)
    (hfailed : s.fld (Csr.memHbmSts_failed k) = 0) :
    ∃ t u, exec (.hbmTrained k ok) s = .next t ∧
      Sets [(if ok then Csr.memHbmSts_trained k else Csr.memHbmSts_failed k, 1)] s u ∧
      t = (if ok then u else u.setReason 3).memoryDone := by
  have hgo : k < 8 ∧ s.flag (Csr.memHbmSts_trained k) = false ∧ s.flag (Csr.memHbmSts_failed k) = false := by
    simp only [hk, not_flag_iff, htrained, hfailed, ne_eq, Nat.zero_ne_one, not_false_eq_true, and_self]
  rw [exec_hbmTrained, execHbmTrained, if_pos hgo]
  cases ok with
  | true =>
    simp only [if_true]
    exact ⟨_, _, rfl, sets_setFld s 1 (by simp), rfl⟩
  | false =>
    simp only [Bool.false_eq_true, if_false]
    exact ⟨_, _, rfl, sets_setFld s 1 (by simp), rfl⟩

/-! ## Links -/

theorem d2dRetryFail_retrains (k : Nat) (s : State) (hk : k < 44) (hup : s.fld (Csr.cfgD2dSts_up k) = 1) :
    ∃ t u, exec (.d2dRetryFail k) s = .next t ∧
      Sets [(Csr.cfgD2dSts_retries k, min (2 ^ (Csr.cfgD2dSts_retries k).w - 1) (s.fld (Csr.cfgD2dSts_retries k) + 1)),
          (Csr.cfgD2dSts_up k, 0),
          (Csr.cfgD2dSts_attempts k, min (2 ^ (Csr.cfgD2dSts_attempts k).w - 1) (s.fld (Csr.cfgD2dSts_attempts k) + 1))]
        { s with d2dFails := NMap.erase s.d2dFails k, admitted := s.admitted.filter (· != 32 + k),
                 readyReq := s.readyReq.filter (· != 32 + k) } u ∧
      t = u.raise (linkEvent k 0x0A20 sevInfo (linkHub k) none) := by
  let fenced : State := { s with
    d2dFails := NMap.erase s.d2dFails k, admitted := s.admitted.filter (· != 32 + k),
    readyReq := s.readyReq.filter (· != 32 + k) }
  have hretries : Sets _ fenced (fenced.addFld (Csr.cfgD2dSts_retries k) 1) := sets_setFld fenced _ (by simp)
  have hdown := sets_append_setFld hretries (f := Csr.cfgD2dSts_up k) (by simp) (by simp [Apart]) 0
  have hattempt := sets_append_addFld hdown (f := Csr.cfgD2dSts_attempts k) (by simp) (by simp [Apart]) 1
  refine ⟨_, _, ?_, hattempt, rfl⟩
  rw [exec_d2dRetryFail, execD2dRetryFail, if_pos ⟨hk, (flag_iff ..).mpr hup⟩]
  rfl

/-- A link that is neither up nor down is in training: the end of an attempt has its effect (Table 5.7). -/
theorem link_trains {k : Nat} {s : State} (hk : k < 44) (hup : s.fld (Csr.cfgD2dSts_up k) = 0)
    (hdown : s.fld (Csr.cfgD2dSts_down k) = 0) :
    k < 44 ∧ s.flag (Csr.cfgD2dSts_up k) = false ∧ s.flag (Csr.cfgD2dSts_down k) = false := by
  simp only [hk, not_flag_iff, hup, hdown, ne_eq, Nat.zero_ne_one, not_false_eq_true, and_self]

theorem d2dRetrainDone_up (k lanes : Nat) (s : State) (hk : k < 44) (hup : s.fld (Csr.cfgD2dSts_up k) = 0)
    (hdown : s.fld (Csr.cfgD2dSts_down k) = 0) :
    ∃ t u, exec (.d2dRetrainDone k (some lanes)) s = .next t ∧
      Sets [(Csr.cfgD2dSts_up k, 1), (Csr.cfgD2dSts_lanes_repaired k, lanes)]
        { s with d2dFails := NMap.erase s.d2dFails k } u ∧ t = u.bootAdvance := by
  have hup' := sets_setFld { s with d2dFails := NMap.erase s.d2dFails k } (f := Csr.cfgD2dSts_up k) 1 (by simp)
  have hlanes := sets_append_setFld hup' (f := Csr.cfgD2dSts_lanes_repaired k) (by simp) (by simp [Apart]) lanes
  exact ⟨_, _, congrArg Host.Outcome.next (if_pos (link_trains hk hup hdown)), hlanes, rfl⟩

theorem d2dRetrainDone_fails (k : Nat) (s : State) (hk : k < 44) (hup : s.fld (Csr.cfgD2dSts_up k) = 0)
    (hdown : s.fld (Csr.cfgD2dSts_down k) = 0) :
    ∃ t, exec (.d2dRetrainDone k none) s = .next t ∧
      let fails := NMap.get (fun _ => 0) s.d2dFails k + 1
      if fails < 3 then
        ∃ u, Sets [(Csr.cfgD2dSts_attempts k,
            min (2 ^ (Csr.cfgD2dSts_attempts k).w - 1) (s.fld (Csr.cfgD2dSts_attempts k) + 1))]
          { s with d2dFails := NMap.insert s.d2dFails k fails } u ∧
          t = u.raise (linkEvent k 0x0A20 sevInfo (linkHub k) none)
      else ∃ u v : State, Sets [(Csr.cfgD2dSts_down k, 1)] { s with d2dFails := NMap.erase s.d2dFails k } u ∧
        v = ((u.fenced.filter (fun f => f.1 = 32 + k)).map (fun f => f.2)).foldl (fun v h => v.giveUp h stUnreach)
          { u with fenced := u.fenced.filter (fun f => f.1 ≠ 32 + k) } ∧
        let parts := if 24 ≤ k ∧ k < 40 then [2 * (k - 24), 2 * (k - 24) + 1] else []
        t = ((parts.foldl State.withdraw (parts.foldl (fun w p => w.abortPart p 0x0A21)
          (v.raise (linkEvent k 0x0A21 sevFault (linkHub k) none)))).setReason 1).bootAdvance := by
  refine ⟨_, congrArg Host.Outcome.next (if_pos (link_trains hk hup hdown)), ?_⟩
  intro fails
  by_cases hfew : fails < 3
  · rw [if_pos hfew]
    exact ⟨_, sets_setFld _ _ (by simp), if_pos hfew⟩
  · rw [if_neg hfew]
    exact ⟨_, _, sets_setFld _ 1 (by simp), rfl, if_neg hfew⟩

theorem memoryAndDieLinks : MemoryAndDieLinks :=
  ⟨sramScrub_takesLine, hbmEcs_reports, fun _ _ => ⟨rfl, rfl⟩, hbmTrained_shows, d2dRetryFail_retrains,
    fun k s hk hup hdown =>
      ⟨fun lanes => d2dRetrainDone_up k lanes s hk hup hdown, d2dRetrainDone_fails k s hk hup hdown⟩⟩

/-! ## Rows -/

theorem remapOk_iff (s : State) (d y b : Nat) : s.remapOk d y b = true ↔
    s.fld (Csr.prtPart_assigned_act (2 * d + y / 4)) ≠ 1 ∧
      (∀ i < 64, (s.tile (tileOf (2 * d + y / 4) i)).state = tsReset) ∧ s.fld (Csr.cfgTileMap_factory d y) = 16 ∧
      b ≤ 16 := by
  simp only [State.remapOk, rowPart, Bool.and_eq_true, Bool.not_eq_true', not_flag_iff, List.all_eq_true,
    List.mem_range, beq_iff_eq, decide_eq_true_eq, and_assoc]

theorem cfgTileMapWrite_accepts (d y : Nat) (v : W64) (s : State) (hd : d < 16) (hy : y < 8) :
    let ok := s.fld (Csr.prtPart_assigned_act (2 * d + y / 4)) ≠ 1 ∧
      (∀ i < 64, (s.tile (tileOf (2 * d + y / 4) i)).state = tsReset) ∧ s.fld (Csr.cfgTileMap_factory d y) = 16 ∧
      bits v 0 5 ≤ 16
    ∃ t u, exec (.cfgTileMapWrite d y v) s = .next t ∧
      u = (s.genWrite (Csr.cfgTileMap d y) v).setFld (Csr.cfgTileMap_bypass d y) (s.fld (Csr.cfgTileMap_bypass d y)) ∧
      u.fld (Csr.cfgTileMap_bypass d y) = s.fld (Csr.cfgTileMap_bypass d y) ∧
      (ok → t = { u with remaps := s.remaps ++ [(d, y, bits v 0 5)] }) ∧
      (¬ ok → Sets [(Csr.cfgTileMap_refused d y, 1)] s t) := by
  intro ok
  have hexec : exec (.cfgTileMapWrite d y v) s = .next (s.writeTileMap d y v) := by
    rw [exec_cfgTileMapWrite, execCfgTileMapWrite, if_pos ⟨hd, hy⟩]
  have hkept := fld_setFld_same (s.genWrite (Csr.cfgTileMap d y) v) (Csr.cfgTileMap_bypass d y)
    (s.fld (Csr.cfgTileMap_bypass d y)) (by simp)
  rw [Nat.mod_eq_of_lt (fld_lt ..)] at hkept
  refine ⟨_, _, hexec, rfl, hkept, fun hok => ?_, fun hnot => ?_⟩
  · rw [State.writeTileMap, if_pos ((remapOk_iff ..).mpr hok), State.startRemap, setFld_remaps, genWrite_remaps]
  · rw [State.writeTileMap, if_neg (mt (remapOk_iff ..).mp hnot)]
    exact sets_setFld s 1 (by simp)

/-- Blocks of memory zeroed one after another. -/
def zeroBlocks (base : Nat → Nat) (len : Nat) (l : List Nat) (s : State) : State :=
  l.foldl (fun s x => s.zeroMem (base x) len) s

theorem zeroBlocks_frame (base : Nat → Nat) (len : Nat) (l : List Nat) (s : State) : zeroBlocks base len l s =
    { s with mem := (zeroBlocks base len l s).mem, ueWords := (zeroBlocks base len l s).ueWords } :=
  List.foldlRecOn (motive := fun t : State => t = { s with mem := t.mem, ueWords := t.ueWords }) _ _ rfl
    fun t ht x _ => by rw [ht]; rfl

theorem byte_zeroBlocks (base : Nat → Nat) (len : Nat) (l : List Nat) (s : State) (a : Nat) :
    (zeroBlocks base len l s).byte a = if ∃ x ∈ l, base x ≤ a ∧ a < base x + len then 0 else s.byte a := by
  unfold zeroBlocks
  induction l generalizing s with
  | nil => simp
  | cons x l ih =>
    rw [List.foldl_cons, ih, byte_zeroMem]
    simp only [List.exists_mem_cons_iff]
    by_cases hx : base x ≤ a ∧ a < base x + len <;> simp [hx]

/-- A row whose bypass and spare show a position. -/
def rowShown (s : State) (d y b : Nat) : State :=
  (s.setFld (Csr.cfgTileMap_bypass d y) b).setFld (Csr.cfgTileMap_spare_free d y)
    (b2n (b == 16 && (s.setFld (Csr.cfgTileMap_bypass d y) b).fld (Csr.cfgTileMap_factory d y) == 16))

theorem sets_rowShown (s : State) (d y b : Nat) : Sets [(Csr.cfgTileMap_bypass d y, b),
    (Csr.cfgTileMap_spare_free d y, if b = 16 ∧ s.fld (Csr.cfgTileMap_factory d y) = 16 then 1 else 0)]
    s (rowShown s d y b) := by
  have hbypass := sets_setFld s (f := Csr.cfgTileMap_bypass d y) b (by simp)
  have hspare : b2n (b == 16 && (s.setFld (Csr.cfgTileMap_bypass d y) b).fld (Csr.cfgTileMap_factory d y) == 16) =
      if b = 16 ∧ s.fld (Csr.cfgTileMap_factory d y) = 16 then 1 else 0 := by
    rw [fld_of_sets hbypass (by simp [Apart])]
    simp only [b2n, Bool.and_eq_true, beq_iff_eq]
  rw [rowShown, hspare]
  exact sets_append_setFld hbypass (by simp) (by simp [Apart]) _

/-- Memory and the switches noted have no part in what a row shows; they are variables here, so that no comparison of
states evaluates a zeroing. -/
theorem sets_rowShown_of_mem (s : State) (mem : List Host.Cell) (ue : List Nat) (sw : List (Nat × Nat)) (d y b : Nat) :
    Sets [(Csr.cfgTileMap_bypass d y, b),
      (Csr.cfgTileMap_spare_free d y, if b = 16 ∧ s.fld (Csr.cfgTileMap_factory d y) = 16 then 1 else 0)]
      { s with mem := mem, ueWords := ue, switched := sw }
      (rowShown { s with mem := mem, ueWords := ue, switched := sw } d y b) := sets_rowShown ..

theorem byte_rowShown (s : State) (d y b a : Nat) : (rowShown s d y b).byte a = s.byte a := by
  simp only [State.byte, rowShown, setFld_mem]

/-- The SRAM of a row zeroed (R149 step 3). -/
def rowZeroed (s : State) (d y : Nat) : State :=
  zeroBlocks (fun x => sramBase (128 * d + 16 * y + x)) sramSize (List.range 16) s

/-- A row switched to a position: shown, its SRAM zeroed, the switch noted (R149 steps 2 and 3). -/
def rowSwitched (s : State) (d y b : Nat) : State :=
  { rowZeroed (rowShown s d y b) d y with switched := s.switched ++ [(d, y)] }

theorem remapSwitch_eq_rowSwitched {d y b : Nat} {s : State}
    (hfind : s.remaps.find? (fun x => x.1 == d && x.2.1 == y) = some (d, y, b)) (hnot : (d, y) ∉ s.switched) :
    exec (.remapSwitch d y) s = .next (rowSwitched s d y b) := by
  have hkept : (rowZeroed (rowShown s d y b) d y).switched = s.switched := by
    rw [rowZeroed, zeroBlocks_frame, rowShown, setFld_switched, setFld_switched]
  rw [rowSwitched, ← hkept]
  simp only [exec_remapSwitch, execRemapSwitch, hfind, List.contains_iff_mem, hnot, if_false, rowZeroed, zeroBlocks,
    rowShown]

/-- The block after a switch, as registers set in the block that has its memory. -/
theorem rowSwitched_eq_rowShown (s : State) (d y b : Nat) : rowSwitched s d y b =
    rowShown { s with mem := (rowSwitched s d y b).mem, ueWords := (rowSwitched s d y b).ueWords,
                      switched := s.switched ++ [(d, y)] } d y b := by
  have hzero := zeroBlocks_frame (fun x => sramBase (128 * d + 16 * y + x)) sramSize (List.range 16) (rowShown s d y b)
  unfold rowSwitched rowZeroed
  generalize zeroBlocks _ _ _ (rowShown s d y b) = z at hzero ⊢
  rw [hzero]
  rfl

theorem sets_rowSwitched (s : State) (d y b : Nat) : Sets [(Csr.cfgTileMap_bypass d y, b),
    (Csr.cfgTileMap_spare_free d y, if b = 16 ∧ s.fld (Csr.cfgTileMap_factory d y) = 16 then 1 else 0)]
    { s with mem := (rowSwitched s d y b).mem, ueWords := (rowSwitched s d y b).ueWords,
             switched := s.switched ++ [(d, y)] } (rowSwitched s d y b) := by
  have hsets := sets_rowShown_of_mem s (rowSwitched s d y b).mem (rowSwitched s d y b).ueWords
    (s.switched ++ [(d, y)]) d y b
  rwa [← rowSwitched_eq_rowShown s d y b] at hsets

theorem byte_withSwitched (s : State) (sw : List (Nat × Nat)) (a : Nat) :
    ({ s with switched := sw } : State).byte a = s.byte a := rfl

theorem byte_rowSwitched (s : State) (d y b a : Nat) : (rowSwitched s d y b).byte a =
    if ∃ x ∈ List.range 16, sramBase (128 * d + 16 * y + x) ≤ a ∧ a < sramBase (128 * d + 16 * y + x) + sramSize then 0
    else s.byte a := by
  rw [rowSwitched, byte_withSwitched, rowZeroed, byte_zeroBlocks, byte_rowShown]

theorem remapSwitch_switches (d y b : Nat) (s : State)
    (hfind : s.remaps.find? (fun x => x.1 == d && x.2.1 == y) = some (d, y, b)) (hnot : (d, y) ∉ s.switched) :
    ∃ t, exec (.remapSwitch d y) s = .next t ∧
      Sets [(Csr.cfgTileMap_bypass d y, b),
          (Csr.cfgTileMap_spare_free d y, if b = 16 ∧ s.fld (Csr.cfgTileMap_factory d y) = 16 then 1 else 0)]
        { s with mem := t.mem, ueWords := t.ueWords, switched := s.switched ++ [(d, y)] } t ∧
      ∀ a, ((∃ x < 16, sramBase (128 * d + 16 * y + x) ≤ a ∧ a < sramBase (128 * d + 16 * y + x) + sramSize) →
          t.byte a = 0) ∧
        ((∀ x < 16, a < sramBase (128 * d + 16 * y + x) ∨ sramBase (128 * d + 16 * y + x) + sramSize ≤ a) →
          t.byte a = s.byte a) := by
  refine ⟨_, remapSwitch_eq_rowSwitched hfind hnot, sets_rowSwitched s d y b, fun a => ⟨?_, fun hout => ?_⟩⟩
  · rintro ⟨x, hx, hin⟩
    rw [byte_rowSwitched, if_pos ⟨x, List.mem_range.mpr hx, hin⟩]
  · rw [byte_rowSwitched, if_neg]
    rintro ⟨x, hx, hlo, hhi⟩
    have := hout x (List.mem_range.mp hx)
    omega

theorem remapDone_ends (d y : Nat) (s : State) (hmem : (d, y) ∈ s.switched) :
    ∃ t u, exec (.remapDone d y) s = .next t ∧
      Sets [(Csr.cfgTileMap_done d y, 1)]
        { s with remaps := s.remaps.eraseP (fun x => x.1 == d && x.2.1 == y),
                 switched := s.switched.filter (· != (d, y)) } u ∧
      t = u.raise (devEvent 0 0x0A22 sevInfo (some (2 * d + y / 4)) 0 0) := by
  refine ⟨_, _, ?_, sets_setFld _ 1 (by simp), rfl⟩
  rw [exec_remapDone, execRemapDone, if_pos (List.contains_iff_mem.mpr hmem)]
  rfl

theorem part_genWrite_svcRepair (s : State) (v : W64) :
    (s.genWrite Csr.svcRepair v).fld Csr.svcRepair_part = bits v 0 5 :=
  fld_genWrite_rw s (f := Csr.svcRepair_part) (reset := 0) v (ix := []) rfl (by decide) (by decide)

theorem svcRepair_resetsOrRefuses (v : W64) (s : State) : ∃ t, exec (.svcRepair v) s = .next t ∧
    let u := s.genWrite Csr.svcRepair v
    let p := bits v 0 5
    let y := u.fld Csr.svcRepair_row
    let b := u.fld Csr.svcRepair_pos
    u.fld Csr.svcRepair_part = p ∧
    if v.getLsbD 13 then
      if u.repairOk p y b then
        t = { u.startReset p with
          repairing := s.repairing ++ [p], remaps := (u.startReset p).remaps ++ [(p / 2, y, b)] }
      else t = (u.setFld Csr.svcRepair_refused 1).raise (devEvent 0 0x0A05 sevWarn (some p) 0 0)
    else t = u := by
  refine ⟨_, exec_svcRepair v s, ?_⟩
  have hpart := part_genWrite_svcRepair s v
  have hrepairing := genWrite_repairing s Csr.svcRepair v
  refine ⟨hpart, ?_⟩
  simp only [State.writeRepair, bit, hpart, hrepairing, State.startRemap]
  split
  · split <;> rfl
  · rfl

theorem rowsAreRemapped : RowsAreRemapped :=
  ⟨cfgTileMapWrite_accepts, fun d y b s _ _ => remapSwitch_switches d y b s, remapDone_ends, svcRepair_resetsOrRefuses,
    fun _ _ => rfl⟩

/-- Settles O40: memory and links command by command, then rows and repairs. -/
theorem memoryLinksAndRows : Obligations.MemoryLinksAndRows := ⟨memoryAndDieLinks, rowsAreRemapped⟩

end Sys2Proof.Proofs
end

section
/-! PROOFS. A COPY or FILL whose header sets a reserved field (spec/06_memory_and_ordering.md R192, R193, Table 6.9):
first that the engine describes no move for it, then one that everything else of O42's clause admits. -/
namespace Sys2Proof.Proofs

open Sys2Proof Sys2Proof.Machine Sys2Proof.Claims Sys2Proof.Laws

/-! ## A reserved field set -/

/-- Bits [30:8] of the word at 0x04 are reserved (Table 6.9): a descriptor that sets one describes no move (R193). -/
theorem descJob_reserved (s : State) (f : Fetched) (fill : Bool) (h : bits (f.words.headD 0) 40 23 ≠ 0) :
    s.descJob f fill = none := by
  have hreserved : (bits (f.words.headD 0) 40 23 != 0) = true := bne_iff_ne.mpr h
  simp only [State.descJob, hreserved, Bool.or_true, Bool.true_or, or_true, if_true]

/-- Such a COPY moves nothing and ends with DESC_INVALID (R193). -/
theorem descCopy_reserved {s : State} {f : Fetched} (e : Ecc) (hready : DescReady s f 1)
    (h : bits (f.words.headD 0) 40 23 ≠ 0) :
    exec (.descCopy f.ring e) s = .next (s.endMove (.desc f.ring f.idx) stInvalid) := by
  obtain ⟨hstart, -, hmover, -⟩ := hready
  simp only [exec_descCopy, execDescCopy, State.runDesc, Bool.false_eq_true, if_false, hstart, hmover, if_true,
    descJob_reserved s f false h]

/-! ## The counterexample -/

/-- A COPY of one byte from 0x20000 to 0x30000, bit 8 of the word at 0x04 set. -/
def reservedCopy : Fetched := ⟨3, 7, [BitVec.ofNat 64 (1 + 2 ^ 40), 0x20000, 0x30000, BitVec.ofNat 64 (1 + 2 ^ 32), 0, 0, 0, 0],
  none, false, true, false, 0⟩

/-- A bound device whose partition 0 owns granule 0 with every right, the crossings open, and that COPY fetched from its
ring 3. -/
def reservedCopyFetched : State where
  admitted := List.range 101
  csr := [(Csr.prtBindSts, 1), (Csr.prtPart 0, BitVec.ofNat 64 (2 ^ 11)), (Csr.prtGranAct 0, 0xFFA0)]
  fetched := [reservedCopy]

theorem reservedCopyFetched_ready : DescReady reservedCopyFetched reservedCopy 1 := by
  unfold DescReady; decide +kernel

/-- The move that its body names. -/
def reservedCopyMove : MoveJob := descMove reservedCopyFetched reservedCopy (.side .da) 0x20000

theorem reservedCopyMove_passes : reservedCopyMove.overlap = false ∧ reservedCopyMove.held reservedCopyFetched = none ∧
    ∀ r ∈ reservedCopyMove.runs, reservedCopyMove.runFail reservedCopyFetched .ok r = none := by
  decide +kernel

/-- Refutes O42: its COPY clause puts no condition on the reserved bits of the header's word, and a COPY that sets one
ends with DESC_INVALID, not with OK. -/
theorem not_descriptorsRunInOrder : ¬ Obligations.DescriptorsRunInOrder := by
  rintro ⟨⟨-, hmoves, -⟩, -⟩
  obtain ⟨hcopy, -⟩ := hmoves reservedCopy reservedCopyFetched
  obtain ⟨hoverlap, hheld, hruns⟩ := reservedCopyMove_passes
  have hok := hcopy reservedCopyFetched_ready (by decide) rfl rfl hoverlap hheld hruns
  rw [descCopy_reserved .ok reservedCopyFetched_ready (by decide)] at hok
  have hfetched := congrArg State.fetched (Host.Outcome.next.inj hok)
  exact absurd hfetched (by decide)

end Sys2Proof.Proofs
end

section
/-! PROOFS. FENCE, PHASE and the end of their waits (spec/06_memory_and_ordering.md R176, R177;
spec/08_nolpa_tensor_reference.md R273): first what an instruction that goes on leaves of its tile, waiting or not, then
the two instructions, then the release. -/
namespace Sys2Proof.Proofs

open Sys2Proof Sys2Proof.Machine Sys2Proof.Claims Sys2Proof.Laws

/-! ## An instruction retires -/

section
variable {t : Tile} (hstate : t.state = tsRunning) (hwait : t.wait = .none) (hhalt : t.haltReq = false) (pc : Nat)
include hstate hwait hhalt

/-- The fields of TC_STATUS above its state stay. -/
theorem fld_advance {g : Fld} (hoff : g.off = Csr.tcStatus) (hlo : 2 ≤ g.lo) : (t.advance pc).fld g = t.fld g := by
  have hcount : (t.setWord Csr.tcInstret (t.word Csr.tcInstret + 1)).fld g = t.fld g := by
    rw [Tile.fld, twrd_setWord, if_neg (by rw [hoff]; decide)]; rfl
  rw [advance_cases t pc hstate hwait hhalt, ← hcount]
  split
  · exact enterDebug_fld _ _ _ hoff hlo
  · rfl

/-- The last clause of `Retires`: a step ends in DEBUG, and otherwise the registers of the core's state stay. -/
theorem step_advance : if t.stepping ∨ t.haltReq then
      (t.advance pc).state = tsDebug ∧ (t.advance pc).dbgFrom = t.state ∧
        (t.advance pc).fld Csr.tcDbgSts_reason = (if t.stepping then 3 else 0) ∧ (t.advance pc).fld Csr.tcDbgSts_halted = 0
    else (t.advance pc).word Csr.tcStatus = t.word Csr.tcStatus ∧ (t.advance pc).word Csr.tcDbgSts = t.word Csr.tcDbgSts ∧
      (t.advance pc).dbgFrom = t.dbgFrom := by
  have hstay (o : Nat) (ho : o ≠ Csr.tcInstret) : (t.setWord Csr.tcInstret (t.word Csr.tcInstret + 1)).word o = t.word o := by
    rw [twrd_setWord, if_neg ho]
  rw [advance_cases t pc hstate hwait hhalt, hhalt]
  cases hstep : t.stepping with
  | true =>
    simp only [true_or, if_true]
    refine ⟨enterDebug_state .., ?_, enterDebug_reason .., enterDebug_halted ..⟩
    exact congrArg (bits · _ _) (hstay Csr.tcStatus (by decide))
  | false =>
    simp only [Bool.false_eq_true, or_self, if_false]
    exact ⟨hstay _ (by decide), hstay _ (by decide), rfl⟩

theorem retires_advance : Retires t (t.advance pc) pc := by
  refine ⟨?_, instret_advance hstate hwait hhalt pc, fun o hinstret hstatus hdbg => ?_,
    fld_advance hstate hwait hhalt pc rfl (by decide), fld_advance hstate hwait hhalt pc rfl (by decide),
    fld_advance hstate hwait hhalt pc rfl (by decide), step_advance hstate hwait hhalt pc⟩
  · refine (advance_frame hstate hwait hhalt pc).trans ?_
    rw [tile_advance_sreg, tile_advance_dreg, tile_advance_ibuf, ← hhalt]
  · exact word_advance hstate hwait hhalt pc (by simp [hinstret, hstatus, hdbg])

end

/-- An instruction retires in the same way where it leaves its core waiting. -/
theorem retires_withWait {a b : Tile} {pc : Nat} (h : Retires a b pc) (w : Wait) :
    Retires { a with wait := w } { b with wait := w } pc := by
  obtain ⟨hframe, hrest⟩ := h
  exact ⟨congrArg (fun t : Tile => { t with wait := w }) hframe, hrest⟩

theorem boundary_fence {t : Tile} (hwait : t.wait = .none) (seqs : List Nat) (ph : Option Nat) :
    ({ t with wait := .fence seqs ph } : Tile).boundary = { t.boundary with wait := .fence seqs ph } := by
  have hat : t.atBoundary = true := by rw [Tile.atBoundary, hwait]
  have hdebug (r : Nat) : ({ t with wait := .fence seqs ph } : Tile).enterDebug r =
      { t.enterDebug r with wait := .fence seqs ph } := by
    simp only [Tile.enterDebug, Tile.setState, Tile.setFld, Tile.setWord, Tile.word]
    rfl
  unfold Tile.boundary
  rw [hdebug, hdebug, hat, show ({ t with wait := .fence seqs ph } : Tile).atBoundary = true from rfl]
  have hsame : ({ t with wait := .fence seqs ph } : Tile).state = t.state := rfl
  rw [hsame]
  split
  · split
    · rfl
    · split <;> rfl
  · rfl

theorem advanceWait_fence {t : Tile} (hwait : t.wait = .none) (seqs : List Nat) (ph : Option Nat) :
    t.advanceWait (.fence seqs ph) = { t.advance ((t.pc + 8) % 2 ^ 48) with wait := .fence seqs ph } :=
  boundary_fence (t := { t.setWord Csr.tcInstret (t.word Csr.tcInstret + 1) with
    pc := (t.pc + 8) % 2 ^ 48, bpPassed := false }) hwait seqs ph

/-! ## FENCE and PHASE -/

/-- A FENCE or a PHASE goes to the next word. -/
theorem nextPc_short {t : Tile} {w : W64} (h : fOp w < 0xF0) : nextPc t w = (t.pc + 8) % 2 ^ 48 := by
  have hx : ¬ (fOp w = 0xF0 ∨ fOp w = 0xF1 ∨ fOp w = 0xF2) := by omega
  rw [nextPc, if_neg hx]

/-- The engines bit of a FENCE or a PHASE. -/
theorem fl_engines (w : W64) : fl w 4 1 = 1 ↔ bit w 4 = true := by
  rw [← bits_one_eq_bit]
  exact beq_iff_eq.symm

theorem not_isEmpty_earlierSet (t : Tile) : (!t.earlierSet.isEmpty) = t.inflight.any (fun f => !f.done) := by
  rw [Bool.eq_iff_iff]
  simp [Tile.earlierSet]

/-- Tile `b` is `a` after an instruction that has gone on to the next word. -/
def WentOn (a b : Tile) : Prop := b.sreg = a.sreg ∧ b.dreg = a.dreg ∧ Retires a b ((a.pc + 8) % 2 ^ 48)

section
variable {t : Tile} (hissue : t.canIssue = true)
include hissue

theorem wentOn_advance {w : W64} (hop : fOp w < 0xF0) : WentOn t (t.advance (pcNext t.pc w)) := by
  obtain ⟨hstate, hwait, hhalt⟩ := canIssue_wait t hissue
  refine ⟨tile_advance_sreg .., tile_advance_dreg .., ?_⟩
  rw [pcNext_eq_nextPc, nextPc_short hop]
  exact retires_advance hstate hwait hhalt _

theorem wentOn_advanceWait (seqs : List Nat) (ph : Option Nat) :
    WentOn { t with wait := .fence seqs ph } (t.advanceWait (.fence seqs ph)) := by
  obtain ⟨hstate, hwait, hhalt⟩ := canIssue_wait t hissue
  rw [advanceWait_fence hwait]
  exact ⟨tile_advance_sreg .., tile_advance_dreg .., retires_withWait (retires_advance hstate hwait hhalt _) _⟩

end

/-- An issue whose effect replaces its tile, by a function of the tile, changes that tile alone. -/
theorem issue_setTile {i : Issue} {s : State} (h : s.Issues i) {isRow : W64 → Bool} (hrow : isRow i.word = true)
    (g : Tile → Tile) : ∃ t b, issue i isRow (fun n u => u.setTile n (g (u.tile n))) s = .next t ∧ s.OnlyTile i.tile t ∧
      t.tile i.tile = g { s.tile i.tile with ibuf := b } := by
  obtain ⟨b, hnext⟩ := issue_next i isRow (fun n u => u.setTile n (g (u.tile n))) s h hrow
  rw [tile_setTile_same] at hnext
  exact ⟨_, b, hnext, onlyTile_trans (onlyTile_setTile ..) (onlyTile_setTile ..), tile_setTile_same ..⟩

/-- What a FENCE does to its tile. -/
def fenceTile (w : W64) (t : Tile) : Tile :=
  if fl w 4 1 = 1 && !t.earlierSet.isEmpty then t.advanceWait (.fence t.earlierSet none) else t.advance (pcNext t.pc w)

theorem wentOn_fenceTile {t : Tile} (hissue : t.canIssue = true) {w : W64} (hop : fOp w = 0xC1) :
    if bit w 4 = true ∧ t.inflight.any (fun f => !f.done) = true then
      WentOn { t with wait := .fence t.earlierSet none } (fenceTile w t)
    else WentOn t (fenceTile w t) := by
  unfold fenceTile
  simp only [not_isEmpty_earlierSet, Bool.and_eq_true, decide_eq_true_eq, fl_engines]
  split
  · exact wentOn_advanceWait hissue _ _
  · exact wentOn_advance hissue (by omega)

theorem fence_goesOn (i : Issue) (s : State) (h : s.Issues i) (hop : fOp i.word = 0xC1) :
    ∃ t, exec (.fence i) s = .next t ∧ s.OnlyTile i.tile t ∧
      let a := s.tile i.tile
      let b := t.tile i.tile
      if bit i.word 4 = true ∧ a.inflight.any (fun f => !f.done) = true then
        WentOn { a with wait := .fence a.earlierSet none } b
      else WentOn a b := by
  have hexec : exec (.fence i) s =
      issue i (fun w => fOp w == 0xC1) (fun n u => u.setTile n (fenceTile i.word (u.tile n))) s := by
    rw [exec_fence, execFence]
    refine congrArg (issue i (fun w => fOp w == 0xC1) · s) (funext fun n => funext fun u => ?_)
    exact (apply_ite (u.setTile n) ..).symm
  obtain ⟨t, b, hnext, honly, htile⟩ := issue_setTile h (isRow := fun w => fOp w == 0xC1) (by simp [hop])
    (fenceTile i.word)
  rw [hexec]
  refine ⟨t, hnext, honly, ?_⟩
  rw [htile]
  exact wentOn_fenceTile (t := { s.tile i.tile with ibuf := b }) h.2.1 hop

/-- What a PHASE does to its tile. -/
def phaseTile (w : W64) (t : Tile) : Tile :=
  if fl w 4 1 = 1 && !t.inflight.isEmpty then
    t.advanceWait (.fence (t.inflight.map (fun f => f.seq)) (some (fl w 0 4)))
  else { t with phase := fl w 0 4 }.advance (pcNext t.pc w)

theorem wentOn_phaseTile {t : Tile} (hissue : t.canIssue = true) {w : W64} (hop : fOp w = 0xC3) :
    if bit w 4 = true ∧ t.inflight ≠ [] then
      WentOn { t with wait := .fence (t.inflight.map (fun f => f.seq)) (some (bits w 0 4)) } (phaseTile w t)
    else WentOn { t with phase := bits w 0 4 } (phaseTile w t) := by
  have hempty : (!t.inflight.isEmpty) = true ↔ t.inflight ≠ [] := by simp
  unfold phaseTile
  simp only [Bool.and_eq_true, decide_eq_true_eq, fl_engines, hempty]
  split
  · exact wentOn_advanceWait hissue _ _
  · exact wentOn_advance (t := { t with phase := fl w 0 4 }) hissue (by omega)

theorem phase_goesOn (i : Issue) (s : State) (h : s.Issues i) (hop : fOp i.word = 0xC3) :
    ∃ t, exec (.phase i) s = .next t ∧ s.OnlyTile i.tile t ∧
      let a := s.tile i.tile
      let b := t.tile i.tile
      if bit i.word 4 = true ∧ a.inflight ≠ [] then
        WentOn { a with wait := .fence (a.inflight.map (fun f => f.seq)) (some (bits i.word 0 4)) } b
      else WentOn { a with phase := bits i.word 0 4 } b := by
  have hexec : exec (.phase i) s =
      issue i (fun w => fOp w == 0xC3) (fun n u => u.setTile n (phaseTile i.word (u.tile n))) s := by
    rw [exec_phase, execPhase]
    refine congrArg (issue i (fun w => fOp w == 0xC3) · s) (funext fun n => funext fun u => ?_)
    exact (apply_ite (u.setTile n) ..).symm
  obtain ⟨t, b, hnext, honly, htile⟩ := issue_setTile h (isRow := fun w => fOp w == 0xC3) (by simp [hop])
    (phaseTile i.word)
  rw [hexec]
  refine ⟨t, hnext, honly, ?_⟩
  rw [htile]
  exact wentOn_phaseTile (t := { s.tile i.tile with ibuf := b }) h.2.1 hop

/-! ## The release -/

/-- The wait ends, and a PHASE enters its phase, once nothing that it waits for is unperformed or, for a PHASE, in
flight (R177, R273). -/
theorem fenceComplete_releases (n : Nat) (seqs : List Nat) (ph : Option Nat) (s : State)
    (hwait : (s.tile n).wait = .fence seqs ph) (hstate : (s.tile n).state = tsRunning)
    (hperformed : ∀ f ∈ (s.tile n).inflight, f.seq ∈ seqs → f.done = true ∧ ph = none) :
    ∃ t, exec (.fenceComplete n) s = .next t ∧ s.OnlyTile n t ∧
      t.tile n = { s.tile n with wait := .none, phase := ph.getD (s.tile n).phase } := by
  have hdone : (s.tile n).inflight.any (fun f => seqs.contains f.seq && (!f.done || ph.isSome)) = false := by
    rw [List.any_eq_false]
    intro f hf hbusy
    simp only [Bool.and_eq_true, List.contains_iff_mem, Bool.or_eq_true, Bool.not_eq_true'] at hbusy
    obtain ⟨hmem, hleft⟩ := hbusy
    obtain ⟨hd, rfl⟩ := hperformed f hf hmem
    simp [hd] at hleft
  refine ⟨s.setTile n { s.tile n with wait := .none, phase := ph.getD (s.tile n).phase }, ?_, onlyTile_setTile ..,
    tile_setTile_same ..⟩
  simp only [exec_fenceComplete, execFenceComplete, hwait, hstate, hdone]
  cases ph <;> rfl

/-- Settles O11: FENCE and PHASE go on from one tile to the next, and the release ends their wait. -/
theorem fencesAndPhases : Obligations.FencesAndPhases := by
  refine ⟨fun i s h hop => ?_, fun i s h hop => ?_, fenceComplete_releases⟩
  · obtain ⟨t, hnext, honly, hgo⟩ := fence_goesOn i s h hop
    refine ⟨t, hnext, honly, ?_⟩
    dsimp only at hgo ⊢
    split_ifs at hgo ⊢ <;> exact hgo
  · obtain ⟨t, hnext, honly, hgo⟩ := phase_goesOn i s h hop
    refine ⟨t, hnext, honly, ?_⟩
    dsimp only at hgo ⊢
    split_ifs at hgo ⊢ <;> exact hgo

end Sys2Proof.Proofs
end

section
/-! PROOFS. Ring commands and ring indices (spec/06_memory_and_ordering.md R186 to R191, R200, R508): first the commands,
then the entry that a LOAD reads, then the writes of indices and of the M-level ring's registers. -/
namespace Sys2Proof.Proofs

open Sys2Proof Sys2Proof.Machine Sys2Proof.Claims Sys2Proof.Laws

/-! ## Commands -/

theorem ringBusy_iff (s : State) (p : Nat) : s.ringBusy p = true ↔ s.fld (Csr.memRingCmd_busy p) = 1 := flag_iff ..

theorem sets_ctxErr (s : State) (r : Nat) : Sets [(Csr.memRingSts_ctx_err r, 1)] s (s.ctxErr r) :=
  sets_setFld s 1 (by simp)

/-- The ring of a command belongs to the command's partition. -/
theorem ringNumber_div {i : Nat} (p : Nat) (hi : i < 1024) : (1024 * p + i) / 1024 = p := by omega

theorem ringLoad_sets {p i : Nat} (s : State) (hp : p < 32) (hi : i < 1024) :
    let r := 1024 * p + i
    ∃ t, exec (.ringLoad p i) s = .next t ∧
      if s.fld (Csr.memRingCmd_busy p) ≠ 1 ∧ s.fld (Csr.prtPart_state p) ≠ ptWithdrawn ∧
          (s.fld (Csr.memRingSts_state r) = 0 ∨ s.fld (Csr.memRingSts_state r) = 3) then
        Sets [(Csr.memRingCmd_busy p, 1)] { s with loading := NMap.insert s.loading p i } t
      else Sets [(Csr.memRingSts_ctx_err r, 1)] s t := by
  intro r
  refine ⟨s.ringLoad p i, by rw [exec_ringLoad, execRingLoad, if_pos ⟨hp, hi⟩], ?_⟩
  have hrefused : (s.ringBusy p || s.fld (Csr.prtPart_state p) == ptWithdrawn ||
      !(s.ringState r == rsDisabled || s.ringState r == rsStopped)) = true ↔
      ¬ (s.fld (Csr.memRingCmd_busy p) ≠ 1 ∧ s.fld (Csr.prtPart_state p) ≠ ptWithdrawn ∧
        (s.fld (Csr.memRingSts_state r) = 0 ∨ s.fld (Csr.memRingSts_state r) = 3)) := by
    simp only [Bool.or_eq_true, ringBusy_iff, beq_iff_eq, Bool.not_eq_true', Bool.or_eq_false_iff, beq_eq_false_iff_ne]
    tauto
  unfold State.ringLoad
  dsimp only
  rw [if_congr hrefused rfl rfl, ite_not]
  split
  · exact sets_setFld _ 1 (by simp)
  · exact sets_ctxErr s r

/-- A RUNNING ring that is stopped drains first where entries of it have been fetched (R191). -/
theorem stopRing_running {s : State} {r : Nat} (h : s.fld (Csr.memRingSts_state r) = 1) :
    s.stopRing r = s.setFld (Csr.memRingSts_state r)
      (if s.fld (Csr.memRingSts_kind r) ≠ 4 ∧ s.fetched.any (fun f => f.ring == r) then 2 else 3) := by
  have hdrains : (s.fetched.any (fun f => decide (f.ring = r)) && decide (s.fld (Csr.memRingSts_kind r) ≠ 4)) = true ↔
      s.fld (Csr.memRingSts_kind r) ≠ 4 ∧ s.fetched.any (fun f => f.ring == r) = true := by
    rw [Bool.and_eq_true, decide_eq_true_eq, and_comm]; rfl
  rw [State.stopRing, if_pos h, if_congr hdrains rfl rfl]
  exact (apply_ite (s.setFld (Csr.memRingSts_state r)) ..).symm

theorem ringStop_sets {p i : Nat} (s : State) (hp : p < 32) (hi : i < 1024) :
    let r := 1024 * p + i
    ∃ t, exec (.ringStop p i) s = .next t ∧
      if s.fld (Csr.memRingCmd_busy p) ≠ 1 ∧ s.fld (Csr.memRingSts_state r) = 1 then
        Sets [(Csr.memRingSts_state r,
          if s.fld (Csr.memRingSts_kind r) ≠ 4 ∧ s.fetched.any (fun f => f.ring == r) then 2 else 3)] s t
      else Sets [(Csr.memRingSts_ctx_err r, 1)] s t := by
  intro r
  refine ⟨s.ringStop p i, by rw [exec_ringStop, execRingStop, if_pos ⟨hp, hi⟩], ?_⟩
  have hrefused : (s.ringBusy p || s.ringState r != rsRunning) = true ↔
      ¬ (s.fld (Csr.memRingCmd_busy p) ≠ 1 ∧ s.fld (Csr.memRingSts_state r) = 1) := by
    simp only [Bool.or_eq_true, ringBusy_iff, bne_iff_ne]
    tauto
  unfold State.ringStop
  dsimp only
  rw [if_congr hrefused rfl rfl, ite_not]
  split
  · next hgo =>
    rw [stopRing_running hgo.2]
    exact sets_setFld s _ (by simp)
  · exact sets_ctxErr s r

theorem ringResume_sets {p i : Nat} (s : State) (hp : p < 32) (hi : i < 1024) :
    let r := 1024 * p + i
    ∃ t, exec (.ringResume p i) s = .next t ∧
      if s.fld (Csr.memRingCmd_busy p) ≠ 1 ∧ s.fld (Csr.memRingSts_state r) = 3 then
        ∃ u, Sets [(Csr.memRingSts_state r, 1)] s u ∧
          t = if s.fld (Csr.memRingSts_kind r) = 4 then u.drainP p 64 else u
      else Sets [(Csr.memRingSts_ctx_err r, 1)] s t := by
  intro r
  refine ⟨s.ringResume p i, by rw [exec_ringResume, execRingResume, if_pos ⟨hp, hi⟩], ?_⟩
  have hrefused : (s.ringBusy p || s.ringState r != rsStopped) = true ↔
      ¬ (s.fld (Csr.memRingCmd_busy p) ≠ 1 ∧ s.fld (Csr.memRingSts_state r) = 3) := by
    simp only [Bool.or_eq_true, ringBusy_iff, bne_iff_ne]
    tauto
  unfold State.ringResume
  dsimp only
  rw [if_congr hrefused rfl rfl, ite_not]
  split
  · have hrun : Sets [(Csr.memRingSts_state r, 1)] s (s.setFld (Csr.memRingSts_state r) 1) := sets_setFld s 1 (by simp)
    refine ⟨_, hrun, ?_⟩
    have hkind := fld_of_sets hrun (g := Csr.memRingSts_kind r) (by simp [Apart])
    rw [State.ringAdvanced, State.ringKind, hkind, ringNumber_div p hi]
  · exact sets_ctxErr s r

/-! ## The entry that a LOAD reads -/

/-- A block whose ring contexts are `rings`, and ring `r` at index 0 in both directions, of a kind and in a state. -/
def ringSet (r kind state : Nat) (rings : NMap Ring) (s : State) : State :=
  (({ (s.setFld (Csr.memRingIdx_idx r) 0).setFld (Csr.memRingSts_dev_idx r) 0 with rings := rings } : State).setFld
    (Csr.memRingSts_kind r) kind).setFld (Csr.memRingSts_state r) state

/-- Contexts and registers do not meet; the fields are variables here, so that no comparison of states evaluates them. -/
theorem withRings_setFld (s : State) (f g : Fld) (v w : Nat) (rings : NMap Ring) :
    { (s.setFld f v).setFld g w with rings := rings } = (({ s with rings := rings } : State).setFld f v).setFld g w := rfl

theorem sets_ringSet (r kind state : Nat) (rings : NMap Ring) (s : State) : Sets [(Csr.memRingIdx_idx r, 0),
    (Csr.memRingSts_dev_idx r, 0), (Csr.memRingSts_kind r, kind), (Csr.memRingSts_state r, state)]
    { s with rings := rings } (ringSet r kind state rings s) := by
  rw [ringSet, withRings_setFld]
  have hidx := sets_setFld { s with rings := rings } (f := Csr.memRingIdx_idx r) 0 (by simp)
  have hdev := sets_append_setFld hidx (f := Csr.memRingSts_dev_idx r) (by simp) (by simp [Apart]) 0
  have hkind := sets_append_setFld hdev (f := Csr.memRingSts_kind r) (by simp) (by simp [Apart]) kind
  exact sets_append_setFld hkind (f := Csr.memRingSts_state r) (by simp) (by simp [Apart]) state

theorem ringKind_ringSet (r kind state : Nat) (rings : NMap Ring) (s : State) :
    (ringSet r kind state rings s).ringKind r = kind % 8 :=
  (sets_ringSet r kind state rings s).2.1 (Csr.memRingSts_kind r, kind) (by simp)

/-- What a block becomes once ring `r`, number `i` of partition `p`, has taken a context or none (R187, R191). -/
def contextTaken (p i r : Nat) (ctx : Option (Nat × Option Ring)) (v : State) : State :=
  match ctx with
  | some (kind, some c) => (ringSet r kind 1 (NMap.insert v.rings r c) v).ringAdvanced r
  | some (_, none) => ringSet r 0 0 (NMap.erase v.rings r) v
  | none => ((ringSet r 0 0 (NMap.erase v.rings r) v).ctxErr r).raise
      (hubEvent 0 p 0x0508 sevFault (w64 (i * 2 ^ 32)) 0)

/-- The context that R187 admits of what the ring engine of partition `p` has read at `a`. -/
def contextOf (p a r : Nat) (fail : Option Nat) (v : State) : Option (Nat × Option Ring) :=
  if fail ≠ none ∨ v.owns p a 64 = false then none else v.parseContext r (v.words a 8)

theorem loadContext_eq (s : State) (p i : Nat) (e : Ecc) :
    let r := 1024 * p + i
    let a := s.contextAt p i
    let u := { s with loading := NMap.erase s.loading p }.setFld (Csr.memRingCmd_busy p) 0
    s.loadContext p i e =
      contextTaken p i r (contextOf p a r (u.ringRead p a e).2 (u.ringRead p a e).1) (u.ringRead p a e).1 := by
  intro r a u
  unfold State.loadContext
  dsimp only
  have hctx : contextOf p a r (u.ringRead p a e).2 (u.ringRead p a e).1 =
      if (u.ringRead p a e).2.isSome ∨ (u.ringRead p a e).1.owns p a 64 = false then none
      else (u.ringRead p a e).1.parseContext r ((u.ringRead p a e).1.words a 8) :=
    if_congr (by rw [Option.isSome_iff_ne_none]) rfl rfl
  rw [hctx]
  generalize (if (u.ringRead p a e).2.isSome ∨ (u.ringRead p a e).1.owns p a 64 = false then none
      else (u.ringRead p a e).1.parseContext r ((u.ringRead p a e).1.words a 8)) = ctx
  generalize (u.ringRead p a e).1 = v
  rcases ctx with _ | ⟨kind, _ | c⟩ <;> rfl

/-- What a LOAD takes of its entry, in the words of the statement. -/
def TakesContext (p i r : Nat) (ctx : Option (Nat × Option Ring)) (v w t : State) : Prop :=
  match ctx with
  | some (kind, some c) =>
    Sets [(Csr.memRingIdx_idx r, 0), (Csr.memRingSts_dev_idx r, 0), (Csr.memRingSts_kind r, kind),
      (Csr.memRingSts_state r, 1)] { v with rings := NMap.insert v.rings r c } w ∧
    t = if kind % 8 = 4 then w.drainP (r / 1024) 64 else w
  | some (_, none) =>
    Sets [(Csr.memRingIdx_idx r, 0), (Csr.memRingSts_dev_idx r, 0), (Csr.memRingSts_kind r, 0),
      (Csr.memRingSts_state r, 0)] { v with rings := NMap.erase v.rings r } w ∧ t = w
  | none =>
    Sets [(Csr.memRingIdx_idx r, 0), (Csr.memRingSts_dev_idx r, 0), (Csr.memRingSts_kind r, 0),
      (Csr.memRingSts_state r, 0), (Csr.memRingSts_ctx_err r, 1)] { v with rings := NMap.erase v.rings r } w ∧
    t = w.raise (hubEvent 0 p 0x0508 sevFault (BitVec.ofNat 64 (i * 2 ^ 32)) 0)

theorem takesContext_contextTaken (p i r : Nat) (ctx : Option (Nat × Option Ring)) (v : State) :
    ∃ w, TakesContext p i r ctx v w (contextTaken p i r ctx v) := by
  rcases ctx with _ | ⟨kind, _ | c⟩
  · exact ⟨_, sets_append_setFld (sets_ringSet r 0 0 (NMap.erase v.rings r) v) (by simp) (by simp [Apart]) 1, rfl⟩
  · exact ⟨_, sets_ringSet r 0 0 (NMap.erase v.rings r) v, rfl⟩
  · refine ⟨_, sets_ringSet r kind 1 (NMap.insert v.rings r c) v, ?_⟩
    rw [contextTaken, State.ringAdvanced, ringKind_ringSet]

theorem ringLoadComplete_takes (p i : Nat) (e : Ecc) (s : State) (hload : NMap.find? s.loading p = some i) :
    let r := 1024 * p + i
    let a := (s.word (Csr.memRctx p) &&& 0xFFFFFFFF0000).toNat + 64 * i
    (s.heldAt (some p) none (hubOf p) a ≠ none → exec (.ringLoadComplete p e) s = .next s) ∧
    (s.heldAt (some p) none (hubOf p) a = none → ∃ t u v w : State, exec (.ringLoadComplete p e) s = .next t ∧
      Sets [(Csr.memRingCmd_busy p, 0)] { s with loading := NMap.erase s.loading p } u ∧ v = (u.ringRead p a e).1 ∧
      TakesContext p i r (contextOf p a r (u.ringRead p a e).2 v) v w t) := by
  intro r a
  have hexec : exec (.ringLoadComplete p e) s =
      .next (if (s.heldAt (some p) none (hubOf p) a).isSome then s else s.loadContext p i e) := by
    rw [exec_ringLoadComplete, execRingLoadComplete, hload]
    rfl
  refine ⟨fun hheld => ?_, fun hfree => ?_⟩
  · rw [hexec, if_pos (Option.isSome_iff_ne_none.mpr hheld)]
  · let u := { s with loading := NMap.erase s.loading p }.setFld (Csr.memRingCmd_busy p) 0
    obtain ⟨w, hw⟩ := takesContext_contextTaken p i r (contextOf p a r (u.ringRead p a e).2 (u.ringRead p a e).1)
      (u.ringRead p a e).1
    refine ⟨_, u, _, w, ?_, sets_setFld _ 0 (by simp), rfl, hw⟩
    rw [hexec, hfree, loadContext_eq]
    rfl

theorem ringCommands : RingCommands := by
  refine ⟨fun p i s hp hi => ⟨ringLoad_sets s hp hi, ringStop_sets s hp hi, ringResume_sets s hp hi⟩,
    fun p i e s hload => ?_⟩
  obtain ⟨hheld, hgo⟩ := ringLoadComplete_takes p i e s hload
  refine ⟨hheld, fun hfree => ?_⟩
  obtain ⟨t, u, v, w, hexec, hsets, hv, htakes⟩ := hgo hfree
  refine ⟨t, u, v, w, hexec, hsets, hv, ?_⟩
  unfold TakesContext contextOf at htakes
  exact htakes

/-! ## Index writes -/

/-- The distance from an index in a register to another. -/
theorem idxDiff_of_lt {b : Nat} (a : Nat) (hb : b < 2 ^ 32) : idxDiff a b = (a + 2 ^ 32 - b) % 2 ^ 32 := by
  rw [idxDiff, Nat.mod_eq_of_lt hb]

/-- A discarded index write, in the words of the statement. -/
def Spills (r : Nat) (s t : State) : Prop :=
  ∃ u, Sets [(Csr.memRingSts_overrun r, 1)] s u ∧
    t = u.raise (hubEvent 0 (r / 1024) 0x0507 sevFault (BitVec.ofNat 64 (r % 1024 * 2 ^ 32)) 0)

theorem spills_overrun (r : Nat) (s : State) : Spills r s (s.overrun r) := ⟨_, sets_setFld s 1 (by simp), rfl⟩

theorem exec_indexWrite {r : Nat} (v : W64) {i : Instr} (s : State) (hr : r < 32768)
    (hi : i = .ringDoorbell r v ∨ i = .eventRingConsume r v) : exec i s = .next (s.writeIndex r (bits v 0 32)) := by
  obtain rfl | rfl := hi
  · rw [exec_ringDoorbell, execRingDoorbell, if_pos hr]
  · rw [exec_eventRingConsume, execEventRingConsume, if_pos hr]

section
variable {s : State} {r : Nat} (x : Nat)

theorem writeIndex_discarded (h : s.ringState r = rsDisabled ∨ s.seqHolds r = true) : s.writeIndex r x = s.overrun r :=
  if_pos h

variable (hstate : s.fld (Csr.memRingSts_state r) ≠ 0) (hseq : s.seqHolds r = false)
include hstate hseq

theorem writeIndex_admitted : s.writeIndex r x = if s.ringKind r = 4 then s.consumeRing r x else s.publish r x := by
  rw [State.writeIndex, if_neg]
  rintro (h | h)
  · exact hstate h
  · rw [hseq] at h; cases h

/-- A producer index is taken where the entries up to it fit the ring (Table 6.8). -/
theorem writeIndex_publishes {c : Ring} (hkind : s.fld (Csr.memRingSts_kind r) ≠ 4) (hring : s.ring? r = some c) :
    let host := s.fld (Csr.memRingIdx_idx r)
    let dev := s.fld (Csr.memRingSts_dev_idx r)
    if (x + 2 ^ 32 - host) % 2 ^ 32 ≤ 2 ^ c.sizeLog2 - (host + 2 ^ 32 - dev) % 2 ^ 32 then
      Sets [(Csr.memRingIdx_idx r, x)] s (s.writeIndex r x)
    else Spills r s (s.writeIndex r x) := by
  intro host dev
  rw [writeIndex_admitted x hstate hseq, if_neg hkind, State.publish, hring]
  dsimp only
  rw [idxDiff_of_lt _ (fld_lt ..), idxDiff_of_lt _ (fld_lt ..)]
  split
  · exact sets_setFld s x (by simp)
  · exact spills_overrun r s

/-- A consumer index is taken where it does not pass the producer's, and lets held records through (R189, R200). -/
theorem writeIndex_consumes (hkind : s.fld (Csr.memRingSts_kind r) = 4) :
    let host := s.fld (Csr.memRingIdx_idx r)
    let dev := s.fld (Csr.memRingSts_dev_idx r)
    if (x + 2 ^ 32 - host) % 2 ^ 32 ≤ (dev + 2 ^ 32 - host) % 2 ^ 32 then
      ∃ u, Sets [(Csr.memRingIdx_idx r, x)] s u ∧ s.writeIndex r x = u.drainP (r / 1024) 64
    else Spills r s (s.writeIndex r x) := by
  intro host dev
  rw [writeIndex_admitted x hstate hseq, if_pos hkind, State.consumeRing]
  rw [idxDiff_of_lt _ (fld_lt ..), idxDiff_of_lt _ (fld_lt ..)]
  split
  · have htaken : Sets [(Csr.memRingIdx_idx r, x)] s (s.setFld (Csr.memRingIdx_idx r) x) := sets_setFld s x (by simp)
    refine ⟨_, htaken, ?_⟩
    rw [State.ringAdvanced, State.ringKind, fld_of_sets htaken (by simp [Apart]), if_pos hkind]
  · exact spills_overrun r s

end

/-! ## The M-level ring -/

theorem mevqConsume_advances (v : W64) (s : State) :
    let x := bits v 0 32
    let cons := s.fld Csr.memMevqCons_cons
    ∃ t, exec (.mevqConsume v) s = .next t ∧
      if (x + 2 ^ 32 - cons) % 2 ^ 32 ≤ (s.fld Csr.memMevqSts_prod + 2 ^ 32 - cons) % 2 ^ 32 then
        ∃ u, Sets [(Csr.memMevqCons_cons, x)] s u ∧ t = u.drainM 64
      else t = s.raiseM (hubUnitEvent 1 0 0x0507 sevFault 0 0) := by
  intro x cons
  refine ⟨_, exec_mevqConsume v s, ?_⟩
  rw [State.consumeM]
  rw [idxDiff_of_lt _ (fld_lt ..), idxDiff_of_lt _ (fld_lt ..)]
  split
  · exact ⟨_, sets_setFld s _ (by simp), rfl⟩
  · rfl

/-- MEM_MEVQ_CFG with a base and a size (R508). -/
def mevqSet (base size : Nat) (s : State) : State :=
  (s.setFld Csr.memMevqCfg_base base).setFld Csr.memMevqCfg_size_log2 size

theorem sets_mevqSet (base size : Nat) (s : State) :
    Sets [(Csr.memMevqCfg_base, base), (Csr.memMevqCfg_size_log2, size)] s (mevqSet base size s) :=
  sets_append_setFld (sets_setFld s base (by decide)) (by decide) (by simp [Apart]) size

theorem sets_mevqSet_restarted (base size : Nat) (s : State) : Sets [(Csr.memMevqCfg_base, base),
    (Csr.memMevqCfg_size_log2, size), (Csr.memMevqSts_prod, 0), (Csr.memMevqCons_cons, 0)] s
    (((mevqSet base size s).setFld Csr.memMevqSts_prod 0).setFld Csr.memMevqCons_cons 0) :=
  sets_append_setFld (sets_append_setFld (sets_mevqSet base size s) (f := Csr.memMevqSts_prod) (by decide)
    (by simp [Apart]) 0) (f := Csr.memMevqCons_cons) (by decide) (by simp [Apart]) 0

/-- R508's check of a base and a size, with its question whether the base lies in package memory answered by `b`. -/
def mevqRefuses (s : State) (base size : Nat) (b : Bool) : Bool :=
  decide (4 ≤ size ∧ size ≤ 16) && !(base % (32 * 2 ^ size) == 0 && (memRange base (32 * 2 ^ size) && b &&
    !s.stackFailed base && !s.stackFailed (base + 32 * 2 ^ size - 1)))

theorem mevqCfg_eq (s : State) (v : W64) : ∃ b, (b = true ↔ ∃ k, region (bits v 0 48) = .pkg k) ∧
    s.mevqCfg v = if mevqRefuses s (bits v 0 48) (bits v 48 5) b = true then s.setFld Csr.memMevqSts_cfg_err 1
      else (if bits v 0 48 ≠ s.fld Csr.memMevqCfg_base ∨ bits v 48 5 ≠ s.fld Csr.memMevqCfg_size_log2 then
        ((mevqSet (bits v 0 48) (bits v 48 5) s).setFld Csr.memMevqSts_prod 0).setFld Csr.memMevqCons_cons 0
        else mevqSet (bits v 0 48) (bits v 48 5) s).drainM 64 := by
  unfold State.mevqCfg
  dsimp only
  cases hregion : region (bits v 0 48) with
  | pkg k => exact ⟨true, by simp, rfl⟩
  | _ => exact ⟨false, by simp, rfl⟩

theorem mevqCfgWrite_configures (v : W64) (s : State) :
    let base := bits v 0 48
    let size := bits v 48 5
    let bytes := 32 * 2 ^ size
    let bad := 4 ≤ size ∧ size ≤ 16 ∧ ¬ (base % bytes = 0 ∧ memRange base bytes = true ∧ (∃ k, region base = .pkg k) ∧
      s.stackFailed base = false ∧ s.stackFailed (base + bytes - 1) = false)
    ∃ t, exec (.mevqCfgWrite v) s = .next t ∧
      (bad → Sets [(Csr.memMevqSts_cfg_err, 1)] s t) ∧
      (¬ bad → ∃ u, t = u.drainM 64 ∧
        if base ≠ s.fld Csr.memMevqCfg_base ∨ size ≠ s.fld Csr.memMevqCfg_size_log2 then
          Sets [(Csr.memMevqCfg_base, base), (Csr.memMevqCfg_size_log2, size), (Csr.memMevqSts_prod, 0),
            (Csr.memMevqCons_cons, 0)] s u
        else u.fld Csr.memMevqCfg_base = base ∧ u.fld Csr.memMevqCfg_size_log2 = size ∧
          Sets [(Csr.memMevqCfg_base, base), (Csr.memMevqCfg_size_log2, size)] s u) := by
  intro base size bytes bad
  obtain ⟨b, hpkg, hcfg⟩ := mevqCfg_eq s v
  have hrefuses : mevqRefuses s base size b = true ↔ bad := by
    simp only [mevqRefuses, bad, bytes, Bool.and_eq_true, decide_eq_true_eq, Bool.not_eq_true',
      Bool.eq_false_iff (b := _ && _), beq_iff_eq, and_assoc, ne_eq]
    rw [hpkg]
  refine ⟨_, exec_mevqCfgWrite v s, fun hbad => ?_, fun hgood => ?_⟩
  · rw [hcfg, if_pos (hrefuses.mpr hbad)]
    exact sets_setFld s 1 (by decide)
  · refine ⟨_, hcfg.trans (if_neg (mt hrefuses.mp hgood)), ?_⟩
    by_cases hchanged : base ≠ s.fld Csr.memMevqCfg_base ∨ size ≠ s.fld Csr.memMevqCfg_size_log2
    · rw [if_pos hchanged, if_pos hchanged]
      exact sets_mevqSet_restarted base size s
    · rw [if_neg hchanged, if_neg hchanged]
      have hsets := sets_mevqSet base size s
      obtain ⟨-, hvals, -⟩ := hsets
      have hbase := hvals (Csr.memMevqCfg_base, base) (by simp)
      have hsize := hvals (Csr.memMevqCfg_size_log2, size) (by simp)
      exact ⟨hbase.trans (Nat.mod_eq_of_lt (bits_lt ..)), hsize.trans (Nat.mod_eq_of_lt (bits_lt ..)),
        sets_mevqSet base size s⟩

theorem ringIndicesAdvance : RingIndicesAdvance := by
  refine ⟨fun r v i s hr hi => ?_, mevqConsume_advances, mevqCfgWrite_configures⟩
  refine ⟨_, exec_indexWrite v s hr hi, fun hoff => ?_, fun _ hseq => ?_, fun hstate hseq =>
    ⟨fun c => writeIndex_publishes _ hstate hseq, writeIndex_consumes _ hstate hseq⟩⟩
  · rw [writeIndex_discarded _ (.inl hoff)]
    exact spills_overrun r s
  · rw [writeIndex_discarded _ (.inr hseq)]
    exact spills_overrun r s

/-- Settles O41: the commands and the LOAD's entry, then the indices and the M-level ring's registers. -/
theorem ringsAdvance : Obligations.RingsAdvance := ⟨ringCommands, ringIndicesAdvance⟩

end Sys2Proof.Proofs
end

section
/-! PROOFS. What the checks of an access read of the block (spec/06_memory_and_ordering.md R195;
spec/13_partitions_and_protection.md R377 to R382; spec/14_clocks_and_crossings.md R414): an instruction that has issued
and taken its tracked transfer meets the checks that stood before it. -/
namespace Sys2Proof.Proofs

open Sys2Proof Sys2Proof.Machine Sys2Proof.Claims Sys2Proof.Laws

/-! ## Blocks with the same checks -/

/-- Block `t` checks an access as `s` does: the registers agree but for some of the words that count transfers, so do
memory, crossings and the assignments before a commit, and tiles are in reset, hold chains and are halted as in `s`. -/
structure SameChecks (s t : State) : Prop where
  word : ∀ o, o % 16 ≠ 8 ∨ o < 0x701000 ∨ 0x702000 ≤ o → t.word o = s.word o
  mem : t.mem = s.mem
  admitted : t.admitted = s.admitted
  selfRefresh : t.selfRefresh = s.selfRefresh
  cadOld : t.cadOld = s.cadOld
  commitAt : t.commitAt = s.commitAt
  chains : ∀ m, (t.tile m).chains = (s.tile m).chains
  inReset : ∀ m, (t.tile m).state = tsReset ↔ (s.tile m).state = tsReset
  halted : ∀ m, (s.tile m).halted = true → (t.tile m).halted = true

theorem ite_some_eq_none_iff {α : Type} {p : Prop} [Decidable p] {a : α} {o : Option α} :
    (if p then some a else o) = none ↔ ¬ p ∧ o = none := by
  by_cases h : p <;> simp [h]

/-- An access passes its checks when each of them does (R182, R377). -/
theorem accessFail_eq_none_iff (u : State) (o : Origin) (die : Option Nat) (hub : Nat) (k : Access) (a len : Nat) :
    u.accessFail o die hub k a len = none ↔ memRange a len = true ∧ (u.homeReach die hub a = true ∧
      u.homeReach die hub (a + len - 1) = true) ∧ u.grantedRange o k a len = true ∧ u.cellsBar k a len = false := by
  unfold State.accessFail
  simp only [ite_some_eq_none_iff, Bool.not_eq_true', Bool.or_eq_true, not_or, Bool.not_eq_true, Bool.not_eq_false,
    and_true]

section
variable {s t : State} (h : SameChecks s t)
include h

theorem SameChecks.fld {f : Fld} (hf : f.off % 16 ≠ 8 ∨ f.off < 0x701000 ∨ 0x702000 ≤ f.off) : t.fld f = s.fld f := by
  rw [State.fld, State.fld, h.word _ hf]

theorem SameChecks.flag {f : Fld} (hf : f.off % 16 ≠ 8 ∨ f.off < 0x701000 ∨ 0x702000 ≤ f.off) :
    t.flag f = s.flag f := by
  rw [State.flag, State.flag, h.fld hf]

/-! ### Routes and crossings -/

theorem SameChecks.linkDown : t.linkDown = s.linkDown :=
  funext fun k => h.flag (.inl (by show (0x2000 + 0x10 * k) % 16 ≠ 8; omega))

theorem SameChecks.route (die : Option Nat) (hub a : Nat) : t.route die hub a = s.route die hub a := by
  simp only [State.route, State.dieRoute, State.ringRoute, State.dieHub, State.pick, h.linkDown]

theorem SameChecks.stackFailed (a : Nat) : t.stackFailed a = s.stackFailed a := by
  unfold State.stackFailed
  cases region a with
  | pkg k => exact h.flag (.inl (by show (0x700100 + 0x20 * k) % 16 ≠ 8; omega))
  | _ => rfl

theorem SameChecks.homeReach (die : Option Nat) (hub a : Nat) : t.homeReach die hub a = s.homeReach die hub a := by
  simp only [State.homeReach, h.route, h.stackFailed]

theorem SameChecks.resetTileAt (p : Option Nat) (a : Int) : t.resetTileAt p a = s.resetTileAt p a := by
  unfold State.resetTileAt
  cases region a.toNat with
  | sram n _ =>
    simp only [h.inReset, State.admits, h.admitted]
    rfl
  | _ => rfl

theorem SameChecks.heldAt (p die : Option Nat) (hub : Nat) (a : Int) : t.heldAt p die hub a = s.heldAt p die hub a := by
  unfold State.heldAt State.admits
  rw [h.route, h.resetTileAt, h.admitted, h.selfRefresh]

/-! ### Grants -/

theorem SameChecks.load (a k : Nat) : t.load a k = s.load a k := load_of_mem h.mem a k

theorem SameChecks.fldPrt {f : Fld} (hf : 0x800000 ≤ f.off) : t.fld f = s.fld f := h.fld (.inr (.inr (by omega)))

theorem SameChecks.flagPrt {f : Fld} (hf : 0x800000 ≤ f.off) : t.flag f = s.flag f := h.flag (.inr (.inr (by omega)))

theorem SameChecks.isM (o : Origin) : t.isM o = s.isM o := by
  cases o with
  | pf => exact h.flagPrt (by show 0x800000 ≤ 0x800000; omega)
  | _ => rfl

theorem SameChecks.bound : t.bound = s.bound := by
  rw [State.bound, State.bound, h.fldPrt (by show 0x800000 ≤ 0x800008; omega)]

theorem SameChecks.assignAt (c p : Nat) : t.assignAt c p = s.assignAt c p := by
  unfold State.assignAt State.committing State.hasSwitched
  rw [h.flagPrt (f := Csr.prtCommit_busy) (by show 0x800000 ≤ 0x800028; omega),
    h.fldPrt (f := Csr.prtPart_job p) (by show 0x800000 ≤ 0x800100 + 8 * p; omega),
    h.flagPrt (f := Csr.prtPart_assigned p) (by show 0x800000 ≤ 0x800100 + 8 * p; omega),
    h.fldPrt (f := Csr.prtPart_job_act p) (by show 0x800000 ≤ 0x800100 + 8 * p; omega),
    h.flagPrt (f := Csr.prtPart_assigned_act p) (by show 0x800000 ≤ 0x800100 + 8 * p; omega), h.cadOld, h.commitAt]

theorem SameChecks.slotAt (c j : Nat) : t.slotAt c j = s.slotAt c j := by
  unfold State.slotAt State.committing State.hasSwitched
  rw [h.flagPrt (f := Csr.prtCommit_busy) (by show 0x800000 ≤ 0x800028; omega),
    h.flagPrt (f := Csr.prtJob_valid j) (by show 0x800000 ≤ 0x800400 + 0x10 * j; omega),
    h.fldPrt (f := Csr.prtJobPeers_peers j) (by show 0x800000 ≤ 0x800408 + 0x10 * j; omega),
    h.flagPrt (f := Csr.prtJobAct_valid j) (by show 0x800000 ≤ 0x800600 + 0x10 * j; omega),
    h.fldPrt (f := Csr.prtJobActPeers_peers j) (by show 0x800000 ≤ 0x800608 + 0x10 * j; omega), h.cadOld, h.commitAt]

theorem SameChecks.inJobAt (c p j : Nat) : t.inJobAt c p j = s.inJobAt c p j := by
  rw [State.inJobAt, State.inJobAt, h.assignAt]

theorem SameChecks.peer (c j d p : Nat) : t.peer c j d p = s.peer c j d p := by
  unfold State.peer
  rw [h.slotAt, h.fld (f := Csr.lnkSts_logical) (.inr (.inl (by show 0x500008 < 0x701000; omega)))]
  simp only [h.load]

theorem SameChecks.granuleOk (o : Origin) (k : Access) (g : Nat) : t.granuleOk o k g = s.granuleOk o k g := by
  unfold State.granuleOk
  rw [h.word (Csr.prtGranAct g) (.inr (.inr (by show 0x702000 ≤ 0x802000 + 8 * g; omega)))]
  simp only [h.inJobAt, h.peer]

theorem SameChecks.sramOk (o : Origin) (n : Nat) : t.sramOk o n = s.sramOk o n := by
  unfold State.sramOk
  simp only [h.assignAt, h.inJobAt, h.peer]

theorem SameChecks.granted (o : Origin) (k : Access) (a : Nat) : t.granted o k a = s.granted o k a := by
  unfold State.granted State.csrOk State.tcsrOk
  simp only [h.isM, h.bound, h.granuleOk, h.sramOk]

theorem SameChecks.grantedRange (o : Origin) (k : Access) (a n : Nat) :
    t.grantedRange o k a n = s.grantedRange o k a n := by
  simp only [State.grantedRange, h.granted]

theorem SameChecks.inCells (a len : Nat) : t.inCells a len = s.inCells a len := by
  simp only [State.inCells, State.touchesCells, State.cellRanges, h.chains]

/-- Cells that bar no access go on barring none: a halted tile stays halted. -/
theorem SameChecks.cellsBar {k : Access} {a len : Nat} (hs : s.cellsBar k a len = false) :
    t.cellsBar k a len = false := by
  unfold State.cellsBar at hs ⊢
  rw [h.inCells]
  cases hregion : region a with
  | sram n _ =>
    rw [hregion] at hs
    simp only [Bool.and_eq_false_iff, Bool.not_eq_false', Bool.and_eq_true] at hs ⊢
    exact hs.imp_right (And.imp_right (h.halted n))
  | _ =>
    rw [hregion] at hs
    exact hs

/-! ### Accesses and moves -/

theorem SameChecks.accessFail {o : Origin} {die : Option Nat} {hub : Nat} {k : Access} {a len : Nat}
    (hs : s.accessFail o die hub k a len = none) : t.accessFail o die hub k a len = none := by
  rw [accessFail_eq_none_iff] at hs ⊢
  rw [h.homeReach, h.homeReach, h.grantedRange]
  exact hs.imp_right (And.imp_right (And.imp_right h.cellsBar))

theorem SameChecks.sideFail {o : Origin} {die : Option Nat} {hub : Nat} {x : Side} {k : Access} {e : Ecc} {a : Int}
    {len : Nat} (hs : s.sideFail o die hub x k e a len = none) : t.sideFail o die hub x k e a len = none := by
  cases x with
  | da =>
    unfold State.sideFail at hs ⊢
    dsimp only at hs ⊢
    split at hs
    · cases hs
    · next ha =>
      rw [Option.or_eq_none_iff] at hs
      rw [if_neg ha, Option.or_eq_none_iff]
      exact hs.imp_left h.accessFail
  | host => exact hs
  | remote d => exact hs
  | stage => exact hs

theorem SameChecks.runFail {j : MoveJob} {e : Ecc} {r : Int × Int × Nat} (hs : j.runFail s e r = none) :
    j.runFail t e r = none := by
  unfold MoveJob.runFail at hs ⊢
  dsimp only at hs ⊢
  rw [Option.or_eq_none_iff, Option.map_eq_none_iff] at hs ⊢
  refine hs.imp ?_ h.sideFail
  cases j.src with
  | side x =>
    simp only [Option.map_eq_none_iff]
    exact h.sideFail
  | pattern p => exact id

theorem SameChecks.sideHeld (j : MoveJob) (x : Side) (a : Int) (len : Nat) :
    j.sideHeld t x a len = j.sideHeld s x a len := by
  cases x with
  | da => exact congrArg₂ Option.or (h.heldAt _ _ _ _) (h.heldAt _ _ _ _)
  | host => show (if t.admitted.contains 100 then _ else _) = _; rw [h.admitted]; rfl
  | _ => rfl

theorem SameChecks.held (j : MoveJob) : j.held t = j.held s := by
  simp only [MoveJob.held, h.sideHeld]

end

end Sys2Proof.Proofs
end

section
/-! PROOFS. A MOV from its issue to its end (spec/06_memory_and_ordering.md R182, R195, R196;
spec/08_nolpa_tensor_reference.md R266): what the engine finds once the instruction holds its tracked transfer, and what
a local move without fault leaves. -/
namespace Sys2Proof.Proofs

open Sys2Proof Sys2Proof.Machine Sys2Proof.Claims Sys2Proof.Laws

/-! ## The tracked transfer -/

theorem word_of_csr {s t : State} (h : t.csr = s.csr) (o : Nat) : t.word o = s.word o := by
  rw [State.word, State.word, h]

theorem fld_of_csr {s t : State} (h : t.csr = s.csr) (f : Fld) : t.fld f = s.fld f := by
  rw [State.fld, State.fld, word_of_csr h]

theorem ttAcquire_word_other (s : State) (p o : Nat) (ho : o ≠ Csr.memTt p) : (s.ttAcquire p).word o = s.word o :=
  (word_setFld_other _ _ _ _ ho).trans (word_setFld_other _ _ _ _ ho)

/-- MEM_TT counts one transfer more, where it is below its limit (R196). -/
theorem ttInUse_ttAcquire (s : State) (p : Nat) (h : s.ttInUse p < 8192) :
    (s.ttAcquire p).ttInUse p = s.ttInUse p + 1 := by
  have hadd : ((s.addFld (Csr.memTt_in_use p) 1).ttInUse p) = s.ttInUse p + 1 := by
    refine (fld_setFld_same _ _ _ (by show 0 + 14 ≤ 64; omega)).trans ?_
    show min (2 ^ 14 - 1) (s.ttInUse p + 1) % 2 ^ 14 = _
    omega
  refine Eq.trans ?_ hadd
  exact fld_setFld_other _ _ _ _ (by show 16 + 14 ≤ 64; omega) (.inr (.inl (by show 0 + 14 ≤ 16; omega)))

theorem setFld_setFld_frame (s : State) (f g : Fld) (v w : Nat) :
    (s.setFld f v).setFld g w = { s with csr := ((s.setFld f v).setFld g w).csr } := rfl

theorem ttAcquire_frame (s : State) (p : Nat) : s.ttAcquire p = { s with csr := (s.ttAcquire p).csr } :=
  setFld_setFld_frame ..

theorem takeXfer_frame (u : State) (n q : Nat) : u.takeXfer n q =
    { u with tiles := (u.takeXfer n q).tiles, csr := (u.takeXfer n q).csr, nextXfer := u.nextXfer + 1 } := by
  unfold State.takeXfer
  dsimp only
  rw [ttAcquire_frame]
  rfl

theorem tile_ttAcquire (s : State) (p m : Nat) : (s.ttAcquire p).tile m = s.tile m := by rw [ttAcquire_frame]; rfl

theorem takeXfer_tile_other (u : State) (n q m : Nat) (hm : m ≠ n) : (u.takeXfer n q).tile m = u.tile m := by
  unfold State.takeXfer State.updFlight
  rw [tile_updTile, if_neg hm, tile_ttAcquire]
  rfl

theorem takeXfer_tile (u : State) (n q : Nat) : (u.takeXfer n q).tile n = { u.tile n with
    inflight := (u.tile n).inflight.map (fun f => if f.seq = q then { f with xfer := some u.nextXfer } else f) } := by
  unfold State.takeXfer State.updFlight
  rw [tile_updTile_same, tile_ttAcquire]
  rfl

theorem takeXfer_csr (u : State) (n q : Nat) : (u.takeXfer n q).csr = (u.ttAcquire (partOf n)).csr := by
  unfold State.takeXfer
  rw [updFlight_csr]
  unfold State.ttAcquire State.ttInUse
  generalize Csr.memTt_in_use (partOf n) = f
  generalize Csr.memTt_high_water (partOf n) = g
  rfl

theorem takeXfer_word (u : State) (n q o : Nat) (ho : o ≠ Csr.memTt (partOf n)) :
    (u.takeXfer n q).word o = u.word o := by
  rw [State.word, takeXfer_csr]
  exact ttAcquire_word_other _ _ _ ho

theorem ttInUse_takeXfer (u : State) (n q : Nat) (h : u.ttInUse (partOf n) < 8192) :
    (u.takeXfer n q).ttInUse (partOf n) = u.ttInUse (partOf n) + 1 := by
  rw [State.ttInUse, State.fld, State.word, takeXfer_csr]
  exact ttInUse_ttAcquire _ _ h

/-- A change to the flight of a place that no earlier flight has. -/
theorem map_append_last {l : List InFlight} {f : InFlight} {q : Nat} (g : InFlight → InFlight) (hl : ∀ x ∈ l, x.seq ≠ q)
    (hf : f.seq = q) : (l ++ [f]).map (fun x => if x.seq = q then g x else x) = l ++ [g f] := by
  have hid : l.map (fun x => if x.seq = q then g x else x) = l.map id :=
    List.map_congr_left fun x hx => if_neg (hl x hx)
  rw [List.map_append, hid, List.map_id, List.map_singleton, if_pos hf]

/-! ## In the move engine -/

/-- Block `e` is `s` after the issue of a MOV that has taken its tracked transfer (R196, R211). -/
structure MoveStarted (i : Issue) (s e : State) : Prop where
  checks : SameChecks s e
  others : ∀ m, m ≠ i.tile → e.tile m = s.tile m
  pc : (e.tile i.tile).pc = nextPc (s.tile i.tile) i.word
  token : ∀ k, (e.tile i.tile).k k = if k = fA i.word ∧ k ≠ 0 then 1 else (s.tile i.tile).k k
  sreg : (e.tile i.tile).sreg = (s.tile i.tile).sreg
  dreg : (e.tile i.tile).dreg = (s.tile i.tile).dreg
  srf : (e.tile i.tile).srf = (s.tile i.tile).srf
  fu : (e.tile i.tile).fu = (s.tile i.tile).fu
  instret : (e.tile i.tile).word Csr.tcInstret = (s.tile i.tile).word Csr.tcInstret + 1
  flight : ∃ f ∈ (e.tile i.tile).inflight, f.seq = (s.tile i.tile).seq ∧ f.xfer = some s.nextXfer
  nextXfer : e.nextXfer = s.nextXfer + 1
  inUse : e.ttInUse (partOf i.tile) = s.ttInUse (partOf i.tile) + 1
  lnkSts : e.word Csr.lnkSts = s.word Csr.lnkSts
  staged : e.staged = s.staged
  segs : e.segs = s.segs
  heldSegs : e.heldSegs = s.heldSegs
  hostReads : e.hostReads = s.hostReads
  fenced : e.fenced = s.fenced

theorem ttInUse_lt_of_issues {s : State} {i : Issue} (h : s.Issues i) (hop : fOp i.word = 0x98) :
    s.ttInUse (partOf i.tile) < 8192 := by
  obtain ⟨-, -, -, -, -, -, hstall⟩ := h
  unfold State.stalls at hstall
  have hT : isT i.word = true := by unfold isT; rw [hop]; decide
  simp only [hT, hop, Bool.true_and, Bool.or_eq_false_iff, Bool.and_eq_false_iff, decide_eq_false_iff_not] at hstall
  obtain ⟨-, -, hlimit⟩ := hstall
  exact Nat.lt_of_not_le (hlimit.resolve_left (by decide))

theorem tile_lt_of_issues {s : State} {i : Issue} (h : s.Issues i) (hop : fOp i.word = 0x98) : i.tile < mcCore := by
  obtain ⟨hle, -, -, -, -, hok, -⟩ := h
  have hT : isT i.word = true := by unfold isT; rw [hop]; decide
  refine Nat.lt_of_le_of_ne hle fun hmc => ?_
  rw [coreOk, hmc, hT] at hok
  simp at hok

section
variable {s u : State} {i : Issue} (hissue : s.Issues i) (hop : fOp i.word = 0x98) (hent : Entered i s u)
include hissue hop hent

/-- The checks do not see that an instruction has issued with its tracked transfer. -/
theorem sameChecks_takeXfer : SameChecks s (u.takeXfer i.tile (s.tile i.tile).seq) := by
  obtain ⟨hstate, -, -⟩ := canIssue_wait _ hissue.2.1
  have hn := tile_lt_of_issues hissue hop
  have hframe := takeXfer_frame u i.tile (s.tile i.tile).seq
  have hu := hent.only.1
  have htile := takeXfer_tile u i.tile (s.tile i.tile).seq
  have hother (m : Nat) (hm : m ≠ i.tile) : (u.takeXfer i.tile (s.tile i.tile).seq).tile m = s.tile m :=
    (takeXfer_tile_other _ _ _ _ hm).trans (hent.only.2 m hm)
  have hnew : ((u.takeXfer i.tile (s.tile i.tile).seq).tile i.tile).state ≠ tsReset := by
    rw [htile]
    refine ne_of_eq_of_ne (hent.state : (u.tile i.tile).state = _) ?_
    split <;> decide
  constructor
  case word =>
    intro o ho
    refine (takeXfer_word _ _ _ _ fun heq => ?_).trans (word_of_csr (csr_of_onlyTile hent.only) o)
    have hpart : partOf i.tile < 34 := by simp only [mcCore] at hn; unfold partOf; omega
    replace heq : o = 0x701018 + 0x40 * partOf i.tile := heq
    omega
  case mem =>
    have hmem : (u.takeXfer i.tile (s.tile i.tile).seq).mem = u.mem := by rw [hframe]
    exact hmem.trans (mem_of_onlyTile hent.only)
  case admitted => rw [hframe, hu]
  case selfRefresh => rw [hframe, hu]
  case cadOld => rw [hframe, hu]
  case commitAt => rw [hframe, hu]
  case chains =>
    intro m
    by_cases hm : m = i.tile
    · rw [hm, htile]; exact hent.chains
    · rw [hother m hm]
  case inReset =>
    intro m
    by_cases hm : m = i.tile
    · rw [hm, hstate]
      exact iff_of_false hnew (by decide)
    · rw [hother m hm]
  case halted =>
    intro m hhalt
    by_cases hm : m = i.tile
    · rw [hm, Tile.halted, hstate] at hhalt
      exact absurd hhalt (by simp)
    · rwa [hother m hm]

theorem moveStarted_takeXfer (hfresh : ∀ f ∈ (s.tile i.tile).inflight, f.seq ≠ (s.tile i.tile).seq) :
    MoveStarted i s (u.takeXfer i.tile (s.tile i.tile).seq) := by
  have hframe := takeXfer_frame u i.tile (s.tile i.tile).seq
  have hu := hent.only.1
  have hcsr := csr_of_onlyTile hent.only
  have hnext : u.nextXfer = s.nextXfer := by rw [hu]
  have htile : (u.takeXfer i.tile (s.tile i.tile).seq).tile i.tile = { u.tile i.tile with
      inflight := (s.tile i.tile).inflight ++
        [{ s.newFlight i.tile (s.tile i.tile).seq i.word with xfer := some s.nextXfer }] } := by
    rw [takeXfer_tile, hnext, congrArg Tile.inflight hent.tile]
    exact congrArg (fun l => { u.tile i.tile with inflight := l })
      (map_append_last (f := s.newFlight i.tile (s.tile i.tile).seq i.word) _ hfresh rfl)
  constructor
  case checks => exact sameChecks_takeXfer hissue hop hent
  case others => exact fun m hm => (takeXfer_tile_other _ _ _ _ hm).trans (hent.only.2 m hm)
  case pc => rw [htile, hent.tile]
  case token => intro k; rw [htile]; exact hent.token k
  case sreg => rw [htile, hent.tile]
  case dreg => rw [htile]; exact hent.dreg
  case srf => rw [htile]; exact hent.srf
  case fu => rw [htile, hent.tile]
  case instret => rw [htile]; exact hent.instret
  case flight => rw [htile]; exact ⟨_, List.mem_append_right _ (List.mem_singleton_self _), rfl, rfl⟩
  case nextXfer => rw [hframe, ← hnext]
  case inUse =>
    have huse : u.ttInUse (partOf i.tile) = s.ttInUse (partOf i.tile) := fld_of_csr hcsr _
    rw [← huse]
    exact ttInUse_takeXfer _ _ _ (huse ▸ ttInUse_lt_of_issues hissue hop)
  case lnkSts =>
    refine (takeXfer_word _ _ _ _ ?_).trans (word_of_csr hcsr _)
    show 0x500008 ≠ 0x701018 + 0x40 * partOf i.tile
    omega
  case staged => rw [hframe, hu]
  case segs => rw [hframe, hu]
  case heldSegs => rw [hframe, hu]
  case hostReads => rw [hframe, hu]
  case fenced => rw [hframe, hu]

end

end Sys2Proof.Proofs
end

section
/-! PROOFS. A move from its engine to its end (spec/06_memory_and_ordering.md R182, R195, R196;
spec/08_nolpa_tensor_reference.md R266, R267): a move of local operands whose checks pass carries out its runs and ends,
and what a MOV that ended without fault leaves. -/
namespace Sys2Proof.Proofs

open Sys2Proof Sys2Proof.Machine Sys2Proof.Claims Sys2Proof.Laws

/-! ## The engine's run -/

/-- A move of a core, for which nothing outside the device is asked. -/
structure LocalMove (j : MoveJob) (n seq : Nat) (load : Option MovLoad) : Prop where
  owner : j.owner = .mov n seq load
  src : j.src = .side .da
  dst : j.dst = .da ∨ j.dst = .stage

theorem LocalMove.devs {j : MoveJob} {n seq : Nat} {load : Option MovLoad} (h : LocalMove j n seq load) :
    j.devs = [] := by
  unfold MoveJob.devs
  rw [h.src]
  obtain hdst | hdst := h.dst <;> rw [hdst] <;> rfl

/-- No transfer of the block waits for another unit, nor at a crossing. -/
def Quiet (s : State) : Prop := s.segs = [] ∧ s.heldSegs = [] ∧ s.hostReads = [] ∧ s.fenced = []

theorem Quiet.waitsFor {s : State} (h : Quiet s) (o : XOwner) : s.waitsFor o = false := by
  obtain ⟨hsegs, hheld, hreads, hfenced⟩ := h
  simp [State.waitsFor, hsegs, hheld, hreads, hfenced]

/-- A local move whose checks pass carries out its runs and ends at once. -/
theorem LocalMove.performs {e w : State} {j : MoveJob} {n seq : Nat} {load : Option MovLoad}
    (h : LocalMove j n seq load)
    (hoverlap : j.overlap = false) (hheld : j.held e = none) (hpass : ∀ r ∈ j.runs, j.runFail e .ok r = none)
    (hrun : j.runs.foldl j.runOne e = w) (hquiet : Quiet w) : e.runMove j .ok = w.endMove (.mov n seq load) stOk := by
  have hfail : j.runs.any (fun r => (j.runFail e .ok r).isSome) = false :=
    List.any_eq_false.2 fun r hr => by rw [hpass r hr]; decide
  unfold State.runMove
  simp only [h.devs, List.any_nil, Bool.false_eq_true, if_false, hoverlap, hheld, hfail, hrun, hquiet.waitsFor,
    State.afterData, h.owner]

/-! ## The runs -/

/-- COPY's runs in local memory. -/
theorem LocalMove.runs_copy {j : MoveJob} {n seq : Nat} {load : Option MovLoad} (h : LocalMove j n seq load)
    (hdst : j.dst = .da) (l : List (Int × Int × Nat)) (e : State) : l.foldl j.runOne e = copyRuns e l := by
  induction l generalizing e with
  | nil => rfl
  | cons r rs ih =>
    rw [List.foldl_cons, ih, copyRuns, MoveJob.runOne, h.src, hdst]
    rfl

theorem bytes_gathering (e : State) (l : List (XOwner × Nat × List Byte)) (a n : Nat) :
    ({ e with staged := l } : State).bytes a n = e.bytes a n :=
  bytes_of_mem (s := e) (t := { e with staged := l }) rfl a n

/-- Block `e` with the bytes of runs gathered for transfer `o`. -/
def gathering (e : State) (o : XOwner) (l : List (Int × Int × Nat)) : State :=
  { e with staged := e.staged ++ l.map (fun r => (o, r.2.1.toNat, e.bytes r.1.toNat r.2.2)) }

theorem LocalMove.runs_stage {j : MoveJob} {n seq : Nat} {load : Option MovLoad} (h : LocalMove j n seq load)
    (hdst : j.dst = .stage) (l : List (Int × Int × Nat)) (e : State) :
    l.foldl j.runOne e = gathering e (.mov n seq load) l := by
  unfold gathering
  induction l generalizing e with
  | nil => rw [List.map_nil, List.append_nil]; rfl
  | cons r rs ih =>
    have hone : j.runOne e r =
        { e with staged := e.staged ++ [(.mov n seq load, r.2.1.toNat, e.bytes r.1.toNat r.2.2)] } := by
      rw [MoveJob.runOne, h.src, hdst, h.owner]
      rfl
    rw [List.foldl_cons, ih, hone, List.map_cons]
    simp only [bytes_gathering, List.append_assoc, List.singleton_append]

theorem copyRuns_frame (s : State) (l : List (Int × Int × Nat)) :
    copyRuns s l = { s with mem := (copyRuns s l).mem, ueWords := (copyRuns s l).ueWords } := by
  induction l generalizing s with
  | nil => rfl
  | cons r rs ih => rw [copyRuns, ih]; rfl

/-- What runs leave in memory depends on memory alone. -/
theorem mem_copyRuns {s t : State} (h : t.mem = s.mem) (l : List (Int × Int × Nat)) :
    (copyRuns t l).mem = (copyRuns s l).mem := by
  induction l generalizing s t with
  | nil => exact h
  | cons r rs ih =>
    refine ih ?_
    rw [bytes_of_mem h]
    exact congrArg (Memory.setBytes · _ _) h

/-! ## The end -/

/-- Block `w` differs from `e` in memory, in what loads have gathered, and in the scale registers and table slots of
tile `n`. -/
structure MoveEffect (n : Nat) (e w : State) : Prop where
  csr : w.csr = e.csr
  nextXfer : w.nextXfer = e.nextXfer
  others : ∀ m, m ≠ n → w.tile m = e.tile m
  tile : w.tile n = { e.tile n with srf := (w.tile n).srf, fu := (w.tile n).fu }

theorem endStatus_mem (w : State) (n seq st : Nat) : (w.endStatus n seq st).mem = w.mem := updFlight_mem ..

theorem endStatus_tile_other (w : State) (n seq st m : Nat) (hm : m ≠ n) :
    (w.endStatus n seq st).tile m = w.tile m := by
  rw [State.endStatus, State.updFlight, tile_updTile, if_neg hm]

/-- The end without fault: the instruction is performed. -/
theorem endStatus_tile (w : State) (n seq : Nat) : (w.endStatus n seq 0).tile n = { w.tile n with
    inflight := (w.tile n).inflight.map (fun f => if f.seq = seq then
      { f with done := true, blocked := false, status := 0, fault := 0 } else f) } := by
  rw [State.endStatus, State.updFlight, tile_updTile_same]
  simp only [ite_self, if_true]

theorem MoveStarted.done {i : Issue} {s e w : State} (h : MoveStarted i s e) (hw : MoveEffect i.tile e w) :
    MoveDone s (w.endStatus i.tile (s.tile i.tile).seq 0) i 0 := by
  have htile := endStatus_tile w i.tile (s.tile i.tile).seq
  rw [hw.tile] at htile
  obtain ⟨f, hf, hseq, hxfer⟩ := h.flight
  unfold MoveDone
  dsimp only
  rw [htile]
  refine ⟨h.pc, h.token, h.sreg, h.dreg, h.instret, ?_, hw.nextXfer.trans h.nextXfer,
    (fld_of_csr hw.csr _).trans h.inUse,
    fun m hm => (endStatus_tile_other _ _ _ _ _ hm).trans ((hw.others m hm).trans (h.others m hm))⟩
  refine ⟨_, List.mem_map_of_mem hf, ?_⟩
  rw [if_pos hseq]
  exact ⟨hseq, rfl, rfl, rfl, hxfer⟩

end Sys2Proof.Proofs
end

section
/-! PROOFS. What a load gathers (spec/08_nolpa_tensor_reference.md R267): joining runs changes neither the bytes read
nor their order, the bytes gathered are those of the runs one after another, and the scale registers take them two at a
time. -/
namespace Sys2Proof.Proofs

open Sys2Proof Sys2Proof.Machine Sys2Proof.Claims Sys2Proof.Laws

/-! ## Runs joined -/

/-- What holds of runs, and goes on holding when two that continue each other become one, holds of the runs joined. -/
theorem joinRuns_induction {P : List (Int × Int × Nat) → Prop}
    (merge : ∀ (x : List (Int × Int × Nat)) (a b : Int) (n m : Nat) (y : List (Int × Int × Nat)),
      P (x ++ (a, b, n) :: (a + n, b + n, m) :: y) → P (x ++ (a, b, n + m) :: y))
    {l : List (Int × Int × Nat)} (h : P l) : P (joinRuns l) := by
  have key : ∀ (rs acc : List (Int × Int × Nat)), P (acc.reverse ++ rs) → P ((rs.foldl (fun acc r =>
      match acc with
      | (a, b, n) :: rest => if r.1 = a + n ∧ r.2.1 = b + n then (a, b, n + r.2.2) :: rest else r :: acc
      | [] => [r]) acc).reverse) := by
    intro rs
    induction rs with
    | nil => intro acc h; rwa [List.append_nil] at h
    | cons r rs ih =>
      intro acc h
      rw [List.foldl_cons]
      apply ih
      obtain _ | ⟨⟨a, b, n⟩, rest⟩ := acc
      · exact h
      · rw [List.reverse_cons, List.append_assoc, List.singleton_append] at h
        dsimp only
        split_ifs with hnext
        · obtain ⟨a', b', m⟩ := r
          obtain ⟨ha, hb⟩ : a' = a + n ∧ b' = b + n := hnext
          rw [ha, hb] at h
          rw [List.reverse_cons, List.append_assoc, List.singleton_append]
          exact merge _ _ _ _ _ _ h
        · rwa [List.reverse_cons, List.reverse_cons, List.append_assoc, List.append_assoc]
  exact key l [] h

/-- Runs whose destinations follow each other from `b` on. -/
def Abuts : Int → List (Int × Int × Nat) → Prop
  | _, [] => True
  | b, r :: rs => r.2.1 = b ∧ Abuts (b + r.2.2) rs

theorem abuts_merge {c : Int} (x : List (Int × Int × Nat)) {a b : Int} {n m : Nat} {y : List (Int × Int × Nat)}
    (h : Abuts c (x ++ (a, b, n) :: (a + n, b + n, m) :: y)) : Abuts c (x ++ (a, b, n + m) :: y) := by
  induction x generalizing c with
  | nil =>
    obtain ⟨hb, -, hy⟩ := h
    refine ⟨hb, ?_⟩
    rwa [Int.natCast_add, ← Int.add_assoc]
  | cons r x ih => exact ⟨h.1, ih h.2⟩

theorem abuts_joinRuns {c : Int} {l : List (Int × Int × Nat)} (h : Abuts c l) : Abuts c (joinRuns l) :=
  joinRuns_induction (P := Abuts c) (fun x _ _ _ _ _ => abuts_merge x) h

/-- The bytes that runs read, one run after another. -/
def runBytes (s : State) (l : List (Int × Int × Nat)) : List Byte := l.flatMap (fun r => s.bytes r.1.toNat r.2.2)

theorem bytes_add (s : State) (a n m : Nat) : s.bytes a (n + m) = s.bytes a n ++ s.bytes (a + n) m := by
  induction n generalizing a with
  | zero => rw [Nat.zero_add]; rfl
  | succ n ih =>
    rw [show n + 1 + m = (n + m) + 1 by omega, State.bytes, State.bytes, ih, show a + 1 + n = a + (n + 1) by omega,
      List.cons_append]

theorem runBytes_merge (s : State) (x : List (Int × Int × Nat)) {a : Int} (ha : 0 ≤ a) (b : Int) (n m : Nat)
    (y : List (Int × Int × Nat)) :
    runBytes s (x ++ (a, b, n) :: (a + n, b + n, m) :: y) = runBytes s (x ++ (a, b, n + m) :: y) := by
  have hnext : (a + n).toNat = a.toNat + n := by omega
  simp only [runBytes, List.flatMap_append, List.flatMap_cons, bytes_add, hnext, List.append_assoc]

/-- Runs joined read the same bytes, where none begins below address 0. -/
theorem runBytes_joinRuns (s : State) (l : List (Int × Int × Nat)) (h : ∀ r ∈ joinRuns l, 0 ≤ r.1) :
    runBytes s (joinRuns l) = runBytes s l := by
  refine joinRuns_induction (P := fun l' => (∀ r ∈ l', 0 ≤ r.1) → runBytes s l' = runBytes s l) ?_ (fun _ => rfl) h
  intro x a b n m y ih hpos
  have ha : 0 ≤ a := hpos (a, b, n + m) (by simp)
  rw [← runBytes_merge s x ha]
  refine ih fun r hr => ?_
  simp only [List.mem_append, List.mem_cons] at hr
  obtain hx | rfl | rfl | hy := hr
  · exact hpos r (by simp [hx])
  · exact ha
  · show 0 ≤ a + n
    omega
  · exact hpos r (by simp [hy])

/-! ## Pieces gathered -/

/-- Bytes numbered from 0. -/
def numbered (bs : List Byte) : NMap Byte := bs.zipIdx.map (fun b => (b.2, b.1))

theorem numbered_snoc (bs : List Byte) (b : Byte) : numbered (bs ++ [b]) = numbered bs ++ [(bs.length, b)] := by
  simp [numbered, List.zipIdx_append]

theorem numbered_bytes (bs : List Byte) : (numbered bs).map (fun e => e.2) = bs := by
  simp [numbered, Function.comp_def]

theorem insert_last {m : NMap Byte} {k : Nat} (h : ∀ e ∈ m, e.1 < k) (b : Byte) :
    NMap.insert m k b = m ++ [(k, b)] := by
  induction m with
  | nil => rfl
  | cons e m ih =>
    have hlt : e.1 < k := h e List.mem_cons_self
    rw [NMap.insert, if_neg (by omega), if_neg (by omega), ih fun x hx => h x (List.mem_cons_of_mem _ hx)]
    rfl

theorem insert_numbered (bs : List Byte) (b : Byte) : NMap.insert (numbered bs) bs.length b = numbered (bs ++ [b]) := by
  rw [numbered_snoc, insert_last]
  intro e he
  obtain ⟨x, hx, rfl⟩ := List.mem_map.1 he
  exact (List.mem_zipIdx hx).2.1.trans_eq (by simp)

/-- A piece gathered after the bytes it follows. -/
theorem gather_piece (c bs : List Byte) :
    (bs.zipIdx).foldl (fun m b => NMap.insert m (c.length + b.2) b.1) (numbered c) = numbered (c ++ bs) := by
  induction bs using List.reverseRecOn with
  | nil => rw [List.append_nil]; rfl
  | append_singleton bs b ih =>
    rw [List.zipIdx_append, List.foldl_append, ih, ← List.append_assoc, ← insert_numbered]
    simp

theorem bytes_length (s : State) (a n : Nat) : (s.bytes a n).length = n := by
  induction n generalizing a with
  | zero => rfl
  | succ n ih => rw [State.bytes, List.length_cons, ih]

theorem gather_runs (s : State) {l : List (Int × Int × Nat)} {c : List Byte} (h : Abuts c.length l) :
    (l.map (fun r => (r.2.1.toNat, s.bytes r.1.toNat r.2.2))).foldl (fun (m : NMap Byte) p =>
      (p.2.zipIdx).foldl (fun m b => NMap.insert m (p.1 + b.2) b.1) m) (numbered c) = numbered (c ++ runBytes s l) := by
  induction l generalizing c with
  | nil => simp [runBytes]
  | cons r rs ih =>
    obtain ⟨hb, hrs⟩ := h
    rw [List.map_cons, List.foldl_cons]
    dsimp only
    rw [hb, Int.toNat_natCast, gather_piece, ih]
    · simp [runBytes]
    · simpa [bytes_length] using hrs

/-- The bytes gathered from runs that follow each other from 0 are those of the runs in their order. -/
theorem ofPieces_runs (s : State) {l : List (Int × Int × Nat)} (h : Abuts 0 l) :
    State.gathered.ofPieces (l.map (fun r => (r.2.1.toNat, s.bytes r.1.toNat r.2.2))) = runBytes s l := by
  unfold State.gathered.ofPieces
  exact (congrArg (List.map fun e => e.2) (gather_runs s (c := []) h)).trans (numbered_bytes _)

/-! ## The scale register file -/

/-- Runs that read pieces of `k` bytes, gathered one after another. -/
theorem abuts_zipIdx (k : Nat) (l : List Int) (m : Nat) :
    Abuts ((k * m : Nat) : Int) ((l.zipIdx m).map (fun p => (p.1, ((k * p.2 : Nat) : Int), k))) := by
  induction l generalizing m with
  | nil => trivial
  | cons a l ih =>
    refine ⟨rfl, ?_⟩
    have hnext : ((k * m : Nat) : Int) + (k : Nat) = ((k * (m + 1) : Nat) : Int) := by rw [Nat.mul_succ]; rfl
    show Abuts (((k * m : Nat) : Int) + (k : Nat)) _
    rw [hnext]
    exact ih (m + 1)

theorem runBytes_zipIdx (s : State) (k : Nat) (l : List Int) (m : Nat) :
    runBytes s ((l.zipIdx m).map (fun p => (p.1, ((k * p.2 : Nat) : Int), k))) =
      l.flatMap (fun a => s.bytes a.toNat k) := by
  induction l generalizing m with
  | nil => rfl
  | cons a l ih => exact congrArg (s.bytes a.toNat k ++ ·) (ih (m + 1))

theorem length_flatMap_bytes (s : State) (l : List Int) :
    (l.flatMap (fun a => s.bytes a.toNat 2)).length = 2 * l.length := by
  induction l with
  | nil => rfl
  | cons a l ih => rw [List.flatMap_cons, List.length_append, bytes_length, ih, List.length_cons]; omega

/-- The code at place `i` of pieces of two bytes. -/
theorem leAt_flatMap_bytes (s : State) (l : List Int) (i : Nat) (hi : i < l.length) :
    leAt (l.flatMap (fun a => s.bytes a.toNat 2)) (2 * i) 2 = s.load (l[i]).toNat 2 := by
  induction l generalizing i with
  | nil => exact absurd hi (Nat.not_lt_zero _)
  | cons a l ih =>
    cases i with
    | zero => simp [leAt, sliceBytes, State.load, State.bytes]
    | succ i =>
      rw [List.getElem_cons_succ, ← ih i (Nat.lt_of_succ_lt_succ hi)]
      rfl

theorem loadSrf_frame (t : Tile) (entry : Nat) (bs : List Byte) :
    t.loadSrf entry bs =
    { t with srf := (t.loadSrf entry bs).srf, fu := (t.loadSrf entry bs).fu } := by
  unfold Tile.loadSrf
  induction bs.length / 2 with
  | zero => rfl
  | succ n ih => rw [List.range_succ, List.foldl_append, ih]; rfl

theorem srf_loadSrf (t : Tile) (entry : Nat) (bs : List Byte) (k : Nat) :
    NMap.get (fun _ => 0) (t.loadSrf entry bs).srf k =
      if entry ≤ k ∧ k < entry + bs.length / 2 then leAt bs (2 * (k - entry)) 2 else NMap.get (fun _ => 0) t.srf k := by
  unfold Tile.loadSrf
  induction bs.length / 2 with
  | zero => rw [if_neg (by omega)]; rfl
  | succ n ih =>
    rw [List.range_succ, List.foldl_append]
    refine (nmap_get_set _ _ _ _ _).trans ?_
    rw [ih]
    by_cases hk : k = entry + n
    · rw [if_pos hk, if_pos (by omega), hk, Nat.add_sub_cancel_left]
    · rw [if_neg hk]
      exact if_congr (by omega) rfl rfl

end Sys2Proof.Proofs
end

section
/-! PROOFS. MOV COPY, SRF and FUSLOT between local operands (spec/06_memory_and_ordering.md R182, R195, R196;
spec/08_nolpa_tensor_reference.md R266, R267; spec/04_vector_and_functions.md R131). -/
namespace Sys2Proof.Proofs

open Sys2Proof Sys2Proof.Machine Sys2Proof.Claims Sys2Proof.Laws

/-! ## In the engine -/

theorem movStarts {s : State} {i : Issue} {kind : Nat} (h : MovReady s i kind) (run : State → Nat → TOp → State) :
    ∃ e, MoveStarted i s e ∧ issueMov kind i run s = .next (run e i.tile (s.top i.tile i)) := by
  obtain ⟨hstarts, hop, hkind, -, hfresh, -⟩ := h
  obtain ⟨u, hent, hnext⟩ := issueE_starts hstarts (isRow := fun w => fOp w == 0x98 && fl w 0 2 == kind)
    (by rw [hop, show fl i.word 0 2 = kind from hkind]; simp) (fun s n o => s.takeXfer n o.seq) run
  exact ⟨_, moveStarted_takeXfer hstarts.1 hop hent hfresh, hnext⟩

/-- Block `w` is `e` but for the bytes that loads have gathered. -/
structure Gathers (e w : State) : Prop where
  csr : w.csr = e.csr
  nextXfer : w.nextXfer = e.nextXfer
  tiles : w.tiles = e.tiles
  mem : w.mem = e.mem

section
variable {i : Issue} {s e : State} (h : MoveStarted i s e)
include h

theorem MoveStarted.localDev (dev : Nat) : e.localDev dev = s.localDev dev := by
  unfold State.localDev State.flag State.fld
  rw [h.lnkSts]

theorem MoveStarted.descSide {d : Desc} (hd : s.localDev d.dev = true) : e.descSide d = .da := by
  rw [State.descSide, h.localDev, if_pos hd]

theorem MoveStarted.quiet {kind : Nat} (hready : MovReady s i kind) : Quiet e := by
  obtain ⟨-, -, -, -, -, -, hsegs, hheld, hreads, hfenced⟩ := hready
  exact ⟨h.segs.trans hsegs, h.heldSegs.trans hheld, h.hostReads.trans hreads, h.fenced.trans hfenced⟩

theorem MoveStarted.bytes (a n : Nat) : e.bytes a n = s.bytes a n := bytes_of_mem h.checks.mem a n

/-- A move that passes its checks before its issue ends with its runs carried out. -/
theorem MoveStarted.performs {w : State} {j : MoveJob} {n seq : Nat} {load : Option MovLoad}
    (hj : LocalMove j n seq load)
    (hoverlap : j.overlap = false) (hheld : j.held s = none) (hpass : ∀ r ∈ j.runs, j.runFail s .ok r = none)
    (hrun : j.runs.foldl j.runOne e = w) (hquiet : Quiet w) : e.runMove j .ok = w.endMove (.mov n seq load) stOk :=
  hj.performs hoverlap ((h.checks.held j).trans hheld) (fun r hr => h.checks.runFail (hpass r hr)) hrun hquiet

/-- What a load gathers, with its end: the bytes of its runs. -/
theorem MoveStarted.loads {kind : Nat} (hready : MovReady s i kind) {j : MoveJob} {n seq : Nat} {load : MovLoad}
    (hj : LocalMove j n seq (some load)) (hdst : j.dst = .stage) (hoverlap : j.overlap = false)
    (hheld : j.held s = none) (hpass : ∀ r ∈ j.runs, j.runFail s .ok r = none) (habuts : Abuts 0 j.runs) :
    ∃ w : State, w.gathered (.mov n seq (some load)) = runBytes s j.runs ∧ Gathers e w ∧
      e.runMove j .ok = w.endMove (.mov n seq (some load)) stOk := by
  refine ⟨gathering e (.mov n seq (some load)) j.runs, ?_, ⟨rfl, rfl, rfl, rfl⟩,
    h.performs hj hoverlap hheld hpass (hj.runs_stage hdst _ _) ?_⟩
  · obtain ⟨-, -, -, -, -, hstaged, -⟩ := hready
    rw [State.gathered, gathering, h.staged, hstaged, ← ofPieces_runs s habuts]
    simp [h.bytes, List.filter_map, Function.comp_def]
  · exact h.quiet hready

end

theorem moveEffect_of_frame {e w : State} {n : Nat} (hcsr : w.csr = e.csr) (hnext : w.nextXfer = e.nextXfer)
    (htiles : w.tiles = e.tiles) : MoveEffect n e w := by
  have htile (m : Nat) : w.tile m = e.tile m := by rw [State.tile, State.tile, htiles]
  exact ⟨hcsr, hnext, fun m _ => htile m, by rw [htile]⟩

/-- What loads have gathered for transfer `o`, dropped at its end. -/
def dropGathered (s : State) (o : XOwner) : State := { s with staged := s.staged.filter (fun x => x.1 != o) }

theorem Gathers.effect {e w : State} (h : Gathers e w) (n : Nat) (o : XOwner) : MoveEffect n e (dropGathered w o) :=
  moveEffect_of_frame h.csr h.nextXfer h.tiles

/-- A load that writes scale registers and table slots of its tile. -/
theorem moveEffect_updTile {e w : State} {n : Nat} (h : MoveEffect n e w) {f : Tile → Tile}
    (hf : ∀ t, f t = { t with srf := (f t).srf, fu := (f t).fu }) : MoveEffect n e (w.updTile n f) where
  csr := h.csr
  nextXfer := h.nextXfer
  others m hm := by rw [tile_updTile, if_neg hm, h.others m hm]
  tile := by
    rw [tile_updTile_same, hf, h.tile]

/-! ## COPY (R266) -/

theorem endMove_copy (w : State) (n seq st : Nat) :
    w.endMove (.mov n seq none) st = (dropGathered w (.mov n seq none)).endStatus n seq st := rfl

theorem movCopy_copies (i : Issue) (s : State) (hready : MovReady s i 0) :
    let n := i.tile
    let dd := Desc.ofWords ((s.tile n).d (fB i.word))
    let ds := Desc.ofWords ((s.tile n).d (fC i.word))
    let j := copyJob s i
    movFault [⟨dd, .elems⟩, ⟨ds, .elems⟩] = none → dd.fmtc = ds.fmtc → dd.sc = ds.sc → dd.zp = ds.zp → dd.ext = ds.ext →
    s.localDev dd.dev = true → s.localDev ds.dev = true → j.overlap = false → j.held s = none →
    (∀ r ∈ j.runs, j.runFail s .ok r = none) →
    ∃ t, exec (.movCopy i) s = .next t ∧ MoveDone s t i 0 ∧ t.mem = (copyRuns s j.runs).mem := by
  intro n dd ds j hfault hfmt hsc hzp hext hdd hds hoverlap hheld hpass
  obtain ⟨e, he, hnext⟩ := movStarts hready State.startCopy
  have hecc : i.ecc = .ok := hready.2.2.2.1
  have hvalid : ¬ (dd.fmtc ≠ ds.fmtc ∨ dd.sc ≠ ds.sc ∨ dd.zp ≠ ds.zp ∨ dd.ext ≠ ds.ext ∨
      (e.localDev dd.dev = false ∧ e.localDev ds.dev = false)) := by
    rw [he.localDev dd.dev]
    simp [hfmt, hsc, hzp, hext, hdd]
  have hmove : e.startCopy n (s.top n i) = e.runMove j .ok := by
    unfold State.startCopy
    simp only [top_issue, top_core_d, top_seq, hecc]
    rw [show movFault _ = none from hfault]
    dsimp only
    rw [if_neg hvalid, he.descSide hds, he.descSide hdd]
    rfl
  have hj : LocalMove j n (s.tile n).seq none := ⟨rfl, rfl, .inl rfl⟩
  have hframe := copyRuns_frame e j.runs
  have hquiet : Quiet (copyRuns e j.runs) := by rw [hframe]; exact he.quiet hready
  have hend := he.performs hj hoverlap hheld hpass (hj.runs_copy rfl _ _) hquiet
  rw [endMove_copy] at hend
  have heffect : MoveEffect n e (dropGathered (copyRuns e j.runs) (.mov n (s.tile n).seq none)) := by
    rw [hframe]
    exact moveEffect_of_frame rfl rfl rfl
  exact ⟨_, hnext.trans (congrArg Host.Outcome.next (hmove.trans hend)), he.done heffect,
    (endStatus_mem ..).trans (mem_copyRuns he.checks.mem _)⟩

/-! ## SRF (R267) -/

/-- A run that passes its checks begins at or above address 0 where it reads local memory. -/
theorem nonneg_of_runFail {s : State} {j : MoveJob} {r : Int × Int × Nat} (hsrc : j.src = .side .da)
    (h : j.runFail s .ok r = none) : 0 ≤ r.1 := by
  by_contra hneg
  rw [MoveJob.runFail, hsrc] at h
  simp [State.sideFail, Int.not_le.1 hneg] at h

theorem ofBytes_lt (bs : List Byte) : ofBytes bs < 256 ^ bs.length := by
  induction bs with
  | nil => simp [ofBytes]
  | cons b bs ih =>
    have hb : b.toNat < 256 := b.isLt
    rw [ofBytes, List.length_cons, Nat.pow_succ]
    omega

theorem load_lt (s : State) (a n : Nat) : s.load a n < 256 ^ n := by
  have h := ofBytes_lt (s.bytes a n)
  rwa [bytes_length] at h

/-! ### The pieces of an L16 tensor of one dimension are its elements -/

section
variable {d : Desc} (hext : d.ext.drop 1 = [1, 1, 1, 1])
include hext

theorem ext_of_drop : d.ext = [d.n 0, 1, 1, 1, 1] := by
  unfold Desc.n
  cases hd : d.ext with
  | nil => rw [hd] at hext; cases hext
  | cons n ns =>
    rw [hd] at hext
    exact congrArg (n :: ·) hext

theorem coords_of_lt {k : Nat} (hk : k < d.n 0) : coords d.ext k = [k, 0, 0, 0, 0] := by
  rw [ext_of_drop hext]
  simp [coords, Nat.mod_eq_of_lt hk, Nat.mod_one]

variable (hfmt : d.fmtc = 5)
include hfmt

omit hext in
theorem fmt_eq_l16 : d.fmt = .l16 := by rw [Desc.fmt, hfmt]; rfl

theorem pieces_eq : d.pieces =
    (List.range (d.n 0)).map (fun k => (d.base : Int) + strideSum d.ext d.stride (coords d.ext k)) := by
  have hcount : d.ext.foldl (· * ·) 1 = d.n 0 := by rw [ext_of_drop hext]; simp [Desc.n]
  simp only [Desc.pieces, fmt_eq_l16 hfmt, Fmt.packed, Bool.false_eq_true, if_false, hcount]

theorem length_pieces : d.pieces.length = d.n 0 := by rw [pieces_eq hext hfmt]; simp

theorem load_piece (s : State) {k : Nat} (hk : k < d.pieces.length) :
    s.load d.pieces[k].toNat 2 = s.elem d [k, 0, 0, 0, 0] := by
  have hn : k < d.n 0 := length_pieces hext hfmt ▸ hk
  have hpiece : d.pieces[k] = (d.base : Int) + strideSum d.ext d.stride [k, 0, 0, 0, 0] := by
    simp only [pieces_eq hext hfmt, List.getElem_map, List.getElem_range, coords_of_lt hext hn]
  simp only [State.elem, Desc.place, fmt_eq_l16 hfmt, Fmt.packed, Bool.false_eq_true, if_false, ← hpiece]
  show _ = s.load d.pieces[k].toNat 2 / 2 ^ (16 * 0) % 2 ^ 16
  rw [Nat.mul_zero, Nat.pow_zero, Nat.div_one, Nat.mod_eq_of_lt (show _ < 2 ^ 16 from load_lt s _ 2)]

end

theorem endMove_srf {w : State} {n seq entry : Nat} {bs : List Byte}
    (hbytes : w.gathered (.mov n seq (some (.srf entry))) = bs) : w.endMove (.mov n seq (some (.srf entry))) stOk =
      ((dropGathered w (.mov n seq (some (.srf entry)))).updTile n (fun t => t.loadSrf entry bs)).endStatus n seq
        0 := by
  rw [← hbytes]
  rfl

theorem movSrf_loads (i : Issue) (s : State) (hready : MovReady s i 1) :
    let n := i.tile
    let ds := Desc.ofWords ((s.tile n).d (fC i.word))
    let entry := bits i.word 2 13
    let j : MoveJob := { copyJob s i with
      owner := .mov n (s.tile n).seq (some (.srf entry)), dst := .stage
      runs := joinRuns ((ds.pieces.zipIdx).map (fun p => (p.1, ((2 * p.2 : Nat) : Int), 2))) }
    movFault [⟨ds, .elems⟩] = none → ds.fmtc = 5 → ds.ext.drop 1 = [1, 1, 1, 1] → entry + ds.n 0 ≤ 8192 →
    s.localDev ds.dev = true → j.overlap = false → j.held s = none → (∀ r ∈ j.runs, j.runFail s .ok r = none) →
    ∃ t, exec (.movSrf i) s = .next t ∧ MoveDone s t i 0 ∧ t.mem = s.mem ∧
      ∀ k, NMap.get (fun _ => 0) (t.tile n).srf k =
        if entry ≤ k ∧ k < entry + ds.n 0 then s.elem ds [k - entry, 0, 0, 0, 0]
        else NMap.get (fun _ => 0) (s.tile n).srf k := by
  intro n ds entry j hfault hfmt hext hentry hds hoverlap hheld hpass
  obtain ⟨e, he, hnext⟩ := movStarts hready State.startSrf
  have hecc : i.ecc = .ok := hready.2.2.2.1
  have hmove : e.startSrf n (s.top n i) = e.runMove j .ok := by
    unfold State.startSrf
    simp only [top_issue, top_core_d, top_seq, hecc]
    rw [show movFault _ = none from hfault]
    dsimp only
    rw [if_neg (by simp [ds, hfmt, hext] : ¬ (ds.fmtc ≠ 5 ∨ ds.ext.drop 1 ≠ [1, 1, 1, 1])),
      if_neg (by exact Nat.not_lt.2 hentry : ¬ 8192 < fl i.word 2 13 + ds.n 0), he.descSide hds]
    rfl
  have hj : LocalMove j n (s.tile n).seq (some (.srf entry)) := ⟨rfl, rfl, .inr rfl⟩
  obtain ⟨w, hbytes, hw, hend⟩ := he.loads hready hj rfl hoverlap hheld hpass
    (abuts_joinRuns (abuts_zipIdx 2 ds.pieces 0))
  rw [runBytes_joinRuns _ _ fun r hr => nonneg_of_runFail rfl (hpass r hr), runBytes_zipIdx] at hbytes
  rw [endMove_srf hbytes] at hend
  refine ⟨_, hnext.trans (congrArg Host.Outcome.next (hmove.trans hend)), he.done (moveEffect_updTile
    (hw.effect ..) (loadSrf_frame · entry _)), (endStatus_mem ..).trans <| hw.mem.trans he.checks.mem, fun k => ?_⟩
  have hsrf : (w.tile n).srf = (s.tile n).srf := by rw [State.tile, hw.tiles]; exact he.srf
  have hlen := length_pieces hext hfmt
  rw [endStatus_tile, tile_updTile_same]
  refine (srf_loadSrf _ _ _ _).trans ?_
  rw [length_flatMap_bytes, hlen, Nat.mul_div_cancel_left _ Nat.two_pos]
  by_cases hk : entry ≤ k ∧ k < entry + ds.n 0
  · have hi : k - entry < ds.pieces.length := by omega
    rw [if_pos hk, if_pos hk, leAt_flatMap_bytes _ _ _ hi, load_piece hext hfmt]
  · rw [if_neg hk, if_neg hk, ← hsrf]
    rfl

/-! ## FUSLOT (R131, R267) -/

theorem endMove_slot {w : State} {n seq k : Nat} {bs : List Byte}
    (hbytes : w.gathered (.mov n seq (some (.slot k))) = bs) {im : FuImage} (him : parseImage bs = some im) :
    w.endMove (.mov n seq (some (.slot k))) stOk =
      ((dropGathered w (.mov n seq (some (.slot k)))).updTile n
        (fun t => { t with fu := NMap.insert t.fu k im })).endStatus n seq 0 := by
  unfold State.endMove
  dsimp only
  rw [if_pos rfl, hbytes, him]
  rfl

theorem movFuslot_loads (i : Issue) (s : State) (hready : MovReady s i 2) :
    let n := i.tile
    let ds := Desc.ofWords ((s.tile n).d (fC i.word))
    let k := bits i.word 15 4
    let j : MoveJob := { copyJob s i with
      owner := .mov n (s.tile n).seq (some (.slot k)), dst := .stage, runs := [((ds.base : Int), 0, ds.n 0)] }
    firstFault [(Opnd.descBad ⟨ds, .elems⟩, eDescField), (Opnd.fmtBad ⟨ds, .elems⟩, eFmtUse)] = none →
    ds.fmtc = 12 → ds.ext.drop 1 = [1, 1, 1, 1] → ds.base % 32 = 0 → 32 ≤ ds.n 0 → s.localDev ds.dev = true →
    j.overlap = false → j.held s = none → (∀ r ∈ j.runs, j.runFail s .ok r = none) →
    ∀ im, parseImage (s.bytes ds.base (ds.n 0)) = some im →
    ∃ t, exec (.movFuslot i) s = .next t ∧ MoveDone s t i 0 ∧ t.mem = s.mem ∧
      NMap.find? (t.tile n).fu k = some im ∧ ∀ m, m ≠ k → NMap.find? (t.tile n).fu m = NMap.find? (s.tile n).fu m := by
  intro n ds k j hfault hfmt hext hbase hn hds hoverlap hheld hpass im him
  obtain ⟨e, he, hnext⟩ := movStarts hready State.startFuslot
  have hecc : i.ecc = .ok := hready.2.2.2.1
  have hmove : e.startFuslot n (s.top n i) = e.runMove j .ok := by
    unfold State.startFuslot
    simp only [top_issue, top_core_d, top_seq, hecc]
    rw [show firstFault _ = none from hfault]
    dsimp only
    rw [if_neg (by simp [ds, hfmt, hext] : ¬ (ds.fmtc ≠ 12 ∨ ds.ext.drop 1 ≠ [1, 1, 1, 1])),
      if_neg (by omega : ¬ (ds.base % 32 ≠ 0 ∨ ds.n 0 < 32)), he.descSide hds]
    rfl
  have hj : LocalMove j n (s.tile n).seq (some (.slot k)) := ⟨rfl, rfl, .inr rfl⟩
  obtain ⟨w, hbytes, hw, hend⟩ := he.loads hready hj rfl hoverlap hheld hpass ⟨rfl, trivial⟩
  have hgathered : runBytes s j.runs = s.bytes ds.base (ds.n 0) := by simp [runBytes, j]
  rw [hgathered] at hbytes
  rw [endMove_slot hbytes him] at hend
  have hslot : (w.tile n).fu = (s.tile n).fu := by rw [State.tile, hw.tiles]; exact he.fu
  have hfu : ((((dropGathered w (.mov n (s.tile n).seq (some (.slot k)))).updTile n
      (fun t => { t with fu := NMap.insert t.fu k im })).endStatus n (s.tile n).seq 0).tile n).fu =
      NMap.insert (s.tile n).fu k im := by
    rw [endStatus_tile, tile_updTile_same, ← hslot]
    rfl
  refine ⟨_, hnext.trans (congrArg Host.Outcome.next (hmove.trans hend)), he.done (moveEffect_updTile
    (hw.effect ..) fun _ => rfl), (endStatus_mem ..).trans <| hw.mem.trans he.checks.mem, ?_, fun m hm => ?_⟩
  · rw [hfu, nmap_find_insert, if_pos rfl]
  · rw [hfu, nmap_find_insert, if_neg hm]

/-! ## The obligation -/

/-- Settles O26: COPY, SRF and FUSLOT between local operands. -/
theorem localMoves : Obligations.LocalMoves := ⟨movCopy_copies, movSrf_loads, movFuslot_loads⟩

end Sys2Proof.Proofs
end

section
/-! PROOFS. The end of an instruction (spec/07_nolpa_programming.md R211, R228 to R231, R238, R241, R243): what the
instruction boundary leaves of a running tile, be a halt request waiting or not, and from it what an instruction that
goes on and one that takes an exception leave. -/
namespace Sys2Proof.Proofs

open Sys2Proof Sys2Proof.Machine Sys2Proof.Claims Sys2Proof.Laws

/-! ## The instruction boundary -/

/-- The core stands at an instruction boundary that DEBUG leaves as it is: it waits neither for the home of an access
nor at a WTK (R239). -/
def Settled : Wait → Prop
  | .mem .. | .wtk .. => False
  | _ => True

theorem Settled.atBoundary {t : Tile} (h : Settled t.wait) : t.atBoundary = true := by
  unfold Tile.atBoundary
  cases hw : t.wait with
  | mem pc r => rw [hw] at h; exact h.elim
  | _ => rfl

theorem word_of_tileCsr {a b : Tile} (h : b.csr = a.csr) (o : Nat) : b.word o = a.word o := by
  rw [Tile.word, Tile.word, h]

theorem fld_of_word {a b : Tile} {f : Fld} (h : b.word f.off = a.word f.off) : b.fld f = a.fld f := by
  rw [Tile.fld, Tile.fld, h]

theorem fld_of_tileCsr {a b : Tile} (h : b.csr = a.csr) (f : Fld) : b.fld f = a.fld f :=
  fld_of_word (word_of_tileCsr h _)

/-- Tile `b` is `a` with other register words. -/
def CsrOnly (a b : Tile) : Prop := ∃ csr, b = { a with csr := csr }

theorem csrOnly_setWord (t : Tile) (o : Nat) (v : W64) : CsrOnly t (t.setWord o v) := ⟨_, rfl⟩

theorem csrOnly_setFld (t : Tile) (f : Fld) (v : Nat) : CsrOnly t (t.setFld f v) := csrOnly_setWord ..

theorem CsrOnly.trans {a b c : Tile} (hab : CsrOnly a b) (hbc : CsrOnly b c) : CsrOnly a c := by
  obtain ⟨_, rfl⟩ := hab
  obtain ⟨csr, rfl⟩ := hbc
  exact ⟨csr, rfl⟩

theorem CsrOnly.eq {a b : Tile} (h : CsrOnly a b) : b = { a with csr := b.csr } := by
  obtain ⟨_, rfl⟩ := h
  rfl

theorem enterDebug_frame (t : Tile) (r : Nat) : ∃ csr w, t.enterDebug r = { t with
    csr := csr, wait := w, dbgFrom := t.state, haltReq := false, stepping := false } := by
  unfold Tile.enterDebug
  obtain ⟨csr, h⟩ := ((csrOnly_setFld _ _ _).trans (csrOnly_setFld _ Csr.tcDbgSts_reason r)).trans
    (csrOnly_setFld _ Csr.tcDbgSts_halted 0)
  exact ⟨csr, _, h⟩

theorem enterDebug_dbgFrom (t : Tile) (r : Nat) : (t.enterDebug r).dbgFrom = t.state := by
  obtain ⟨csr, w, h⟩ := enterDebug_frame t r
  rw [h]

theorem enterDebug_wait {t : Tile} (h : Settled t.wait) (r : Nat) : (t.enterDebug r).wait = t.wait := by
  unfold Tile.enterDebug
  simp only [Tile.setState, tile_setFld_wait]
  cases hw : t.wait with
  | wtk => rw [hw] at h; exact h.elim
  | _ => rfl

/-- Tile `b` is the running tile `a` behind an instruction boundary: a step has ended, a halt request that waited has
been taken (R238, R241), and otherwise nothing has happened. -/
structure Stopped (a b : Tile) : Prop where
  frame : b = { a with csr := b.csr, dbgFrom := b.dbgFrom, stepping := false, haltReq := false }
  word : ∀ o, o ≠ Csr.tcStatus → o ≠ Csr.tcDbgSts → b.word o = a.word o
  fld : ∀ g : Fld, g.off = Csr.tcStatus → 2 ≤ g.lo → b.fld g = a.fld g
  debug : a.stepping ∨ a.haltReq → b.state = tsDebug ∧ b.dbgFrom = a.state ∧
    b.fld Csr.tcDbgSts_reason = (if a.stepping then 3 else 0) ∧ b.fld Csr.tcDbgSts_halted = 0
  stays : ¬ (a.stepping ∨ a.haltReq) → b.csr = a.csr ∧ b.dbgFrom = a.dbgFrom

theorem boundary_eq {t : Tile} (hstate : t.state = tsRunning) (hwait : Settled t.wait) :
    t.boundary = if t.stepping then t.enterDebug haltStep else if t.haltReq then t.enterDebug haltRequest else t := by
  unfold Tile.boundary
  rw [hstate, hwait.atBoundary]
  simp

theorem stopped_enterDebug {t : Tile} (hwait : Settled t.wait) (hstop : t.stepping ∨ t.haltReq) {r : Nat}
    (hr : r % 4 = if t.stepping then 3 else 0) : Stopped t (t.enterDebug r) where
  frame := by
    obtain ⟨csr, w, h⟩ := enterDebug_frame t r
    obtain rfl : t.wait = w := (enterDebug_wait hwait r).symm.trans (congrArg Tile.wait h :)
    rw [h]
  word := enterDebug_word t r
  fld := enterDebug_fld t r
  debug _ := ⟨enterDebug_state t r, enterDebug_dbgFrom t r, (enterDebug_reason t r).trans hr, enterDebug_halted t r⟩
  stays h := absurd hstop h

theorem stopped_boundary {t : Tile} (hstate : t.state = tsRunning) (hwait : Settled t.wait) :
    Stopped t t.boundary := by
  rw [boundary_eq hstate hwait]
  split
  · next hstep => exact stopped_enterDebug hwait (.inl hstep) (by rw [if_pos hstep]; rfl)
  · next hstep =>
    split
    · next hhalt => exact stopped_enterDebug hwait (.inr hhalt) (by rw [if_neg hstep]; rfl)
    · next hhalt =>
      have hstays : ¬ (t.stepping ∨ t.haltReq) := not_or.mpr ⟨hstep, hhalt⟩
      refine ⟨?_, fun _ _ _ => rfl, fun _ _ _ => rfl, fun h => absurd h hstays, fun _ => ⟨rfl, rfl⟩⟩
      cases t
      dsimp only at hstep hhalt
      rw [Bool.not_eq_true] at hstep hhalt
      subst hstep hhalt
      rfl

/-! ## An instruction that goes on -/

/-- An instruction that goes on retires, whatever its core waits for behind it. -/
theorem retires_settled {t : Tile} (hstate : t.state = tsRunning) (hwait : Settled t.wait) (pc : Nat) :
    Retires t (t.advance pc) pc := by
  let x : Tile := { t.setWord Csr.tcInstret (t.word Csr.tcInstret + 1) with pc := pc, bpPassed := false }
  have hword (o : Nat) (ho : o ≠ Csr.tcInstret) : x.word o = t.word o := (twrd_setWord ..).trans (if_neg ho)
  have hfld {g : Fld} (ho : g.off ≠ Csr.tcInstret) : x.fld g = t.fld g := fld_of_word (hword _ ho)
  have hxstate : x.state = tsRunning := (hfld (by decide)).trans hstate
  have hx : Stopped x (t.advance pc) := stopped_boundary hxstate hwait
  have hstatus {g : Fld} (hoff : g.off = Csr.tcStatus) (hlo : 2 ≤ g.lo) : (t.advance pc).fld g = t.fld g :=
    (hx.fld g hoff hlo).trans (hfld (by rw [hoff]; decide))
  refine ⟨?_, ?_, fun o h1 h2 h3 => (hx.word o h2 h3).trans (hword o h1), hstatus rfl (by decide),
    hstatus rfl (by decide), hstatus rfl (by decide), ?_⟩
  · refine hx.frame.trans ?_
    rw [tile_advance_sreg, tile_advance_dreg, tile_advance_ibuf]
    rfl
  · exact (hx.word _ (by decide) (by decide)).trans ((twrd_setWord ..).trans (if_pos rfl))
  · by_cases hstop : t.stepping ∨ t.haltReq
    · rw [if_pos hstop, hstate, ← hxstate]
      exact hx.debug hstop
    · obtain ⟨hcsr, hfrom⟩ := hx.stays hstop
      have hsame (o : Nat) (ho : o ≠ Csr.tcInstret) : (t.advance pc).word o = t.word o := by
        rw [← hword o ho, Tile.word, Tile.word, hcsr]
      rw [if_neg hstop]
      exact ⟨hsame _ (by decide), hsame _ (by decide), hfrom⟩

/-- Registers that the instruction has written, and the recency of the instruction buffer, are no part of what
`Retires` keeps. -/
theorem retires_of_regs {a a' b : Tile} {pc : Nat} (h : Retires a' b pc)
    (ha : a' = { a with sreg := a'.sreg, dreg := a'.dreg, ibuf := a'.ibuf }) : Retires a b pc := by
  rw [ha] at h
  exact h

/-- An instruction that leaves its core waiting retires like one that goes on. -/
theorem advanceWait_eq_advance (t : Tile) (w : Wait) :
    t.advanceWait w = ({ t with wait := w } : Tile).advance ((t.pc + 8) % 2 ^ 48) := rfl

/-! ## An instruction that takes an exception -/

/-- An exception's saved registers (R228): the pc, the cause with its fetch bit, and TC_TVAL. -/
def saved (t : Tile) (cause : Nat) (fetch : Bool) (tval : W64) : Tile :=
  ((t.setFld Csr.tcEpc_epc t.pc).setWord Csr.tcCause (w64 (cause + b2n fetch * 2 ^ 16))).setWord Csr.tcTval tval

theorem csrOnly_saved (t : Tile) (cause : Nat) (fetch : Bool) (tval : W64) : CsrOnly t (saved t cause fetch tval) :=
  ((csrOnly_setFld ..).trans (csrOnly_setWord ..)).trans (csrOnly_setWord ..)

theorem word_saved (t : Tile) (cause : Nat) (fetch : Bool) (tval : W64) {o : Nat}
    (ho : o ∉ [Csr.tcEpc, Csr.tcCause, Csr.tcTval]) : (saved t cause fetch tval).word o = t.word o := by
  simp only [List.mem_cons, List.not_mem_nil, or_false, not_or] at ho
  obtain ⟨hepc, hcause, htval⟩ := ho
  rw [saved, twrd_setWord, if_neg htval, twrd_setWord, if_neg hcause, twrd_setFld_other _ _ _ _ hepc]

/-- Tile `x` is `a` on its way into the handler or to the end of a double fault (R228, R230, R231), before the boundary
of the instruction that took the exception. -/
structure Excepted (a x : Tile) (cause : Nat) (fetch : Bool) (tval : W64) : Prop where
  frame : ∃ csr pc wait bp, x = { a with csr := csr, pc := pc, wait := wait, bpPassed := bp }
  words : ∀ o, o ∉ [Csr.tcEpc, Csr.tcCause, Csr.tcTval, Csr.tcStatus] → x.word o = a.word o
  state : x.state = a.state
  epc : x.fld Csr.tcEpc_epc = a.pc % 2 ^ 48
  cause : x.word Csr.tcCause = BitVec.ofNat 64 (cause + if fetch then 2 ^ 16 else 0)
  tval : x.word Csr.tcTval = tval
  handler : if a.fld Csr.tcStatus_priv = 0 ∧ a.fld Csr.tcTvec_vec ≠ 0 then
      x.pc = 8 * a.fld Csr.tcTvec_vec ∧ x.fld Csr.tcStatus_priv = 1 ∧ x.fld Csr.tcStatus_epriv = 0 ∧ x.wait = .none ∧
      x.bpPassed = false
    else x.pc = a.pc ∧ x.fld Csr.tcStatus_priv = a.fld Csr.tcStatus_priv ∧ x.wait = .dfault

theorem Excepted.traps {a x b : Tile} {cause : Nat} {fetch : Bool} {tval : W64} (h : Excepted a x cause fetch tval)
    (hb : Stopped x b) : Traps a b cause fetch tval := by
  obtain ⟨hframe, hword, hfld, hdebug, hstays⟩ := hb
  obtain ⟨csr, pc, wait, bp, rfl⟩ := h.frame
  have hpc : b.pc = pc := (congrArg Tile.pc hframe :)
  have hwait : b.wait = wait := (congrArg Tile.wait hframe :)
  have hbp : b.bpPassed = bp := (congrArg Tile.bpPassed hframe :)
  refine ⟨?_, fun o ho => ?_, ?_, ?_, ?_, ?_, ?_⟩
  · have hibuf : b.ibuf = a.ibuf := (congrArg Tile.ibuf hframe :)
    have herr : b.fetchErr = a.fetchErr := (congrArg Tile.fetchErr hframe :)
    rw [hpc, hwait, hbp, hibuf, herr]
    exact hframe
  · simp only [List.mem_cons, List.not_mem_nil, or_false, not_or] at ho
    obtain ⟨h1, h2, h3, h4, h5⟩ := ho
    exact (hword o h4 h5).trans (h.words o (by simp [h1, h2, h3, h4]))
  · exact (fld_of_word (hword _ (by decide) (by decide))).trans h.epc
  · exact (hword _ (by decide) (by decide)).trans h.cause
  · exact (hword _ (by decide) (by decide)).trans h.tval
  · by_cases hstop : a.stepping ∨ a.haltReq
    · rw [if_pos hstop, ← h.state]
      exact hdebug hstop
    · rw [if_neg hstop]
      have hsame (o : Nat) := congrArg (NMap.get tileReset · o) (hstays hstop).1
      exact ⟨(fld_of_word (hsame _)).trans h.state, (hsame _).trans (h.words _ (by decide))⟩
  · rw [hpc, hwait, hbp, hfld _ rfl (by decide), hfld _ rfl (by decide)]
    exact h.handler

section
variable (t : Tile) (cause : Nat) (fetch : Bool) (tval : W64)

theorem epc_saved : (saved t cause fetch tval).fld Csr.tcEpc_epc = t.pc % 2 ^ 48 := by
  have hword : (saved t cause fetch tval).word Csr.tcEpc = (t.setFld Csr.tcEpc_epc t.pc).word Csr.tcEpc := by
    rw [saved, twrd_setWord, if_neg (by decide), twrd_setWord, if_neg (by decide)]
  exact (fld_of_word hword).trans (tfld_setFld_same _ _ _ (by decide))

theorem cause_saved : (saved t cause fetch tval).word Csr.tcCause =
    BitVec.ofNat 64 (cause + if fetch then 2 ^ 16 else 0) := by
  rw [saved, twrd_setWord, if_neg (by decide), twrd_setWord, if_pos rfl]
  cases fetch <;> rfl

theorem tval_saved : (saved t cause fetch tval).word Csr.tcTval = tval := (twrd_setWord ..).trans (if_pos rfl)

theorem fld_saved {g : Fld} (h : g.off ∉ [Csr.tcEpc, Csr.tcCause, Csr.tcTval]) :
    (saved t cause fetch tval).fld g = t.fld g := fld_of_word (word_saved t cause fetch tval h)

/-- A tile that has saved its exception, at P (R230). -/
def raised : Tile := ((saved t cause fetch tval).setFld Csr.tcStatus_epriv 0).setFld Csr.tcStatus_priv 1

theorem csrOnly_raised : CsrOnly t (raised t cause fetch tval) :=
  ((csrOnly_saved ..).trans (csrOnly_setFld ..)).trans (csrOnly_setFld ..)

/-- A tile that enters its handler (R230). -/
def handled : Tile :=
  { raised t cause fetch tval with
    pc := (raised t cause fetch tval).fld Csr.tcTvec_vec * 8, wait := .none, bpPassed := false }

theorem csr_handled : (handled t cause fetch tval).csr = (raised t cause fetch tval).csr := rfl

theorem fld_handled (g : Fld) : (handled t cause fetch tval).fld g = (raised t cause fetch tval).fld g :=
  fld_of_tileCsr (csr_handled ..) g

theorem word_handled {o : Nat} (ho : o ≠ Csr.tcStatus) :
    (handled t cause fetch tval).word o = (saved t cause fetch tval).word o :=
  (word_of_tileCsr (csr_handled ..) o).trans ((twrd_setFld_other _ _ _ _ ho).trans (twrd_setFld_other _ _ _ _ ho))

theorem pc_handled : (handled t cause fetch tval).pc = 8 * t.fld Csr.tcTvec_vec := by
  have hvec : (handled t cause fetch tval).fld Csr.tcTvec_vec = t.fld Csr.tcTvec_vec :=
    (fld_of_word (word_handled t cause fetch tval (by decide))).trans (fld_saved t cause fetch tval (by decide))
  rw [← hvec, fld_handled, Nat.mul_comm]
  rfl

theorem excepted_handled (h : t.fld Csr.tcStatus_priv = 0 ∧ t.fld Csr.tcTvec_vec ≠ 0) :
    Excepted t (handled t cause fetch tval) cause fetch tval where
  frame := by
    obtain ⟨csr, hr⟩ := csrOnly_raised t cause fetch tval
    rw [handled, hr]
    exact ⟨_, _, _, _, rfl⟩
  words o ho := by
    simp only [List.mem_cons, List.not_mem_nil, or_false, not_or] at ho
    obtain ⟨h1, h2, h3, h4⟩ := ho
    exact (word_handled t cause fetch tval h4).trans (word_saved t cause fetch tval (by simp [h1, h2, h3]))
  state := (fld_handled ..).trans <| (tfld_setFld_other _ _ _ _ (by decide) (by decide)).trans <|
    (tfld_setFld_other _ _ _ _ (by decide) (by decide)).trans (fld_saved t cause fetch tval (by decide))
  epc := (fld_of_word (word_handled t cause fetch tval (by decide))).trans (epc_saved ..)
  cause := (word_handled t cause fetch tval (by decide)).trans (cause_saved ..)
  tval := (word_handled t cause fetch tval (by decide)).trans (tval_saved ..)
  handler := by
    rw [if_pos h]
    exact ⟨pc_handled .., (fld_handled ..).trans (tfld_setFld_same _ _ _ (by decide)),
      (fld_handled ..).trans <|
        (tfld_setFld_other _ _ _ _ (by decide) (by decide)).trans (tfld_setFld_same _ _ _ (by decide)), rfl, rfl⟩

/-- A tile in a double fault, whose engines drain (R231). -/
def drained : Tile := { saved t cause fetch tval with wait := .dfault }

theorem csr_drained : (drained t cause fetch tval).csr = (saved t cause fetch tval).csr := rfl

theorem excepted_drained (h : ¬ (t.fld Csr.tcStatus_priv = 0 ∧ t.fld Csr.tcTvec_vec ≠ 0)) :
    Excepted t (drained t cause fetch tval) cause fetch tval := by
  have hword (o : Nat) : (drained t cause fetch tval).word o = (saved t cause fetch tval).word o :=
    word_of_tileCsr (csr_drained ..) o
  have hfld {g : Fld} (hg : g.off ∉ [Csr.tcEpc, Csr.tcCause, Csr.tcTval]) :
      (drained t cause fetch tval).fld g = t.fld g := (fld_of_word (hword _)).trans (fld_saved t cause fetch tval hg)
  have hframe : ∃ csr, drained t cause fetch tval = { t with csr := csr, wait := .dfault } := by
    obtain ⟨csr, hs⟩ := csrOnly_saved t cause fetch tval
    rw [drained, hs]
    exact ⟨_, rfl⟩
  refine ⟨?_, fun o ho => ?_, hfld (by decide), (fld_of_word (hword _)).trans (epc_saved ..),
    (hword _).trans (cause_saved ..), (hword _).trans (tval_saved ..), ?_⟩
  · obtain ⟨csr, hs⟩ := hframe
    exact ⟨_, _, _, _, hs⟩
  · simp only [List.mem_cons, List.not_mem_nil, or_false, not_or] at ho
    obtain ⟨h1, h2, h3, -⟩ := ho
    exact (hword o).trans (word_saved t cause fetch tval (by simp [h1, h2, h3]))
  · obtain ⟨csr, hs⟩ := hframe
    rw [if_neg h]
    exact ⟨(congrArg Tile.pc hs :), hfld (by decide), rfl⟩

theorem fld_priv_lt (t : Tile) : t.fld Csr.tcStatus_priv < 2 := bits_lt ..

theorem takeException_eq : t.takeException cause fetch tval =
    if t.fld Csr.tcStatus_priv = 0 ∧ t.fld Csr.tcTvec_vec ≠ 0 then (handled t cause fetch tval).boundary
    else (drained t cause fetch tval).boundary := by
  have hpriv : (saved t cause fetch tval).fld Csr.tcStatus_priv = t.fld Csr.tcStatus_priv :=
    fld_saved t cause fetch tval (by decide)
  have hvec : (saved t cause fetch tval).fld Csr.tcTvec_vec = t.fld Csr.tcTvec_vec :=
    fld_saved t cause fetch tval (by decide)
  have hlt := fld_priv_lt t
  have hentry : (!(saved t cause fetch tval).priv && (saved t cause fetch tval).fld Csr.tcTvec_vec != 0) = true ↔
      t.fld Csr.tcStatus_priv = 0 ∧ t.fld Csr.tcTvec_vec ≠ 0 := by
    simp only [Tile.priv, hpriv, hvec, Bool.and_eq_true, Bool.not_eq_true', beq_eq_false_iff_ne, bne_iff_ne]
    omega
  exact if_congr hentry rfl rfl

/-- An exception that a running core takes is entered as R228 to R231 say. -/
theorem traps_takeException {t : Tile} (hstate : t.state = tsRunning) :
    Traps t (t.takeException cause fetch tval) cause fetch tval := by
  rw [takeException_eq]
  split
  · next h =>
    have hx := excepted_handled t cause fetch tval h
    exact hx.traps (stopped_boundary (hx.state.trans hstate) trivial)
  · next h =>
    have hx := excepted_drained t cause fetch tval h
    exact hx.traps (stopped_boundary (hx.state.trans hstate) trivial)

end

end Sys2Proof.Proofs
end

section
/-! PROOFS. The S class and TKS (spec/07_nolpa_programming.md R202, R213, R217, Table 7.5): the table's operations on
words first, then what an instruction that writes registers leaves, then the rows. -/
namespace Sys2Proof.Proofs

open Sys2Proof Sys2Proof.Machine Sys2Proof.Claims Sys2Proof.Laws

/-! ## Operations on words -/

/-- The integer of two's complement that the low bits of a natural spell. -/
theorem signed_eq_toInt {w : Nat} (hw : 0 < w) (x : Nat) : signed w x = (BitVec.ofNat w x).toInt := by
  have hpow : 2 ^ w = 2 * 2 ^ (w - 1) := by rw [← pow_succ', Nat.sub_add_cancel hw]
  simp only [signed, BitVec.toInt_eq_toNat_cond, BitVec.toNat_ofNat]
  exact if_congr (by omega) rfl rfl

theorem simm_eq_imm32 (w : W64) : simm w = imm32 w := by
  have hlow : BitVec.ofNat 32 (fL w) = w.setWidth 32 := by
    apply BitVec.eq_of_toNat_eq
    simp [bits, field]
  rw [simm, signed_eq_toInt (by decide), hlow]
  rfl

theorem opMulh_eq (a b : W64) : opMulh a b = ((a.signExtend 128 * b.signExtend 128) >>> 64).setWidth 64 := by
  have hprod : a.signExtend 128 * b.signExtend 128 = BitVec.ofInt 128 (a.toInt * b.toInt) := (BitVec.ofInt_mul ..).symm
  rw [hprod, opMulh]
  apply BitVec.eq_of_toNat_eq
  simp only [BitVec.toNat_ofInt, BitVec.toNat_setWidth, BitVec.toNat_ushiftRight, Nat.shiftRight_eq_div_pow]
  generalize a.toInt * b.toInt = p
  omega

theorem opMulhu_eq (a b : W64) : opMulhu a b = ((a.setWidth 128 * b.setWidth 128) >>> 64).setWidth 64 := by
  have ha := a.isLt
  have hb := b.isLt
  have hlt : a.toNat * b.toNat < 2 ^ 64 * 2 ^ 64 := Nat.mul_lt_mul'' ha hb
  apply BitVec.eq_of_toNat_eq
  simp only [opMulhu, BitVec.toNat_ofNat, BitVec.toNat_setWidth, BitVec.toNat_ushiftRight, BitVec.toNat_mul,
    Nat.shiftRight_eq_div_pow]
  rw [Nat.mod_eq_of_lt (a := a.toNat) (by omega), Nat.mod_eq_of_lt (a := b.toNat) (by omega),
    Nat.mod_eq_of_lt (a := a.toNat * b.toNat) (by omega)]

theorem opDiv_eq (a b : W64) : opDiv a b = if b = 0 then BitVec.allOnes 64 else a.sdiv b := by
  have hquot : BitVec.ofInt 64 (a.toInt.tdiv b.toInt) = a.sdiv b := by
    apply BitVec.eq_of_toInt_eq
    rw [BitVec.toInt_ofInt, BitVec.toInt_sdiv]
  rw [opDiv, hquot]

theorem opDivu_eq (a b : W64) : opDivu a b = if b = 0 then BitVec.allOnes 64 else a / b := by
  have hquot : w64 (a.toNat / b.toNat) = a / b := by
    apply BitVec.eq_of_toNat_eq
    rw [BitVec.toNat_ofNat, BitVec.toNat_udiv]
    exact Nat.mod_eq_of_lt ((Nat.div_le_self ..).trans_lt a.isLt)
  rw [opDivu, hquot]

theorem opRem_eq (a b : W64) : opRem a b = if b = 0 then a else a.srem b := by
  rw [opRem, ← BitVec.toInt_srem, BitVec.ofInt_toInt]

theorem opRemu_eq (a b : W64) : opRemu a b = if b = 0 then a else a % b := by
  have hrem : w64 (a.toNat % b.toNat) = a % b := by
    apply BitVec.eq_of_toNat_eq
    rw [BitVec.toNat_ofNat, BitVec.toNat_umod]
    exact Nat.mod_eq_of_lt ((Nat.mod_le ..).trans_lt a.isLt)
  rw [opRemu, hrem]

/-- A shift amount is taken modulo 64. -/
theorem toNat_and_63 (b : W64) : (b &&& 63).toNat = b.toNat % 64 := by
  rw [BitVec.toNat_and]
  exact Nat.and_two_pow_sub_one_eq_mod b.toNat 6

theorem opSll_eq (a b : W64) : opSll a b = a <<< (b &&& 63) := by
  rw [opSll, ← toNat_and_63]; rfl

theorem opSrl_eq (a b : W64) : opSrl a b = a >>> (b &&& 63) := by
  rw [opSrl, ← toNat_and_63]; rfl

theorem opSra_eq (a b : W64) : opSra a b = a.sshiftRight' (b &&& 63) := by
  rw [opSra, ← toNat_and_63]; rfl

theorem opSlt_eq (a b : W64) : opSlt a b = if a.toInt < b.toInt then 1 else 0 := by
  by_cases h : a.toInt < b.toInt <;> simp [opSlt, BitVec.slt, b2n, h]

theorem opSltu_eq (a b : W64) : opSltu a b = if a.toNat < b.toNat then 1 else 0 := by
  by_cases h : a.toNat < b.toNat <;> simp [opSltu, BitVec.ult, b2n, h]

/-- A choice between two words by `<` is one by `≤`: where neither is less, they are the same. -/
theorem ite_lt_eq_ite_le {α : Type} [LinearOrder α] {f : W64 → α} (hf : ∀ a b, f a = f b → a = b) (a b : W64) :
    (if f a < f b then a else b) = if f a ≤ f b then a else b := by
  rcases lt_trichotomy (f a) (f b) with h | h | h
  · rw [if_pos h, if_pos h.le]
  · rw [if_neg h.not_lt, if_pos h.le, hf a b h]
  · rw [if_neg h.not_gt, if_neg h.not_ge]

theorem ite_lt_swap_eq_ite_le {α : Type} [LinearOrder α] {f : W64 → α} (hf : ∀ a b, f a = f b → a = b) (a b : W64) :
    (if f a < f b then b else a) = if f a ≤ f b then b else a := by
  rcases lt_trichotomy (f a) (f b) with h | h | h
  · rw [if_pos h, if_pos h.le]
  · rw [if_neg h.not_lt, if_pos h.le, hf a b h]
  · rw [if_neg h.not_gt, if_neg h.not_ge]

theorem opMin_eq (a b : W64) : opMin a b = if a.toInt ≤ b.toInt then a else b := by
  rw [opMin, ← ite_lt_eq_ite_le fun _ _ => BitVec.eq_of_toInt_eq]
  simp only [BitVec.slt, decide_eq_true_eq]

theorem opMax_eq (a b : W64) : opMax a b = if a.toInt ≤ b.toInt then b else a := by
  rw [opMax, ← ite_lt_swap_eq_ite_le fun _ _ => BitVec.eq_of_toInt_eq]
  simp only [BitVec.slt, decide_eq_true_eq]

theorem opMinu_eq (a b : W64) : opMinu a b = if a.toNat ≤ b.toNat then a else b := by
  rw [opMinu, ← ite_lt_eq_ite_le fun _ _ => BitVec.eq_of_toNat_eq]
  simp only [BitVec.ult, decide_eq_true_eq]

theorem opMaxu_eq (a b : W64) : opMaxu a b = if a.toNat ≤ b.toNat then b else a := by
  rw [opMaxu, ← ite_lt_swap_eq_ite_le fun _ _ => BitVec.eq_of_toNat_eq]
  simp only [BitVec.ult, decide_eq_true_eq]

theorem clzAuxRec_eq (a : W64) {n : Nat} (hn : n < 64) : a.clzAuxRec n = w64 (clz64 (n + 1) a + (63 - n)) := by
  induction n with
  | zero =>
    have hclz : clz64 1 a = if a.getLsbD 0 then 0 else 1 := rfl
    rw [BitVec.clzAuxRec_zero, hclz]
    cases a.getLsbD 0 <;> rfl
  | succ n ih =>
    have hclz : clz64 (n + 1 + 1) a = if a.getLsbD (n + 1) then 0 else clz64 (n + 1) a + 1 := rfl
    rw [BitVec.clzAuxRec_succ, ih (by omega), hclz]
    split
    · congr 1; omega
    · congr 1; omega

theorem opClz_eq (a : W64) : opClz a = a.clz := (clzAuxRec_eq a (n := 63) (by decide)).symm

theorem cpopNatRec_eq (a : W64) (n k : Nat) : a.cpopNatRec n k = k + popc64 n a := by
  induction n generalizing k with
  | zero => rfl
  | succ n ih =>
    have hbit : (a.getLsbD n).toNat = b2n (a.getLsbD n) := by cases a.getLsbD n <;> rfl
    rw [BitVec.cpopNatRec_succ, ih, hbit, popc64, Nat.add_assoc]

theorem opPopc_eq (a : W64) : opPopc a = a.cpop := by
  rw [opPopc, BitVec.cpop, cpopNatRec_eq, Nat.zero_add]

theorem opLih_eq (a b : W64) : opLih a b = b.setWidth 32 ++ a.setWidth 32 := by
  have hmask (k : Nat) : (0xFFFFFFFF : W64).getLsbD k = decide (k < 32) := by
    have h : (0xFFFFFFFF : W64) = (BitVec.allOnes 32).setWidth 64 := by decide
    rw [h, BitVec.getLsbD_setWidth, BitVec.getLsbD_allOnes, Bool.and_eq_right_iff_imp, decide_eq_true_eq,
      decide_eq_true_eq]
    omega
  apply BitVec.eq_of_getLsbD_eq
  intro k hk
  rw [opLih, BitVec.getLsbD_or, BitVec.getLsbD_and, hmask, BitVec.getLsbD_append]
  by_cases hlow : k < 32
  · simp [hlow]
  · have hhigh : k - 32 < 32 := by omega
    have hword : k - 32 < 64 := by omega
    simp [hlow, hhigh, hword, hk]

/-! ## What an instruction that writes registers leaves -/

theorem s_of_sreg {a b : Tile} (h : b.sreg = a.sreg) (r : Nat) : b.s r = a.s r := by rw [Tile.s, Tile.s, h]

theorem dw_of_dreg {a b : Tile} (h : b.dreg = a.dreg) (d w : Nat) : b.dw d w = a.dw d w := by rw [Tile.dw, Tile.dw, h]

/-- Tile `b` is `a` with other s and d registers and another recency of the instruction buffer. -/
def RegsOnly (a b : Tile) : Prop := b = { a with sreg := b.sreg, dreg := b.dreg, ibuf := b.ibuf }

theorem regsOnly_ibuf (a : Tile) (l : List IbufLine) : RegsOnly a { a with ibuf := l } := rfl

theorem RegsOnly.setS {a b : Tile} (h : RegsOnly a b) (r : Nat) (v : W64) : RegsOnly a (b.setS r v) := by
  unfold Tile.setS
  split
  · exact h
  · rw [h]; rfl

theorem RegsOnly.setDw {a b : Tile} (h : RegsOnly a b) (d w : Nat) (v : W64) : RegsOnly a (b.setDw d w v) := by
  rw [h]; rfl

theorem RegsOnly.setD {a b : Tile} (h : RegsOnly a b) (d : Nat) (ws : List W64) : RegsOnly a (b.setD d ws) :=
  List.foldlRecOn (motive := RegsOnly a) _ _ h fun _ hb _ _ => hb.setDw ..

theorem RegsOnly.settled {a b : Tile} (h : RegsOnly a b) : b.state = a.state ∧ b.wait = a.wait := by
  rw [h]; exact ⟨rfl, rfl⟩

/-- A running core that has written registers goes on. -/
theorem RegsOnly.retires {a b : Tile} (h : RegsOnly a b) (hstate : a.state = tsRunning) (hwait : Settled a.wait)
    (pc : Nat) : Retires a (b.advance pc) pc := by
  obtain ⟨hs, hw⟩ := h.settled
  exact retires_of_regs (retires_settled (hs.trans hstate) (hw ▸ hwait) pc) h

/-- An instruction that writes registers of its tile and goes on, from the tile as it issues. -/
theorem coreNext_setTile {s : State} {i : Issue} (h : s.Issues i) {b : Tile} (hb : RegsOnly (s.tile i.tile) b)
    (u : Tile) (pc : Nat) :
    CoreNext s ((s.setTile i.tile u).setTile i.tile (b.advance pc)) i.tile pc b.s b.dw := by
  obtain ⟨hstate, hwait, -⟩ := canIssue_wait _ h.2.1
  have hretires := hb.retires hstate (by rw [hwait]; trivial) pc
  rw [CoreNext, tile_setTile_same]
  exact ⟨onlyTile_trans (onlyTile_setTile ..) (onlyTile_setTile ..), hretires, s_of_sreg (tile_advance_sreg ..),
    fun d w _ => dw_of_dreg (tile_advance_dreg ..) d w⟩

theorem coreNext_congr {s t : State} {n pc : Nat} {sr sr' : Nat → W64} {dr dr' : Nat → Nat → W64}
    (h : CoreNext s t n pc sr dr) (hs : ∀ r, sr r = sr' r) (hd : ∀ d w, w < 8 → dr d w = dr' d w) :
    CoreNext s t n pc sr' dr' := by
  obtain ⟨honly, hretires, hsr, hdr⟩ := h
  exact ⟨honly, hretires, fun r => (hsr r).trans (hs r), fun d w hw => (hdr d w hw).trans (hd d w hw)⟩

/-- An instruction whose effect is a function of its tile that writes registers and goes on. -/
theorem issue_regs {s : State} {i : Issue} (h : s.Issues i) {isRow : W64 → Bool} (hrow : isRow i.word = true)
    (g : Tile → Tile) (hg : ∀ l, RegsOnly (s.tile i.tile) (g { s.tile i.tile with ibuf := l })) (pc : Tile → Nat) :
    ∃ t l, issue i isRow (fun n u => u.updTile n (fun t => (g t).advance (pc t))) s = .next t ∧
      CoreNext s t i.tile (pc { s.tile i.tile with ibuf := l }) (g { s.tile i.tile with ibuf := l }).s
        (g { s.tile i.tile with ibuf := l }).dw := by
  obtain ⟨l, hnext⟩ := issue_next i isRow (fun n u => u.updTile n (fun t => (g t).advance (pc t))) s h hrow
  refine ⟨_, l, hnext, ?_⟩
  rw [State.updTile, tile_setTile_same]
  exact coreNext_setTile h (hg l) _ _

/-- An instruction that writes one s register. -/
theorem coreNext_writeS {s : State} {i : Issue} (h : s.Issues i) (l : List IbufLine) (v : W64) :
    CoreNext s ((s.setTile i.tile { s.tile i.tile with ibuf := l }).writeS i.tile i.word v) i.tile
      (nextPc (s.tile i.tile) i.word) (withS (s.tile i.tile) (fA i.word) v) (s.tile i.tile).dw := by
  rw [State.writeS, State.updTile, tile_setTile_same, ← pcNext_eq_nextPc]
  exact coreNext_congr (coreNext_setTile h ((regsOnly_ibuf _ l).setS (fA i.word) v) _ _) (fun r => s_setS ..)
    fun d w _ => dw_of_dreg (tile_setS_dreg ..) d w

/-! ## The rows -/

/-- The row's instruction writes the row's value, and does nothing else. -/
def Writes (e : ScalarRow) : Prop := ∀ (i : Issue) (s : State), s.Issues i → fOp i.word = e.op →
  ∃ l, exec (e.con i) s =
    .next ((s.setTile i.tile { s.tile i.tile with ibuf := l }).writeS i.tile i.word (e.val (s.tile i.tile) i))

/-- An instruction that writes a value of its tile, whatever the recency of the instruction buffer. -/
theorem writes_of_exec {e : ScalarRow} (f : Issue → Tile → W64)
    (hexec : ∀ i s, exec (e.con i) s =
      issue i (fun w => fOp w == e.op) (fun n u => u.writeS n i.word (f i (u.tile n))) s)
    (hval : ∀ i (t : Tile) l, f i { t with ibuf := l } = e.val t i) : Writes e := by
  intro i s h hop
  obtain ⟨l, hnext⟩ := issue_next i (fun w => fOp w == e.op) (fun n u => u.writeS n i.word (f i (u.tile n))) s h
    (beq_iff_eq.mpr hop)
  rw [tile_setTile_same, hval] at hnext
  exact ⟨l, (hexec i s).trans hnext⟩

theorem writes_rr {con : Issue → Instr} {op : Nat} {g f : W64 → W64 → W64}
    (hexec : ∀ i s, exec (con i) s = scalarR op g i s) (hval : ∀ a b, g a b = f a b) : Writes (.rr con op f) :=
  writes_of_exec (fun i t => g (t.s (fB i.word)) (t.s (fC i.word))) hexec fun _ _ _ => hval ..

theorem writes_r {con : Issue → Instr} {op : Nat} {g f : W64 → W64}
    (hexec : ∀ i s, exec (con i) s = scalarU op g i s) (hval : ∀ a, g a = f a) : Writes (.r con op f) :=
  writes_of_exec (fun i t => g (t.s (fB i.word))) hexec fun _ _ _ => hval _

theorem writes_ri {con : Issue → Instr} {op : Nat} {g f : W64 → W64 → W64}
    (hexec : ∀ i s, exec (con i) s = scalarI op g i s) (hval : ∀ a b, g a b = f a b) : Writes (.ri con op f) :=
  writes_of_exec (fun i t => g (t.s (fB i.word)) (simm i.word)) hexec fun i t _ => by
    rw [hval, simm_eq_imm32]; rfl

theorem fl_word (w : W64) : fl w 0 3 = fL w % 8 := by
  simp only [bits, field]
  omega

theorem scalarRows_write : ∀ e ∈ scalarRows, Writes e := by
  simp only [scalarRows, List.forall_mem_cons, List.not_mem_nil, false_imp_iff, implies_true, and_true]
  have refl2 (f : W64 → W64 → W64) (a b : W64) : f a b = f a b := rfl
  exact ⟨writes_rr exec_add (refl2 _), writes_rr exec_sub (refl2 _), writes_rr exec_mul (refl2 _),
    writes_rr exec_mulh opMulh_eq, writes_rr exec_mulhu opMulhu_eq, writes_rr exec_div opDiv_eq,
    writes_rr exec_divu opDivu_eq, writes_rr exec_rem opRem_eq, writes_rr exec_remu opRemu_eq,
    writes_rr exec_and (refl2 _), writes_rr exec_or (refl2 _), writes_rr exec_xor (refl2 _),
    writes_rr exec_sll opSll_eq, writes_rr exec_srl opSrl_eq, writes_rr exec_sra opSra_eq,
    writes_rr exec_slt opSlt_eq, writes_rr exec_sltu opSltu_eq, writes_rr exec_min opMin_eq,
    writes_rr exec_max opMax_eq, writes_rr exec_minu opMinu_eq, writes_rr exec_maxu opMaxu_eq,
    writes_r exec_clz opClz_eq, writes_r exec_popc opPopc_eq,
    writes_ri exec_addi (refl2 _), writes_ri exec_andi (refl2 _), writes_ri exec_ori (refl2 _),
    writes_ri exec_xori (refl2 _), writes_ri exec_slli opSll_eq, writes_ri exec_srli opSrl_eq,
    writes_ri exec_srai opSra_eq, writes_ri exec_slti opSlt_eq, writes_ri exec_lih opLih_eq,
    writes_of_exec (fun i _ => i.imm) exec_lix fun _ _ _ => rfl,
    writes_of_exec (fun i t => t.s (fB i.word) + i.imm) exec_addx fun _ _ _ => rfl,
    writes_of_exec (fun i t => t.dw (fB i.word) (fl i.word 0 3)) exec_dgetw fun i t l => by rw [fl_word]; rfl,
    writes_of_exec (fun i t => t.k (fB i.word)) exec_tks fun _ _ _ => rfl⟩

theorem scalarResultsOnSRegisters : ScalarResultsOnSRegisters := by
  intro e he i s h hop
  obtain ⟨l, hnext⟩ := scalarRows_write e he i s h hop
  exact ⟨_, hnext, coreNext_writeS h l _⟩

/-! ## d registers -/

theorem dw_setD (t : Tile) (d : Nat) (ws : List W64) (e : Nat) {w : Nat} (hw : w < 8) :
    (t.setD d ws).dw e w = if e = d then ws.getD w 0 else t.dw e w := by
  have hprefix (k : Nat) (hk : k ≤ 8) :
      ((List.range k).foldl (fun t w => t.setDw d w (ws.getD w 0)) t).dw e w =
        if e = d ∧ w < k then ws.getD w 0 else t.dw e w := by
    induction k with
    | zero => rw [if_neg (by omega)]; rfl
    | succ k ih =>
      rw [List.range_succ, List.foldl_concat, dw_setDw _ _ _ _ _ _ (by omega) hw, ih (by omega)]
      by_cases hlast : e = d ∧ w = k
      · rw [if_pos hlast, if_pos (by omega), hlast.2]
      · rw [if_neg hlast]
        exact if_congr (by omega) rfl rfl
  exact (hprefix 8 le_rfl).trans (if_congr (by omega) rfl rfl)

theorem getD_d (t : Tile) (d : Nat) {w : Nat} (hw : w < 8) : (t.d d).getD w 0 = t.dw d w := by
  simp [Tile.d, List.getD, hw]

theorem addBase_eq (w v : W64) : addBase w v = w.extractLsb' 48 16 ++ (w.setWidth 48 + v.setWidth 48) := by
  have hlow : (0xFFFFFFFFFFFF : W64) = (BitVec.allOnes 48).setWidth 64 := by decide
  have hmask (k : Nat) : (0xFFFFFFFFFFFF : W64).getLsbD k = decide (k < 48) := by
    rw [hlow, BitVec.getLsbD_setWidth, BitVec.getLsbD_allOnes, Bool.and_eq_right_iff_imp, decide_eq_true_eq,
      decide_eq_true_eq]
    omega
  have hsum : (w.setWidth 48 + v.setWidth 48 : BitVec 48) = (w + v).setWidth 48 :=
    (BitVec.setWidth_add _ _ (by decide)).symm
  apply BitVec.eq_of_getLsbD_eq
  intro k hk
  rw [addBase, BitVec.getLsbD_or, BitVec.getLsbD_and, BitVec.getLsbD_and, BitVec.getLsbD_not, hmask,
    BitVec.getLsbD_append, hsum]
  by_cases h48 : k < 48
  · simp [h48]
  · have hhigh : k - 48 < 16 := by omega
    have hk' : 48 + (k - 48) = k := by omega
    simp [h48, hhigh, hk, hk']

theorem nop_goesOn (i : Issue) (s : State) (h : s.Issues i) (hop : fOp i.word = 0x3F) :
    ∃ t, exec (.nop i) s = .next t ∧
      CoreNext s t i.tile (nextPc (s.tile i.tile) i.word) (s.tile i.tile).s (s.tile i.tile).dw := by
  obtain ⟨t, l, hnext, hgo⟩ := issue_regs h (isRow := fun w => fOp w == 0x3F) (beq_iff_eq.mpr hop) id
    (regsOnly_ibuf _) (fun t => pcNext t.pc i.word)
  rw [pcNext_eq_nextPc] at hgo
  exact ⟨t, hnext, hgo⟩

theorem dsetw_sets (i : Issue) (s : State) (h : s.Issues i) (hop : fOp i.word = 0x31) :
    ∃ t, exec (.dsetw i) s = .next t ∧
      CoreNext s t i.tile (nextPc (s.tile i.tile) i.word) (s.tile i.tile).s (fun d j =>
        if d = fA i.word ∧ j = fL i.word % 8 then (s.tile i.tile).s (fB i.word) else (s.tile i.tile).dw d j) := by
  obtain ⟨t, l, hnext, hgo⟩ := issue_regs h (isRow := fun w => fOp w == 0x31) (beq_iff_eq.mpr hop)
    (fun t => t.setDw (fA i.word) (fl i.word 0 3) (t.s (fB i.word))) (fun l => (regsOnly_ibuf _ l).setDw ..)
    (fun t => pcNext t.pc i.word)
  rw [pcNext_eq_nextPc] at hgo
  refine ⟨t, hnext, coreNext_congr hgo (fun _ => rfl) fun d w hw => ?_⟩
  rw [fl_word]
  exact dw_setDw _ _ _ _ _ _ (by omega) hw

/-- DMOV and DADDB write a whole d register. -/
theorem issue_setD {i : Issue} {s : State} (h : s.Issues i) {isRow : W64 → Bool} (hrow : isRow i.word = true)
    (ws : Tile → List W64) (hws : ∀ (t : Tile) l, ws { t with ibuf := l } = ws t) :
    ∃ t, issue i isRow (fun n u => u.updTile n (fun t =>
        (t.setD (fA i.word) (ws t)).advance (pcNext t.pc i.word))) s = .next t ∧
      CoreNext s t i.tile (nextPc (s.tile i.tile) i.word) (s.tile i.tile).s (fun d j =>
        if d = fA i.word then (ws (s.tile i.tile)).getD j 0 else (s.tile i.tile).dw d j) := by
  obtain ⟨t, l, hnext, hgo⟩ := issue_regs h hrow (fun t => t.setD (fA i.word) (ws t))
    (fun l => (regsOnly_ibuf _ l).setD ..) (fun t => pcNext t.pc i.word)
  rw [pcNext_eq_nextPc] at hgo
  refine ⟨t, hnext, coreNext_congr hgo (s_of_sreg (tile_setD_sreg ..)) fun d w hw => ?_⟩
  rw [dw_setD _ _ _ _ hw, hws]
  rfl

theorem dmov_copies (i : Issue) (s : State) (h : s.Issues i) (hop : fOp i.word = 0x32) :
    ∃ t, exec (.dmov i) s = .next t ∧
      CoreNext s t i.tile (nextPc (s.tile i.tile) i.word) (s.tile i.tile).s (fun d j =>
        if d = fA i.word then (s.tile i.tile).dw (fB i.word) j else (s.tile i.tile).dw d j) := by
  obtain ⟨t, hnext, hgo⟩ := issue_setD h (isRow := fun w => fOp w == 0x32) (beq_iff_eq.mpr hop)
    (fun t => t.d (fB i.word)) fun _ _ => rfl
  exact ⟨t, hnext, coreNext_congr hgo (fun _ => rfl) fun d w hw => by rw [getD_d _ _ hw]⟩

theorem daddb_adds (i : Issue) (s : State) (h : s.Issues i) (hop : fOp i.word = 0x33) :
    ∃ t, exec (.daddb i) s = .next t ∧
      CoreNext s t i.tile (nextPc (s.tile i.tile) i.word) (s.tile i.tile).s (fun d j =>
        if d = fA i.word then
          if j = 0 then
            ((s.tile i.tile).dw (fB i.word) 0).extractLsb' 48 16 ++
              (((s.tile i.tile).dw (fB i.word) 0).setWidth 48 + ((s.tile i.tile).s (fC i.word)).setWidth 48)
          else (s.tile i.tile).dw (fB i.word) j
        else (s.tile i.tile).dw d j) := by
  obtain ⟨t, hnext, hgo⟩ := issue_setD h (isRow := fun w => fOp w == 0x33) (beq_iff_eq.mpr hop)
    (fun t => (t.d (fB i.word)).set 0 (addBase ((t.d (fB i.word)).headD 0) (t.s (fC i.word)))) fun _ _ => rfl
  refine ⟨t, hnext, coreNext_congr hgo (fun _ => rfl) fun d w hw => if_congr Iff.rfl ?_ rfl⟩
  have hhead : ((s.tile i.tile).d (fB i.word)).headD 0 = (s.tile i.tile).dw (fB i.word) 0 := rfl
  rw [hhead, addBase_eq]
  cases w with
  | zero => rfl
  | succ w => exact getD_d (s.tile i.tile) (fB i.word) hw

theorem scalarResultsOnDRegisters : ScalarResultsOnDRegisters := by
  simp only [ScalarResultsOnDRegisters, dregRows, List.forall_mem_cons, List.not_mem_nil, false_imp_iff, implies_true,
    and_true]
  exact ⟨nop_goesOn, dsetw_sets, dmov_copies, daddb_adds⟩

/-- Settles O1: every row of Table 7.5, and TKS, writes its result and goes on. -/
theorem scalarOperationsGiveTheirResults : Obligations.ScalarOperationsGiveTheirResults :=
  ⟨scalarResultsOnSRegisters, scalarResultsOnDRegisters⟩

end Sys2Proof.Proofs
end

section
/-! PROOFS. Branches, exceptions and the return from them (spec/07_nolpa_programming.md R203, R214, R228 to R231, R239,
Tables 7.6 and 7.9). -/
namespace Sys2Proof.Proofs

open Sys2Proof Sys2Proof.Machine Sys2Proof.Claims Sys2Proof.Laws

/-! ## An instruction that takes an exception -/

/-- Neither the recency of the instruction buffer nor what an exception writes of it matters to `Traps`. -/
theorem traps_of_ibuf {a b : Tile} {l : List IbufLine} {cause : Nat} {fetch : Bool} {tval : W64}
    (h : Traps { a with ibuf := l } b cause fetch tval) : Traps a b cause fetch tval := h

/-- An instruction that takes an exception changes its tile alone. -/
theorem except_traps {s : State} {i : Issue} (h : s.Issues i) (l : List IbufLine) (cause : Nat) (tval : W64) :
    s.OnlyTile i.tile ((s.setTile i.tile { s.tile i.tile with ibuf := l }).except i.tile cause tval) ∧
    Traps (s.tile i.tile) (((s.setTile i.tile { s.tile i.tile with ibuf := l }).except i.tile cause tval).tile i.tile)
      cause false tval := by
  obtain ⟨hstate, -, -⟩ := canIssue_wait _ h.2.1
  refine ⟨onlyTile_trans (onlyTile_setTile ..) (onlyTile_updTile ..), ?_⟩
  rw [State.except, tile_updTile_same, tile_setTile_same]
  exact traps_of_ibuf (l := l) (traps_takeException cause false tval
    (t := { s.tile i.tile with ibuf := l }) ((fld_of_tileCsr rfl _).trans hstate))

/-- An instruction whose effect is an exception. -/
theorem issue_except {s : State} {i : Issue} (h : s.Issues i) {op : Nat} (hop : fOp i.word = op)
    {run : Nat → State → State} {cause : Nat} {tval : W64}
    (hrun : ∀ l, run i.tile (s.setTile i.tile { s.tile i.tile with ibuf := l }) =
      (s.setTile i.tile { s.tile i.tile with ibuf := l }).except i.tile cause tval) :
    ∃ t, issue i (fun w => fOp w == op) run s = .next t ∧ s.OnlyTile i.tile t ∧
      Traps (s.tile i.tile) (t.tile i.tile) cause false tval := by
  obtain ⟨l, hnext⟩ := issue_next i (fun w => fOp w == op) run s h (beq_iff_eq.mpr hop)
  exact ⟨_, hnext.trans (congrArg _ (hrun l)), except_traps h l cause tval⟩

/-! ## Branches -/

theorem bits_low_three (x : W64) : bits x 0 3 = x.toNat % 8 := by simp [bits, field]

theorem bits_above_address (x : W64) : bits x 48 16 ≠ 0 ↔ 2 ^ 48 ≤ x.toNat := by
  have hlt := x.isLt
  simp only [bits, field]
  omega

/-- What a taken branch leaves in rd. -/
def linked (rd : Option Nat) (t : Tile) : Tile := rd.elim t fun r => t.setS r (w64 ((t.pc + 8) % 2 ^ 48))

theorem branchTo_good {target : W64} (halign : target.toNat % 8 = 0) (hlt : target.toNat < 2 ^ 48) (u : State)
    (n : Nat) (rd : Option Nat) :
    u.branchTo n target rd = u.updTile n fun t => (linked rd t).advance target.toNat := by
  have hlow : ¬ bits target 0 3 ≠ 0 := by rw [bits_low_three]; omega
  have hhigh : ¬ bits target 48 16 ≠ 0 := by rw [bits_above_address]; omega
  rw [State.branchTo, if_neg hlow, if_neg hhigh]
  cases rd <;> rfl

theorem branchTo_bad {target : W64} (hbad : target.toNat % 8 ≠ 0 ∨ 2 ^ 48 ≤ target.toNat) (u : State) (n : Nat)
    (rd : Option Nat) :
    u.branchTo n target rd = u.except n (if target.toNat % 8 ≠ 0 then 0x0502 else 0x0501) target := by
  rw [State.branchTo, bits_low_three]
  by_cases halign : target.toNat % 8 ≠ 0
  · rw [if_pos halign, if_pos halign]
  · rw [if_neg halign, if_neg halign, if_pos ((bits_above_address _).mpr (hbad.resolve_left halign))]

/-- What a branch of Table 7.6 does to the block that has touched its line. -/
def branchRun (e : BranchRow) (i : Issue) (n : Nat) (u : State) : State :=
  if e.taken (u.tile n) i.word then
    u.branchTo n (e.target (u.tile n) i) (if e.link then some (fA i.word) else none)
  else u.updTile n fun t => t.advance (pcNext t.pc i.word)

/-- A row of Table 7.6 does as its command: it looks at the tile but not at the recency of its instruction buffer, and
one that links is always taken. -/
structure Branches (e : BranchRow) : Prop where
  exec : ∀ i s, exec (e.con i) s = issue i (fun w => fOp w == e.op) (branchRun e i) s
  taken : ∀ (t : Tile) l w, e.taken { t with ibuf := l } w = e.taken t w
  target : ∀ (t : Tile) l i, e.target { t with ibuf := l } i = e.target t i
  link : ∀ t w, e.link = true → e.taken t w = true

theorem branchTarget_eq (base w : W64) : branchTarget base w = base + 8 * imm32 w := by
  rw [branchTarget, simm_eq_imm32]

theorem branches_cond {con : Issue → Instr} {op : Nat} {c d : W64 → W64 → Bool}
    (hexec : ∀ i s, exec (con i) s = branchIf op c i s) (hc : ∀ a b, c a b = d a b) : Branches (.cond con op d) where
  exec i s := by
    refine (hexec i s).trans (congrArg (issue i (fun w => fOp w == op) · s) (funext fun n => funext fun u => ?_))
    simp only [branchRun, BranchRow.cond, hc, branchTarget_eq]
    rfl
  taken _ _ _ := rfl
  target _ _ _ := rfl
  link _ _ h := nomatch h

theorem branches_always {e : BranchRow} (base : Issue → Tile → W64) (htaken : e.taken = fun _ _ => true)
    (hexec : ∀ i s, exec (e.con i) s = issue i (fun w => fOp w == e.op) (fun n u =>
      u.branchTo n (base i (u.tile n)) (if e.link then some (fA i.word) else none)) s)
    (htarget : ∀ i t, base i t = e.target t i) (hibuf : ∀ i (t : Tile) l, base i { t with ibuf := l } = base i t) :
    Branches e where
  exec i s := by
    refine (hexec i s).trans (congrArg (issue i (fun w => fOp w == e.op) · s) (funext fun n => funext fun u => ?_))
    rw [branchRun, htaken, if_pos rfl, htarget]
  taken t l w := by rw [htaken]
  target t l i := by rw [← htarget, ← htarget, hibuf]
  link t w _ := by rw [htaken]

theorem branchRows_branch : ∀ e ∈ branchRows, Branches e := by
  simp only [branchRows, List.forall_mem_cons, List.not_mem_nil, false_imp_iff, implies_true, and_true]
  have hne (a b : W64) : (a != b) = decide (a ≠ b) := by rw [bne, beq_eq_decide, decide_not]
  have hge (a b : W64) : (!a.slt b) = decide (b.toInt ≤ a.toInt) := by
    rw [BitVec.slt, ← decide_not, decide_eq_decide, Int.not_lt]
  have hgeu (a b : W64) : (!a.ult b) = decide (b.toNat ≤ a.toNat) := by
    rw [BitVec.ult, ← decide_not, decide_eq_decide, Nat.not_lt]
  exact ⟨
    branches_always (fun i t => branchTarget (w64 t.pc) i.word) rfl exec_jal (fun _ _ => branchTarget_eq ..)
      fun _ _ _ => rfl,
    branches_always (fun i t => branchTarget (t.s (fB i.word)) i.word) rfl exec_jalr (fun _ _ => branchTarget_eq ..)
      fun _ _ _ => rfl,
    branches_cond exec_beq fun _ _ => beq_eq_decide .., branches_cond exec_bne hne,
    branches_cond exec_blt fun _ _ => rfl, branches_cond exec_bge hge, branches_cond exec_bltu fun _ _ => rfl,
    branches_cond exec_bgeu hgeu,
    branches_always (fun i _ => i.imm) rfl exec_jx (fun _ _ => rfl) fun _ _ _ => rfl⟩

theorem regsOnly_linked (a : Tile) (l : List IbufLine) (rd : Option Nat) :
    RegsOnly a (linked rd { a with ibuf := l }) := by
  cases rd with
  | none => exact regsOnly_ibuf a l
  | some r => exact (regsOnly_ibuf a l).setS ..

/-- A branch that is not taken, or to a good target, goes on there. -/
theorem branch_goesOn {e : BranchRow} (he : Branches e) {i : Issue} {s : State} (h : s.Issues i)
    (hop : fOp i.word = e.op) (hgood : e.taken (s.tile i.tile) i.word = true →
      (e.target (s.tile i.tile) i).toNat % 8 = 0 ∧ (e.target (s.tile i.tile) i).toNat < 2 ^ 48) :
    ∃ t, exec (e.con i) s = .next t ∧ CoreNext s t i.tile
      (if e.taken (s.tile i.tile) i.word then (e.target (s.tile i.tile) i).toNat else nextPc (s.tile i.tile) i.word)
      (if e.link then withS (s.tile i.tile) (fA i.word) (BitVec.ofNat 64 (((s.tile i.tile).pc + 8) % 2 ^ 48))
        else (s.tile i.tile).s) (s.tile i.tile).dw := by
  obtain ⟨l, hnext⟩ := issue_next i (fun w => fOp w == e.op) (branchRun e i) s h (beq_iff_eq.mpr hop)
  refine ⟨_, (he.exec i s).trans hnext, ?_⟩
  rw [branchRun, tile_setTile_same, he.taken, he.target]
  by_cases htaken : e.taken (s.tile i.tile) i.word = true
  · obtain ⟨halign, hlt⟩ := hgood htaken
    rw [if_pos htaken, if_pos htaken, branchTo_good halign hlt, State.updTile, tile_setTile_same]
    refine coreNext_congr (coreNext_setTile h (regsOnly_linked _ l _) _ _) (fun r => ?_) fun d w _ => ?_
    · cases e.link with
      | true => exact s_setS ..
      | false => rfl
    · cases e.link with
      | true => exact dw_of_dreg (tile_setS_dreg ..) d w
      | false => rfl
  · have hlink : ¬ e.link = true := fun hl => htaken (he.link _ _ hl)
    rw [if_neg htaken, if_neg htaken, if_neg hlink, State.updTile, tile_setTile_same, ← pcNext_eq_nextPc]
    exact coreNext_setTile h (regsOnly_ibuf _ l) _ _

/-- A taken branch to a bad target takes the exception itself. -/
theorem branch_traps {e : BranchRow} (he : Branches e) {i : Issue} {s : State} (h : s.Issues i)
    (hop : fOp i.word = e.op) (htaken : e.taken (s.tile i.tile) i.word = true)
    (hbad : (e.target (s.tile i.tile) i).toNat % 8 ≠ 0 ∨ 2 ^ 48 ≤ (e.target (s.tile i.tile) i).toNat) :
    ∃ t, exec (e.con i) s = .next t ∧ s.OnlyTile i.tile t ∧ Traps (s.tile i.tile) (t.tile i.tile)
      (if (e.target (s.tile i.tile) i).toNat % 8 ≠ 0 then 0x0502 else 0x0501) false (e.target (s.tile i.tile) i) := by
  rw [he.exec]
  refine issue_except h hop fun l => ?_
  rw [branchRun, tile_setTile_same, he.taken, he.target, if_pos htaken, branchTo_bad hbad]

/-- Settles O2: a branch goes to its target, or takes the exception of a bad one. -/
theorem branchesGoToTheirTargets : Obligations.BranchesGoToTheirTargets :=
  ⟨fun e he _ _ h hop => branch_goesOn (branchRows_branch e he) h hop,
    fun e he _ _ h hop => branch_traps (branchRows_branch e he) h hop⟩

/-! ## Exceptions of the control instructions -/

theorem priv_ibuf (t : Tile) (l : List IbufLine) : ({ t with ibuf := l } : Tile).priv = t.priv := priv_of_csr rfl

theorem priv_iff (t : Tile) : t.priv = true ↔ t.fld Csr.tcStatus_priv = 1 := beq_iff_eq

theorem ecall_traps (i : Issue) (s : State) (h : s.Issues i) (hop : fOp i.word = 0xD0) :
    ∃ t, exec (.ecall i) s = .next t ∧ s.OnlyTile i.tile t ∧
      if (s.tile i.tile).fld Csr.tcStatus_priv = 1 then Traps (s.tile i.tile) (t.tile i.tile) 0x0A40 false i.word
      else Traps (s.tile i.tile) (t.tile i.tile) 0x0A42 false (BitVec.ofNat 64 (fL i.word)) := by
  rw [exec_ecall, execEcall]
  split
  · next hpriv =>
    refine issue_except h hop fun l => ?_
    rw [tile_setTile_same, priv_ibuf, if_pos ((priv_iff _).mpr hpriv)]
  · next hpriv =>
    refine issue_except h hop fun l => ?_
    rw [tile_setTile_same, priv_ibuf, if_neg (mt (priv_iff _).mp hpriv)]

theorem brk_traps (i : Issue) (s : State) (h : s.Issues i) (hop : fOp i.word = 0xD2)
    (hbrk : (s.tile i.tile).fld Csr.tcDbgCtl_brk_en = 0) :
    ∃ t, exec (.brk i) s = .next t ∧ s.OnlyTile i.tile t ∧ Traps (s.tile i.tile) (t.tile i.tile) 0x0A43 false 0 := by
  rw [exec_brk, execBrk]
  refine issue_except h hop fun l => ?_
  have hbrk' : ({ s.tile i.tile with ibuf := l } : Tile).fld Csr.tcDbgCtl_brk_en = 0 :=
    (fld_of_tileCsr rfl _).trans hbrk
  simp only [tile_setTile_same, hbrk']
  rfl

theorem csrField_eq (w : W64) : csrField w = 8 * bits w 3 14 := Nat.mul_comm ..

theorem csrAtJ_iff (off : Nat) :
    csrAtJ off = true ↔ off ∈ [Csr.cfgTileId, Csr.tcStatus, Csr.tcCycle, Csr.tcInstret] := by
  simp only [csrAtJ, Bool.or_eq_true, beq_iff_eq, List.mem_cons, List.not_mem_nil, or_false, or_assoc]

/-- ERET, CSRW and all but four CSRR are P's. -/
theorem privileged_traps (c : Issue → Instr) (i : Issue) (s : State) (h : s.Issues i)
    (hpriv : (s.tile i.tile).fld Csr.tcStatus_priv = 0)
    (hrow : c = .eret ∧ fOp i.word = 0xD1 ∨ c = .csrw ∧ fOp i.word = 0xD4 ∨ c = .csrr ∧ fOp i.word = 0xD3 ∧
      8 * bits i.word 3 14 ∉ [Csr.cfgTileId, Csr.tcStatus, Csr.tcCycle, Csr.tcInstret]) :
    ∃ t, exec (c i) s = .next t ∧ s.OnlyTile i.tile t ∧ Traps (s.tile i.tile) (t.tile i.tile) 0x0A41 false i.word := by
  have hj (l : List IbufLine) : ¬ ({ s.tile i.tile with ibuf := l } : Tile).priv = true := by
    rw [priv_ibuf, priv_iff, hpriv]
    decide
  obtain ⟨rfl, hop⟩ | ⟨rfl, hop⟩ | ⟨rfl, hop, hoff⟩ := hrow
  · rw [exec_eret, execEret]
    refine issue_except h hop fun l => ?_
    rw [tile_setTile_same, if_neg (hj l)]
  · rw [exec_csrw, execCsrw]
    refine issue_except h hop fun l => ?_
    simp only [tile_setTile_same]
    rw [if_neg (hj l)]
  · rw [exec_csrr, execCsrr]
    refine issue_except h hop fun l => ?_
    have hopen : ¬ csrAtJ (csrField i.word) = true := by rw [csrAtJ_iff, csrField_eq]; exact hoff
    have hfree : ¬ (i.tile = mcCore ∧ (csrField i.word = Csr.cfgTileId ∨ csrField i.word = Csr.tcCycle)) := by
      rintro ⟨-, heq⟩
      rw [csrField_eq] at heq
      exact hoff (by rcases heq with heq | heq <;> simp [heq])
    dsimp only
    rw [if_neg hfree, tile_setTile_same, if_neg]
    rw [Bool.or_eq_true, not_or]
    exact ⟨hj l, hopen⟩

/-- Settles O3: the exceptions of the control instructions. -/
theorem exceptionsAreTaken : Obligations.ExceptionsAreTaken := ⟨ecall_traps, brk_traps, privileged_traps⟩

/-! ## ERET, and BRK into DEBUG -/

theorem issue_updTile {i : Issue} {s : State} (h : s.Issues i) {isRow : W64 → Bool} (hrow : isRow i.word = true)
    {run : Nat → State → State} {g : Tile → Tile}
    (hrun : ∀ l, run i.tile (s.setTile i.tile { s.tile i.tile with ibuf := l }) =
      (s.setTile i.tile { s.tile i.tile with ibuf := l }).setTile i.tile (g { s.tile i.tile with ibuf := l })) :
    ∃ t l, issue i isRow run s = .next t ∧ s.OnlyTile i.tile t ∧
      t.tile i.tile = g { s.tile i.tile with ibuf := l } := by
  obtain ⟨l, hnext⟩ := issue_next i isRow run s h hrow
  rw [hrun] at hnext
  exact ⟨_, l, hnext, onlyTile_trans (onlyTile_setTile ..) (onlyTile_setTile ..), tile_setTile_same ..⟩

/-- A tile that ERET has given its pc and privilege back goes on there. -/
theorem eret_advance {a : Tile} (hissue : a.canIssue = true) :
    let b := a.eret.advance a.eret.pc
    b = { a with csr := b.csr, pc := a.fld Csr.tcEpc_epc / 8 * 8, bpPassed := false, stepping := false,
                 dbgFrom := b.dbgFrom } ∧
    b.fld Csr.tcStatus_priv = a.fld Csr.tcStatus_epriv ∧ b.word Csr.tcInstret = a.word Csr.tcInstret + 1 ∧
    b.state = (if a.stepping then tsDebug else tsRunning) ∧
    ∀ o, o ∉ [Csr.tcInstret, Csr.tcStatus, Csr.tcDbgSts] → b.word o = a.word o := by
  intro b
  obtain ⟨hstate, hwait, hhalt⟩ := canIssue_wait _ hissue
  have hword {o : Nat} (ho : o ≠ Csr.tcStatus) : a.eret.word o = a.word o :=
    (word_of_tileCsr rfl o).trans (twrd_setFld_other a Csr.tcStatus_priv (a.fld Csr.tcStatus_epriv) o ho)
  have hestate : a.eret.state = tsRunning :=
    (fld_of_tileCsr rfl _).trans <|
      (tfld_setFld_other a Csr.tcStatus_priv _ (a.fld Csr.tcStatus_epriv) (by decide) (by decide)).trans hstate
  have hpriv : a.eret.fld Csr.tcStatus_priv = a.fld Csr.tcStatus_epriv :=
    (fld_of_tileCsr rfl _).trans <|
      (tfld_setFld_same a Csr.tcStatus_priv (a.fld Csr.tcStatus_epriv) (by decide)).trans
        (Nat.mod_eq_of_lt (bits_lt _ 3 1))
  refine ⟨advance_frame hestate hwait hhalt _, (fld_advance hestate hwait hhalt _ rfl (by decide)).trans hpriv,
    (instret_advance hestate hwait hhalt _).trans (by rw [hword (by decide)]), state_advance hestate hwait hhalt _,
    fun o ho => ?_⟩
  simp only [List.mem_cons, List.not_mem_nil, or_false, not_or] at ho
  obtain ⟨h1, h2, h3⟩ := ho
  exact (word_advance hestate hwait hhalt _ (by simp [h1, h2, h3])).trans (hword h2)

/-- A tile that BRK has halted behind it. -/
def broken (w : W64) (t : Tile) : Tile :=
  ({ t.setWord Csr.tcInstret (t.word Csr.tcInstret + 1) with pc := pcNext t.pc w, bpPassed := false } : Tile).enterDebug
    haltBrk

theorem broken_halts {a : Tile} (hissue : a.canIssue = true) (w : W64) :
    broken w a = { a with csr := (broken w a).csr, pc := nextPc a w, bpPassed := false, stepping := false,
                          dbgFrom := tsRunning } ∧
    (broken w a).state = tsDebug ∧ (broken w a).fld Csr.tcDbgSts_reason = 1 ∧
    (broken w a).fld Csr.tcDbgSts_halted = 0 ∧ (broken w a).word Csr.tcInstret = a.word Csr.tcInstret + 1 ∧
    ∀ o, o ∉ [Csr.tcInstret, Csr.tcStatus, Csr.tcDbgSts] → (broken w a).word o = a.word o := by
  obtain ⟨hstate, hwait, hhalt⟩ := canIssue_wait _ hissue
  let x : Tile := { a.setWord Csr.tcInstret (a.word Csr.tcInstret + 1) with pc := pcNext a.pc w, bpPassed := false }
  have hword {o : Nat} (ho : o ≠ Csr.tcInstret) : x.word o = a.word o := (twrd_setWord ..).trans (if_neg ho)
  have hxstate : x.state = tsRunning := (fld_of_word (hword (by decide))).trans hstate
  refine ⟨?_, enterDebug_state .., enterDebug_reason .., enterDebug_halted ..,
    (enterDebug_word x _ _ (by decide) (by decide)).trans ((twrd_setWord ..).trans (if_pos rfl)), fun o ho => ?_⟩
  · obtain ⟨csr, v, hx⟩ := enterDebug_frame x haltBrk
    have hsettled : Settled x.wait := by rw [show x.wait = .none from hwait]; trivial
    obtain rfl : x.wait = v := (enterDebug_wait hsettled _).symm.trans (congrArg Tile.wait hx :)
    rw [hxstate] at hx
    rw [broken, hx, ← pcNext_eq_nextPc]
    cases a
    dsimp only at hhalt
    subst hhalt
    rfl
  · simp only [List.mem_cons, List.not_mem_nil, or_false, not_or] at ho
    obtain ⟨h1, h2, h3⟩ := ho
    exact (enterDebug_word x _ _ h2 h3).trans (hword h1)

/-- Settles O4: ERET goes on where the exception was taken, and BRK stops behind itself. -/
theorem eretRestoresAndBrkHalts : Obligations.EretRestoresAndBrkHalts := by
  refine ⟨fun i s h hop hpriv => ?_, fun i s h hop hbrk => ?_⟩
  · obtain ⟨t, l, hnext, honly, htile⟩ := issue_updTile h (isRow := fun w => fOp w == 0xD1) (beq_iff_eq.mpr hop)
      (run := fun n u => if (u.tile n).priv then u.updTile n (fun t => let v := t.eret; v.advance v.pc)
        else u.except n cPriv i.word) (g := fun t => t.eret.advance t.eret.pc) fun l => by
        rw [tile_setTile_same, priv_ibuf, if_pos ((priv_iff _).mpr hpriv), State.updTile, tile_setTile_same]
    obtain ⟨hframe, hrest⟩ := eret_advance (a := { s.tile i.tile with ibuf := l }) h.2.1
    refine ⟨t, hnext, honly, ?_⟩
    rw [htile]
    exact ⟨hframe.trans (by rw [tile_advance_ibuf]; rfl), hrest⟩
  · obtain ⟨t, l, hnext, honly, htile⟩ := issue_updTile h (isRow := fun w => fOp w == 0xD2) (beq_iff_eq.mpr hop)
      (run := fun n u =>
        let t := u.tile n
        if t.fld Csr.tcDbgCtl_brk_en = 1 then
          let t := t.setWord Csr.tcInstret (t.word Csr.tcInstret + 1)
          u.setTile n (({ t with pc := pcNext t.pc i.word, bpPassed := false } : Tile).enterDebug haltBrk)
        else u.except n cBreak 0) (g := broken i.word) fun l => by
        have hbrk' : ({ s.tile i.tile with ibuf := l } : Tile).fld Csr.tcDbgCtl_brk_en = 1 :=
          (fld_of_tileCsr rfl _).trans hbrk
        dsimp only
        rw [tile_setTile_same, if_pos hbrk']
        rfl
    obtain ⟨hframe, hrest⟩ := broken_halts (a := { s.tile i.tile with ibuf := l }) h.2.1 i.word
    refine ⟨t, hnext, honly, ?_⟩
    rw [htile]
    have hibuf : (broken i.word { s.tile i.tile with ibuf := l }).ibuf = l := (congrArg Tile.ibuf hframe :)
    exact ⟨hframe.trans (by rw [hibuf]; rfl), hrest⟩

end Sys2Proof.Proofs
end

section
/-! PROOFS. WTK (spec/07_nolpa_programming.md R204, R217, R218, Tables 7.8 and 7.11). -/
namespace Sys2Proof.Proofs

open Sys2Proof Sys2Proof.Machine Sys2Proof.Claims Sys2Proof.Laws

/-! ## The wait -/

theorem bits_one_iff (w : W64) (k : Nat) : bits w k 1 = 1 ↔ bit w k = true := by rw [← bits_one_eq_bit, beq_iff_eq]

theorem decide_bits_one (w : W64) (k : Nat) : decide (bits w k 1 = 1) = bit w k := by
  rw [Bool.eq_iff_iff, decide_eq_true_iff, bits_one_iff]

/-- The wait of a WTK that tile `n` issues (R204, R217). -/
def wtkWait (n : Nat) (w : W64) (t : Tile) : Wait :=
  .wtk (fA w) (bit w 32) (if bit w 33 then some (t.s (fB w)) else none) (bit w 34) (if n = mcCore then 0 else fL w)

theorem wtk_waits (i : Issue) (s : State) (h : s.Issues i) (hop : fOp i.word = 0xC0) :
    ∃ t, exec (.wtk i) s = .next t ∧ s.OnlyTile i.tile t ∧
      t.tile i.tile = { s.tile i.tile with
        ibuf := (t.tile i.tile).ibuf, wait := wtkWait i.tile i.word (s.tile i.tile) } := by
  rw [exec_wtk, execWtk]
  obtain ⟨l, hnext⟩ := issue_next i (fun w => fOp w == 0xC0) _ s h (beq_iff_eq.mpr hop)
  rw [hnext]
  refine ⟨_, rfl, onlyTile_trans (onlyTile_setTile ..) (onlyTile_setTile ..), ?_⟩
  dsimp only
  rw [tile_setTile_same, tile_setTile_same, decide_bits_one, decide_bits_one, wtkWait]
  simp only [bits_one_iff]
  rfl

/-! ## The release -/

theorem mem_maskTokens {mask k : Nat} : k ∈ maskTokens mask ↔ 1 ≤ k ∧ k < 32 ∧ mask.testBit k = true := by
  simp only [maskTokens, List.mem_filter, List.mem_range, Bool.and_eq_true, bne_iff_ne, beq_iff_eq, field,
    Nat.testBit_eq_decide_div_mod_eq, decide_eq_true_eq, pow_one]
  omega

section
variable (t : Tile) (any trap : Bool) (mask : Nat)

/-- A named token that is not busy carries a fault. -/
theorem faulted_iff (k : Nat) : (k ∈ maskTokens mask ∧ (!t.busy k && t.tokenFault k) = true) ↔
    k ∈ maskTokens mask ∧ t.busy k = false ∧ bit (t.k k) 1 = true := by
  rw [Bool.and_eq_true, Bool.not_eq_true', Tile.tokenFault]

theorem wtkMet_iff (dl : Option W64) : t.wtkMet any dl.isSome mask = true ↔
    (∀ k, k ∉ maskTokens mask) ∧ dl = none ∨ (∃ k, k ∈ maskTokens mask) ∧
      if any then ∃ k, k ∈ maskTokens mask ∧ t.busy k = false else ∀ k, k ∈ maskTokens mask → t.busy k = false := by
  unfold Tile.wtkMet
  by_cases hnone : maskTokens mask = []
  · simp [hnone]
  · obtain ⟨j, hj⟩ := List.exists_mem_of_ne_nil _ hnone
    have hsome : ¬ ∀ k, k ∉ maskTokens mask := fun hall => hall j hj
    have hempty : ¬ (maskTokens mask).isEmpty = true := by rwa [List.isEmpty_iff]
    simp only [hempty, hsome, false_and, false_or, show (∃ k, k ∈ maskTokens mask) from ⟨j, hj⟩, true_and]
    cases any <;> simp

theorem efaultTval_eq {k : Nat} (hk : k ∈ maskTokens mask ∧ t.busy k = false ∧ bit (t.k k) 1 = true)
    (hfirst : ∀ j, j < k → ¬ (j ∈ maskTokens mask ∧ t.busy j = false ∧ bit (t.k j) 1 = true)) :
    t.efaultTval mask = BitVec.ofNat 64 (k + bits (t.k k) 16 16 * 2 ^ 16) := by
  have hfind : (maskTokens mask).find? (fun n => !t.busy n && t.tokenFault n) = some k := by
    have hmem (j : Nat) : j ∈ maskTokens mask ↔ j < 32 ∧ (j != 0 && field mask j 1 == 1) = true := by
      rw [maskTokens, List.mem_filter, List.mem_range]
    obtain ⟨hk1, hk2⟩ := (faulted_iff t mask k).mpr hk
    rw [maskTokens, List.find?_filter, List.find?_range_eq_some]
    refine ⟨?_, List.mem_range.mpr ((hmem k).mp hk1).1, fun j hj => ?_⟩
    · simp [((hmem k).mp hk1).2, hk2]
    · rw [Bool.not_eq_true', Bool.eq_false_iff]
      intro hj'
      rw [decide_eq_true_eq] at hj'
      exact hfirst j hj ((faulted_iff t mask j).mp ⟨(hmem j).mpr ⟨hj.trans ((hmem k).mp hk1).1, hj'.1⟩, hj'.2⟩)
  rw [Tile.efaultTval, hfind]

theorem wtkResult_timeout (timeout : Bool) : (t.wtkResult mask timeout).getLsbD 0 = timeout := by
  rw [Tile.wtkResult, getLsbD_wordOfBits _ _ _ le_rfl]
  rfl

theorem wtkResult_high (timeout : Bool) : (t.wtkResult mask timeout).getLsbD 32 = false := by
  have hzero : 0 ∉ maskTokens mask := fun h => absurd (mem_maskTokens.mp h).1 (by decide)
  rw [Tile.wtkResult, getLsbD_wordOfBits _ _ _ le_rfl]
  simp [hzero]

theorem wtkResult_free (timeout : Bool) {k : Nat} (h1 : 1 ≤ k) (h2 : k < 32) :
    (t.wtkResult mask timeout).getLsbD k = true ↔ k ∈ maskTokens mask ∧ t.busy k = false := by
  have h0 : k ≠ 0 := by omega
  have h64 : k < 64 := by omega
  rw [Tile.wtkResult, getLsbD_wordOfBits _ _ _ le_rfl]
  simp [h0, h2, h64]

theorem wtkResult_fault (timeout : Bool) {k : Nat} (h2 : k < 32) :
    (t.wtkResult mask timeout).getLsbD (32 + k) = true ↔
      k ∈ maskTokens mask ∧ t.busy k = false ∧ bit (t.k k) 1 = true := by
  have h64 : 32 + k < 64 := by omega
  rw [Tile.wtkResult, getLsbD_wordOfBits _ _ _ le_rfl]
  simp [h64, Tile.tokenFault, and_assoc]

end

/-- What a released WTK does to its tile (R218). -/
def released (rd mask : Nat) (trap met : Bool) (t : Tile) : Tile :=
  if trap && (maskTokens mask).any (fun n => !t.busy n && t.tokenFault n) then
    t.takeException cEfault false (t.efaultTval mask)
  else (t.setS rd (t.wtkResult mask (!met))).advance ((t.pc + 8) % 2 ^ 48)

/-- The deadline of a WTK has passed, as core `n` sees it (R218). -/
def wtkLate (s : State) (n : Nat) (dl : Option W64) : Bool :=
  dl.any fun d => decide (d.toNat ≤ (s.seenDie (n / 128)).toNat)

theorem wtkLate_iff {s : State} {n : Nat} {dl : Option W64} :
    wtkLate s n dl = true ↔ ∃ d, dl = some d ∧ d.toNat ≤ (s.seenDie (n / 128)).toNat := by
  simp [wtkLate, Option.any_eq_true]

theorem execWtkRelease_eq {n rd mask : Nat} {any trap : Bool} {dl : Option W64} {s : State}
    (hwait : (s.tile n).wait = .wtk rd any dl trap mask) (hstate : (s.tile n).state = tsRunning)
    (hready : (s.tile n).wtkMet any dl.isSome mask = true ∨ wtkLate s n dl = true) :
    execWtkRelease n s = .next (s.setTile n (released rd mask trap ((s.tile n).wtkMet any dl.isSome mask)
      { s.tile n with wait := .none })) := by
  have hcond : (decide ((s.tile n).state = tsRunning) &&
      ((s.tile n).wtkMet any dl.isSome mask || wtkLate s n dl)) = true := by
    rw [Bool.and_eq_true, decide_eq_true_iff, Bool.or_eq_true]
    exact ⟨hstate, hready⟩
  rw [released, apply_ite (s.setTile n), apply_ite Host.Outcome.next]
  unfold execWtkRelease
  simp only [hwait]
  cases dl <;> exact if_pos hcond

/-- With the trap bit, the lowest faulted token is WTK's exception. -/
theorem released_traps {t : Tile} (hstate : t.state = tsRunning) (rd mask : Nat) (met : Bool) {k : Nat}
    (hk : k ∈ maskTokens mask ∧ t.busy k = false ∧ bit (t.k k) 1 = true)
    (hfirst : ∀ j, j < k → ¬ (j ∈ maskTokens mask ∧ t.busy j = false ∧ bit (t.k j) 1 = true)) :
    Traps t (released rd mask true met t) 0x0A44 false (BitVec.ofNat 64 (k + bits (t.k k) 16 16 * 2 ^ 16)) := by
  have hany : (true && (maskTokens mask).any (fun n => !t.busy n && t.tokenFault n)) = true := by
    rw [Bool.true_and, List.any_eq_true]
    exact ⟨k, (faulted_iff t mask k).mpr hk⟩
  rw [released, if_pos hany, efaultTval_eq t mask hk hfirst]
  exact traps_takeException cEfault false _ hstate

/-- Without the trap bit, or without a fault, WTK writes its result and goes on. -/
theorem released_goesOn {t : Tile} (hstate : t.state = tsRunning) (hwait : t.wait = .none) (rd mask : Nat)
    (trap met : Bool)
    (hclean : trap = false ∨ ∀ k, ¬ (k ∈ maskTokens mask ∧ t.busy k = false ∧ bit (t.k k) 1 = true)) :
    let b := released rd mask trap met t
    Retires t b ((t.pc + 8) % 2 ^ 48) ∧ b.dreg = t.dreg ∧ ∀ q, b.s q = withS t rd (t.wtkResult mask (!met)) q := by
  have hany : ¬ (trap && (maskTokens mask).any (fun n => !t.busy n && t.tokenFault n)) = true := by
    rw [Bool.and_eq_true, List.any_eq_true]
    rintro ⟨htrap, k, hk⟩
    rcases hclean with hclean | hclean
    · rw [hclean] at htrap; exact Bool.false_ne_true htrap
    · exact hclean k ((faulted_iff t mask k).mp hk)
  have hregs : RegsOnly t (t.setS rd (t.wtkResult mask (!met))) := (regsOnly_ibuf t t.ibuf).setS ..
  rw [released, if_neg hany]
  refine ⟨hregs.retires hstate (by rw [hwait]; trivial) _, ?_, fun q => ?_⟩
  · rw [tile_advance_dreg, tile_setS_dreg]
  · exact (s_of_sreg (tile_advance_sreg ..) q).trans (s_setS ..)

/-- Settles O10: WTK waits for its tokens or its deadline, and its release writes which of them it found. -/
theorem wtkWaitsAndReleases : Obligations.WtkWaitsAndReleases := by
  refine ⟨wtk_waits, fun n rd mask any trap dl s hwait hstate => ?_⟩
  simp only [← mem_maskTokens, ← wtkMet_iff, ← wtkLate_iff]
  intro hready
  have hidle : ({ s.tile n with wait := .none } : Tile).state = tsRunning := (fld_of_tileCsr rfl _).trans hstate
  refine ⟨_, execWtkRelease_eq hwait hstate hready, onlyTile_setTile .., ?_⟩
  rw [tile_setTile_same]
  refine ⟨fun k htrap hk hfirst => ?_, fun hclean => ?_⟩
  · rw [htrap]
    exact released_traps hidle rd mask _ hk hfirst
  · obtain ⟨hretires, hdreg, hs⟩ := released_goesOn hidle rfl rd mask trap
      ((s.tile n).wtkMet any dl.isSome mask) hclean
    refine ⟨_, hretires, hdreg, hs, ?_, wtkResult_high .., fun k h1 h2 =>
      ⟨wtkResult_free _ _ _ h1 h2, wtkResult_fault _ _ _ h2⟩⟩
    rw [wtkResult_timeout, Bool.not_eq_true', Bool.not_eq_true]

end Sys2Proof.Proofs
end

section
/-! PROOFS. CSRR and CSRW, HALT, IFLUSH and IPF, and the fill of the instruction buffer (spec/07_nolpa_programming.md
R203, R232 to R235, Table 7.9). -/
namespace Sys2Proof.Proofs

open Sys2Proof Sys2Proof.Machine Sys2Proof.Claims Sys2Proof.Laws

/-! ## CSRR and CSRW -/

theorem tcsrView_ibuf (s : State) (n : Nat) (l : List IbufLine) (off : Nat) :
    (s.setTile n { s.tile n with ibuf := l }).tcsrView n off = s.tcsrView n off := by
  unfold State.tcsrView
  rw [tile_setTile_same]
  rfl

/-- The registers that are free values on the management controller (log 67). -/
theorem csrFree_iff (n : Nat) (w : W64) : (n = mcCore ∧ (csrField w = Csr.cfgTileId ∨ csrField w = Csr.tcCycle)) ↔
    n = mcCore ∧ 8 * bits w 3 14 ∈ [Csr.cfgTileId, Csr.tcCycle] := by
  rw [csrField_eq, List.mem_pair]

theorem csrr_reads (i : Issue) (s : State) (h : s.Issues i) (hop : fOp i.word = 0xD3)
    (hopen : (s.tile i.tile).fld Csr.tcStatus_priv = 1 ∨
      8 * bits i.word 3 14 ∈ [Csr.cfgTileId, Csr.tcStatus, Csr.tcCycle, Csr.tcInstret]) :
    let free := i.tile = mcCore ∧ 8 * bits i.word 3 14 ∈ [Csr.cfgTileId, Csr.tcCycle]
    ∃ t, exec (.csrr i) s = .next t ∧
      (¬ free → CoreNext s t i.tile (nextPc (s.tile i.tile) i.word)
        (withS (s.tile i.tile) (fA i.word) (s.tcsrView i.tile (8 * bits i.word 3 14))) (s.tile i.tile).dw) ∧
      (free → CoreNext (s.takeFree 1) t i.tile (nextPc (s.tile i.tile) i.word)
        (withS (s.tile i.tile) (fA i.word) (Config.freeWord s.freeCtr)) (s.tile i.tile).dw) := by
  rw [exec_csrr, execCsrr]
  obtain ⟨l, hnext⟩ := issue_next i (fun w => fOp w == 0xD3) _ s h (beq_iff_eq.mpr hop)
  rw [hnext]
  refine ⟨_, rfl, fun hfree => ?_, fun hfree => ?_⟩
  · have hpriv : (({ s.tile i.tile with ibuf := l } : Tile).priv || csrAtJ (csrField i.word)) = true := by
      rw [Bool.or_eq_true, priv_ibuf, priv_iff, csrAtJ_iff, csrField_eq]
      exact hopen
    dsimp only
    rw [if_neg (mt (csrFree_iff ..).mp hfree), tile_setTile_same, if_pos hpriv, tcsrView_ibuf, csrField_eq]
    exact coreNext_writeS h l _
  · dsimp only
    rw [if_pos ((csrFree_iff ..).mpr hfree)]
    exact coreNext_writeS (s := s.takeFree 1) h l _

theorem csrw_writes (i : Issue) (s : State) (h : s.Issues i) (hop : fOp i.word = 0xD4)
    (hpriv : (s.tile i.tile).fld Csr.tcStatus_priv = 1) :
    ∃ u t, exec (.csrw i) s = .next t ∧
      CoreNext s u i.tile (nextPc (s.tile i.tile) i.word) (s.tile i.tile).s (s.tile i.tile).dw ∧
      t = u.tcsrStore i.tile (8 * bits i.word 3 14) 8 ((s.tile i.tile).s (fB i.word)) := by
  rw [exec_csrw, execCsrw]
  obtain ⟨l, hnext⟩ := issue_next i (fun w => fOp w == 0xD4) _ s h (beq_iff_eq.mpr hop)
  rw [hnext]
  dsimp only
  rw [tile_setTile_same, priv_ibuf, if_pos ((priv_iff _).mpr hpriv), csrField_eq, State.updTile, tile_setTile_same,
    pcNext_eq_nextPc]
  exact ⟨_, _, rfl, coreNext_setTile h (regsOnly_ibuf _ l) _ _, rfl⟩

/-- Settles O12: CSRR reads, and CSRW writes, the registers of the tile. -/
theorem tileRegistersReadAndWritten : Obligations.TileRegistersReadAndWritten := ⟨csrr_reads, csrw_writes⟩

/-! ## HALT, IFLUSH and IPF -/

/-- An instruction goes on to the next word, whatever its core waits for there. -/
theorem wentOn_settled {t : Tile} (hstate : t.state = tsRunning) (hwait : Settled t.wait) :
    WentOn t (t.advance ((t.pc + 8) % 2 ^ 48)) :=
  ⟨tile_advance_sreg .., tile_advance_dreg .., retires_settled hstate hwait _⟩

/-- The effect of an instruction that replaces its tile and goes on. -/
theorem issue_wentOn {i : Issue} {s : State} (h : s.Issues i) {op : Nat} (hop : fOp i.word = op) (g : Tile → Tile)
    {P : Tile → Tile → Prop} (hP : ∀ l, ({ s.tile i.tile with ibuf := l } : Tile).state = tsRunning →
      ({ s.tile i.tile with ibuf := l } : Tile).wait = .none →
      P (s.tile i.tile) (g { s.tile i.tile with ibuf := l })) :
    ∃ t, issue i (fun w => fOp w == op) (fun n u => u.setTile n (g (u.tile n))) s = .next t ∧ s.OnlyTile i.tile t ∧
      P (s.tile i.tile) (t.tile i.tile) := by
  obtain ⟨t, l, hnext, honly, htile⟩ := issue_setTile h (isRow := fun w => fOp w == op) (beq_iff_eq.mpr hop) g
  obtain ⟨hstate, hwait, -⟩ := canIssue_wait _ h.2.1
  refine ⟨t, hnext, honly, ?_⟩
  rw [htile]
  exact hP l ((fld_of_tileCsr rfl _).trans hstate) hwait

theorem halt_waits (i : Issue) (s : State) (h : s.Issues i) (hop : fOp i.word = 0xD7) :
    ∃ t, exec (.halt i) s = .next t ∧ s.OnlyTile i.tile t ∧
      let a := s.tile i.tile
      let b := t.tile i.tile
      b.sreg = a.sreg ∧ b.dreg = a.dreg ∧
      Retires { a with wait := .halt (bits i.word 0 16) (bit i.word 16) } b ((a.pc + 8) % 2 ^ 48) := by
  rw [exec_halt, execHalt]
  refine issue_wentOn h hop (fun t => t.advanceWait (.halt (fl i.word 0 16) (fl i.word 16 1 = 1)))
    (P := fun a b => b.sreg = a.sreg ∧ b.dreg = a.dreg ∧
      Retires { a with wait := .halt (bits i.word 0 16) (bit i.word 16) } b ((a.pc + 8) % 2 ^ 48))
    fun l hstate _ => ?_
  rw [decide_bits_one, advanceWait_eq_advance]
  exact wentOn_settled (t := { s.tile i.tile with ibuf := l, wait := .halt (bits i.word 0 16) (bit i.word 16) })
    ((fld_of_tileCsr rfl _).trans hstate) trivial

/-- What IFLUSH does to its tile (R235). -/
def flushed (w : W64) (t : Tile) : Tile :=
  if t.fills.isEmpty then t.flushBuffer.advance (pcNext t.pc w) else t.advanceWait .iflush

theorem iflush_flushes (i : Issue) (s : State) (h : s.Issues i) (hop : fOp i.word = 0xD5) :
    ∃ t, exec (.iflush i) s = .next t ∧ s.OnlyTile i.tile t ∧
      let a := s.tile i.tile
      let b := t.tile i.tile
      b.sreg = a.sreg ∧ b.dreg = a.dreg ∧
      if a.fills = [] then b.ibuf = [] ∧ Retires { a with fetchErr := [] } b ((a.pc + 8) % 2 ^ 48)
      else Retires { a with wait := .iflush } b ((a.pc + 8) % 2 ^ 48) := by
  have hexec : exec (.iflush i) s =
      issue i (fun w => fOp w == 0xD5) (fun n u => u.setTile n (flushed i.word (u.tile n))) s := by
    rw [exec_iflush, execIflush]
    refine congrArg (issue i (fun w => fOp w == 0xD5) · s) (funext fun n => funext fun u => ?_)
    exact (apply_ite (u.setTile n) ..).symm
  rw [hexec]
  refine issue_wentOn h hop (flushed i.word) (P := fun a b => b.sreg = a.sreg ∧ b.dreg = a.dreg ∧
    if a.fills = [] then b.ibuf = [] ∧ Retires { a with fetchErr := [] } b ((a.pc + 8) % 2 ^ 48)
    else Retires { a with wait := .iflush } b ((a.pc + 8) % 2 ^ 48)) fun l hstate hwait => ?_
  unfold flushed
  by_cases hfills : (s.tile i.tile).fills = []
  · rw [if_pos (List.isEmpty_iff.mpr hfills), if_pos hfills, pcNext_eq_nextPc, nextPc_short (by omega)]
    obtain ⟨hs, hd, hr⟩ := wentOn_settled (t := { s.tile i.tile with ibuf := [], fetchErr := [] })
      ((fld_of_tileCsr rfl _).trans hstate) (by rw [show (s.tile i.tile).wait = .none from hwait]; trivial)
    exact ⟨hs, hd, tile_advance_ibuf .., hr⟩
  · rw [if_neg (mt List.isEmpty_iff.mp hfills), if_neg hfills, advanceWait_eq_advance]
    exact wentOn_settled (t := { s.tile i.tile with ibuf := l, wait := .iflush })
      ((fld_of_tileCsr rfl _).trans hstate) trivial

/-- IPF's step for one line (Table 7.9). -/
def prefetchLine (t : Tile) (l : Nat) : Tile :=
  if 2 ^ 38 ≤ l || (t.lineAt (l * 1024)).isSome then t else t.startFill l

theorem startFill_fills (t : Tile) (line : Nat) : (∃ f, t.startFill line = { t with fills := f }) ∧
    ∀ l, l ∈ (t.startFill line).fills ↔ l ∈ t.fills ∨ l = line := by
  unfold Tile.startFill
  split
  · next hline =>
    rw [List.contains_iff_mem] at hline
    exact ⟨⟨_, rfl⟩, fun l => ⟨.inl, fun h => h.elim id (· ▸ hline)⟩⟩
  · exact ⟨⟨_, rfl⟩, fun l => by rw [List.mem_append, List.mem_singleton]⟩

theorem prefetchLine_fills (t : Tile) (line : Nat) : (∃ f, prefetchLine t line = { t with fills := f }) ∧
    ∀ l, l ∈ (prefetchLine t line).fills ↔
      l ∈ t.fills ∨ l = line ∧ l < 2 ^ 38 ∧ t.lineAt (l * 1024) = none := by
  unfold prefetchLine
  split
  · next hskip =>
    refine ⟨⟨_, rfl⟩, fun l => ⟨.inl, fun h => h.elim id ?_⟩⟩
    rintro ⟨rfl, hlt, hnone⟩
    rw [hnone, Bool.or_eq_true, decide_eq_true_eq] at hskip
    exact hskip.elim (fun h => absurd hlt (Nat.not_lt.mpr h)) (nomatch ·)
  · next hfill =>
    obtain ⟨hframe, hmem⟩ := startFill_fills t line
    refine ⟨hframe, fun l => (hmem l).trans (or_congr_right ⟨?_, And.left⟩)⟩
    rintro rfl
    rw [Bool.or_eq_true, not_or, decide_eq_true_eq, Nat.not_le, Bool.not_eq_true, Option.isSome_eq_false_iff,
      Option.isNone_iff_eq_none] at hfill
    exact ⟨rfl, hfill⟩

theorem prefetch_fills (ls : List Nat) (t : Tile) : (∃ f, ls.foldl prefetchLine t = { t with fills := f }) ∧
    ∀ l, l ∈ (ls.foldl prefetchLine t).fills ↔
      l ∈ t.fills ∨ l ∈ ls ∧ l < 2 ^ 38 ∧ t.lineAt (l * 1024) = none := by
  induction ls generalizing t with
  | nil => exact ⟨⟨_, rfl⟩, fun l => by simp⟩
  | cons line ls ih =>
    obtain ⟨⟨f, hframe⟩, hmem⟩ := prefetchLine_fills t line
    obtain ⟨⟨g, hframe'⟩, hmem'⟩ := ih (prefetchLine t line)
    refine ⟨⟨g, hframe'.trans (by rw [hframe])⟩, fun l => (hmem' l).trans ?_⟩
    have hline : (prefetchLine t line).lineAt (l * 1024) = t.lineAt (l * 1024) := by rw [hframe]; rfl
    rw [hmem, hline, List.mem_cons]
    tauto

/-- What IPF does to its tile before it goes on. -/
def prefetched (w : W64) (t : Tile) : Tile :=
  ((List.range (fL w)).map (fun k => (t.s (fB w)).toNat / 1024 + k)).foldl prefetchLine t

theorem prefetched_fills (w : W64) (t : Tile) : (∃ f, prefetched w t = { t with fills := f }) ∧
    ∀ l, l ∈ (prefetched w t).fills ↔ l ∈ t.fills ∨
      ((t.s (fB w)).toNat / 1024 ≤ l ∧ l < (t.s (fB w)).toNat / 1024 + fL w ∧ l < 2 ^ 38 ∧
        t.lineAt (l * 1024) = none) := by
  obtain ⟨hframe, hmem⟩ := prefetch_fills ((List.range (fL w)).map (fun k => (t.s (fB w)).toNat / 1024 + k)) t
  refine ⟨hframe, fun l => (hmem l).trans (or_congr_right ?_)⟩
  have hrange : l ∈ (List.range (fL w)).map (fun k => (t.s (fB w)).toNat / 1024 + k) ↔
      (t.s (fB w)).toNat / 1024 ≤ l ∧ l < (t.s (fB w)).toNat / 1024 + fL w := by
    rw [List.mem_map]
    constructor
    · rintro ⟨k, hk, rfl⟩
      rw [List.mem_range] at hk
      omega
    · rintro ⟨h1, h2⟩
      exact ⟨l - (t.s (fB w)).toNat / 1024, List.mem_range.mpr (by omega), by omega⟩
  rw [hrange, and_assoc]

theorem ipf_prefetches (i : Issue) (s : State) (h : s.Issues i) (hop : fOp i.word = 0xD6) :
    ∃ t, exec (.ipf i) s = .next t ∧ s.OnlyTile i.tile t ∧
      let a := s.tile i.tile
      let b := t.tile i.tile
      let first := (a.s (fB i.word)).toNat / 1024
      b.sreg = a.sreg ∧ b.dreg = a.dreg ∧ Retires { a with fills := b.fills } b ((a.pc + 8) % 2 ^ 48) ∧
      ∀ l, l ∈ b.fills ↔ l ∈ a.fills ∨
        (first ≤ l ∧ l < first + fL i.word ∧ l < 2 ^ 38 ∧ b.lineAt (l * 1024) = none) := by
  rw [exec_ipf, execIpf]
  refine issue_wentOn h hop (fun t => (prefetched i.word t).advance (pcNext (prefetched i.word t).pc i.word))
    (P := fun a b => b.sreg = a.sreg ∧ b.dreg = a.dreg ∧ Retires { a with fills := b.fills } b ((a.pc + 8) % 2 ^ 48) ∧
      ∀ l, l ∈ b.fills ↔ l ∈ a.fills ∨ ((a.s (fB i.word)).toNat / 1024 ≤ l ∧
        l < (a.s (fB i.word)).toNat / 1024 + fL i.word ∧ l < 2 ^ 38 ∧ b.lineAt (l * 1024) = none))
    fun l hstate hwait => ?_
  obtain ⟨⟨f, hframe⟩, hmem⟩ := prefetched_fills i.word { s.tile i.tile with ibuf := l }
  rw [hframe] at hmem ⊢
  rw [pcNext_eq_nextPc, nextPc_short (by omega)]
  obtain ⟨hs, hd, hr⟩ := wentOn_settled (t := { s.tile i.tile with ibuf := l, fills := f })
    ((fld_of_tileCsr rfl _).trans hstate) (by rw [show (s.tile i.tile).wait = .none from hwait]; trivial)
  refine ⟨hs, hd, ?_, fun k => ?_⟩
  · rw [tile_advance_fills]; exact hr
  · rw [tile_advance_fills, Tile.lineAt, tile_advance_ibuf]
    exact hmem k

/-- Settles O13: HALT and IFLUSH leave their core waiting, and IPF starts its fills. -/
theorem haltFlushAndPrefetch : Obligations.HaltFlushAndPrefetch := ⟨halt_waits, iflush_flushes, ipf_prefetches⟩

/-! ## The end of a fill -/

/-- A captured line holds what memory holds in it. -/
theorem byte_captureLine (s : State) {line x : Nat} (h : x / 1024 = line) : (s.captureLine line).byte x = s.byte x := by
  unfold IbufLine.byte State.captureLine NMap.get
  rw [nmap_find_filter s.mem (fun k => k / 1024 == line) x, if_pos (beq_iff_eq.mpr h)]
  rfl

theorem bytes_eq_map (s : State) (a n : Nat) : s.bytes a n = (List.range n).map fun k => s.byte (a + k) := by
  induction n generalizing a with
  | zero => rfl
  | succ n ih =>
    rw [State.bytes, ih, List.range_succ_eq_map, List.map_cons, List.map_map]
    exact congrArg _ (List.map_congr_left fun k _ => congrArg s.byte (show a + 1 + k = a + (k + 1) by omega))

theorem wordAt_captureLine (s : State) {line x : Nat} (h : x / 1024 = line) (halign : x % 8 = 0) :
    (s.captureLine line).wordAt x = BitVec.ofNat 64 (s.load x 8) := by
  unfold IbufLine.wordAt
  rw [State.load, bytes_eq_map]
  refine congrArg (fun bs => w64 (ofBytes bs)) (List.map_congr_left fun k hk => byte_captureLine s ?_)
  rw [List.mem_range] at hk
  omega

theorem fetch_touchLine (t : Tile) (l : IbufLine) {x : Nat} (h : x / 1024 = l.line) :
    (t.touchLine l).fetch x = some (l.wordAt x) := by
  simp [Tile.fetch, Tile.lineAt, Tile.touchLine, h]

theorem fetchFault_fills (s : State) (n a : Nat) (f : List Nat) :
    (s.setTile n { s.tile n with fills := f }).fetchFault n a = s.fetchFault n a := by
  unfold State.fetchFault State.tileOrigin
  rw [tile_setTile_same]
  rfl

/-- What the end of a fill leaves of its tile. -/
def filled (s : State) (n line : Nat) : Tile :=
  ({ s.tile n with fills := (s.tile n).fills.filter (· != line) } : Tile).touchLine (s.captureLine line)

theorem execIbufFillComplete_eq {n line : Nat} {s : State} (hfill : line ∈ (s.tile n).fills)
    (hwait : (s.tile n).wait ≠ .iflush) (hfault : s.fetchFault n (line * 1024) = none) :
    ∃ t, execIbufFillComplete n line .ok s = .next t ∧ s.OnlyTile n t ∧ t.tile n = filled s n line := by
  unfold execIbufFillComplete
  rw [if_pos (List.contains_iff_mem.mpr hfill)]
  dsimp only
  rw [fetchFault_fills, hfault]
  simp only [State.detect, Option.isSome_none, Bool.false_eq_true, if_false]
  rw [State.updTile, tile_updTile_same, tile_setTile_same, if_neg]
  · exact ⟨_, rfl, onlyTile_trans (onlyTile_setTile ..) (onlyTile_trans (onlyTile_updTile ..) (onlyTile_setTile ..)),
      tile_setTile_same ..⟩
  · rw [Bool.and_eq_true, decide_eq_true_eq]
    exact fun h => hwait h.1

/-- Settles O14: a fill that ends makes its line resident as memory holds it. -/
theorem fillCapturesMemory : Obligations.FillCapturesMemory := by
  intro n line s hfill hwait hfault
  obtain ⟨t, hnext, honly, htile⟩ := execIbufFillComplete_eq hfill hwait hfault
  refine ⟨t, hnext, honly, ?_⟩
  rw [htile]
  exact ⟨rfl, fun x hx halign => (fetch_touchLine _ _ hx).trans (congrArg some (wordAt_captureLine s hx halign))⟩

end Sys2Proof.Proofs
end

section
/-! PROOFS. The M class (spec/07_nolpa_programming.md R215, R216, R229; spec/06_memory_and_ordering.md R178): what an
access is at its issue, at its home, and when the home has answered. -/
namespace Sys2Proof.Proofs

open Sys2Proof Sys2Proof.Machine Sys2Proof.Claims Sys2Proof.Laws

/-! ## Words and values -/

theorem soff24_eq (w : W64) : soff24 w = off24 w := by
  rw [soff24, signed_eq_toInt (by decide), off24, BitVec.signExtend]
  congr 2
  apply BitVec.eq_of_toNat_eq
  rw [BitVec.toNat_ofNat, BitVec.toNat_setWidth, fl, bits, field, pow_zero, Nat.div_one, Nat.mod_mod]

theorem mSize_eq (w : W64) : mSize w = 2 ^ bits w 24 2 := by
  simp only [mSize, bits, field]
  congr 1
  omega

theorem mSize_le (w : W64) : mSize w ≤ 8 :=
  (Nat.pow_le_pow_right (by decide) (show fMod w % 4 ≤ 3 by omega) : 2 ^ (fMod w % 4) ≤ 2 ^ 3)

theorem extend_eq_extended {size : Nat} (hsize : 0 < size) (sign : Bool) (v : W64) :
    extend size sign v = extended size sign v.toNat := by
  unfold extend extended
  rw [signed_eq_toInt (by omega)]
  refine if_congr Iff.rfl rfl (BitVec.eq_of_toNat_eq ?_)
  rw [BitVec.toNat_ofNat, BitVec.toNat_setWidth, BitVec.toNat_ofNat]

theorem toNat_load {size : Nat} (hsize : size ≤ 8) (s : State) (a : Nat) :
    (BitVec.ofNat 64 (s.load a size)).toNat = s.load a size := by
  rw [BitVec.toNat_ofNat]
  exact Nat.mod_eq_of_lt ((load_lt s a size).trans_le (Nat.pow_le_pow_right (by decide) hsize : 256 ^ size ≤ 256 ^ 8))

theorem extend_load {size : Nat} (hpos : 0 < size) (hsize : size ≤ 8) (sign : Bool) (s : State) (a : Nat) :
    extend size sign (w64 (s.load a size)) = extended size sign (s.load a size) := by
  rw [extend_eq_extended hpos, toNat_load hsize]

theorem pow_256 (n : Nat) : 256 ^ n = 2 ^ (8 * n) := (pow_mul 2 8 n).symm

theorem getD_toBytes {n k : Nat} (hk : k < n) (x : Nat) :
    (toBytes n x).getD k 0 = BitVec.ofNat 8 (x / 2 ^ (8 * k)) := by
  rw [← pow_256]
  induction n generalizing k x with
  | zero => omega
  | succ n ih =>
    cases k with
    | zero => rw [pow_zero, Nat.div_one]; rfl
    | succ k => rw [pow_succ', ← Nat.div_div_eq_div_mul, ← ih (by omega)]; rfl

/-- What a store leaves at every byte. -/
theorem byte_store (s : State) (a n v x : Nat) :
    (s.store a n v).byte x = if a ≤ x ∧ x < a + n then BitVec.ofNat 8 (v / 2 ^ (8 * (x - a))) else s.byte x := by
  rw [State.store, byte_writeBytes, toBytes_length]
  split
  · next h => exact getD_toBytes (by omega) v
  · rfl

/-! ## An access at its issue -/

/-- Block `s` as an instruction of tile `n` finds it: its line is the most recent of the instruction buffer. -/
def touched (s : State) (n : Nat) (l : List IbufLine) : State := s.setTile n { s.tile n with ibuf := l }

theorem tile_touched (s : State) (n : Nat) (l : List IbufLine) : (touched s n l).tile n = { s.tile n with ibuf := l } :=
  tile_setTile_same ..

theorem onlyTile_touched (s : State) (n : Nat) (l : List IbufLine) : s.OnlyTile n (touched s n l) := onlyTile_setTile ..

/-- The checks of an access do not look into instruction buffers. -/
theorem sameChecks_touched (s : State) (n : Nat) (l : List IbufLine) : SameChecks s (touched s n l) := by
  have htile (m : Nat) : ((touched s n l).tile m).csr = (s.tile m).csr ∧
      ((touched s n l).tile m).chains = (s.tile m).chains := by
    rw [touched, tile_setTile]
    split
    · next h => rw [h]; exact ⟨rfl, rfl⟩
    · exact ⟨rfl, rfl⟩
  have hstate (m : Nat) : ((touched s n l).tile m).state = (s.tile m).state := fld_of_tileCsr (htile m).1 _
  exact {
    word := fun _ _ => rfl
    mem := rfl
    admitted := rfl
    selfRefresh := rfl
    cadOld := rfl
    commitAt := rfl
    chains := fun m => (htile m).2
    inReset := fun m => by rw [hstate]
    halted := fun m h => by rwa [Tile.halted, hstate, fld_of_tileCsr (htile m).1] }

theorem mAddr_touched (s : State) (i : Issue) (l : List IbufLine) :
    ((touched s i.tile l).tile i.tile).mAddr i.word = mAddress s i := by
  rw [tile_touched, Tile.mAddr, soff24_eq]
  rfl

/-- An M-class instruction makes its access. -/
theorem issueM_next {s : State} {i : Issue} (h : s.Issues i) {isRow : W64 → Bool} (hrow : isRow i.word = true)
    (acc : W64 → Tile → CoreAccess) (hacc : ∀ (t : Tile) l, acc i.word { t with ibuf := l } = acc i.word t) :
    ∃ l, issueM isRow acc i s =
      .next ((touched s i.tile l).access i.tile i (acc i.word (s.tile i.tile))) := by
  obtain ⟨l, hnext⟩ := issue_next i isRow (fun n s => s.access n i (acc i.word (s.tile n))) s h hrow
  rw [tile_setTile_same, hacc] at hnext
  exact ⟨l, hnext⟩

/-- An access that nothing holds, faults or loses is served. -/
theorem sendAccess_served {u : State} {n : Nat} {i : Issue} {c : CoreAccess} {a : W64}
    (hheld : u.heldAt (corePart n) (coreDie n) 0 a.toNat = none)
    (hhome : u.mHomeFault n c.kind a.toNat c.size = none) (hreach : u.homeReach (coreDie n) 0 a.toNat = true)
    (hecc : i.ecc = .ok) : u.sendAccess n i c a = c.serve u a.toNat := by
  unfold State.sendAccess
  rw [hheld]
  dsimp only
  unfold State.serveAccess
  dsimp only
  rw [hhome]
  dsimp only
  rw [hreach, if_neg (by decide), hecc]
  simp only [State.detect, ite_self, Option.isSome_none, Bool.false_eq_true, if_false]

theorem mHomeFault_none {u : State} {n : Nat} {k : Access} {a size : Nat} : u.mHomeFault n k a size = none ↔
    u.granted (u.tileOrigin n) k a = true ∧ u.cellsBar k a size = false := by
  unfold State.mHomeFault
  simp only [ite_some_eq_none_iff, Bool.not_eq_true', Bool.not_eq_false, Bool.not_eq_true, and_true]

theorem mHomeFault_touched {s : State} {n : Nat} {l : List IbufLine} {k : Access} {a size : Nat}
    (h : s.mHomeFault n k a size = none) : (touched s n l).mHomeFault n k a size = none := by
  obtain ⟨hgrant, hcells⟩ := mHomeFault_none.mp h
  have horigin : (touched s n l).tileOrigin n = s.tileOrigin n := by
    unfold State.tileOrigin
    rw [tile_touched, priv_ibuf]
  refine mHomeFault_none.mpr ⟨?_, (sameChecks_touched s n l).cellsBar hcells⟩
  rw [(sameChecks_touched s n l).granted, horigin, hgrant]

/-- An access that reaches its home is served, and the core waits for the answer. -/
theorem access_served {s : State} {i : Issue} {c : CoreAccess} (h : Reaches s i c.kind c.size) (l : List IbufLine) :
    (touched s i.tile l).access i.tile i c =
      (c.serve (touched s i.tile l) (mAddress s i).toNat).2.mWait i.tile i.word
        (c.serve (touched s i.tile l) (mAddress s i).toNat).1 := by
  obtain ⟨hlocal, hhome, hheld, hreach, hecc⟩ := h
  have hsame := sameChecks_touched s i.tile l
  unfold State.access
  dsimp only
  rw [mAddr_touched, hlocal]
  dsimp only
  rw [sendAccess_served ((hsame.heldAt ..).trans hheld) (mHomeFault_touched hhome) ((hsame.homeReach ..).trans hreach)
    hecc]

/-- An access that the core itself faults takes its exception. -/
theorem access_fault {s : State} {i : Issue} {c : CoreAccess} {f : Nat}
    (h : mLocalFault (mAddress s i) c.size (c.kind == .atomic) = some f) (l : List IbufLine) :
    (touched s i.tile l).access i.tile i c = (touched s i.tile l).except i.tile f (mAddress s i) := by
  unfold State.access
  dsimp only
  rw [mAddr_touched, h]

/-- The core of an access that a home has served waits for its answer. -/
theorem waitsFor_mWait {s u : State} {i : Issue} {l : List IbufLine} (h : u.tiles = (touched s i.tile l).tiles)
    (r : MemWait) : WaitsFor s (u.mWait i.tile i.word r) i r := by
  have htile (m : Nat) : u.tile m = (touched s i.tile l).tile m := by rw [State.tile, State.tile, h]
  refine ⟨fun m hm => ?_, ?_⟩
  · exact ((onlyTile_updTile ..).2 m hm).trans ((htile m).trans ((onlyTile_touched ..).2 m hm))
  · rw [State.mWait, tile_updTile_same, htile, tile_touched, pcNext_eq_nextPc]
    rfl

/-! ## Faults at the issue -/

/-- An M-class instruction: its opcode, and the size and kind of its access. -/
structure MRow where
  con : Issue → Instr
  acc : W64 → Tile → CoreAccess
  isRow : W64 → Bool

/-- A row of Table 7.7 does as its access. -/
structure MRow.Makes (e : MRow) (w : W64) (size : Nat) (atomic : Bool) : Prop where
  exec : ∀ i s, exec (e.con i) s = issueM e.isRow e.acc i s
  row : e.isRow w = true
  ibuf : ∀ (t : Tile) l, e.acc w { t with ibuf := l } = e.acc w t
  size : ∀ t, (e.acc w t).size = size
  kind : ∀ t, ((e.acc w t).kind == .atomic) = atomic

theorem isCsr_unmapped {a : Nat} (h : region a = .unmapped) : isCsr a = false := by rw [isCsr, h]

/-- The core faults an access as Table 7.11 says. -/
theorem mLocalFault_some {a : W64} {size : Nat} {atomic : Bool} (hsize : atomic = true → 4 ≤ size) {cause : Nat}
    (h : (if a.toNat % size ≠ 0 then some 0x0502
      else if atomic = true ∧ (2 ^ 48 ≤ a.toNat ∨ memRange a.toNat size = false) then some 0x0503
      else if atomic = false ∧ (2 ^ 48 ≤ a.toNat ∨ region a.toNat = .unmapped) then some 0x0501 else none) =
      some cause) : mLocalFault a size atomic = some cause := by
  unfold mLocalFault
  dsimp only
  by_cases halign : a.toNat % size ≠ 0
  · rw [if_pos (.inl halign), ← h, if_pos halign]
  · rw [if_neg halign] at h
    cases atomic with
    | true =>
      have hcsr : ¬ (a.toNat % size ≠ 0 ∨ decide (2 ^ 48 ≤ a.toNat) = false ∧ isCsr a.toNat = true ∧ size < 4) :=
        not_or.mpr ⟨halign, fun hcsr => absurd (hsize rfl) (Nat.not_le.mpr hcsr.2.2)⟩
      rw [if_neg (c := true = false ∧ _) fun hfalse => Bool.noConfusion hfalse.1] at h
      rw [if_neg hcsr, if_pos rfl, ← h]
      refine if_congr ?_ rfl rfl
      rw [Bool.or_eq_true, decide_eq_true_iff, Bool.not_eq_true', eq_self, true_and]
    | false =>
      rw [if_neg fun hfalse => Bool.false_ne_true hfalse.1] at h
      by_cases hout : 2 ^ 48 ≤ a.toNat ∨ region a.toNat = .unmapped
      · have hcsr : ¬ (a.toNat % size ≠ 0 ∨ decide (2 ^ 48 ≤ a.toNat) = false ∧ isCsr a.toNat = true ∧ size < 4) := by
          refine not_or.mpr ⟨halign, fun ⟨hlow, hcsr, _⟩ => ?_⟩
          rw [isCsr_unmapped (hout.resolve_left (of_decide_eq_false hlow))] at hcsr
          exact Bool.false_ne_true hcsr
        rw [if_pos ⟨rfl, hout⟩] at h
        rw [if_neg hcsr, if_neg Bool.false_ne_true, if_pos, h]
        rw [Bool.or_eq_true, Bool.or_eq_true, decide_eq_true_iff, beq_iff_eq]
        exact .inl hout
      · rw [if_neg fun hboth => hout hboth.2] at h
        cases h

theorem MRow.Makes.traps {e : MRow} {i : Issue} {size : Nat} {atomic : Bool} (he : e.Makes i.word size atomic)
    {s : State} (h : s.Issues i) {cause : Nat} (hfault : mLocalFault (mAddress s i) size atomic = some cause) :
    ∃ t, Machine.exec (e.con i) s = .next t ∧ s.OnlyTile i.tile t ∧
      Traps (s.tile i.tile) (t.tile i.tile) cause false (mAddress s i) := by
  obtain ⟨l, hnext⟩ := issueM_next h he.row e.acc he.ibuf
  rw [access_fault (by rw [he.size, he.kind]; exact hfault)] at hnext
  exact ⟨_, (he.exec i s).trans hnext, except_traps h l cause _⟩

theorem makes_ld {w : W64} (h : fOp w = 0x60) :
    (⟨.ld, ldAccess, fun w => fOp w == 0x60⟩ : MRow).Makes w (2 ^ bits w 24 2) false :=
  ⟨exec_ld, beq_iff_eq.mpr h, fun _ _ => rfl, fun _ => mSize_eq w, fun _ => rfl⟩

theorem makes_st {w : W64} (h : fOp w = 0x61) :
    (⟨.st, stAccess, fun w => fOp w == 0x61⟩ : MRow).Makes w (2 ^ bits w 24 2) false :=
  ⟨exec_st, beq_iff_eq.mpr h, fun _ _ => rfl, fun _ => mSize_eq w, fun _ => rfl⟩

theorem makes_dld {w : W64} (h : fOp w = 0x64) :
    (⟨.dld, dldAccess, fun w => fOp w == 0x64⟩ : MRow).Makes w 64 false :=
  ⟨exec_dld, beq_iff_eq.mpr h, fun _ _ => rfl, fun _ => rfl, fun _ => rfl⟩

theorem makes_dst {w : W64} (h : fOp w = 0x65) :
    (⟨.dst, dstAccess, fun w => fOp w == 0x65⟩ : MRow).Makes w 64 false :=
  ⟨exec_dst, beq_iff_eq.mpr h, fun _ _ => rfl, fun _ => rfl, fun _ => rfl⟩

/-- The operation of an AMO (R215). -/
theorem fMod_low (w : W64) : fMod w % 16 = bits w 24 4 := by
  simp only [fMod, fl, bits, field]
  omega

/-- A row of Table 6.5 is the model's AMO. -/
structure Amos (e : AmoRow) : Prop where
  exec : ∀ i s, exec (e.con i) s = amo e.op e.sign i s
  size : amoSize e.op = e.size
  wide : 4 ≤ e.size ∧ e.size ≤ 8
  new : ∀ o b, (amoNew e.op o b).toNat % 2 ^ (8 * e.size) = e.new o b % 2 ^ (8 * e.size)

theorem makes_amo {e : AmoRow} (he : Amos e) {w : W64} (h : fOp w = 0x62) (hop : bits w 24 4 = e.op) :
    (⟨e.con, amoAccess e.op e.sign, fun w => fOp w == 0x62 && fMod w % 16 == e.op⟩ : MRow).Makes w e.size true :=
  ⟨he.exec, by simp only [Bool.and_eq_true, beq_iff_eq, fMod_low]; exact ⟨h, hop⟩, fun _ _ => rfl, fun _ => he.size,
    fun _ => rfl⟩

/-- The bytes that a CAS compares (R178). -/
theorem casSize_eq {n : Nat} {w : W64} (hok : coreOk n w = true) (h : fOp w = 0x63) :
    (if fMod w % 16 = 1 then 8 else 4) = if bits w 24 1 = 1 then 8 else 4 := by
  have hmod : fMod w % 16 ≤ 1 := by
    have hword := (Bool.and_eq_true_iff.mp hok).1
    simp [wordOk, h] at hword
    omega
  have hbit : bits w 24 1 = fMod w % 16 := by
    rw [← Nat.mod_eq_of_lt (show fMod w % 16 < 2 by omega)]
    simp only [fMod, fl, bits, field]
    omega
  rw [hbit]

theorem makes_cas {n : Nat} {w : W64} (hok : coreOk n w = true) (h : fOp w = 0x63) :
    (⟨.cas, casAccess, fun w => fOp w == 0x63⟩ : MRow).Makes w (if bits w 24 1 = 1 then 8 else 4) true :=
  ⟨exec_cas, beq_iff_eq.mpr h, fun _ _ => rfl, fun _ => casSize_eq hok h, fun _ => rfl⟩

/-! ### The atomics of Table 6.5 -/

theorem signed_low (x : W64) : signed 32 x.toNat = (x.setWidth 32).toInt := by
  rw [signed_eq_toInt (by decide), BitVec.ofNat_toNat]

theorem toNat_w64_mod {k : Nat} (hk : k ≤ 64) (x : Nat) : (w64 x).toNat % 2 ^ k = x % 2 ^ k := by
  rw [BitVec.toNat_ofNat]
  exact Nat.mod_mod_of_dvd _ (pow_dvd_pow 2 hk)

theorem amoRows_amo : ∀ e ∈ amoRows, Amos e := by
  simp only [amoRows, List.forall_mem_cons, List.not_mem_nil, false_imp_iff, implies_true, and_true]
  have hfloat (x : Nat) : (w64 x).toNat % 2 ^ 32 = x % 2 ^ 32 := toNat_w64_mod (by decide) x
  have hpick (c : Prop) [Decidable c] (x y : Nat) :
      (if c then w64 x else w64 y).toNat % 2 ^ 32 = (if c then x else y) % 2 ^ 32 := by
    rw [← apply_ite w64, hfloat]
  have hpick64 (c : Prop) [Decidable c] (x y : W64) :
      (if c then x else y).toNat % 2 ^ 64 = (if c then x.toNat else y.toNat) % 2 ^ 64 := by
    rw [apply_ite BitVec.toNat]
  refine ⟨⟨exec_amoAddI32, rfl, by decide, fun o b => ?_⟩, ⟨exec_amoAddI64, rfl, by decide, fun o b => ?_⟩,
    ⟨exec_amoFadd, rfl, by decide, fun o b => hfloat _⟩, ⟨exec_amoMaxI32, rfl, by decide, fun o b => ?_⟩,
    ⟨exec_amoMaxI64, rfl, by decide, fun o b => ?_⟩, ⟨exec_amoMinI32, rfl, by decide, fun o b => ?_⟩,
    ⟨exec_amoMinI64, rfl, by decide, fun o b => ?_⟩, ⟨exec_amoFmax, rfl, by decide, fun o b => hfloat _⟩,
    ⟨exec_amoFmin, rfl, by decide, fun o b => hfloat _⟩⟩
  · exact (hfloat _).trans (congrArg (· % 2 ^ 32) (Nat.add_mod ..).symm)
  · exact congrArg (· % 2 ^ 64) (BitVec.toNat_add o b)
  · exact (hpick _ _ _).trans (by simp only [signed_low])
  · simp only [amoNew, BitVec.slt, decide_eq_true_eq]
    exact hpick64 _ _ _
  · exact (hpick _ _ _).trans (by simp only [signed_low])
  · simp only [amoNew, BitVec.slt, decide_eq_true_eq]
    exact hpick64 _ _ _

/-- Settles O9: the core takes the exceptions that it finds itself at the issue. -/
theorem mClassFaultsArePrecise : Obligations.MClassFaultsArePrecise := by
  intro i s h c size atomic hrow a cause? cause hcause
  have hok : coreOk i.tile i.word = true := h.2.2.2.2.2.1
  obtain ⟨rfl, hop, rfl, rfl⟩ | ⟨rfl, hop, rfl, rfl⟩ | ⟨rfl, hop, rfl, rfl⟩ | ⟨rfl, hop, rfl, rfl⟩ |
    ⟨e, he, rfl, hop, hmod, rfl, rfl⟩ | ⟨rfl, hop, rfl, rfl⟩ := hrow
  · exact (makes_ld hop).traps h (mLocalFault_some (absurd · Bool.false_ne_true) hcause)
  · exact (makes_st hop).traps h (mLocalFault_some (absurd · Bool.false_ne_true) hcause)
  · exact (makes_dld hop).traps h (mLocalFault_some (absurd · Bool.false_ne_true) hcause)
  · exact (makes_dst hop).traps h (mLocalFault_some (absurd · Bool.false_ne_true) hcause)
  · have hamo := amoRows_amo e he
    exact (makes_amo hamo hop hmod).traps h (mLocalFault_some (fun _ => hamo.wide.1) hcause)
  · exact (makes_cas hok hop).traps h (mLocalFault_some (fun _ => by split <;> decide) hcause)

end Sys2Proof.Proofs
end

section
/-! PROOFS. Loads, stores and atomics that reach their home, and its answer (spec/07_nolpa_programming.md R215, R216;
spec/06_memory_and_ordering.md R178). -/
namespace Sys2Proof.Proofs

open Sys2Proof Sys2Proof.Machine Sys2Proof.Claims Sys2Proof.Laws

/-- An M-class instruction that reaches its home is served, and its core waits. -/
theorem MRow.Makes.served {e : MRow} {i : Issue} {size : Nat} {atomic : Bool} (he : e.Makes i.word size atomic)
    {s : State} (h : s.Issues i) {k : Access} (hk : (e.acc i.word (s.tile i.tile)).kind = k)
    (hreach : Reaches s i k size) :
    ∃ l, let p := (e.acc i.word (s.tile i.tile)).serve (touched s i.tile l) (mAddress s i).toNat
      Machine.exec (e.con i) s = .next (p.2.mWait i.tile i.word p.1) := by
  obtain ⟨l, hnext⟩ := issueM_next h he.row e.acc he.ibuf
  rw [access_served (by rw [hk, he.size]; exact hreach)] at hnext
  exact ⟨l, (he.exec i s).trans hnext⟩

theorem load_touched (s : State) (n : Nat) (l : List IbufLine) (a size : Nat) :
    (touched s n l).load a size = s.load a size := load_of_mem (s := s) (t := touched s n l) rfl a size

/-- The core of an access that left memory and the tiles waits, and nothing else has changed. -/
theorem mWait_touched (s : State) (i : Issue) (l : List IbufLine) (r : MemWait) :
    let t := (touched s i.tile l).mWait i.tile i.word r
    t = { s with tiles := t.tiles } ∧ WaitsFor s t i r := ⟨rfl, waitsFor_mWait rfl r⟩

/-! ## Loads -/

theorem ld_reads (i : Issue) (s : State) (h : s.Issues i) (hop : fOp i.word = 0x60)
    (hreach : Reaches s i .read (2 ^ bits i.word 24 2)) :
    let size := 2 ^ bits i.word 24 2
    let a := (mAddress s i).toNat
    ∃ t, exec (.ld i) s = .next t ∧
      if isCsr a then
        ∃ b, let u := (s.setTile i.tile { s.tile i.tile with ibuf := b }).ioRead a size
          t = u.2.mWait i.tile i.word (.load (fA i.word) (extended size (bit i.word 26) u.1.toNat))
      else t = { s with tiles := t.tiles } ∧
        WaitsFor s t i (.load (fA i.word) (extended size (bit i.word 26) (s.load a size))) := by
  intro size a
  obtain ⟨l, hnext⟩ := (makes_ld hop).served h rfl hreach
  refine ⟨_, hnext, ?_⟩
  dsimp only [ldAccess, State.readHome]
  rw [mSize_eq]
  split
  · rw [extend_eq_extended (Nat.two_pow_pos _)]
    exact ⟨l, rfl⟩
  · rw [extend_load (Nat.two_pow_pos _) (mSize_eq i.word ▸ mSize_le i.word), load_touched]
    exact mWait_touched ..

/-- The register addresses of Table 6.1. -/
theorem isCsr_iff (a : Nat) : isCsr a = true ↔
    (csrBase ≤ a ∧ a < 0x020000B00000) ∨ (0x021000000000 ≤ a ∧ a < 0x021010000000) := by
  unfold isCsr region
  dsimp only
  split_ifs <;> simp only [csrBase] at * <;> simp <;> omega

/-- A descriptor's words lie all in registers, or none does. -/
theorem isCsr_words {a k : Nat} (halign : a % 64 = 0) (hk : k < 8) : isCsr (a + 8 * k) = isCsr a := by
  rw [Bool.eq_iff_iff, isCsr_iff, isCsr_iff]
  simp only [csrBase]
  omega

theorem aligned_of_mLocalFault {a : W64} {size : Nat} {atomic : Bool} (h : mLocalFault a size atomic = none) :
    a.toNat % size = 0 := by
  by_contra halign
  unfold mLocalFault at h
  dsimp only at h
  rw [if_pos (.inl halign)] at h
  cases h

/-- Eight reads of one home, one after another. -/
def readWords (a : Nat) (p : List W64 × State) (k : Nat) : List W64 × State :=
  (p.1 ++ [(p.2.readHome (a + 8 * k) 8).1], (p.2.readHome (a + 8 * k) 8).2)

theorem readWords_csr (s : State) (a k : Nat) (h : ∀ j < k, isCsr (a + 8 * j) = true) :
    (List.range k).foldl (readWords a) ([], s) = ioReads s a k := by
  induction k with
  | zero => rfl
  | succ k ih =>
    rw [List.range_succ, List.foldl_concat, ih fun j hj => h j (by omega), readWords, State.readHome,
      if_pos (h k (by omega))]
    rfl

theorem readWords_mem (s : State) (a k : Nat) (h : ∀ j < k, isCsr (a + 8 * j) = false) :
    (List.range k).foldl (readWords a) ([], s) =
      ((List.range k).map (fun j => BitVec.ofNat 64 (s.load (a + 8 * j) 8)), s) := by
  induction k with
  | zero => rfl
  | succ k ih =>
    rw [List.range_succ, List.foldl_concat, ih fun j hj => h j (by omega), readWords, State.readHome,
      if_neg (by rw [h k (by omega)]; decide), List.map_append]
    rfl

theorem dld_reads (i : Issue) (s : State) (h : s.Issues i) (hop : fOp i.word = 0x64)
    (hreach : Reaches s i .read 64) :
    let a := (mAddress s i).toNat
    ∃ t, exec (.dld i) s = .next t ∧
      if isCsr a then
        ∃ b, let u := ioReads (s.setTile i.tile { s.tile i.tile with ibuf := b }) a 8
          t = u.2.mWait i.tile i.word (.desc (fA i.word) u.1)
      else t = { s with tiles := t.tiles } ∧
        WaitsFor s t i (.desc (fA i.word) ((List.range 8).map (fun k => BitVec.ofNat 64 (s.load (a + 8 * k) 8)))) := by
  intro a
  obtain ⟨l, hnext⟩ := (makes_dld hop).served h rfl hreach
  have hcsr (k : Nat) (hk : k < 8) : isCsr (a + 8 * k) = isCsr a := isCsr_words (aligned_of_mLocalFault hreach.1) hk
  have hserve : (dldAccess i.word (s.tile i.tile)).serve (touched s i.tile l) a =
      (.desc (fA i.word) ((List.range 8).foldl (readWords a) ([], touched s i.tile l)).1,
        ((List.range 8).foldl (readWords a) ([], touched s i.tile l)).2) := rfl
  refine ⟨_, hnext, ?_⟩
  dsimp only
  rw [hserve]
  split
  · next ha =>
    rw [readWords_csr _ _ _ fun k hk => (hcsr k hk).trans ha]
    exact ⟨l, rfl⟩
  · next ha =>
    rw [readWords_mem _ _ _ fun k hk => (hcsr k hk).trans (Bool.not_eq_true _ ▸ ha)]
    simp only [load_touched]
    exact mWait_touched ..

/-- Settles O5: loads answer what their home holds. -/
theorem loadsReadTheirHome : Obligations.LoadsReadTheirHome := ⟨ld_reads, dld_reads⟩

/-! ## Stores -/

/-- Block `u` is block `s` with other memory. -/
def MemOnly (s u : State) : Prop := u = { s with mem := u.mem, ueWords := u.ueWords }

theorem memOnly_store (s : State) (a n v : Nat) : MemOnly s (s.store a n v) := rfl

theorem MemOnly.trans {s t u : State} (hst : MemOnly s t) (htu : MemOnly t u) : MemOnly s u := by
  rw [MemOnly, htu, hst]

theorem MemOnly.tiles {s u : State} (h : MemOnly s u) : u.tiles = s.tiles := by rw [h]

/-- The core of an access that has changed memory alone waits, and nothing else has changed. -/
theorem mWait_memOnly {s u : State} {i : Issue} {l : List IbufLine} (h : MemOnly (touched s i.tile l) u) (r : MemWait) :
    let t := u.mWait i.tile i.word r
    t = { s with mem := t.mem, ueWords := t.ueWords, tiles := t.tiles } ∧ WaitsFor s t i r := by
  refine ⟨?_, waitsFor_mWait h.tiles r⟩
  rw [State.mWait, State.updTile, State.setTile]
  rw [h]
  rfl

theorem byte_mWait (u : State) (n : Nat) (w : W64) (r : MemWait) (x : Nat) : (u.mWait n w r).byte x = u.byte x := rfl

theorem load_mWait (u : State) (n : Nat) (w : W64) (r : MemWait) (a k : Nat) :
    (u.mWait n w r).load a k = u.load a k := load_of_mem (s := u) (t := u.mWait n w r) rfl a k

theorem st_writes (i : Issue) (s : State) (h : s.Issues i) (hop : fOp i.word = 0x61)
    (hreach : Reaches s i .write (2 ^ bits i.word 24 2)) :
    let size := 2 ^ bits i.word 24 2
    let a := (mAddress s i).toNat
    let v := (s.tile i.tile).s (fC i.word)
    ∃ t, exec (.st i) s = .next t ∧
      if isCsr a then
        ∃ b, t = ((s.setTile i.tile { s.tile i.tile with ibuf := b }).ioWrite a size v).mWait i.tile i.word .store
      else t = { s with mem := t.mem, ueWords := t.ueWords, tiles := t.tiles } ∧ WaitsFor s t i .store ∧
        ∀ x, t.byte x =
          if a ≤ x ∧ x < a + size then BitVec.ofNat 8 (v.toNat / 2 ^ (8 * (x - a))) else s.byte x := by
  intro size a v
  obtain ⟨l, hnext⟩ := (makes_st hop).served h rfl hreach
  refine ⟨_, hnext, ?_⟩
  dsimp only [stAccess, State.writeHome]
  rw [mSize_eq]
  split
  · exact ⟨l, rfl⟩
  · obtain ⟨hframe, hwaits⟩ := mWait_memOnly (memOnly_store (touched s i.tile l) a size v.toNat) .store
    exact ⟨hframe, hwaits, fun x => byte_store (touched s i.tile l) a size v.toNat x⟩

/-- Eight writes to one home, one after another. -/
def writeWords (a : Nat) (ws : Nat → W64) (s : State) (k : Nat) : State := s.writeHome (a + 8 * k) 8 (ws k)

theorem writeWords_csr (s : State) (a : Nat) (ws : Nat → W64) (k : Nat) (h : ∀ j < k, isCsr (a + 8 * j) = true) :
    (List.range k).foldl (writeWords a ws) s = ioWrites s a ws k := by
  induction k with
  | zero => rfl
  | succ k ih =>
    rw [List.range_succ, List.foldl_concat, ih fun j hj => h j (by omega), writeWords, State.writeHome,
      if_pos (h k (by omega))]
    rfl

theorem writeWords_mem (s : State) (a : Nat) (ws : Nat → W64) (k : Nat) (h : ∀ j < k, isCsr (a + 8 * j) = false) :
    MemOnly s ((List.range k).foldl (writeWords a ws) s) ∧
      ∀ x, ((List.range k).foldl (writeWords a ws) s).byte x = if a ≤ x ∧ x < a + 8 * k then
        BitVec.ofNat 8 ((ws ((x - a) / 8)).toNat / 2 ^ (8 * ((x - a) % 8))) else s.byte x := by
  induction k with
  | zero => exact ⟨rfl, fun x => by rw [if_neg (by omega)]; rfl⟩
  | succ k ih =>
    obtain ⟨hframe, hbyte⟩ := ih fun j hj => h j (by omega)
    rw [List.range_succ, List.foldl_concat, writeWords, State.writeHome, if_neg (by rw [h k (by omega)]; decide)]
    refine ⟨hframe.trans (memOnly_store ..), fun x => ?_⟩
    rw [byte_store, hbyte]
    by_cases hlast : a + 8 * k ≤ x ∧ x < a + 8 * k + 8
    · rw [if_pos hlast, if_pos (by omega), show x - (a + 8 * k) = (x - a) % 8 by omega,
        show (x - a) / 8 = k by omega]
    · rw [if_neg hlast]
      exact if_congr (by omega) rfl rfl

theorem dst_writes (i : Issue) (s : State) (h : s.Issues i) (hop : fOp i.word = 0x65)
    (hreach : Reaches s i .write 64) :
    let a := (mAddress s i).toNat
    let ws := (s.tile i.tile).dw (fA i.word)
    ∃ t, exec (.dst i) s = .next t ∧
      if isCsr a then
        ∃ b, t = (ioWrites (s.setTile i.tile { s.tile i.tile with ibuf := b }) a ws 8).mWait i.tile i.word .store
      else t = { s with mem := t.mem, ueWords := t.ueWords, tiles := t.tiles } ∧ WaitsFor s t i .store ∧
        ∀ x, t.byte x = if a ≤ x ∧ x < a + 64 then
            BitVec.ofNat 8 ((ws ((x - a) / 8)).toNat / 2 ^ (8 * ((x - a) % 8)))
          else s.byte x := by
  intro a ws
  obtain ⟨l, hnext⟩ := (makes_dst hop).served h rfl hreach
  have hcsr (k : Nat) (hk : k < 8) : isCsr (a + 8 * k) = isCsr a := isCsr_words (aligned_of_mLocalFault hreach.1) hk
  have hserve : (dstAccess i.word (s.tile i.tile)).serve (touched s i.tile l) a =
      (.store, (List.range 8).foldl (writeWords a ws) (touched s i.tile l)) := by
    refine congrArg (Prod.mk MemWait.store) (List.foldl_ext _ _ _ fun u k hk => ?_)
    rw [List.mem_range] at hk
    exact congrArg (u.writeHome (a + 8 * k) 8) (getD_d (s.tile i.tile) (fA i.word) hk)
  refine ⟨_, hnext, ?_⟩
  dsimp only
  rw [hserve]
  split
  · next ha =>
    rw [writeWords_csr _ _ _ _ fun k hk => (hcsr k hk).trans ha]
    exact ⟨l, rfl⟩
  · next ha =>
    obtain ⟨hmem, hbyte⟩ := writeWords_mem (touched s i.tile l) a ws 8
      fun k hk => (hcsr k hk).trans (Bool.not_eq_true _ ▸ ha)
    obtain ⟨hframe, hwaits⟩ := mWait_memOnly hmem .store
    exact ⟨hframe, hwaits, fun x => (byte_mWait ..).trans (hbyte x)⟩

/-- Settles O6: stores write their bytes at their home, and no other. -/
theorem storesWriteTheirHome : Obligations.StoresWriteTheirHome := ⟨st_writes, dst_writes⟩

/-! ## Atomics -/

theorem amo_modifies {e : AmoRow} (he : Amos e) (i : Issue) (s : State) (h : s.Issues i) (hop : fOp i.word = 0x62)
    (hmod : bits i.word 24 4 = e.op) (hreach : Reaches s i .atomic e.size) :
    let a := (mAddress s i).toNat
    let b := (s.tile i.tile).s (fC i.word)
    ∃ t, exec (e.con i) s = .next t ∧ t = { s with mem := t.mem, ueWords := t.ueWords, tiles := t.tiles } ∧
      WaitsFor s t i (.load (fA i.word) (extended e.size e.sign (s.load a e.size))) ∧
      t.load a e.size = e.new (BitVec.ofNat 64 (s.load a e.size)) b % 2 ^ (8 * e.size) ∧
      ∀ x, (x < a ∨ a + e.size ≤ x) → t.byte x = s.byte x := by
  intro a b
  obtain ⟨hwide, hnarrow⟩ := he.wide
  obtain ⟨l, hnext⟩ := (makes_amo he hop hmod).served h rfl hreach
  refine ⟨_, hnext, ?_⟩
  dsimp only [amoAccess]
  rw [he.size, extend_load (by omega) hnarrow, load_touched]
  obtain ⟨hframe, hwaits⟩ := mWait_memOnly
    (memOnly_store (touched s i.tile l) a e.size (amoNew e.op (w64 (s.load a e.size)) b).toNat)
    (.load (fA i.word) (extended e.size e.sign (s.load a e.size)))
  refine ⟨hframe, hwaits, ?_, fun x hx => byte_store_other _ _ _ _ _ hx⟩
  rw [load_mWait, load_store_same, pow_256]
  exact he.new ..

theorem casAccess_serve {w : W64} {size : Nat} (hsize : (if fMod w % 16 = 1 then 8 else 4) = size) (t : Tile)
    (u : State) (a : Nat) : (casAccess w t).serve u a = (.load (fA w) (extend size true (w64 (u.load a size))),
      if u.load a size = (t.s (fC w)).toNat % 2 ^ (8 * size) then u.store a size (t.s (fD w)).toNat else u) := by
  subst hsize
  rfl

theorem cas_modifies (i : Issue) (s : State) (h : s.Issues i) (hop : fOp i.word = 0x63) {size : Nat}
    (hsize : (if bits i.word 24 1 = 1 then 8 else 4) = size) (hreach : Reaches s i .atomic size) :
    let a := (mAddress s i).toNat
    let want := ((s.tile i.tile).s (fC i.word)).toNat % 2 ^ (8 * size)
    let new := ((s.tile i.tile).s (fD i.word)).toNat % 2 ^ (8 * size)
    ∃ t, exec (.cas i) s = .next t ∧ t = { s with mem := t.mem, ueWords := t.ueWords, tiles := t.tiles } ∧
      WaitsFor s t i (.load (fA i.word) (extended size true (s.load a size))) ∧
      t.load a size = (if s.load a size = want then new else s.load a size) ∧
      ∀ x, (x < a ∨ a + size ≤ x) → t.byte x = s.byte x := by
  intro a want new
  have hok : coreOk i.tile i.word = true := h.2.2.2.2.2.1
  have hwidth : 4 ≤ size ∧ size ≤ 8 := by rw [← hsize]; split <;> decide
  obtain ⟨l, hnext⟩ := (hsize ▸ makes_cas hok hop : MRow.Makes _ _ size _).served h rfl hreach
  refine ⟨_, hnext, ?_⟩
  dsimp only
  rw [casAccess_serve ((casSize_eq hok hop).trans hsize), extend_load (by omega) hwidth.2, load_touched]
  by_cases hold : s.load a size = want
  · rw [if_pos hold, if_pos hold]
    obtain ⟨hframe, hwaits⟩ := mWait_memOnly
      (memOnly_store (touched s i.tile l) a size ((s.tile i.tile).s (fD i.word)).toNat)
      (.load (fA i.word) (extended size true (s.load a size)))
    refine ⟨hframe, hwaits, ?_, fun x hx => byte_store_other _ _ _ _ _ hx⟩
    rw [load_mWait, load_store_same, pow_256]
  · rw [if_neg hold, if_neg hold]
    refine ⟨rfl, (mWait_touched ..).2, ?_, fun x _ => rfl⟩
    rw [load_mWait, load_touched]

/-- Settles O7: an atomic answers the old value and leaves the new one. -/
theorem atomicsReadAndModifyOnce : Obligations.AtomicsReadAndModifyOnce :=
  ⟨fun e he => amo_modifies (amoRows_amo e he), fun i s h hop => cas_modifies i s h hop rfl⟩

/-! ## The home's answer -/

/-- Core `n` receives an answer that is one. -/
def Answers (s t : State) (n : Nat) (b : Tile) : Prop := s.OnlyTile n t ∧ t.tile n = b

theorem answers_updTile (s : State) (n pc : Nat) (r : MemWait) :
    Answers s (s.updTile n fun t => t.endAccess pc r) n ((s.tile n).endAccess pc r) :=
  ⟨onlyTile_updTile .., tile_updTile_same ..⟩

section
variable {t : Tile} (hstate : t.state = tsRunning)
include hstate

theorem state_idle : ({ t with wait := .none } : Tile).state = tsRunning := (fld_of_tileCsr rfl _).trans hstate

theorem endAccess_load (pc rd : Nat) (v : W64) :
    let a : Tile := { t with wait := .none }
    let b := t.endAccess pc (.load rd v)
    Retires a b pc ∧ (∀ q, b.s q = withS a rd v q) ∧ b.dreg = a.dreg := by
  intro a b
  have hregs : RegsOnly a (a.setS rd v) := (regsOnly_ibuf a a.ibuf).setS ..
  exact ⟨hregs.retires (state_idle hstate) trivial pc, fun q => (s_of_sreg (tile_advance_sreg ..) q).trans (s_setS ..),
    (tile_advance_dreg ..).trans (tile_setS_dreg ..)⟩

theorem endAccess_desc (pc d : Nat) (ws : List W64) :
    let a : Tile := { t with wait := .none }
    let b := t.endAccess pc (.desc d ws)
    Retires a b pc ∧ b.sreg = a.sreg ∧ ∀ e w, w < 8 → b.dw e w = withD a d ws e w := by
  intro a b
  have hregs : RegsOnly a (a.setD d ws) := (regsOnly_ibuf a a.ibuf).setD ..
  exact ⟨hregs.retires (state_idle hstate) trivial pc, (tile_advance_sreg ..).trans (tile_setD_sreg ..),
    fun e w hw => (dw_of_dreg (tile_advance_dreg ..) e w).trans (dw_setD _ _ _ _ hw)⟩

theorem endAccess_store (pc : Nat) :
    let a : Tile := { t with wait := .none }
    let b := t.endAccess pc .store
    Retires a b pc ∧ b.sreg = a.sreg ∧ b.dreg = a.dreg :=
  ⟨retires_settled (state_idle hstate) trivial pc, tile_advance_sreg .., tile_advance_dreg ..⟩

end

/-- An access that its crossing has admitted is made now (R414). -/
theorem again_served {s : State} {i : Issue} (hop : fOp i.word = 0x60)
    (hmem : isCsr (mAddress s i).toNat = false) (hreach : Reaches s i .read (2 ^ bits i.word 24 2)) :
    s.sendAccess i.tile i (wordAccess i.word (s.tile i.tile)) ((s.tile i.tile).mAddr i.word) =
      (.load (fA i.word) (extended (2 ^ bits i.word 24 2) (bit i.word 26)
        (s.load (mAddress s i).toNat (2 ^ bits i.word 24 2))), s) := by
  obtain ⟨-, hhome, hheld, hhomeReach, hecc⟩ := hreach
  have haddr : (s.tile i.tile).mAddr i.word = mAddress s i := by rw [Tile.mAddr, soff24_eq]; rfl
  have hacc : wordAccess i.word = ldAccess i.word := by
    rw [wordAccess, hop]
    rfl
  have hsize : (ldAccess i.word (s.tile i.tile)).size = 2 ^ bits i.word 24 2 := mSize_eq _
  rw [haddr, hacc, sendAccess_served hheld (by rw [hsize]; exact hhome) hhomeReach hecc]
  dsimp only [ldAccess, State.readHome]
  rw [mSize_eq, if_neg (by rw [hmem]; decide), extend_load (Nat.two_pow_pos _) (mSize_eq i.word ▸ mSize_le i.word)]

/-- Settles O8: an answer ends the wait for it. -/
theorem memAccessCompletes : Obligations.MemAccessCompletes := by
  intro n pc r s hwait hstate
  rw [exec_memAccessComplete, execMemAccessComplete]
  refine ⟨_, rfl, ?_⟩
  rw [hwait]
  cases r with
  | load rd v =>
    obtain ⟨honly, htile⟩ := answers_updTile s n pc (.load rd v)
    refine ⟨honly, ?_⟩
    rw [htile]
    exact endAccess_load hstate pc rd v
  | desc d ws =>
    obtain ⟨honly, htile⟩ := answers_updTile s n pc (.desc d ws)
    refine ⟨honly, ?_⟩
    rw [htile]
    exact endAccess_desc hstate pc d ws
  | store =>
    obtain ⟨honly, htile⟩ := answers_updTile s n pc .store
    refine ⟨honly, ?_⟩
    rw [htile]
    exact endAccess_store hstate pc
  | fault c a =>
    obtain ⟨honly, htile⟩ := answers_updTile s n pc (.fault c a)
    refine ⟨honly, ?_⟩
    rw [htile]
    exact traps_takeException c false a (state_idle hstate)
  | held => rfl
  | again i =>
    dsimp only
    rintro rfl hop hmem hreach
    rw [again_served hop hmem hreach]
    obtain ⟨honly, htile⟩ := answers_updTile s i.tile pc (.load (fA i.word) (extended (2 ^ bits i.word 24 2)
      (bit i.word 26) (s.load (mAddress s i).toNat (2 ^ bits i.word 24 2))))
    refine ⟨honly, ?_⟩
    rw [htile]
    obtain ⟨hretires, hs, hd⟩ := endAccess_load hstate pc (fA i.word) (extended (2 ^ bits i.word 24 2)
      (bit i.word 26) (s.load (mAddress s i).toNat (2 ^ bits i.word 24 2)))
    exact ⟨hretires, hd, hs⟩

end Sys2Proof.Proofs
end

section
/-! PROOFS. MXW and MXW_LOAD_START (spec/02_products_and_sums.md R42, R46, R47; spec/07_nolpa_programming.md R209, R239;
spec/08_nolpa_tensor_reference.md R251, R252, R268). -/
namespace Sys2Proof.Proofs

open Sys2Proof Sys2Proof.Machine Sys2Proof.Claims Sys2Proof.Laws

/-! ## MXW queues -/

/-- An instruction that has entered its engine and stands in the queue of the matrix engine. -/
theorem queued_of_entered {i : Issue} {s u : State} (h : Entered i s u) (m : MOp) :
    Queued s (u.setTile i.tile { u.tile i.tile with mq := (u.tile i.tile).mq ++ [m] }) i
      (fun x => { x with mq := x.mq ++ [m] }) := by
  have hmq : (u.tile i.tile).mq = (s.tile i.tile).mq := by rw [h.tile]
  have hinflight : (u.tile i.tile).inflight =
      (s.tile i.tile).inflight ++ [s.newFlight i.tile (s.tile i.tile).seq i.word] := (congrArg Tile.inflight h.tile :)
  refine ⟨onlyTile_trans h.only (onlyTile_setTile ..), ?_⟩
  rw [tile_setTile_same]
  refine ⟨?_, h.token, ?_, (word_of_tileCsr rfl _).trans h.instret, fun o ho =>
    (word_of_tileCsr rfl o).trans (h.words o ho)⟩
  · rw [hmq, hinflight]
    conv_lhs => rw [h.tile]
  · exact ⟨_, hinflight ▸ List.mem_append_right _ (List.mem_singleton_self _), rfl, rfl, rfl, rfl⟩

/-- The MXW that an issued word queues (R209, R251). -/
def mxwOf (i : Issue) (a : Tile) : MxwOp :=
  ⟨fA i.word, a.seq, a.d (fB i.word), (a.s (fC i.word)).toNat, (a.s (fD i.word)).toNat, bits i.word 0 1, i.ecc⟩

theorem mxw_queues (i : Issue) (s : State) (h : s.Issues i) (hop : fOp i.word = 0x80) :
    ∃ t, exec (.mxw i) s = .next t ∧
      Queued s t i (fun x => { x with mq := x.mq ++ [.mxw (mxwOf i (s.tile i.tile))] }) := by
  rw [exec_mxw, execMxw]
  obtain ⟨b, hnext⟩ := issueT_next i (fun w => fOp w == 0x80) _ s h (beq_iff_eq.mpr hop)
  have hent := entered_enter h b
  refine ⟨_, hnext, ?_⟩
  generalize (s.setTile i.tile { s.tile i.tile with ibuf := b }).enter i.tile i.word = u at hent
  have hd (r : Nat) : (u.tile i.tile).d r = (s.tile i.tile).d r :=
    congrArg (List.map · _) (funext fun w => dw_of_dreg hent.dreg r w)
  have hs (r : Nat) : (u.tile i.tile).s r = (s.tile i.tile).s r := s_of_sreg (by rw [hent.tile]) r
  dsimp only
  rw [hd, hs, hs]
  exact queued_of_entered hent _

/-! ## MXW_LOAD_START -/

/-- The matrix engine runs no MXM where none is queued. -/
theorem drainMatrix_mxws {s : State} {n : Nat} (h : ∀ m ∈ (s.tile n).mq, ∃ x, m = .mxw x) (k : Nat) :
    s.drainMatrix n k = s := by
  cases k with
  | zero => rfl
  | succ k =>
    unfold State.drainMatrix
    cases hmq : (s.tile n).mq with
    | nil => rfl
    | cons m q =>
      obtain ⟨x, rfl⟩ := h m (by rw [hmq]; exact List.mem_cons_self ..)
      rfl

theorem srfWaits_eq_false {o : MxwOp} {t : Tile} (h : (Desc.ofWords o.dw).gs = 0 ∨
    ∀ f ∈ t.inflight, ¬ (isSrfLoad f.word = true ∧ f.seq < o.seq ∧ f.done = false)) : o.srfWaits t = false := by
  rw [MxwOp.srfWaits, Bool.and_eq_false_iff]
  refine h.imp (fun hgs => by rw [hgs]; rfl) fun hnone => ?_
  rw [Tile.srfPending, List.any_eq_false]
  intro f hf hpending
  rw [Bool.and_eq_true, Bool.and_eq_true, decide_eq_true_iff, Bool.not_eq_true'] at hpending
  exact hnone f hf ⟨hpending.2, hpending.1⟩

/-- Block `s` after the matrix engine has taken an MXW from the head of its queue. -/
def mxwTaken (s : State) (n : Nat) (q : List MOp) : State := s.setTile n { s.tile n with mq := q }

theorem execMxwLoadStart_eq {n : Nat} {s : State} {o : MxwOp} {q : List MOp} (hmq : (s.tile n).mq = .mxw o :: q)
    (hq : ∀ m ∈ q, m ≠ .mxw o) (hstate : (s.tile n).state ≠ tsDebug) (hsrf : o.srfWaits (s.tile n) = false) :
    execMxwLoadStart n s = .next (((mxwTaken s n q).loadBlock n o).drainMatrix n 8) := by
  have hfirst : firstMxw (.mxw o :: q) [] = some o := rfl
  have hruns : (s.tile n).enginesRun = true := bne_iff_ne.mpr hstate
  have hrest : (MOp.mxw o :: q).filter (fun m => m != .mxw o) = q := by
    rw [List.filter_cons, if_neg (by simp), List.filter_eq_self]
    exact fun m hm => bne_iff_ne.mpr (hq m hm)
  unfold execMxwLoadStart
  simp only [hmq, hfirst, hruns, hsrf, hrest, Bool.not_true, Bool.or_self, Bool.false_eq_true, if_false]
  rfl

/-- A block without fault is captured in its buffer (R252). -/
theorem loadBlock_ok {u : State} {n : Nat} {o : MxwOp} {sc : List Int} (hecc : o.ecc = .ok)
    (hcheck : o.check u n = none) (hsc : o.groupScales (u.tile n) (Desc.ofWords o.dw) = .ok sc) :
    u.loadBlock n o = (u.updTile n fun t =>
      { t with wbuf := NMap.insert t.wbuf o.buf (o.block u (Desc.ofWords o.dw) sc) }).done n o.seq {} none := by
  unfold State.loadBlock
  simp only [hcheck, hecc, State.detectT, Bool.false_eq_true, if_false, hsc]

theorem getD_map_range (f : Nat → Nat) {n k : Nat} (h : k < n) : ((List.range n).map f).getD k 0 = f k := by
  simp [List.getD, h]

/-- The codes of a captured block (R46). -/
theorem code_block (o : MxwOp) (u : State) (d : Desc) (sc : List Int) {c k : Nat}
    (hc : c < min 32 (d.n 1 - 32 * o.rc)) (hk : k < 32) : ((o.block u d sc).codes.getD c []).getD k 0 =
      if 32 * o.rb + k < d.n 0 then u.elem d [32 * o.rb + k, 32 * o.rc + c, 0, 0, 0] else 0 := by
  have hcol : (o.block u d sc).codes.getD c [] = (List.range 32).map fun k =>
      if 32 * o.rb + k < d.n 0 then u.elem d [32 * o.rb + k, 32 * o.rc + c, 0, 0, 0] else 0 := by
    simp [MxwOp.block, List.getD, hc]
  rw [hcol, getD_map_range _ hk]

theorem mxwLoadStart_loads (n : Nat) (s : State) (o : MxwOp) (q : List MOp) (sc : List Int)
    (hmq : (s.tile n).mq = .mxw o :: q) (hq : ∀ m ∈ q, m ≠ .mxw o) (hmxw : ∀ m ∈ q, ∃ x, m = .mxw x)
    (hstate : (s.tile n).state ≠ tsDebug) (hsrf : o.srfWaits (s.tile n) = false) (hecc : o.ecc = .ok)
    (hcheck : o.check s n = none) (hsc : o.groupScales (s.tile n) (Desc.ofWords o.dw) = .ok sc) :
    ∃ t, exec (.mxwLoadStart n) s = .next t ∧ s.OnlyTile n t ∧
      t.tile n = { s.tile n with
        mq := q
        wbuf := NMap.insert (s.tile n).wbuf o.buf (o.block (mxwTaken s n q) (Desc.ofWords o.dw) sc)
        inflight := (s.tile n).inflight.map (fun f =>
          if f.seq = o.seq then { f with done := true, flags := {}, ctr := none } else f) } := by
  have honly : s.OnlyTile n (mxwTaken s n q) := onlyTile_setTile ..
  have htaken : (mxwTaken s n q).tile n = { s.tile n with mq := q } := tile_setTile_same ..
  have hcheck' : o.check (mxwTaken s n q) n = none :=
    (checkOpnds_of_chains honly (by rw [htaken]) ..).trans hcheck
  have hsc' : o.groupScales ((mxwTaken s n q).tile n) (Desc.ofWords o.dw) = .ok sc := by rw [htaken]; exact hsc
  have hload := loadBlock_ok hecc hcheck' hsc'
  have htile : ((mxwTaken s n q).loadBlock n o).tile n = { s.tile n with
      mq := q
      wbuf := NMap.insert (s.tile n).wbuf o.buf (o.block (mxwTaken s n q) (Desc.ofWords o.dw) sc)
      inflight := (s.tile n).inflight.map (fun f =>
        if f.seq = o.seq then { f with done := true, flags := {}, ctr := none } else f) } := by
    rw [hload, State.done, State.updFlight, tile_updTile_same, tile_updTile_same, htaken]
  have hdrain := drainMatrix_mxws (s := (mxwTaken s n q).loadBlock n o) (n := n) (by rw [htile]; exact hmxw) 8
  refine ⟨_, execMxwLoadStart_eq hmq hq hstate hsrf, ?_⟩
  rw [hdrain]
  refine ⟨?_, htile⟩
  rw [hload]
  exact onlyTile_trans honly (onlyTile_trans (onlyTile_updTile ..) (onlyTile_done ..))

/-- Settles O23: MXW queues, and MXW_LOAD_START captures its block. -/
theorem weightBlocksAreLoaded : Obligations.WeightBlocksAreLoaded := by
  refine ⟨mxw_queues, fun n s o q sc hmq hq hmxw hstate hsrf hecc hcheck hsc => ?_⟩
  obtain ⟨t, hnext, honly, htile⟩ :=
    mxwLoadStart_loads n s o q sc hmq hq hmxw hstate (srfWaits_eq_false hsrf) hecc hcheck hsc
  have hwbuf : (t.tile n).wbuf =
      NMap.insert (s.tile n).wbuf o.buf (o.block (mxwTaken s n q) (Desc.ofWords o.dw) sc) :=
    (congrArg Tile.wbuf htile :)
  refine ⟨t, hnext, honly, ?_, fun k hk => ?_, o.block (mxwTaken s n q) (Desc.ofWords o.dw) sc, ?_,
    rfl, rfl, rfl, rfl, rfl, rfl, rfl, fun c k hc hk => ?_⟩
  · rw [hwbuf]; exact htile
  · rw [hwbuf, nmap_find_insert, if_neg hk]
  · rw [hwbuf, nmap_find_insert, if_pos rfl]
  · rw [code_block _ _ _ _ hc hk]
    exact if_congr Iff.rfl (elem_of_mem (mem_of_onlyTile (onlyTile_setTile ..)) ..) rfl

end Sys2Proof.Proofs
end

section
/-! PROOFS. Debug mode (spec/07_nolpa_programming.md R238 to R242; spec/09_datum_time.md R288;
spec/16_faults_ageing_service.md R443). -/
namespace Sys2Proof.Proofs

open Sys2Proof Sys2Proof.Machine Sys2Proof.Claims Sys2Proof.Laws

/-! ## Into DEBUG -/

theorem sameRegs_enterDebug (t : Tile) (r : Nat) : SameRegs t (t.enterDebug r) :=
  ⟨enterDebug_word t r, enterDebug_fld t r _ rfl (by decide), enterDebug_fld t r _ rfl (by decide),
    enterDebug_fld t r _ rfl (by decide)⟩

theorem debugs_enterDebug (t : Tile) {r : Nat} (hr : r < 4) : Debugs t (t.enterDebug r) r := by
  refine ⟨?_, sameRegs_enterDebug t r, enterDebug_state t r, (enterDebug_reason t r).trans (Nat.mod_eq_of_lt hr),
    enterDebug_halted t r, ?_⟩
  · obtain ⟨csr, w, h⟩ := enterDebug_frame t r
    rw [h]
  · unfold Tile.enterDebug
    simp only [Tile.setState, tile_setFld_wait]
    cases t.wait <;> rfl

theorem haltRequested_requestHalt (t : Tile) : HaltRequested t t.requestHalt := by
  unfold HaltRequested Tile.requestHalt
  by_cases hstate : t.state = tsIdle ∨ t.state = tsRunning
  · have hhalts : (decide (t.state = tsIdle) || decide (t.state = tsRunning)) = true := by simpa using hstate
    rw [if_pos hstate, if_pos hhalts]
    split
    · next pc r hwait =>
      have hhome : t.atBoundary = false := by rw [Tile.atBoundary, hwait]
      rw [hhome, if_neg Bool.false_ne_true]
    · next hwait =>
      have hboundary : t.atBoundary = true := by
        unfold Tile.atBoundary
        split
        · next h => exact (hwait _ _ h).elim
        · rfl
      rw [if_pos hboundary]
      exact debugs_enterDebug t (by decide)
  · have hnone : ¬ (decide (t.state = tsIdle) || decide (t.state = tsRunning)) = true := by simpa using hstate
    rw [if_neg hstate, if_neg hnone]

theorem haltTile_halts (s : State) (n : Nat) :
    s.OnlyTile n (s.haltTile n) ∧ HaltRequested (s.tile n) ((s.haltTile n).tile n) := by
  refine ⟨onlyTile_updTile .., ?_⟩
  rw [State.haltTile, tile_updTile_same]
  exact haltRequested_requestHalt _

theorem tcHaltRequest_halts (n : Nat) (s : State) (hn : n < 2048) :
    ∃ t, exec (.tcHaltRequest n) s = .next t ∧ s.OnlyTile n t ∧ HaltRequested (s.tile n) (t.tile n) := by
  rw [exec_tcHaltRequest, execTcHaltRequest, if_pos hn]
  exact ⟨_, rfl, haltTile_halts s n⟩

theorem breakpointHit_halts (n k : Nat) (s : State) (hstate : (s.tile n).state = tsRunning)
    (hwait : (s.tile n).wait = .none) (hhalt : (s.tile n).haltReq = false) (hpassed : (s.tile n).bpPassed = false)
    (hk : k < 4) (hen : (s.tile n).fld (Csr.tcDbgBp_en k) = 1)
    (hpc : (s.tile n).fld (Csr.tcDbgBp_pc k) / 8 * 8 = (s.tile n).pc) :
    ∃ t, exec (.breakpointHit n) s = .next t ∧ s.OnlyTile n t ∧ Debugs (s.tile n) (t.tile n) 2 := by
  have hany : ((List.range 4).any fun i => (s.tile n).fld (Csr.tcDbgBp_en i) == 1 &&
      (s.tile n).fld (Csr.tcDbgBp_pc i) / 8 * 8 == (s.tile n).pc) = true :=
    List.any_eq_true.mpr ⟨k, List.mem_range.mpr hk, by rw [Bool.and_eq_true, beq_iff_eq, beq_iff_eq]; exact ⟨hen, hpc⟩⟩
  have hmet : (decide ((s.tile n).state = tsRunning) && decide ((s.tile n).wait = .none) && !(s.tile n).haltReq &&
      (s.tile n).atBreakpoint) = true := by
    rw [Tile.atBreakpoint, hany, hpassed, hhalt, hstate, hwait]
    rfl
  rw [exec_breakpointHit, execBreakpointHit, if_pos hmet]
  refine ⟨_, rfl, onlyTile_setTile .., ?_⟩
  rw [tile_setTile_same]
  exact debugs_enterDebug _ (by decide)

/-! ## Out of DEBUG -/

/-- Tile `t` out of DEBUG, in a state, stepping or not (R241). -/
def leftDebug (t : Tile) (state : Nat) (step : Bool) : Tile :=
  ({ t with bpPassed := true, stepping := step }.setState state).setFld Csr.tcDbgSts_halted 0

theorem leaves_leftDebug (t : Tile) (state : Nat) (step : Bool) : Leaves t (leftDebug t state step) state step := by
  let x : Tile := { t with bpPassed := true, stepping := step }
  have hx (f : Fld) : x.fld f = t.fld f := fld_of_tileCsr rfl f
  have hstatus {g : Fld} (hoff : g.off = Csr.tcStatus) (hlo : 2 ≤ g.lo) : (leftDebug t state step).fld g = t.fld g :=
    (tfld_setFld_other _ _ _ _ (by decide) (.inl (by rw [hoff]; decide))).trans <|
      (tfld_setFld_other x Csr.tcStatus_state g _ (by decide) (.inr (.inr hlo))).trans (hx g)
  refine ⟨?_, ⟨fun o h1 h2 => ?_, hstatus rfl (by decide), hstatus rfl (by decide), hstatus rfl (by decide)⟩,
    ?_, ?_, ?_⟩
  · obtain ⟨csr, h⟩ := (csrOnly_setFld x Csr.tcStatus_state state).trans (csrOnly_setFld _ Csr.tcDbgSts_halted 0)
    have hleft : leftDebug t state step = { x with csr := csr } := h
    rw [hleft]
  · exact (twrd_setFld_other _ _ _ _ h2).trans ((twrd_setFld_other x _ _ _ h1).trans (word_of_tileCsr rfl o))
  · exact (tfld_setFld_other _ _ _ _ (by decide) (by decide)).trans
      (tfld_setFld_same x Csr.tcStatus_state _ (by decide))
  · exact tfld_setFld_same _ _ _ (by decide)
  · exact (tfld_setFld_other _ _ _ _ (by decide) (by decide)).trans <|
      (tfld_setFld_other x Csr.tcStatus_state _ _ (by decide) (by decide)).trans (hx _)

/-- A tile leaves DEBUG and takes the mode that changed meanwhile (R288). -/
theorem leavesDebug_applyLate (s : State) (n state : Nat) (step : Bool) :
    LeavesDebug s ((s.updTile n fun t => leftDebug t state step).applyLate n) n state step := by
  have hleft : (s.updTile n fun t => leftDebug t state step).tile n = leftDebug (s.tile n) state step :=
    tile_updTile_same ..
  have hlate : ((s.updTile n fun t => leftDebug t state step).tile n).modeLate = (s.tile n).modeLate := by
    rw [hleft, (leaves_leftDebug (s.tile n) state step).1]
  unfold State.applyLate LeavesDebug
  rw [hlate]
  by_cases hmode : (s.tile n).modeLate = true
  · refine ⟨(s.updTile n fun t => leftDebug t state step).updTile n fun t =>
      { t with mode := s.word Csr.dtmModeCur, modeLate := false },
      onlyTile_trans (onlyTile_updTile ..) (onlyTile_updTile ..), ?_⟩
    rw [if_pos hmode, if_pos hmode, tile_updTile_same, hleft]
    exact ⟨leaves_leftDebug { s.tile n with mode := s.word Csr.dtmModeCur, modeLate := false } state step, rfl⟩
  · refine ⟨s.updTile n fun t => leftDebug t state step, onlyTile_updTile .., ?_⟩
    rw [if_neg hmode, if_neg hmode, hleft]
    exact ⟨leaves_leftDebug .., rfl⟩

theorem resumeTile_debug {s : State} {n : Nat} (h : (s.tile n).state = tsDebug ∧ s.jobAborted (partOf n) = false) :
    s.resumeTile n =
      (s.updTile n fun t => leftDebug t (s.tile n).dbgFrom (s.tile n).stepping).applyLate n := by
  rw [State.resumeTile, if_pos h]
  rfl

theorem tcResume_leaves (n : Nat) (s : State) (hn : n < 2048) (hstate : (s.tile n).state = tsDebug) :
    ∃ t u, exec (.tcResume n) s = .next t ∧ t = u.launchDone (partOf n) ∧
      if s.jobAborted (partOf n) then u = s else LeavesDebug s u n (s.tile n).dbgFrom (s.tile n).stepping := by
  rw [exec_tcResume, execTcResume, if_pos hn]
  refine ⟨_, s.resumeTile n, rfl, rfl, ?_⟩
  split
  · next habort => rw [State.resumeTile, if_neg fun h => Bool.false_ne_true (h.2.symm.trans habort)]
  · next habort =>
    rw [resumeTile_debug ⟨hstate, Bool.not_eq_true _ ▸ habort⟩]
    exact leavesDebug_applyLate ..

theorem tcStep_leaves (n : Nat) (s : State) (hn : n < 2048) (hstate : (s.tile n).state = tsDebug) :
    ∃ t, exec (.tcStep n) s = .next t ∧ LeavesDebug s t n tsRunning true := by
  rw [exec_tcStep, execTcStep, if_pos hn, State.stepTile, if_pos hstate]
  exact ⟨_, rfl, leavesDebug_applyLate s n tsRunning true⟩

/-! ## The engines have stopped -/

theorem moverBusy_eq_false {s : State} {n : Nat} (hmov : ∀ f ∈ (s.tile n).inflight, f.eng = .move → f.blocked = false)
    (hring : ∀ f ∈ s.fetched, s.ringTile f.ring = some n → f.remote = false) : s.moverBusy n = false := by
  rw [State.moverBusy, Bool.or_eq_false_iff, List.any_eq_false, List.any_eq_false]
  refine ⟨fun f hf hbusy => ?_, fun f hf hbusy => ?_⟩
  · rw [Bool.and_eq_true, beq_iff_eq] at hbusy
    exact Bool.false_ne_true ((hmov f hf hbusy.1).symm.trans hbusy.2)
  · rw [Bool.and_eq_true, beq_iff_eq] at hbusy
    exact Bool.false_ne_true ((hring f hf hbusy.2).symm.trans hbusy.1)

theorem debugHaltComplete_halts (n : Nat) (s : State) (hstate : (s.tile n).state = tsDebug)
    (hhalted : (s.tile n).fld Csr.tcDbgSts_halted = 0)
    (hmov : ∀ f ∈ (s.tile n).inflight, f.eng = .move → f.blocked = false)
    (hring : ∀ f ∈ s.fetched, s.ringTile f.ring = some n → f.remote = false) :
    ∃ t u, exec (.debugHaltComplete n) s = .next t ∧ s.OnlyTile n u ∧
      u.tile n = { s.tile n with csr := (u.tile n).csr } ∧ SameRegs (s.tile n) (u.tile n) ∧
      (u.tile n).state = tsDebug ∧ (u.tile n).fld Csr.tcDbgSts_halted = 1 ∧
      (u.tile n).fld Csr.tcDbgSts_reason = (s.tile n).fld Csr.tcDbgSts_reason ∧
      t = u.raise (tileEvent n 0x0A46 sevInfo 0 0) := by
  have hready : (decide ((s.tile n).state = tsDebug) && !(s.tile n).halted && !s.moverBusy n) = true := by
    rw [moverBusy_eq_false hmov hring, Tile.halted, hhalted, hstate]
    rfl
  rw [exec_debugHaltComplete, execDebugHaltComplete, if_pos hready]
  refine ⟨_, s.setTile n ((s.tile n).setFld Csr.tcDbgSts_halted 1), rfl, onlyTile_setTile .., ?_⟩
  rw [tile_setTile_same]
  have hother {g : Fld} (hg : g.off ≠ Csr.tcDbgSts ∨ g.lo + g.w ≤ Csr.tcDbgSts_halted.lo ∨
      Csr.tcDbgSts_halted.lo + Csr.tcDbgSts_halted.w ≤ g.lo) :
      ((s.tile n).setFld Csr.tcDbgSts_halted 1).fld g = (s.tile n).fld g :=
    tfld_setFld_other _ _ _ _ (by decide) hg
  exact ⟨(csrOnly_setFld ..).eq, ⟨fun o _ h2 => twrd_setFld_other _ _ _ _ h2, hother (by decide), hother (by decide),
    hother (by decide)⟩, (hother (by decide)).trans hstate, tfld_setFld_same _ _ _ (by decide), hother (by decide), rfl⟩

/-! ## The tiles of a mask -/

theorem tileOf_eq (p i : Nat) : tileOf p i = 64 * p + i := by
  unfold tileOf
  omega

theorem partOf_tileOf {p i : Nat} (hi : i < 64) : partOf (tileOf p i) = p := by
  rw [tileOf_eq, partOf]
  omega

theorem named_tileOf {p i : Nat} (hi : i < 64) (mask : W64) : Named p mask (tileOf p i) = bit mask i := by
  have hdiv : tileOf p i / 64 = p := by rw [tileOf_eq]; omega
  have hmod : tileOf p i % 64 = i := by rw [tileOf_eq]; omega
  rw [Named, hdiv, hmod, beq_self_eq_true, Bool.true_and, bit]

theorem tilesOnly_trans {s u v : State} {n : Nat} (hu : u = { s with tiles := u.tiles }) (h : u.OnlyTile n v) :
    v = { s with tiles := v.tiles } := h.1.trans (by rw [hu])

/-- Block `u` is `s` after `g` has changed the tiles below `tileOf p k` that a mask of partition `p` names. -/
structure MaskedTo (s u : State) (p k : Nat) (mask : W64) (g : Tile → Tile) : Prop where
  frame : u = { s with tiles := u.tiles }
  tiles : ∀ n, u.tile n = if Named p mask n = true ∧ n < tileOf p k then g (s.tile n) else s.tile n

section
variable {s u v : State} {p k : Nat} {mask : W64} {g : Tile → Tile} (h : MaskedTo s u p k mask g) (hk : k < 64)
include h hk

theorem MaskedTo.change (hbit : bit mask k = true) (honly : u.OnlyTile (tileOf p k) v)
    (htile : v.tile (tileOf p k) = g (s.tile (tileOf p k))) : MaskedTo s v p (k + 1) mask g where
  frame := tilesOnly_trans h.frame honly
  tiles n := by
    have hsucc : tileOf p (k + 1) = tileOf p k + 1 := by rw [tileOf_eq, tileOf_eq]; rfl
    by_cases hn : n = tileOf p k
    · rw [hn, if_pos ⟨(named_tileOf hk mask).trans hbit, by omega⟩]
      exact htile
    · refine (honly.2 n hn).trans ((h.tiles n).trans (if_congr ?_ rfl rfl))
      exact and_congr_right fun _ => by omega

theorem MaskedTo.skip (hbit : bit mask k = false) : MaskedTo s u p (k + 1) mask g where
  frame := h.frame
  tiles n := by
    have hsucc : tileOf p (k + 1) = tileOf p k + 1 := by rw [tileOf_eq, tileOf_eq]; rfl
    refine (h.tiles n).trans (if_congr (and_congr_right fun hn => ⟨fun hlt => by omega, fun hlt => ?_⟩) rfl rfl)
    refine lt_of_le_of_ne (by omega) fun heq => ?_
    rw [heq, named_tileOf hk, hbit] at hn
    exact Bool.false_ne_true hn

end

/-- A change of each tile of a mask in turn, where a change of one does not see those of the others. -/
theorem forMask_tiles {s : State} {p : Nat} {mask : W64} {f : State → Nat → State} {g : Tile → Tile}
    (hf : ∀ (u : State) (i : Nat), i < 64 → bit mask i = true → u = { s with tiles := u.tiles } →
      u.tile (tileOf p i) = s.tile (tileOf p i) →
      u.OnlyTile (tileOf p i) (f u (tileOf p i)) ∧ (f u (tileOf p i)).tile (tileOf p i) = g (s.tile (tileOf p i))) :
    s.forMask p mask f = { s with tiles := (s.forMask p mask f).tiles } ∧
      ∀ n, (s.forMask p mask f).tile n = if Named p mask n then g (s.tile n) else s.tile n := by
  have upTo (k : Nat) (hk : k ≤ 64) :
      MaskedTo s (((List.range k).filter (fun i => bit mask i)).foldl (fun s i => f s (tileOf p i)) s) p k mask g := by
    induction k with
    | zero =>
      refine ⟨rfl, fun n => (if_neg fun ⟨hname, hlt⟩ => ?_).symm⟩
      rw [Named, Bool.and_eq_true, beq_iff_eq] at hname
      rw [tileOf_eq] at hlt
      omega
    | succ k ih =>
      have hto := ih (by omega)
      rw [List.range_succ, List.filter_append, List.foldl_append, List.filter_singleton]
      cases hbit : bit mask k with
      | true =>
        obtain ⟨honly, htile⟩ := hf _ k (by omega) hbit hto.frame
          ((hto.tiles _).trans (if_neg fun h => (Nat.lt_irrefl _ h.2).elim))
        exact hto.change (by omega) hbit honly htile
      | false => exact hto.skip (by omega) hbit
  refine ⟨(upTo 64 le_rfl).frame, fun n => ?_⟩
  refine ((upTo 64 le_rfl).tiles n).trans (if_congr (and_iff_left_of_imp fun hname => ?_) rfl rfl)
  rw [Named, Bool.and_eq_true, beq_iff_eq] at hname
  rw [tileOf_eq]
  omega

theorem dbgPhalt_halts (p : Nat) (mask : W64) (s : State) (hp : p < 32) :
    ∃ t, exec (.dbgPhalt p mask) s = .next t ∧ t = { s with tiles := t.tiles } ∧
      ∀ n, if Named p mask n then HaltRequested (s.tile n) (t.tile n) else t.tile n = s.tile n := by
  rw [exec_dbgPhalt, execDbgPhalt, if_pos hp]
  obtain ⟨hframe, htiles⟩ := forMask_tiles (s := s) (p := p) (mask := mask) (f := State.haltTile)
    (g := Tile.requestHalt) fun u i _ _ _ htile =>
      ⟨onlyTile_updTile .., (tile_updTile_same ..).trans (congrArg Tile.requestHalt htile)⟩
  refine ⟨_, rfl, hframe, fun n => ?_⟩
  rw [htiles]
  by_cases hn : Named p mask n = true
  · rw [if_pos hn, if_pos hn]
    exact haltRequested_requestHalt (s.tile n)
  · rw [if_neg hn, if_neg hn]

/-- A sequencer without a launch takes no note. -/
theorem launchDone_idle {s : State} {p : Nat} (h : ∀ q, s.seq? p = some q → q.launched = false) :
    s.launchDone p = s := by
  unfold State.launchDone
  split
  · next q hq => rw [h q hq, Bool.and_false, Bool.false_and, if_neg Bool.false_ne_true]
  · rfl

/-- What a resume leaves of a tile whose mode has not changed (R241, R443). -/
def resumedTile (aborted : Bool) (t : Tile) : Tile :=
  if t.state = tsDebug ∧ aborted = false then leftDebug t t.dbgFrom t.stepping else t

theorem resumeTile_tile {s : State} {n : Nat} (hlate : (s.tile n).modeLate = false) :
    s.OnlyTile n (s.resumeTile n) ∧
      (s.resumeTile n).tile n = resumedTile (s.jobAborted (partOf n)) (s.tile n) := by
  unfold resumedTile
  by_cases h : (s.tile n).state = tsDebug ∧ s.jobAborted (partOf n) = false
  · have hleft := tile_updTile_same s n fun t => leftDebug t (s.tile n).dbgFrom (s.tile n).stepping
    have hmode :
        ¬ ((s.updTile n fun t => leftDebug t (s.tile n).dbgFrom (s.tile n).stepping).tile n).modeLate = true := by
      rw [hleft, (leaves_leftDebug ..).1, hlate]
      exact Bool.false_ne_true
    rw [resumeTile_debug h, State.applyLate, if_neg hmode, if_pos h]
    exact ⟨onlyTile_updTile .., hleft⟩
  · rw [State.resumeTile, if_neg h, if_neg h]
    exact ⟨onlyTile_refl .., rfl⟩

theorem dbgPresume_leaves (p : Nat) (mask : W64) (s : State) (hp : p < 32)
    (hlate : ∀ n, Named p mask n = true → (s.tile n).modeLate = false)
    (hseq : ∀ q, s.seq? p = some q → q.launched = false) :
    ∃ t, exec (.dbgPresume p mask) s = .next t ∧ t = { s with tiles := t.tiles } ∧
      ∀ n, if Named p mask n ∧ (s.tile n).state = tsDebug ∧ s.jobAborted p = false then
          Leaves (s.tile n) (t.tile n) (s.tile n).dbgFrom (s.tile n).stepping
        else t.tile n = s.tile n := by
  rw [exec_dbgPresume, execDbgPresume, if_pos hp]
  obtain ⟨hframe, htiles⟩ := forMask_tiles (s := s) (p := p) (mask := mask) (f := State.resumed)
    (g := resumedTile (s.jobAborted p)) fun u i hi hbit hu htile => by
      obtain ⟨honly, hresumed⟩ := resumeTile_tile (s := u) (n := tileOf p i)
        (by rw [htile]; exact hlate _ ((named_tileOf hi mask).trans hbit))
      have hlaunch : (u.resumeTile (tileOf p i)).launchDone p = u.resumeTile (tileOf p i) := by
        refine launchDone_idle fun q hq => hseq q ?_
        rw [honly.1, hu] at hq
        exact hq
      have habort : u.jobAborted p = s.jobAborted p := by rw [hu]; rfl
      rw [State.resumed, partOf_tileOf hi, hlaunch]
      rw [partOf_tileOf hi, habort, htile] at hresumed
      exact ⟨honly, hresumed⟩
  refine ⟨_, rfl, hframe, fun n => ?_⟩
  rw [htiles]
  by_cases hn : Named p mask n = true
  · rw [if_pos hn, resumedTile]
    by_cases hdebug : (s.tile n).state = tsDebug ∧ s.jobAborted p = false
    · rw [if_pos hdebug, if_pos ⟨hn, hdebug⟩]
      exact leaves_leftDebug ..
    · rw [if_neg hdebug, if_neg fun h => hdebug h.2]
  · rw [if_neg hn, if_neg fun h => hn h.1]

/-- Settles O31: tiles stop in DEBUG, step and resume. -/
theorem tilesHaltAndResume : Obligations.TilesHaltAndResume :=
  ⟨tcHaltRequest_halts, breakpointHit_halts,
    fun n s hn hstate => ⟨tcResume_leaves n s hn hstate, tcStep_leaves n s hn hstate⟩, debugHaltComplete_halts,
    dbgPhalt_halts, dbgPresume_leaves⟩

end Sys2Proof.Proofs
end

section
/-! PROOFS. The end of a program (spec/02_products_and_sums.md R71; spec/07_nolpa_programming.md R231, R232). -/
namespace Sys2Proof.Proofs

open Sys2Proof Sys2Proof.Machine Sys2Proof.Claims Sys2Proof.Laws

/-! ## Chains discarded -/

/-- A cell of the chain in a slot of tile `n`. -/
def CellOf (s : State) (n slot x : Nat) : Prop :=
  ∃ c, NMap.find? (s.tile n).chains slot = some c ∧
    ∃ r ∈ c.cells, sramBase n + r.1 ≤ x ∧ x < sramBase n + r.1 + (r.2 - r.1)

theorem cellOf_of_chains {s t : State} {n slot : Nat}
    (h : NMap.find? (t.tile n).chains slot = NMap.find? (s.tile n).chains slot) (x : Nat) :
    CellOf t n slot x ↔ CellOf s n slot x := by rw [CellOf, CellOf, h]

/-- Block `u` is `s` after the chains of the slots below `k` have been discarded. -/
structure DiscardedTo (s u : State) (n k : Nat) : Prop where
  frame : u = { s with mem := u.mem, ueWords := u.ueWords, tiles := u.tiles }
  others : ∀ m, m ≠ n → u.tile m = s.tile m
  tile : u.tile n = { s.tile n with chains := (u.tile n).chains }
  slots : ∀ slot, NMap.find? (u.tile n).chains slot = if slot < k then none else NMap.find? (s.tile n).chains slot
  zero : ∀ x, (∃ slot < k, CellOf s n slot x) → u.byte x = 0
  same : ∀ x, ¬ (∃ slot < k, CellOf s n slot x) → u.byte x = s.byte x

theorem frame_foldl_zeroMem (base : Nat) (l : List (Nat × Nat)) (s : State) :
    MemOnly s (l.foldl (fun s r => s.zeroMem (base + r.1) (r.2 - r.1)) s) :=
  List.foldlRecOn (motive := MemOnly s) _ _ rfl fun _ h _ _ => h.trans rfl

theorem frame_releaseChain (s : State) (n slot : Nat) :
    s.releaseChain n slot = { s with
      mem := (s.releaseChain n slot).mem, ueWords := (s.releaseChain n slot).ueWords
      tiles := (s.releaseChain n slot).tiles } := by
  unfold State.releaseChain
  split
  · rfl
  · next c _ =>
    have hmem := frame_foldl_zeroMem (sramBase n) c.cells s
    generalize c.cells.foldl (fun s r => s.zeroMem (sramBase n + r.1) (r.2 - r.1)) s = u at hmem
    rw [MemOnly] at hmem
    rw [State.updTile, State.setTile, hmem]

theorem cells_any_iff (s : State) {n slot : Nat} {c : Chain} (hc : NMap.find? (s.tile n).chains slot = some c)
    (x : Nat) : c.cells.any (fun r => decide (sramBase n + r.1 ≤ x) && decide (x < sramBase n + r.2)) = true ↔
      CellOf s n slot x := by
  rw [List.any_eq_true]
  constructor
  · rintro ⟨r, hr, hx⟩
    rw [Bool.and_eq_true, decide_eq_true_iff, decide_eq_true_iff] at hx
    exact ⟨c, hc, r, hr, hx.1, by omega⟩
  · rintro ⟨c', hc', r, hr, h1, h2⟩
    obtain rfl : c = c' := Option.some.inj (hc.symm.trans hc')
    have hle := cells_ordered c r hr
    refine ⟨r, hr, ?_⟩
    rw [Bool.and_eq_true, decide_eq_true_iff, decide_eq_true_iff]
    omega

/-- The release of one slot (R71), be there a chain in it or not. -/
theorem releaseChain_slot (s : State) (n slot : Nat) :
    let u := s.releaseChain n slot
    (∀ m, m ≠ n → u.tile m = s.tile m) ∧ u.tile n = { s.tile n with chains := (u.tile n).chains } ∧
    (∀ k, NMap.find? (u.tile n).chains k = if k = slot then none else NMap.find? (s.tile n).chains k) ∧
    (∀ x, CellOf s n slot x → u.byte x = 0) ∧ ∀ x, ¬ CellOf s n slot x → u.byte x = s.byte x := by
  cases hc : NMap.find? (s.tile n).chains slot with
  | none =>
    have hsame : s.releaseChain n slot = s := dropChain_none hc
    rw [hsame]
    refine ⟨fun _ _ => rfl, rfl, fun k => ?_, fun x ⟨c, hsome, _⟩ => ?_, fun _ _ => rfl⟩
    · split
      · next hk => rw [hk, hc]
      · rfl
    · rw [hc] at hsome
      cases hsome
  | some c =>
    obtain ⟨htile, hothers, hbyte⟩ := releaseChain_facts hc
    refine ⟨hothers, by rw [htile], fun k => ?_, fun x hx => ?_, fun x hx => ?_⟩
    · rw [htile]
      exact nmap_find_erase ..
    · rw [hbyte, if_pos ((cells_any_iff s hc x).mpr hx)]
    · rw [hbyte, if_neg (mt (cells_any_iff s hc x).mp hx)]

theorem memTiles_trans {s u v : State} (hu : u = { s with mem := u.mem, ueWords := u.ueWords, tiles := u.tiles })
    (hv : v = { u with mem := v.mem, ueWords := v.ueWords, tiles := v.tiles }) :
    v = { s with mem := v.mem, ueWords := v.ueWords, tiles := v.tiles } := hv.trans (by rw [hu])

theorem DiscardedTo.next {s u : State} {n k : Nat} (h : DiscardedTo s u n k) :
    DiscardedTo s (u.releaseChain n k) n (k + 1) := by
  obtain ⟨hothers, htile, hslots, hzero, hsame⟩ := releaseChain_slot u n k
  have hcell (x : Nat) : CellOf u n k x ↔ CellOf s n k x :=
    cellOf_of_chains ((h.slots k).trans (if_neg (Nat.lt_irrefl k))) x
  have hsucc (x : Nat) : (∃ slot < k + 1, CellOf s n slot x) ↔ (∃ slot < k, CellOf s n slot x) ∨ CellOf s n k x := by
    simp only [Nat.lt_succ_iff_lt_or_eq, or_and_right, exists_or, exists_eq_left]
  constructor
  case frame => exact memTiles_trans h.frame (frame_releaseChain u n k)
  case others => exact fun m hm => (hothers m hm).trans (h.others m hm)
  case tile =>
    refine htile.trans ?_
    conv_lhs => rw [h.tile]
  case slots =>
    intro slot
    rw [hslots, h.slots]
    split
    · next hk => rw [if_pos (by omega)]
    · exact if_congr (by omega) rfl rfl
  case zero =>
    intro x hx
    by_cases hlast : CellOf u n k x
    · exact hzero x hlast
    · exact (hsame x hlast).trans (h.zero x (((hsucc x).mp hx).resolve_right (mt (hcell x).mpr hlast)))
  case same =>
    intro x hx
    rw [hsucc, not_or] at hx
    exact (hsame x (mt (hcell x).mp hx.2)).trans (h.same x hx.1)

theorem discarded_discardChains (s : State) (n : Nat) : Discarded s (s.discardChains n) n := by
  have hto (k : Nat) : DiscardedTo s ((List.range k).foldl (fun s slot => s.releaseChain n slot) s) n k := by
    induction k with
    | zero =>
      exact ⟨rfl, fun _ _ => rfl, rfl, fun _ => rfl, fun x ⟨_, h, _⟩ => absurd h (Nat.not_lt_zero _), fun _ _ => rfl⟩
    | succ k ih =>
      rw [List.range_succ, List.foldl_concat]
      exact ih.next
  exact ⟨(hto 8).frame, (hto 8).others, (hto 8).tile, (hto 8).slots, fun x => ⟨(hto 8).zero x, (hto 8).same x⟩⟩

/-! ## HALT_COMPLETE -/

theorem drained_ready {s : State} {n : Nat} (hstate : (s.tile n).state = tsRunning) (hdone : (s.tile n).inflight = []) :
    (decide ((s.tile n).state = tsRunning) && (s.tile n).inflight.isEmpty) = true := by
  rw [hstate, hdone]
  rfl

/-- A tile that has become IDLE. -/
def rested (t : Tile) : Tile := ({ t with wait := .none } : Tile).setState tsIdle

theorem rested_frame (t : Tile) : rested t = { t with csr := (rested t).csr, wait := .none } := by
  obtain ⟨csr, h⟩ := csrOnly_setFld { t with wait := .none } Csr.tcStatus_state tsIdle
  have hrested : rested t = { t with csr := csr, wait := .none } := h
  rw [hrested]

theorem rested_state (t : Tile) : (rested t).state = tsIdle := tfld_setFld_same _ Csr.tcStatus_state _ (by decide)

theorem rested_word (t : Tile) {o : Nat} (ho : o ≠ Csr.tcStatus) : (rested t).word o = t.word o :=
  (twrd_setFld_other _ _ _ _ ho).trans (word_of_tileCsr rfl o)

theorem rested_fld (t : Tile) {g : Fld} (hlo : 2 ≤ g.lo) : (rested t).fld g = t.fld g :=
  (tfld_setFld_other _ Csr.tcStatus_state g _ (by decide) (.inr (.inr hlo))).trans (fld_of_tileCsr rfl g)

theorem sameRegs_rested (t : Tile) : SameRegs t (rested t) :=
  ⟨fun _ h _ => rested_word t h, rested_fld t (by decide), rested_fld t (by decide), rested_fld t (by decide)⟩

/-- A step ends, or a halt request that waited is taken, as a program ends (R238, R241). -/
theorem boundary_rested (t : Tile) :
    if (rested t).stepping then Debugs (rested t) (rested t).boundary 3
    else if (rested t).haltReq then Debugs (rested t) (rested t).boundary 0 else (rested t).boundary = rested t := by
  have hwait : (rested t).wait = .none := (congrArg Tile.wait (rested_frame t) :)
  have hends : ((decide ((rested t).state = tsRunning) || decide ((rested t).state = tsIdle)) &&
      (rested t).atBoundary) = true := by
    rw [Tile.atBoundary, hwait, rested_state]
    rfl
  rw [Tile.boundary, if_pos hends]
  split
  · exact debugs_enterDebug _ (by decide)
  · split
    · exact debugs_enterDebug _ (by decide)
    · rfl

theorem haltComplete_rests (n code : Nat) (report : Bool) (s : State) (hwait : (s.tile n).wait = .halt code report)
    (hstate : (s.tile n).state = tsRunning) (hdone : (s.tile n).inflight = []) :
    ∃ t u v w, exec (.haltComplete n) s = .next t ∧ Discarded s u n ∧
      v = (if report then u.raise (tileEvent n 0x0A47 sevInfo 0 (BitVec.ofNat 64 code)) else u) ∧ v.OnlyTile n w ∧
      (∃ b : Tile, b = { u.tile n with csr := b.csr, wait := .none } ∧ SameRegs (u.tile n) b ∧ b.state = tsIdle ∧
        b.word Csr.tcDbgSts = (s.tile n).word Csr.tcDbgSts ∧
        if b.stepping then Debugs b (w.tile n) 3 else if b.haltReq then Debugs b (w.tile n) 0 else w.tile n = b) ∧
      t = w.launchDone (partOf n) := by
  have hexec : exec (.haltComplete n) s = .next (((if report then
      (s.discardChains n).raise (tileEvent n 0x0A47 sevInfo 0 (BitVec.ofNat 64 code)) else s.discardChains n).updTile n
        fun t => (rested t).boundary).launchDone (partOf n)) := by
    rw [exec_haltComplete, execHaltComplete, hwait]
    dsimp only
    rw [if_pos (drained_ready hstate hdone)]
    rfl
  have hdiscard := discarded_discardChains s n
  generalize s.discardChains n = u at hexec hdiscard
  have hcsr : (u.tile n).csr = (s.tile n).csr := (congrArg Tile.csr hdiscard.2.2.1 :)
  have hreport : (if report then u.raise (tileEvent n 0x0A47 sevInfo 0 (BitVec.ofNat 64 code)) else u).tile n =
      u.tile n := by
    split
    · exact raise_tile ..
    · rfl
  refine ⟨_, u, _, _, hexec, hdiscard, rfl, onlyTile_updTile .., ?_, rfl⟩
  rw [tile_updTile_same, hreport]
  exact ⟨rested (u.tile n), rested_frame _, sameRegs_rested _, rested_state _,
    (rested_word _ (by decide)).trans (word_of_tileCsr hcsr _), boundary_rested (u.tile n)⟩

/-! ## DOUBLE_FAULT_IDLE -/

theorem doubleFaultIdle_rests (n : Nat) (s : State) (hwait : (s.tile n).wait = .dfault)
    (hstate : (s.tile n).state = tsRunning) (hdone : (s.tile n).inflight = []) :
    ∃ t u w, exec (.doubleFaultIdle n) s = .next t ∧ Discarded s u n ∧ u.OnlyTile n w ∧
      w.tile n = { u.tile n with csr := (w.tile n).csr, wait := .none } ∧
      (∀ o, o ≠ Csr.tcStatus → (w.tile n).word o = (s.tile n).word o) ∧ (w.tile n).state = tsIdle ∧
      (w.tile n).fld Csr.tcStatus_dfault = 1 ∧ (w.tile n).fld Csr.tcStatus_priv = (s.tile n).fld Csr.tcStatus_priv ∧
      t = (w.seqFault n).raiseAbort (tileEvent n 0x0A45 sevAbort 0
        (BitVec.ofNat 64 ((s.tile n).fld Csr.tcCause_code + (s.tile n).fld Csr.tcEpc_epc * 2 ^ 16))) := by
  let u := s.discardChains n
  have hdiscard : Discarded s u n := discarded_discardChains s n
  have hcsr : (u.tile n).csr = (s.tile n).csr := (congrArg Tile.csr hdiscard.2.2.1 :)
  have hexec : exec (.doubleFaultIdle n) s =
      .next (((u.updTile n fun t => (rested t).setFld Csr.tcStatus_dfault 1).seqFault n).raiseAbort
        (tileEvent n 0x0A45 sevAbort 0
          (BitVec.ofNat 64 ((s.tile n).fld Csr.tcCause_code + (s.tile n).fld Csr.tcEpc_epc * 2 ^ 16)))) := by
    rw [exec_doubleFaultIdle, execDoubleFaultIdle, hwait]
    dsimp only
    rw [if_pos (drained_ready hstate hdone)]
    rfl
  refine ⟨_, u, u.updTile n fun t => (rested t).setFld Csr.tcStatus_dfault 1, hexec, hdiscard, onlyTile_updTile .., ?_⟩
  rw [tile_updTile_same]
  refine ⟨?_, fun o ho => ?_, ?_, tfld_setFld_same _ _ _ (by decide), ?_, rfl⟩
  · obtain ⟨csr, h⟩ := csrOnly_setFld (rested (u.tile n)) Csr.tcStatus_dfault 1
    rw [h, rested_frame]
  · exact (twrd_setFld_other _ _ _ _ ho).trans ((rested_word _ ho).trans (word_of_tileCsr hcsr o))
  · exact (tfld_setFld_other _ _ _ _ (by decide) (by decide)).trans (rested_state _)
  · exact (tfld_setFld_other _ _ _ _ (by decide) (by decide)).trans
      ((rested_fld _ (by decide)).trans (fld_of_tileCsr hcsr _))

/-- Settles O32: HALT and a double fault bring a tile to IDLE. -/
theorem tilesComeToRest : Obligations.TilesComeToRest := ⟨haltComplete_rests, doubleFaultIdle_rests⟩

end Sys2Proof.Proofs
end

section
/-! PROOFS. A T-class instruction that its checks fault (spec/07_nolpa_programming.md R225, R226;
spec/08_nolpa_tensor_reference.md R249; spec/06_memory_and_ordering.md R199). -/
namespace Sys2Proof.Proofs

open Sys2Proof Sys2Proof.Machine Sys2Proof.Claims Sys2Proof.Laws

/-! ## The code of a fault -/

theorem firstFault_mem {l : List (Bool × Nat)} {code : Nat} (h : firstFault l = some code) :
    code ∈ l.map fun p => p.2 := by
  obtain ⟨p, hp, rfl⟩ := Option.map_eq_some_iff.mp h
  exact List.mem_map_of_mem (List.mem_of_find?_eq_some hp)

/-- MEM_UE is found by error detection and never by the checks of R249, so their event has severity FAULT. -/
theorem checkOpnds_ne_memUe {s : State} {n : Nat} {dsts srcs : List Opnd} {fmtExtra shape chain al : Bool} {code : Nat}
    {ins outs : List (Nat × Nat)} {e : Option Nat}
    (h : s.checkOpnds n dsts srcs fmtExtra shape eVeShape chain ins outs e al = some code) : code ≠ cMemUe := by
  rintro rfl
  have hmem : cMemUe ∈ [eDescField, eFmtUse, cAddrUnmapped, cAddrAlign, eFmtAlign, eVeShape, eAccChain, eAccSpill] :=
    firstFault_mem h
  exact absurd hmem (by decide)

theorem faultEvent_code_sev (s : State) (n tok : Nat) {code : Nat} (d1 : W64) (h : code ≠ cMemUe) :
    ((s.faultEvent n tok code d1).code, (s.faultEvent n tok code d1).sev) = (code, 2) := by
  unfold State.faultEvent tileEvent
  rw [if_neg h]
  split <;> rfl

/-! ## The fault -/

/-- The instruction has issued and is done with a fault's code and one event of severity FAULT, which wait for its
completion; memory and the registers of its tile stay but for its token, the pc and INSTRET (R225, R226). -/
def FaultedAtCheck (s t : State) (i : Issue) (code : Nat) : Prop :=
  let n := i.tile
  let a := s.tile n
  ∃ f, s.OnlyTile n t ∧ f ∈ (t.tile n).inflight ∧ f.seq = a.seq ∧ f.tok = fA i.word ∧
    f.done = true ∧ f.fault = code ∧ f.evs.map (fun v => (v.code, v.sev)) = [(code, 2)] ∧
    (t.tile n).sreg = a.sreg ∧ (t.tile n).dreg = a.dreg ∧ (t.tile n).pc = nextPc a i.word ∧
    (∀ k, (t.tile n).k k = if k = fA i.word ∧ k ≠ 0 then 1 else a.k k) ∧
    ∀ o, o ∉ [Csr.tcInstret, Csr.tcStatus, Csr.tcDbgSts] → (t.tile n).word o = a.word o

theorem faultedAtCheck_failT {i : Issue} {s u : State} (hent : Entered i s u) {code : Nat} (hcode : code ≠ cMemUe) :
    FaultedAtCheck s (u.failT i.tile (s.tile i.tile).seq (fA i.word) code) i code := by
  let ev := u.faultEvent i.tile (fA i.word) code 0
  have htile : (u.failT i.tile (s.tile i.tile).seq (fA i.word) code).tile i.tile = { u.tile i.tile with
      inflight := (u.tile i.tile).inflight.map fun x => if x.seq = (s.tile i.tile).seq then
        { x with done := true, fault := code, flags := {}, ctr := none, evs := x.evs ++ [ev] } else x } :=
    tile_updTile_same ..
  have hflight : (u.tile i.tile).inflight =
      (s.tile i.tile).inflight ++ [s.newFlight i.tile (s.tile i.tile).seq i.word] := by rw [hent.tile]
  refine ⟨{ s.newFlight i.tile (s.tile i.tile).seq i.word with done := true, fault := code, evs := [ev] },
    onlyTile_trans hent.only (onlyTile_updFlight ..), ?_, rfl, rfl, rfl, rfl,
    congrArg (· :: []) (faultEvent_code_sev u i.tile _ 0 hcode), ?_, ?_, ?_, fun k => ?_, fun o ho => ?_⟩
  · rw [htile, hflight]
    exact List.mem_map.mpr ⟨_, List.mem_append_right _ List.mem_cons_self, if_pos rfl⟩
  · rw [htile, hent.tile]
  · rw [htile, hent.tile]
  · rw [htile, hent.tile]
  · rw [← hent.token k, htile]; rfl
  · rw [← hent.words o ho, htile]; rfl

/-- An instruction that starts at once and that its checks fault there. -/
theorem issueQ_faults {i : Issue} {s : State} {code : Nat} (hstarts : Starts s i) {isRow : W64 → Bool}
    (hrow : isRow i.word = true) {run : State → Nat → TOp → State} (hcode : code ≠ cMemUe)
    (hrun : ∀ u, Entered i s u →
      run u i.tile (s.top i.tile i) = u.failT i.tile (s.tile i.tile).seq (fA i.word) code) :
    ∃ t, issueQ i isRow run s = .next t ∧ FaultedAtCheck s t i code := by
  obtain ⟨u, hent, hnext⟩ := issueE_starts hstarts hrow (fun s _ _ => s) run
  rw [hrun u hent] at hnext
  exact ⟨_, hnext, faultedAtCheck_failT hent hcode⟩

/-! ## VOP, RED, HAD and FNT -/

theorem runVec_fails (s : State) (n : Nat) (o : TOp) (d : Desc) (code : Nat) (stoch : Bool)
    (rs : W64 → State → List (Except Nat ElemRes)) (late : Option Nat) :
    s.runVec n o d (some code) stoch rs late = s.failT n o.seq (fA o.issue.word) code := rfl

/-- A row of Table 8.4 that writes elements: its command issues a VOP with its function. -/
def WritesElems (con : Issue → Instr) (fn : Nat) : Prop :=
  (∀ i s, exec (con i) s = issueVop fn i s) ∧ vopMask fn = false

theorem ieeeRows_writeElems : ∀ e ∈ ieeeRows, WritesElems e.1 e.2.1 := by
  simp only [ieeeRows, List.forall_mem_cons]
  refine ⟨?_, ?_, ?_, ?_, ?_, ?_, ?_, ?_, nofun⟩ <;> exact ⟨fun _ _ => rfl, rfl⟩

theorem logRows_writeElems : ∀ e ∈ logRows, WritesElems e.1 e.2.1 := by
  simp only [logRows, List.forall_mem_cons]
  refine ⟨?_, ?_, ?_, ?_, ?_, nofun⟩ <;> exact ⟨fun _ _ => rfl, rfl⟩

theorem wordRows_writeElems : ∀ e ∈ wordRows, WritesElems e.1 e.2.1 := by
  simp only [wordRows, List.forall_mem_cons]
  refine ⟨?_, ?_, ?_, ?_, ?_, ?_, ?_, ?_, ?_, ?_, ?_, nofun⟩ <;> exact ⟨fun _ _ => rfl, rfl⟩

section
variable {i : Issue} {s : State} {code : Nat} (hstarts : Starts s i)
include hstarts

theorem vop_faults {con : Issue → Instr} {fn : Nat} (hcon : WritesElems con fn) (hop : fOp i.word = 0x88)
    (hfn : bits i.word 0 8 = fn) (hcheck : (vopOf s i).check s i.tile = some code) :
    ∃ t, exec (con i) s = .next t ∧ FaultedAtCheck s t i code := by
  rw [hcon.1]
  refine issueQ_faults hstarts (by simp [hop, hfn]) (checkOpnds_ne_memUe hcheck) fun u hent => ?_
  have hcheck' : (vopOf s i).check u i.tile = some code :=
    (checkOpnds_of_chains hent.only hent.chains ..).trans hcheck
  have hargs : VopArgs.ofWord ((s.top i.tile i).core (u.tile i.tile)) i.word = vopOf s i := rfl
  have hmask : vopMask (vopOf s i).fn = false := (congrArg vopMask hfn).trans hcon.2
  simp only [State.startVop, top_issue, hargs, hmask, hcheck', Bool.false_eq_true, if_false, runVec_fails, top_seq]

theorem red_faults {op : Nat} (hop : fOp i.word = 0x90) (hred : bits i.word 0 4 = op) (hne : op ≠ 7)
    (hcheck : (redOf s i).check s i.tile = some code) :
    ∃ t, issueRed op i s = .next t ∧ FaultedAtCheck s t i code := by
  refine issueQ_faults hstarts (by simp [hop, hred]) (checkOpnds_ne_memUe hcheck) fun u hent => ?_
  have hcheck' : (redOf s i).check u i.tile = some code :=
    (checkOpnds_of_chains hent.only hent.chains ..).trans hcheck
  have hargs : RedArgs.ofWord ((s.top i.tile i).core (u.tile i.tile)) i.word = redOf s i := rfl
  have hop7 : (redOf s i).op ≠ 7 := fun h => hne (hred ▸ h)
  simp only [State.startRed, State.redSoftmax, top_issue, top_seq, hargs, hcheck', hop7, if_false, ite_self]

theorem had_faults (hop : fOp i.word = 0x94)
    (hcheck : (HadArgs.ofWord (s.tile i.tile) i.word).check s i.tile = some code) :
    ∃ t, exec (.had i) s = .next t ∧ FaultedAtCheck s t i code := by
  refine issueQ_faults hstarts (by simp [hop]) (checkOpnds_ne_memUe hcheck) fun u hent => ?_
  have hcheck' : (HadArgs.ofWord ((s.top i.tile i).core (u.tile i.tile)) i.word).check u i.tile = some code :=
    (checkOpnds_of_chains hent.only hent.chains ..).trans hcheck
  simp only [State.startHad, top_issue, top_seq, hcheck']

theorem fntF_faults (hop : fOp i.word = 0x8C) (hfused : bit i.word 10 = true)
    (hcheck : (FntArgs.ofWord (s.tile i.tile) i.word).check s i.tile = some code) :
    ∃ t, exec (.fntF i) s = .next t ∧ FaultedAtCheck s t i code := by
  have hbit : bits i.word 10 1 = 1 := (bits_one_iff ..).mpr hfused
  refine issueQ_faults hstarts (by simp [hop, hbit]) (checkOpnds_ne_memUe hcheck) fun u hent => ?_
  have hcheck' : (FntArgs.ofWord ((s.top i.tile i).core (u.tile i.tile)) i.word).check u i.tile = some code :=
    (checkOpnds_of_chains hent.only hent.chains ..).trans hcheck
  simp only [State.startFnt, top_issue, top_seq, hcheck', runVec_fails]

end

/-- Settles O29: whatever the instruction, its checks come before it reads or writes an element. -/
theorem checkedFaultsWriteNothing : Obligations.CheckedFaultsWriteNothing := by
  intro i s code hstarts n a con hcase
  suffices h : ∃ t, exec (con i) s = .next t ∧ FaultedAtCheck s t i code by
    obtain ⟨t, hnext, f, h⟩ := h
    exact ⟨t, f, hnext, h⟩
  rcases hcase with ⟨e, he, rfl, hop, hfn, hcheck⟩ | ⟨e, he, rfl, hop, hfn, hcheck⟩ |
    ⟨e, he, rfl, hop, hfn, hcheck⟩ | ⟨rfl, hop, hred, hcheck⟩ | ⟨rfl, hop, hred, hcheck⟩ |
    ⟨rfl, hop, hred, hcheck⟩ | ⟨rfl, hop, hcheck⟩ | ⟨rfl, hop, hfused, hcheck⟩
  · exact vop_faults hstarts (ieeeRows_writeElems e he) hop hfn hcheck
  · exact vop_faults hstarts (logRows_writeElems e he) hop hfn hcheck
  · exact vop_faults hstarts (wordRows_writeElems e he) hop hfn hcheck
  · exact red_faults hstarts hop hred (by decide) hcheck
  · exact red_faults hstarts hop hred (by decide) hcheck
  · exact red_faults hstarts hop hred (by decide) hcheck
  · exact had_faults hstarts hop hcheck
  · exact fntF_faults hstarts hop hfused hcheck

end Sys2Proof.Proofs
end

section
/-! PROOFS. The entries of a group's collectives, its instances (spec/10_links_and_collectives.md R313, R320): what is found of a
collective after its entry has been changed, and what is left when its last contribution has been served. -/
namespace Sys2Proof.Proofs

open Sys2Proof Sys2Proof.Machine Sys2Proof.Claims Sys2Proof.Laws

/-- The entry of a collective of which nothing is known yet. -/
def newInst (g i : Nat) : Inst := ⟨g, i, none, 0, false, none, none, false, 0, []⟩

/-- An entry is that of collective `i` of group `g`. -/
def isInst (g i : Nat) (x : Inst) : Bool := x.group == g && x.idx == i

theorem isInst_iff {g i : Nat} {x : Inst} : isInst g i x = true ↔ x.group = g ∧ x.idx = i := by simp [isInst]

theorem inst?_eq_find? (s : State) (g i : Nat) : s.inst? g i = s.insts.find? (isInst g i) := rfl

/-- The entry of collective `i` of group `g` changed, and every other as it was. -/
def atInst (g i : Nat) (f : Inst → Inst) (x : Inst) : Inst := if x.group = g ∧ x.idx = i then f x else x

theorem atInst_of_isInst {g i : Nat} {f : Inst → Inst} {x : Inst} (h : isInst g i x = true) : atInst g i f x = f x :=
  if_pos (isInst_iff.mp h)

theorem atInst_of_not_isInst {g i : Nat} {f : Inst → Inst} {x : Inst} (h : isInst g i x = false) : atInst g i f x = x :=
  if_neg fun hc => Bool.eq_false_iff.mp h (isInst_iff.mpr hc)

theorem updInst_some {s : State} {g i : Nat} {x : Inst} (h : s.inst? g i = some x) (f : Inst → Inst) :
    s.updInst g i f = { s with insts := s.insts.map (atInst g i f) } := by
  unfold State.updInst
  rw [h]
  rfl

theorem updInst_none {s : State} {g i : Nat} (h : s.inst? g i = none) (f : Inst → Inst) :
    s.updInst g i f = { s with insts := s.insts ++ [f (newInst g i)] } := by
  unfold State.updInst
  rw [h]
  rfl

theorem updInst_frame (s : State) (g i : Nat) (f : Inst → Inst) :
    s.updInst g i f = { s with insts := (s.updInst g i f).insts } := by
  cases h : s.inst? g i with
  | some x => rw [updInst_some h]
  | none => rw [updInst_none h]

theorem insts_updInst_congr {s t : State} (h : t.insts = s.insts) (g i : Nat) (f : Inst → Inst) :
    (t.updInst g i f).insts = (s.updInst g i f).insts := by
  have hinst : t.inst? g i = s.inst? g i := by rw [inst?_eq_find?, inst?_eq_find?, h]
  cases hs : s.inst? g i with
  | some x => rw [updInst_some hs, updInst_some (hinst.trans hs), h]
  | none => rw [updInst_none hs, updInst_none (hinst.trans hs), h]

section
variable {g i : Nat} {f : Inst → Inst} (hf : ∀ x, (f x).group = x.group ∧ (f x).idx = x.idx)
include hf

theorem isInst_atInst (g' i' : Nat) (x : Inst) : isInst g' i' (atInst g i f x) = isInst g' i' x := by
  unfold atInst
  split
  · rw [isInst, (hf x).1, (hf x).2]; rfl
  · rfl

/-- A change that leaves group and number alone shows in the entry of its own collective and in no other. -/
theorem inst?_updInst (s : State) (g' i' : Nat) : (s.updInst g i f).inst? g' i' =
    if g' = g ∧ i' = i then some (f ((s.inst? g i).getD (newInst g i))) else s.inst? g' i' := by
  cases hx : s.inst? g i with
  | some x =>
    have hfind : (s.insts.map (atInst g i f)).find? (isInst g' i') = (s.inst? g' i').map (atInst g i f) := by
      rw [List.find?_map, inst?_eq_find?]
      exact congrArg (fun p => (s.insts.find? p).map _) (funext (isInst_atInst hf g' i'))
    rw [updInst_some hx, inst?_eq_find?, hfind]
    split
    · next h =>
      have hself : atInst g i f x = f x := atInst_of_isInst (List.find?_some hx)
      rw [h.1, h.2, hx, Option.map_some, hself, Option.getD_some]
    · next h =>
      cases hy : s.inst? g' i' with
      | none => rfl
      | some y =>
        have hat := isInst_iff.mp (List.find?_some hy)
        exact congrArg some (if_neg fun hc => h ⟨hat.1.symm.trans hc.1, hat.2.symm.trans hc.2⟩)
  | none =>
    have hnew : isInst g' i' (f (newInst g i)) = isInst g' i' (newInst g i) := by
      rw [isInst, (hf _).1, (hf _).2]; rfl
    rw [updInst_none hx, inst?_eq_find?, List.find?_append, ← inst?_eq_find?]
    split
    · next h =>
      have hself : isInst g' i' (f (newInst g i)) = true := hnew.trans (isInst_iff.mpr ⟨h.1.symm, h.2.symm⟩)
      rw [List.find?_singleton, if_pos hself, h.1, h.2, hx]
      rfl
    · next h =>
      have hother : isInst g' i' (f (newInst g i)) = false := by
        rw [hnew, Bool.eq_false_iff, Ne, isInst_iff]
        exact fun hc => h ⟨hc.1.symm, hc.2.symm⟩
      rw [List.find?_singleton, hother]
      simp

end

/-- The entry goes with its last contribution (R313). -/
theorem countServed_last {s : State} {g i : Nat} (hinst : (s.inst? g i).isSome = true)
    (hlocal : s.fld (Csr.colGrpCfg_local_m1 g) = 0) :
    s.countServed g i = { s with insts := s.insts.filter fun x => !isInst g i x } := by
  obtain ⟨x, hx⟩ := Option.isSome_iff_exists.mp hinst
  let f := fun x : Inst => { x with served := x.served + 1 }
  have hgone : (fun x => !(isInst g i x && decide (1 ≤ x.served))) ∘ atInst g i f = fun x => !isInst g i x := by
    funext x
    rw [Function.comp_apply, isInst_atInst (f := f) fun _ => ⟨rfl, rfl⟩]
    cases h : isInst g i x with
    | true => simp [atInst_of_isInst h, f]
    | false => rfl
  have hrest : (s.insts.filter fun x => !isInst g i x).map (atInst g i f) = s.insts.filter fun x => !isInst g i x := by
    refine (List.map_congr_left fun x hx => atInst_of_not_isInst ?_).trans (List.map_id _)
    simpa using (List.mem_filter.mp hx).2
  have hone (l : List Inst) : ({ s with insts := l } : State).localCount g = 1 := congrArg (· + 1) hlocal
  have hserved : s.countServed g i = { s with insts := (s.insts.map (atInst g i f)).filter fun x =>
      !(isInst g i x && decide (1 ≤ x.served)) } := by
    unfold State.countServed
    simp only [updInst_some hx, hone]
    rfl
  rw [hserved, List.filter_map, hgone, hrest]

end Sys2Proof.Proofs
end

section
/-! PROOFS. The delivery of a collective's result (spec/10_links_and_collectives.md R316, R318, R323, Table 10.8): the
write of a contribution's result, the end of its contribution, and the collective served. -/
namespace Sys2Proof.Proofs

open Sys2Proof Sys2Proof.Machine Sys2Proof.Claims Sys2Proof.Laws

/-! ## The collective that is due -/

/-- A collective has a result of the operation. -/
def hasResult (op : Nat) (x : Inst) : Bool :=
  match x.result with
  | some h => h.opcode == op
  | none => false

/-- The oldest collective of a group with a result of the operation and contributions to serve. -/
def dueInst (s : State) (g op : Nat) : Option Inst :=
  s.insts.find? fun x => x.group == g && x.failed.isNone && hasResult op x && !(s.instContribs g x.idx).isEmpty

theorem dueInst_spec {s : State} {g op : Nat} {y : Inst} (h : dueInst s g op = some y) : s.inst? g y.idx ≠ none ∧ y.group = g := by
  have hy : y.group = g := by
    have := List.find?_some h
    simp only [Bool.and_eq_true, beq_iff_eq] at this
    exact this.1.1.1
  refine ⟨fun hnone => ?_, hy⟩
  exact List.find?_eq_none.mp hnone y (List.mem_of_find?_eq_some h) (isInst_iff.mpr ⟨hy, rfl⟩)

/-- The contributions of a collective served from its result, in fold order. -/
def serveAll (s : State) (x : Inst) (h : CollStream) (e : Ecc) (g : Nat) : State :=
  (s.instContribs g x.idx).foldl (fun u c => (u.takeFree 1).serveContrib h c (u.positionOf x h c) e) s

theorem serveInst_eq (s : State) (g op : Nat) (e : Ecc) : s.serveInst g op e = match dueInst s g op with
    | none => s
    | some x => match x.result with
      | none => s
      | some h => serveAll s x h e g := rfl

theorem serveInst_none {s : State} {g op : Nat} (hdue : dueInst s g op = none) (e : Ecc) : s.serveInst g op e = s := by
  rw [serveInst_eq, hdue]

theorem serveInst_some {s : State} {g op : Nat} {y : Inst} {h : CollStream} (hdue : dueInst s g op = some y)
    (hresult : y.result = some h) (e : Ecc) : s.serveInst g op e = serveAll s y h e g := by
  rw [serveInst_eq, hdue]
  dsimp only
  rw [hresult]

theorem mem_instContribs {s : State} {g i : Nat} {c : Contrib} (h : c ∈ s.instContribs g i) :
    c.group = g ∧ c.inst = i := by
  unfold State.instContribs at h
  simpa using (List.mem_filter.mp (List.mem_mergeSort.mp h)).2

/-! ## The write -/

theorem writeBytes_nil (s : State) (a : Nat) : s.writeBytes a [] = s := by
  have hue : unwritten s.ueWords a 0 = s.ueWords := by
    refine List.filter_eq_self.mpr fun w _ => ?_
    simp only [Bool.not_eq_true', Bool.and_eq_false_iff, decide_eq_false_iff_not]
    omega
  show { s with mem := s.mem, ueWords := unwritten s.ueWords a 0 } = s
  rw [hue]

/-- What a result meets at its destination is no obstacle: it has no bytes, or its write passes its checks. -/
def Writable (s : State) (p a : Nat) (bs : List Byte) (e : Ecc) : Prop :=
  bs = [] ∨ s.heldAt (some p) none (hubOf p) a = none ∧
    s.accessFail (.loc p true) none (hubOf p) .write a bs.length = none ∧ eccWithin e .write a bs.length = .ok

theorem collWrite_nil (s : State) (p a : Nat) (e : Ecc) : s.collWrite p a [] e = (s, none) := rfl

theorem collWrite_writable {s : State} {p a : Nat} {bs : List Byte} {e : Ecc} (h : Writable s p a bs e) :
    s.collWrite p a bs e = (s.writeBytes a bs, none) := by
  unfold State.collWrite
  obtain rfl | ⟨-, haccess, hecc⟩ := h
  · rw [writeBytes_nil]; rfl
  · simp only [haccess, hecc, State.detect, Option.isSome_none, Bool.false_eq_true, if_false]
    cases bs with
    | nil => rw [writeBytes_nil]; rfl
    | cons b bs => rfl

theorem notHeld_of_writable {s : State} {p a : Nat} {bs : List Byte} {e : Ecc} (h : Writable s p a bs e) :
    (if bs.isEmpty then none else s.heldAt (some p) none (hubOf p) a) = none := by
  obtain rfl | ⟨hheld, -, -⟩ := h
  · rfl
  · rw [hheld, ite_self]

/-! ## One contribution -/

/-- The status of a contribution that has been served (R318, R323). -/
def servedStatus (c : Contrib) : Nat := if !c.late then stOk else if c.deferred then stDeferred else stDropped

theorem resultFor_eq_resultBytes (s : State) (h : CollStream) (g pos : Nat) :
    CollStream.resultFor h (s.fld (Csr.colGrpCfg_rank g)) (s.fld (Csr.colGrpCfg_n_m1 g) + 1) pos = resultBytes s h g pos :=
  rfl

/-- A contribution without a record that nothing keeps is written its result and ends. -/
theorem serveContrib_writes {s : State} {h : CollStream} {c : Contrib} {pos : Nat} {e : Ecc} (hdead : c.dead = false)
    (hcompare : Contrib.compare c h = stOk) (hrecord : descWord c.words 0x28 = 0)
    (hwrite : Writable s c.part ((s.collDa (descWord c.words 0x10)).getD 0) (resultBytes s h c.group pos) e) :
    s.serveContrib h c pos e = (s.writeBytes ((s.collDa (descWord c.words 0x10)).getD 0)
      (resultBytes s h c.group pos)).closeContrib c (servedStatus c) := by
  rw [← resultFor_eq_resultBytes] at hwrite ⊢
  have hheld := notHeld_of_writable hwrite
  have hserve := collWrite_writable hwrite
  unfold State.serveContrib
  simp only [hdead, hcompare, hrecord, hheld, hserve, collWrite_nil, Bool.false_eq_true, ne_eq, not_true_eq_false,
    or_self, if_false, if_true, List.isEmpty_nil, Option.or_none, Option.isSome_none, Option.getD_none]
  rfl

/-- The end of a ring descriptor's contribution: it leaves the engine, and the descriptor takes its status. -/
theorem endContrib_desc {s : State} {c : Contrib} {r idx : Nat} (howner : c.owner = .desc r idx) (hdead : c.dead = false)
    (st : Nat) : s.endContrib c st = { s with
      contribs := s.contribs.erase c, staged := s.staged.filter (fun z => z.1 != .desc r idx)
      fetched := s.fetched.map (fun f =>
        if f.ring = r ∧ f.idx = idx then { f with status := some st, remote := false } else f) } := by
  unfold State.endContrib
  simp only [hdead, howner, Bool.false_eq_true, if_false]
  rfl

/-- The position of a device's one contribution is the first of its device's (Table 10.8). -/
theorem positionOf_single {s : State} {y : Inst} {c : Contrib} (hlocal : s.fld (Csr.colGrpCfg_local_m1 y.group) = 0)
    (hplaces : y.places = [c.place]) (h : CollStream) : s.positionOf y h c = y.base := by
  have hcount : s.localCount y.group = 1 := congrArg (· + 1) hlocal
  have hcontributors : s.contributors y.group y.places = some [c.place] := by
    unfold State.contributors
    rw [hplaces, hcount]
    simp [List.eraseDups_cons]
  unfold State.positionOf
  rw [hcontributors]
  simp

/-! ## The commands -/

theorem exec_collective : ∀ x ∈ ([(@Instr.allreduce, 0x20), (@Instr.reduceScatter, 0x21), (@Instr.allgather, 0x22),
    (@Instr.broadcast, 0x23), (@Instr.alltoall, 0x24), (@Instr.barrier, 0x25)] : List ((Nat → Ecc → Instr) × Nat)),
    ∀ g e s, exec (x.1 g e) s = .next (s.serveInst g x.2 e) := by
  simp only [List.forall_mem_cons]
  exact ⟨fun _ _ _ => rfl, fun _ _ _ => rfl, fun _ _ _ => rfl, fun _ _ _ => rfl, fun _ _ _ => rfl,
    fun _ _ _ => rfl, nofun⟩

/-- The one contribution of a device with one is served, and its collective is done with. -/
theorem serveInst_single {s : State} {g op : Nat} {e : Ecc} {y : Inst} {h : CollStream} {c : Contrib} {r idx : Nat}
    (hdue : dueInst s g op = some y) (hresult : y.result = some h) (hcontribs : s.instContribs g y.idx = [c])
    (howner : c.owner = .desc r idx) (hdead : c.dead = false) (hcompare : Contrib.compare c h = stOk)
    (hrecord : descWord c.words 0x28 = 0) (hlocal : s.fld (Csr.colGrpCfg_local_m1 g) = 0) (hplaces : y.places = [c.place])
    (hwrite : Writable s c.part ((s.collDa (descWord c.words 0x10)).getD 0) (resultBytes s h g y.base) e) :
    s.serveInst g op e =
      { s.writeBytes ((s.collDa (descWord c.words 0x10)).getD 0) (resultBytes s h g y.base) with
        freeCtr := s.freeCtr + 1, contribs := s.contribs.erase c, insts := s.insts.filter fun z => !isInst g y.idx z
        staged := s.staged.filter (fun z => z.1 != .desc r idx)
        fetched := s.fetched.map (fun f => if f.ring = r ∧ f.idx = idx then
          { f with status := some (servedStatus c), remote := false } else f) } := by
  obtain ⟨hinst, hgroup⟩ := dueInst_spec hdue
  obtain ⟨hcgroup, hcinst⟩ := mem_instContribs (hcontribs ▸ List.mem_singleton_self c)
  have hpos := positionOf_single (hgroup ▸ hlocal) hplaces h
  have hserve : (s.takeFree 1).serveContrib h c y.base e = _ :=
    serveContrib_writes hdead hcompare hrecord (hcgroup ▸ hwrite)
  rw [serveInst_some hdue hresult, serveAll, hcontribs, List.foldl_cons, List.foldl_nil, hpos,
    hserve, State.closeContrib, endContrib_desc howner hdead, hcgroup, hcinst]
  refine (countServed_last ?_ ?_).trans rfl
  · exact Option.isSome_iff_ne_none.mpr hinst
  · exact hlocal

theorem collectivesDeliver : CollectivesDeliver := by
  intro x hx g e s due
  refine ⟨fun hdue => ?_, fun y h hdue hresult => ⟨?_, ?_⟩⟩
  · have hnone : dueInst s g x.2 = none := hdue
    rw [exec_collective x hx, serveInst_none hnone]
  · have hsome : dueInst s g x.2 = some y := hdue
    rw [exec_collective x hx, serveInst_some hsome hresult]
    rfl
  · intro c r idx hcontribs howner hdead hcompare hrecord hlocal hplaces out dst hwrite
    rw [exec_collective x hx, serveInst_single hdue hresult hcontribs howner hdead hcompare hrecord hlocal hplaces hwrite]
    refine ⟨_, rfl, ?_, fun a => byte_writeBytes s dst a out⟩
    have hstatus : servedStatus c = if c.late = false then 0 else if c.deferred then 0x15 else 0x16 := by
      unfold servedStatus
      cases c.late <;> rfl
    rw [hstatus]
    rfl

end Sys2Proof.Proofs
end

section
/-! PROOFS. COLL (spec/08_nolpa_tensor_reference.md R269; spec/10_links_and_collectives.md R312, R313, R326): the
instruction issues with its tracked transfer, its descriptor is read and checked, and its contribution accepted. -/
namespace Sys2Proof.Proofs

open Sys2Proof Sys2Proof.Machine Sys2Proof.Claims Sys2Proof.Laws

/-! ## A split group -/

theorem coll_halts (i : Issue) (s : State) (hissue : s.Issues i) (hn : i.tile < 2048) (hop : fOp i.word = 0x9C)
    (hsplit : s.splitColl i.tile i.word = true) :
    exec (.coll i) s = .next (s.setTile i.tile (s.tile i.tile).requestHalt) := by
  obtain ⟨-, hcan, hfetch, hparity, -, hok, -⟩ := hissue
  rw [State.fetchWord, if_neg (Nat.ne_of_lt hn)] at hfetch
  exact if_pos ⟨hn, hcan, hfetch, hparity, hok, hop, hsplit⟩

/-! ## In the engine -/

/-- Block `b` is `s` after the issue of a COLL that has taken its tracked transfer and waits for its end (R196, R211,
R269). -/
structure CollEntered (i : Issue) (s b : State) : Prop where
  frame : b = { s with tiles := b.tiles, csr := b.csr, nextXfer := s.nextXfer + 1 }
  others : ∀ m, m ≠ i.tile → b.tile m = s.tile m
  tile : b.tile i.tile = { s.tile i.tile with
    csr := (b.tile i.tile).csr, ibuf := (b.tile i.tile).ibuf, dbgFrom := (b.tile i.tile).dbgFrom
    kreg := (b.tile i.tile).kreg, inflight := (b.tile i.tile).inflight
    pc := nextPc (s.tile i.tile) i.word, bpPassed := false, stepping := false, seq := (s.tile i.tile).seq + 1 }
  token : ∀ k, (b.tile i.tile).k k = if k = fA i.word ∧ k ≠ 0 then 1 else (s.tile i.tile).k k
  instret : (b.tile i.tile).word Csr.tcInstret = (s.tile i.tile).word Csr.tcInstret + 1
  inUse : b.ttInUse (partOf i.tile) = s.ttInUse (partOf i.tile) + 1
  checks : SameChecks s b

/-- Nothing that an access is checked against changes as a running tile goes on, its chains kept. -/
theorem sameChecks_of_running {s b : State} {n : Nat} (hn : n < mcCore)
    (hframe : b = { s with tiles := b.tiles, csr := b.csr, nextXfer := b.nextXfer })
    (hword : ∀ o, o ≠ Csr.memTt (partOf n) → b.word o = s.word o) (hother : ∀ m, m ≠ n → b.tile m = s.tile m)
    (hchains : (b.tile n).chains = (s.tile n).chains) (hrunning : (s.tile n).state = tsRunning)
    (hstate : (b.tile n).state ≠ tsReset) : SameChecks s b where
  word o ho := hword o fun heq => by
    have hpart : partOf n < 34 := by simp only [mcCore] at hn; unfold partOf; omega
    replace heq : o = 0x701018 + 0x40 * partOf n := heq
    omega
  mem := by rw [hframe]
  admitted := by rw [hframe]
  selfRefresh := by rw [hframe]
  cadOld := by rw [hframe]
  commitAt := by rw [hframe]
  chains m := by
    by_cases hm : m = n
    · rw [hm, hchains]
    · rw [hother m hm]
  inReset m := by
    by_cases hm : m = n
    · rw [hm, hrunning]
      exact iff_of_false hstate (by decide)
    · rw [hother m hm]
  halted m hhalt := by
    by_cases hm : m = n
    · rw [hm, Tile.halted, hrunning] at hhalt
      exact absurd hhalt (by simp)
    · rwa [hother m hm]

/-- A COLL issues from a tile, and finds a tracked transfer free (R223). -/
theorem coll_of_issues {s : State} {i : Issue} (h : s.Issues i) (hop : fOp i.word = 0x9C) :
    i.tile < mcCore ∧ s.ttInUse (partOf i.tile) < 8192 := by
  obtain ⟨hle, -, -, -, -, hok, hstall⟩ := h
  have hT : isT i.word = true := by unfold isT; rw [hop]; decide
  constructor
  · refine Nat.lt_of_le_of_ne hle fun hmc => ?_
    rw [coreOk, hmc, hT] at hok
    simp at hok
  · unfold State.stalls at hstall
    simp only [hT, hop, Bool.true_and, Bool.or_eq_false_iff, Bool.and_eq_false_iff, decide_eq_false_iff_not] at hstall
    obtain ⟨-, -, hlimit⟩ := hstall
    exact Nat.lt_of_not_le (hlimit.resolve_left (by decide))

/-- Block `b` is `u` with a tracked transfer more in use, and one instruction of the tile changed in its engine. -/
structure TookXfer (n : Nat) (u b : State) : Prop where
  frame : b = { u with tiles := b.tiles, csr := b.csr, nextXfer := u.nextXfer + 1 }
  tile : b.tile n = { u.tile n with inflight := (b.tile n).inflight }
  others : ∀ m, m ≠ n → b.tile m = u.tile m
  words : ∀ o, o ≠ Csr.memTt (partOf n) → b.word o = u.word o
  inUse : u.ttInUse (partOf n) < 8192 → b.ttInUse (partOf n) = u.ttInUse (partOf n) + 1

theorem tookXfer_takeXfer (u : State) (n q : Nat) : TookXfer n u (u.takeXfer n q) where
  frame := takeXfer_frame ..
  tile := by rw [takeXfer_tile]
  others _ hm := takeXfer_tile_other _ _ _ _ hm
  words _ ho := takeXfer_word _ _ _ _ ho
  inUse := ttInUse_takeXfer _ _ _

theorem TookXfer.updFlight {n : Nat} {u b : State} (h : TookXfer n u b) (q : Nat) (f : InFlight → InFlight) :
    TookXfer n u (b.updFlight n q f) where
  frame := by
    have hb := h.frame
    have hu := (onlyTile_updFlight b n q f).1
    generalize b.updFlight n q f = v at hu ⊢
    rw [hu, hb]
  tile := by
    have hv : (b.updFlight n q f).tile n = _ := tile_updTile_same ..
    rw [hv, h.tile]
  others m hm := ((onlyTile_updFlight ..).2 m hm).trans (h.others m hm)
  words o ho := (word_of_csr (updFlight_csr ..) o).trans (h.words o ho)
  inUse hlimit := (fld_of_csr (updFlight_csr ..) _).trans (h.inUse hlimit)

theorem collEntered_tookXfer {s u b : State} {i : Issue} (hissue : s.Issues i) (hop : fOp i.word = 0x9C)
    (hent : Entered i s u) (hx : TookXfer i.tile u b) : CollEntered i s b := by
  obtain ⟨hn, hlimit⟩ := coll_of_issues hissue hop
  obtain ⟨hrunning, -, -⟩ := canIssue_wait _ hissue.2.1
  have hucsr := csr_of_onlyTile hent.only
  have hcsr : (b.tile i.tile).csr = (u.tile i.tile).csr := by rw [hx.tile]
  have hkreg : (b.tile i.tile).kreg = (u.tile i.tile).kreg := by rw [hx.tile]
  have hchains : (b.tile i.tile).chains = (s.tile i.tile).chains := (congrArg Tile.chains hx.tile).trans hent.chains
  have hother (m : Nat) (hm : m ≠ i.tile) : b.tile m = s.tile m := (hx.others m hm).trans (hent.only.2 m hm)
  have hframe : b = { s with tiles := b.tiles, csr := b.csr, nextXfer := s.nextXfer + 1 } := by
    rw [hx.frame, hent.only.1]
  have hword (o : Nat) (ho : o ≠ Csr.memTt (partOf i.tile)) : b.word o = s.word o :=
    (hx.words o ho).trans (word_of_csr hucsr o)
  have hstate : (b.tile i.tile).state ≠ tsReset := by
    refine ne_of_eq_of_ne ((fld_of_tileCsr hcsr _).trans hent.state) ?_
    split <;> decide
  have huse : u.ttInUse (partOf i.tile) = s.ttInUse (partOf i.tile) := fld_of_csr hucsr _
  exact {
    frame := hframe
    others := hother
    tile := by rw [hx.tile, hent.tile]
    token := fun k => by rw [← hent.token k, Tile.k, hkreg, Tile.k]
    instret := (word_of_tileCsr hcsr _).trans hent.instret
    inUse := huse ▸ hx.inUse (huse ▸ hlimit)
    checks := sameChecks_of_running hn (hframe.trans (by rw [congrArg State.nextXfer hframe])) hword hother hchains
      hrunning hstate }

end Sys2Proof.Proofs
end

section
/-! PROOFS. The contribution of a COLL (spec/08_nolpa_tensor_reference.md R269; spec/10_links_and_collectives.md R312,
R313): what the checks of its descriptor read, the contribution accepted, and the instruction performed. -/
namespace Sys2Proof.Proofs
open Sys2Proof Sys2Proof.Machine Sys2Proof.Claims Sys2Proof.Laws

/-! ## What the checks of a descriptor read -/

theorem words_of_mem {s t : State} (h : t.mem = s.mem) (a n : Nat) : t.words a n = s.words a n := by
  induction n generalizing a with
  | zero => rfl
  | succ n ih => rw [State.words, State.words, load_of_mem h, ih]

section
variable {s t : State} (h : SameChecks s t)
include h

theorem SameChecks.collDa (w : W64) : t.collDa w = s.collDa w := by
  unfold State.collDa State.addrWord
  rw [h.flag (f := Csr.lnkSts_log_valid) (.inr (.inl (by decide))), h.fld (f := Csr.lnkSts_logical) (.inr (.inl (by decide)))]

theorem SameChecks.collRefused (ws : List W64) (p : Nat) : t.collRefused ws p = s.collRefused ws p := by
  have hg : cdGroup ws < 1024 := bits_lt ..
  unfold State.collRefused
  dsimp only
  rw [h.flag (f := Csr.colGrpCfg_valid (cdGroup ws)) (.inr (.inl (by show 0x610000 + 0x20 * cdGroup ws < _; omega))),
    h.flag (f := Csr.colGrpCfg_split (cdGroup ws)) (.inr (.inl (by show 0x610000 + 0x20 * cdGroup ws < _; omega))),
    h.word (Csr.colGrpPart (cdGroup ws)) (.inr (.inl (by show 0x610008 + 0x20 * cdGroup ws < _; omega)))]

/-- Accesses that pass their checks go on passing them. -/
theorem SameChecks.collCheck {ws : List W64} {p : Nat} (hs : s.collCheck ws p = none) : t.collCheck ws p = none := by
  unfold State.collCheck at hs ⊢
  rw [List.findSome?_eq_none_iff] at hs ⊢
  intro x hx
  have hpass := hs x hx
  dsimp only at hpass ⊢
  rw [h.collDa]
  cases hda : s.collDa x.2.1 with
  | none => rw [hda] at hpass; exact hpass
  | some a =>
    rw [hda] at hpass
    simp only [ite_some_eq_none_iff] at hpass ⊢
    refine hpass.imp_right fun hpass => ?_
    split
    · rfl
    · next hlen =>
      rw [if_neg hlen, Option.map_eq_none_iff] at hpass
      rw [Option.map_eq_none_iff]
      exact h.accessFail hpass

end

/-! ## The contribution accepted -/

theorem issuedBy_countIssue (s : State) (g place : Nat) :
    (s.countIssue g place).issuedBy g place = s.issuedBy g place + 1 := by
  simp [State.countIssue, State.issuedBy]

/-- Block `b` after a COLL's contribution has been accepted: its collective knows of it, the engine has it, and the
instruction holds the hulls that it still has to reach. -/
def collAccepted (b : State) (n seq : Nat) (c : Contrib) (hulls : List (Int × Int)) : State :=
  { (b.countIssue c.group c.place).updInst c.group c.inst (fun x => { x with places := x.places ++ [c.place] }) with
    contribs := b.contribs ++ [c] }.updFlight n seq fun x => { x with hulls := hulls }

/-- A COLL's contribution without a deadline to a collective that has not failed is accepted, the next of its
contributor (R313). -/
theorem accept_coll {b : State} {c : Contrib} {n seq : Nat} (howner : c.owner = .mov n seq none) (hlate : c.late = false)
    (hdeferred : c.deferred = false) (hdl : cdDlEn c.words = false)
    (hlive : (b.inst? c.group (b.issuedBy c.group c.place)).bind (fun x => x.failed) = none) :
    ∃ hulls, b.accept c = collAccepted b n seq { c with inst := b.issuedBy c.group c.place } hulls := by
  obtain ⟨g, _, place, owner, part, da, ws, epoch, late, deferred, data, dead⟩ := c
  dsimp only at howner hlate hdeferred hdl hlive
  subst howner hlate hdeferred
  let f := fun x : Inst => { x with places := x.places ++ [place] }
  let u := (b.countIssue g place).updInst g (b.issuedBy g place) f
  have hinst : u.inst? g (b.issuedBy g place) = some (f ((b.inst? g (b.issuedBy g place)).getD (newInst g _))) :=
    (inst?_updInst (f := f) (fun _ => ⟨rfl, rfl⟩) (b.countIssue g place) _ _).trans (if_pos ⟨rfl, rfl⟩)
  have hulive : (u.inst? g (b.issuedBy g place)).bind (fun x => x.failed) = none := by
    rw [hinst]
    cases hb : b.inst? g (b.issuedBy g place) with
    | none => rfl
    | some x => rw [hb] at hlive; exact hlive
  have hontime : u.pastDeadline g (hubOf part) ws = false := by rw [State.pastDeadline, hdl, Bool.false_and]
  refine ⟨u.collHulls ⟨g, b.issuedBy g place, place, .mov n seq none, part, da, ws, epoch, false, false, data, dead⟩, ?_⟩
  unfold State.accept
  dsimp only
  rw [hulive]
  dsimp only
  rw [hontime]
  simp only [Bool.false_eq_true, if_false]
  have hcontribs : u.contribs = b.contribs := by rw [show u = _ from updInst_frame ..]; rfl
  unfold collAccepted
  rw [← hcontribs]
  rfl

/-! ## The descriptor read -/

/-- The contribution that a COLL's descriptor at `a` makes, before its collective is known (R269). -/
def collContrib (s : State) (n seq a epoch : Nat) : Contrib :=
  let ws := s.words a 8
  ⟨cdGroup ws, 0, n, .mov n seq none, partOf n, a, ws, epoch, false, false,
    s.bytes ((s.collDa (descWord ws 0x08)).getD 0) (if descOp ws = coBarrier then 0 else contribBytes ws), false⟩

/-- A descriptor at `a` without a deadline passes the checks that the collective engine makes at P (R269, R378). -/
structure CollPasses (s : State) (n a : Nat) : Prop where
  held : s.heldAt (some (partOf n)) none (hubOf (partOf n)) a = none
  access : s.accessFail (.loc (partOf n) true) none (hubOf (partOf n)) .read a 64 = none
  reserved : bits ((s.words a 8).headD 0) 8 2 = 0
  accepted : s.collRefused (s.words a 8) (partOf n) = none
  accesses : s.collCheck (s.words a 8) (partOf n) = none
  noDeadline : cdDlEn (s.words a 8) = false
  source : descOp (s.words a 8) = coBarrier ∨ contribBytes (s.words a 8) = 0 ∨
    s.heldAt (some (partOf n)) none (hubOf (partOf n)) ((s.collDa (descWord (s.words a 8) 0x08)).getD 0) = none

theorem SameChecks.collPasses {s b : State} (h : SameChecks s b) {n a : Nat} (hs : CollPasses s n a) : CollPasses b n a := by
  have hwords : b.words a 8 = s.words a 8 := words_of_mem h.mem ..
  obtain ⟨hheld, haccess, hreserved, haccepted, haccesses, hdl, hsource⟩ := hs
  constructor
  case held => rw [h.heldAt, hheld]
  case access => exact h.accessFail haccess
  case reserved => rw [hwords, hreserved]
  case accepted => rw [hwords, h.collRefused, haccepted]
  case accesses => rw [hwords]; exact h.collCheck haccesses
  case noDeadline => rw [hwords, hdl]
  case source => rwa [hwords, h.collDa, h.heldAt]

theorem SameChecks.collContrib {s b : State} (h : SameChecks s b) (n seq a epoch : Nat) :
    collContrib b n seq a epoch = collContrib s n seq a epoch := by
  unfold Proofs.collContrib
  simp only [words_of_mem h.mem, bytes_of_mem h.mem, h.collDa]

theorem readColl_accepts {b : State} {n seq a epoch : Nat} (h : CollPasses b n a) :
    b.readColl n seq a epoch .ok = b.accept (collContrib b n seq a epoch) := by
  obtain ⟨hheld, haccess, hreserved, haccepted, haccesses, hdl, hsource⟩ := h
  have hsrc : (if (if descOp (b.words a 8) = coBarrier then 0 else contribBytes (b.words a 8)) = 0 then none
      else b.heldAt (some (partOf n)) none (hubOf (partOf n)) ((b.collDa (descWord (b.words a 8) 0x08)).getD 0)) = none := by
    obtain hop | hbytes | hheld := hsource
    · rw [if_pos hop]; rfl
    · rw [hbytes, ite_self]; rfl
    · rw [hheld, ite_self]
  have hontime : b.pastDeadline (cdGroup (b.words a 8)) (hubOf (partOf n)) (b.words a 8) = false := by
    rw [State.pastDeadline, hdl, Bool.false_and]
  have hread : b.readColl n seq a epoch .ok = b.contribute n (.mov n seq none) (partOf n) a (b.words a 8) epoch .ok := by
    unfold State.readColl
    simp only [hheld, haccess, hreserved, eccWithin, State.detect, Option.isSome_none, Bool.false_eq_true, if_false, ne_eq,
      not_true_eq_false]
  rw [hread]
  unfold State.contribute
  simp only [haccepted, hsrc, haccesses, hontime, eccWithin, State.detect, Option.isSome_none, Bool.false_eq_true, if_false,
    Bool.false_and, bne_self_eq_false]
  rfl

/-! ## The instruction performed -/

section
variable {i : Issue} {s b : State} (h : CollEntered i s b)
include h

theorem CollEntered.insts : b.insts = s.insts := by rw [h.frame]

theorem CollEntered.contribs : b.contribs = s.contribs := by rw [h.frame]

theorem CollEntered.issuedBy (g place : Nat) : b.issuedBy g place = s.issuedBy g place := by
  rw [State.issuedBy, State.issuedBy, h.frame]

end

theorem collAccepted_frame (b : State) (n seq : Nat) (c : Contrib) (hulls : List (Int × Int)) :
    collAccepted b n seq c hulls = { b with
      tiles := (collAccepted b n seq c hulls).tiles, contribs := b.contribs ++ [c]
      collSeq := (b.countIssue c.group c.place).collSeq
      insts := (b.updInst c.group c.inst fun x => { x with places := x.places ++ [c.place] }).insts } := by
  unfold collAccepted
  rw [updInst_frame, insts_updInst_congr (t := b.countIssue c.group c.place) (s := b) rfl]
  rfl

theorem collAccepted_tile (b : State) (n seq : Nat) (c : Contrib) (hulls : List (Int × Int)) :
    (∀ m, m ≠ n → (collAccepted b n seq c hulls).tile m = b.tile m) ∧
    (collAccepted b n seq c hulls).tile n = { b.tile n with inflight := ((collAccepted b n seq c hulls).tile n).inflight } := by
  have htiles (m : Nat) : ({ (b.countIssue c.group c.place).updInst c.group c.inst
      (fun x => { x with places := x.places ++ [c.place] }) with contribs := b.contribs ++ [c] } : State).tile m =
      b.tile m := by rw [updInst_frame]; rfl
  refine ⟨fun m hm => ((onlyTile_updFlight ..).2 m hm).trans (htiles m), ?_⟩
  have hself : (collAccepted b n seq c hulls).tile n = _ := tile_updTile_same ..
  rw [hself, htiles]

theorem coll_contributes (i : Issue) (s : State) (hstarts : Starts s i) (hop : fOp i.word = 0x9C)
    (hsplit : s.splitColl i.tile i.word = false) (hecc : i.ecc = .ok)
    (hfault : collFault i.tile ((s.tile i.tile).s (fB i.word)).toNat = none)
    (hpasses : CollPasses s i.tile ((s.tile i.tile).s (fB i.word)).toNat)
    (hlive : let g := cdGroup (s.words ((s.tile i.tile).s (fB i.word)).toNat 8)
      (s.inst? g (s.issuedBy g i.tile)).bind (fun x => x.failed) = none) :
    let a := ((s.tile i.tile).s (fB i.word)).toNat
    let c := collContrib s i.tile (s.tile i.tile).seq a (bits (s.tile i.tile).mode 0 32)
    ∃ b hulls, CollEntered i s b ∧ exec (.coll i) s = .next
      (collAccepted b i.tile (s.tile i.tile).seq { c with inst := s.issuedBy c.group i.tile } hulls) := by
  intro a c
  obtain ⟨u, hent, hnext⟩ := issueE_starts hstarts (isRow := fun w => fOp w == 0x9C) (by simp [hop])
    (fun s n o => s.takeXfer n o.seq) State.startColl
  let q := (s.tile i.tile).seq
  let x := u.takeXfer i.tile q
  let b := x.updFlight i.tile q fun f => { f with blocked := true }
  have hb : CollEntered i s b :=
    collEntered_tookXfer hstarts.1 hop hent ((tookXfer_takeXfer u i.tile q).updFlight q _)
  have hexec : exec (.coll i) s = .next (x.startColl i.tile (s.top i.tile i)) := by
    refine (if_neg fun hc => ?_).trans hnext
    rw [hsplit] at hc
    exact absurd hc.2.2.2.2.2.2 (by decide)
  have hmode : (x.tile i.tile).mode = (s.tile i.tile).mode := by
    rw [(tookXfer_takeXfer u i.tile q).tile, hent.tile]
  have hstart : x.startColl i.tile (s.top i.tile i) = b.readColl i.tile q a (bits (s.tile i.tile).mode 0 32) .ok := by
    unfold State.startColl
    simp only [top_issue, top_seq, top_core_s, hfault, hecc]
    rw [← hmode]
    rfl
  have hissued : b.issuedBy c.group c.place = s.issuedBy c.group i.tile := hb.issuedBy ..
  have hblive : (b.inst? c.group (b.issuedBy c.group c.place)).bind (fun x => x.failed) = none := by
    rw [hissued, inst?_eq_find?, hb.insts]
    exact hlive
  obtain ⟨hulls, haccept⟩ := accept_coll (b := b) (c := c) rfl rfl rfl hpasses.noDeadline hblive
  refine ⟨b, hulls, hb, ?_⟩
  rw [hexec, hstart, readColl_accepts (hb.checks.collPasses hpasses), hb.checks.collContrib]
  rw [haccept, hissued]

theorem collInstruction : CollInstruction := by
  refine ⟨coll_halts, ?_⟩
  intro i s hstarts hop hsplit hecc n p t a ws g src hfault hheld haccess hreserved haccepted haccesses hdl hsource hlive
  have hpasses : CollPasses s n a := ⟨hheld, haccess, hreserved, haccepted, haccesses, hdl, hsource⟩
  obtain ⟨b, hulls, hb, hnext⟩ := coll_contributes i s hstarts hop hsplit hecc hfault hpasses hlive
  let c' : Contrib := { collContrib s n t.seq a (bits t.mode 0 32) with inst := s.issuedBy g n }
  have hexec : exec (.coll i) s = .next (collAccepted b n t.seq c' hulls) := hnext
  have hlimit := (coll_of_issues hstarts.1 hop).2
  have hframe := collAccepted_frame b n t.seq c' hulls
  obtain ⟨hothers, htile⟩ := collAccepted_tile b n t.seq c' hulls
  have hcsr : (collAccepted b n t.seq c' hulls).csr = b.csr := by rw [hframe]
  have hdata : c'.data = if descOp ws = 0x25 then [] else s.bytes src (contribBytes ws) := by
    show s.bytes src (if descOp ws = 0x25 then 0 else contribBytes ws) = _
    split <;> rfl
  refine ⟨_, hexec, ?_, ?_, ?_, ?_, ?_, ?_, ?_, fun k => ?_, ?_, ?_, fun m hm => ?_⟩
  · rw [hframe, hb.frame]
  · rw [hframe, hb.frame]
  · have huse : (collAccepted b n t.seq c' hulls).ttInUse p = s.ttInUse p + 1 := (fld_of_csr hcsr _).trans hb.inUse
    rw [huse]
    change s.ttInUse p < 8192 at hlimit
    omega
  · rw [hframe, hb.contribs, ← hdata]
    rfl
  · rw [hframe, insts_updInst_congr hb.insts]
    rfl
  · rw [← hb.issuedBy g n, ← issuedBy_countIssue, State.issuedBy, hframe]
    rfl
  · rw [htile, hb.tile]
  · rw [← hb.token k, htile]; rfl
  · rw [htile, hb.tile]
  · rw [← hb.instret, htile]; rfl
  · rw [hothers m hm, hb.others m hm]

end Sys2Proof.Proofs
end

section
/-! PROOFS. The streams of a group's collectives (spec/10_links_and_collectives.md R299, R312, R320 to R322, R325, R444):
a stream that arrives, the fold, the deadline and the write of a group entry. -/
namespace Sys2Proof.Proofs

open Sys2Proof Sys2Proof.Machine Sys2Proof.Claims Sys2Proof.Laws

/-! ## A stream that arrives -/

theorem segColl_expires (h : CollStream) (s : State) (hlife : s.lifeTicks < s.ticksSince h.sendTick) :
    exec (.segColl h) s =
      .next ((List.range (max 1 h.xids.length)).foldl (fun s _ => s.expireSegment (s.groupHub h.group)) s) :=
  if_pos (decide_eq_true hlife)

theorem tooOld_of_le {s : State} {tick : Nat} (h : s.ticksSince tick ≤ s.lifeTicks) : s.tooOld tick ≠ true := by
  simpa [State.tooOld] using h

theorem segColl_broken (h : CollStream) (s : State) (hlife : s.ticksSince h.sendTick ≤ s.lifeTicks)
    (hbroken : ∃ x ∈ h.xids, s.segBroken h.src x 2 = true) : exec (.segColl h) s = .next s :=
  (if_neg (tooOld_of_le hlife)).trans (if_pos (List.any_eq_true.mpr hbroken))

section
variable {h : CollStream} {s : State} (hlife : s.ticksSince h.sendTick ≤ s.lifeTicks)
  (hwhole : ∀ x ∈ h.xids, s.segBroken h.src x 2 = false) (hgroup : h.group < 1024)
  (hvalid : s.fld (Csr.colGrpCfg_valid h.group) = 1) (hsplit : s.fld (Csr.colGrpCfg_split h.group) = 0)
include hlife hwhole hgroup hvalid hsplit

/-- What a whole stream within its life does to a group that is valid and not split depends on its flags alone. -/
theorem segColl_of_live : exec (.segColl h) s =
    let rank := s.fld (Csr.colGrpCfg_rank h.group)
    if h.abort then
      .next (((if h.ret then (if rank = 0 then s else s.sendStream h (rank - 1))
        else if rank + 1 < s.fld (Csr.colGrpCfg_n_m1 h.group) + 1 then s.sendStream h (rank + 1) else s).failInst
          h.group h.inst stPeerAbort).peerAbort h.group)
    else if h.ret then
      .next (match s.inst? h.group h.inst with
        | some x => if x.result.isSome || x.failed.isSome then s else s.takeResult h
        | none => s.takeResult h)
    else .next (s.updInst h.group h.inst fun x => { x with inStream := some h }) := by
  have hbroken : ¬ h.xids.any (fun x => s.segBroken h.src x (segClass opColl)) = true := by
    rw [Bool.not_eq_true, List.any_eq_false]
    exact fun x hx => Bool.eq_false_iff.mp (hwhole x hx)
  have hlive : ¬ (1024 ≤ h.group ∨ s.flag (Csr.colGrpCfg_valid h.group) = false ∨
      s.flag (Csr.colGrpCfg_split h.group) = true) := by
    rw [not_flag_iff, flag_iff]
    omega
  exact (if_neg (tooOld_of_le hlife)).trans ((if_neg hbroken).trans (if_neg hlive))

/-- A stream that arrives waits in its collective's entry for the fold. -/
theorem segColl_forward (habort : h.abort = false) (hret : h.ret = false) :
    exec (.segColl h) s = .next (s.updInst h.group h.inst fun x => { x with inStream := some h }) := by
  rw [segColl_of_live hlife hwhole hgroup hvalid hsplit]
  simp only [habort, hret, Bool.false_eq_true, if_false]

/-- A result that returns is taken by a collective that has none and has not failed. -/
theorem segColl_return (habort : h.abort = false) (hret : h.ret = true) : exec (.segColl h) s =
    .next (if ((s.inst? h.group h.inst).map (fun x => x.result.isSome || x.failed.isSome)).getD false then s
      else s.takeResult h) := by
  rw [segColl_of_live hlife hwhole hgroup hvalid hsplit]
  simp only [habort, hret, Bool.false_eq_true, if_false, if_true]
  cases s.inst? h.group h.inst with
  | some x => rw [Option.map_some, Option.getD_some]
  | none => rw [Option.map_none, Option.getD_none, if_neg Bool.false_ne_true]

/-- An abort is passed on the way it came, and its collective and group end. -/
theorem segColl_abort (habort : h.abort = true) : exec (.segColl h) s =
    .next (((if h.ret then (if s.fld (Csr.colGrpCfg_rank h.group) = 0 then s
          else s.sendStream h (s.fld (Csr.colGrpCfg_rank h.group) - 1))
        else if s.fld (Csr.colGrpCfg_rank h.group) < s.fld (Csr.colGrpCfg_n_m1 h.group)
          then s.sendStream h (s.fld (Csr.colGrpCfg_rank h.group) + 1) else s).failInst h.group h.inst
          stPeerAbort).peerAbort h.group) := by
  rw [segColl_of_live hlife hwhole hgroup hvalid hsplit]
  simp only [habort, if_true, Nat.add_lt_add_iff_right]

/-- The three ways of a stream by its flags. -/
theorem segColl_by_flags : ∃ t, exec (.segColl h) s = .next t ∧
    (h.abort = false → h.ret = false → t = { s with insts := t.insts } ∧
      ∀ i, t.inst? h.group i = if i = h.inst then
        some { (s.inst? h.group i).getD (newInst h.group i) with inStream := some h } else s.inst? h.group i) ∧
    (h.abort = false → h.ret = true →
      t = if ((s.inst? h.group h.inst).map (fun x => x.result.isSome || x.failed.isSome)).getD false then s
        else s.takeResult h) ∧
    (h.abort = true → t = ((if h.ret then (if s.fld (Csr.colGrpCfg_rank h.group) = 0 then s
          else s.sendStream h (s.fld (Csr.colGrpCfg_rank h.group) - 1))
        else if s.fld (Csr.colGrpCfg_rank h.group) < s.fld (Csr.colGrpCfg_n_m1 h.group)
          then s.sendStream h (s.fld (Csr.colGrpCfg_rank h.group) + 1) else s).failInst h.group h.inst
          stPeerAbort).peerAbort h.group) := by
  cases habort : h.abort with
  | true => exact ⟨_, segColl_abort hlife hwhole hgroup hvalid hsplit habort, nofun, nofun, fun _ => rfl⟩
  | false =>
    cases hret : h.ret with
    | true => exact ⟨_, segColl_return hlife hwhole hgroup hvalid hsplit habort hret, nofun, fun _ _ => rfl, nofun⟩
    | false =>
      refine ⟨_, segColl_forward hlife hwhole hgroup hvalid hsplit habort hret, fun _ _ => ⟨updInst_frame .., fun i => ?_⟩,
        nofun, nofun⟩
      rw [inst?_updInst (f := fun x => { x with inStream := some h }) fun _ => ⟨rfl, rfl⟩]
      by_cases hi : i = h.inst
      · rw [if_pos ⟨rfl, hi⟩, if_pos hi, hi]
      · rw [if_neg fun hc => hi hc.2, if_neg hi]

end

/-! ## The fold -/

/-- The stream that a collective of a group folds into: the one from the rank before, or at rank 0 that of its first
contribution. -/
def foldHead (s : State) (g i : Nat) : Option CollStream :=
  ((s.inst? g i).getD default).inStream.or
    (if s.fld (Csr.colGrpCfg_rank g) = 0 then (s.instContribs g i).head?.map Contrib.stream else none)

/-- The hub of every contributor of the group has seen the deadline, where there is one (R322). -/
def deadlineSeen (s : State) (g : Nat) (h : CollStream) : Bool :=
  h.dlEn && ((s.groupParts g).map hubOf).all fun hb => s.hubPast g hb h.deadline

theorem deadlineSeen_iff {s : State} {g : Nat} {h : CollStream} : deadlineSeen s g h = true ↔
    h.dlEn = true ∧ ∀ p ∈ s.groupParts g, s.hubPast g (hubOf p) h.deadline = true := by
  simp [deadlineSeen]

/-- The local part of a fold whose contributions agree with their stream: what it hands on. -/
def foldedStream (s : State) (g i : Nat) (h : CollStream) : CollStream :=
  let folded := (s.foldLocal h (s.fld (Csr.colGrpCfg_rank g)) (s.instContribs g i)).1
  { folded with
    status := stOk, expected := h.expected + s.localCount g
    lateCnt := h.lateCnt + (s.localCount g - (folded.onTime - h.onTime)) }

/-- The block after the local part of a fold whose contributions agree with their stream. -/
def foldedState (s : State) (g i : Nat) (h : CollStream) : State :=
  (s.foldLocal h (s.fld (Csr.colGrpCfg_rank g)) (s.instContribs g i)).2.updInst g i
    fun x => { x with folded := true, base := h.expected }

/-- Contributions that all agree with the stream give its status. -/
theorem compare_status {cs : List Contrib} {h : CollStream} (hcs : ∀ c ∈ cs, c.compare h = stOk) :
    (((cs.map fun c => c.compare h).filter (· == stEpoch)).head?.or
      ((cs.map fun c => c.compare h).find? (· != stOk))).getD stOk = stOk := by
  have hall : ∀ st ∈ cs.map fun c => c.compare h, st = stOk := by simpa using hcs
  have hepoch : (cs.map fun c => c.compare h).filter (· == stEpoch) = [] :=
    List.filter_eq_nil_iff.mpr fun st hst => by rw [hall st hst]; decide
  have hbad : (cs.map fun c => c.compare h).find? (· != stOk) = none :=
    List.find?_eq_none.mpr fun st hst => by rw [hall st hst]; decide
  rw [hepoch, hbad]
  rfl

/-! ### The fold leaves the registers -/

theorem csr_carriedBytes (s : State) (h : CollStream) (x : Carried) : (s.carriedBytes h x).2.csr = s.csr := by
  unfold State.carriedBytes
  dsimp only
  split <;> rfl

theorem csr_foldReduce (s : State) (h : CollStream) (cs : List Contrib) : (s.foldReduce h cs).2.csr = s.csr := by
  refine List.foldlRecOn (motive := fun q : CollStream × State => q.2.csr = s.csr) _ _ rfl fun q hq pl _ => ?_
  dsimp only
  cases (s.carriedFor h).find? fun x => x.place == pl with
  | some x => dsimp only; split <;> exact (csr_carriedBytes ..).trans hq
  | none => dsimp only; split <;> exact hq

theorem csr_spread (size slots : Nat) (s : State) (ds : List (List Byte)) : (s.spread size slots ds).2.csr = s.csr := by
  induction slots generalizing s ds with
  | zero => rfl
  | succ slots ih =>
    unfold State.spread
    dsimp only
    rw [ih]
    split <;> rfl

theorem csr_gatherLocal (s : State) (h : CollStream) (cs : List Contrib) : (s.gatherLocal h cs).2.csr = s.csr := by
  unfold State.gatherLocal
  dsimp only
  split
  · refine List.foldlRecOn (motive := fun q : List Byte × State => q.2.csr = s.csr) _ _ rfl fun q hq pl _ => ?_
    dsimp only
    split <;> exact hq
  · exact csr_spread ..

theorem csr_foldLocal (s : State) (h : CollStream) (rank : Nat) (cs : List Contrib) :
    (s.foldLocal h rank cs).2.csr = s.csr := by
  unfold State.foldLocal
  dsimp only
  split
  · exact csr_foldReduce ..
  · split
    · rfl
    · exact csr_gatherLocal ..

section
variable {s : State} {g i : Nat} {h : CollStream} (hhead : foldHead s g i = some h) (habort : g ∉ s.abortGroups)
include hhead habort

theorem foldStart_waits (hmissing : (s.instContribs g i).length < s.localCount g)
    (hwait : deadlineSeen s g h = false ∨ h.opcode = coBarrier) : s.foldStart g i = s := by
  unfold foldHead at hhead
  unfold State.foldStart
  dsimp only
  rw [hhead]
  dsimp only
  rw [if_neg (by simpa using habort)]
  exact if_pos ⟨hmissing, hwait⟩

theorem foldStart_folds (hready : s.localCount g ≤ (s.instContribs g i).length ∨
      deadlineSeen s g h = true ∧ h.opcode ≠ coBarrier)
    (hstatus : h.status = stOk) (hcs : ∀ c ∈ s.instContribs g i, c.compare h = stOk) :
    let n := s.fld (Csr.colGrpCfg_n_m1 g) + 1
    let u := foldedState s g i h
    let out := foldedStream s g i h
    s.foldStart g i = if s.fld (Csr.colGrpCfg_rank g) + 1 < n then u.sendStream out (s.fld (Csr.colGrpCfg_rank g) + 1)
      else (u.finalStream out n).2.takeResult (u.finalStream out n).1 := by
  have hgo : ¬ ((s.instContribs g i).length < s.localCount g ∧ (deadlineSeen s g h = false ∨ h.opcode = coBarrier)) := by
    rintro ⟨hmissing, hwait⟩
    obtain hall | ⟨hseen, hop⟩ := hready
    · omega
    · obtain hnot | hbar := hwait
      · rw [hseen] at hnot; exact absurd hnot (by decide)
      · exact hop hbar
  unfold foldHead at hhead
  unfold deadlineSeen at hgo
  unfold State.foldStart
  dsimp only
  rw [hhead]
  dsimp only
  rw [if_neg (by simpa using habort), if_neg hgo, if_neg (not_not_intro hstatus), compare_status hcs]
  have hcount : (s.foldLocal h (s.fld (Csr.colGrpCfg_rank g)) (s.instContribs g i)).2.localCount g = s.localCount g :=
    congrArg (· + 1) (fld_of_csr (csr_foldLocal ..) _)
  unfold foldedState foldedStream
  rw [← hcount]
  generalize s.foldLocal h _ _ = q
  simp only [if_true]

end

theorem exec_collFoldStart_of_next {g i : Nat} {s : State} (hg : g < 1024) (hvalid : s.fld (Csr.colGrpCfg_valid g) = 1)
    (hsplit : s.fld (Csr.colGrpCfg_split g) = 0) (hnext : s.nextInst g = some i) :
    exec (.collFoldStart g) s = .next (s.foldStart g i) := by
  have hlive : g < 1024 ∧ s.flag (Csr.colGrpCfg_valid g) = true ∧ s.flag (Csr.colGrpCfg_split g) = false := by
    rw [flag_iff, not_flag_iff]
    omega
  rw [exec_collFoldStart, execCollFoldStart, if_pos hlive, hnext]

/-! ## The deadline -/

/-- Hub `hub` has seen its latest edge in a cycle before the present one, for the contributions of a group. -/
def hubPassed (hub g : Nat) (s : State) : State :=
  { s with collPast := (hub, g, s.seenHub hub) :: s.collPast.filter fun e => !(e.1 == hub && e.2.1 == g) }

theorem hubPast_hubPassed_same (hub g : Nat) (s : State) (d : W64) :
    (hubPassed hub g s).hubPast g hub d = decide (d.toNat ≤ (s.seenHub hub).toNat) := by
  have hrest : (s.collPast.filter fun e => !(e.1 == hub && e.2.1 == g)).any
      (fun e => e.1 == hub && e.2.1 == g && decide (d.toNat ≤ e.2.2.toNat)) = false := by
    rw [List.any_eq_false]
    intro e he
    have hout := (List.mem_filter.mp he).2
    rw [Bool.not_eq_true'] at hout
    rw [hout, Bool.false_and]
    decide
  have hpast : (hubPassed hub g s).hubPast g hub d =
      (decide (d.toNat < (s.seenHub hub).toNat) || decide (d.toNat ≤ (s.seenHub hub).toNat)) := by
    unfold State.hubPast hubPassed
    rw [List.any_cons, hrest]
    simp only [beq_self_eq_true, Bool.true_and, Bool.or_false]
    rfl
  rw [hpast, Bool.or_eq_right_iff_imp.mpr]
  simp only [decide_eq_true_eq]
  exact Nat.le_of_lt

theorem hubPast_hubPassed_other {hub g h' g' : Nat} (h : h' ≠ hub ∨ g' ≠ g) (s : State) (d : W64) :
    (hubPassed hub g s).hubPast g' h' d = s.hubPast g' h' d := by
  have hnew : (hub == h' && g == g') = false := by
    rw [Bool.and_eq_false_iff, beq_eq_false_iff_ne, beq_eq_false_iff_ne]
    exact h.imp Ne.symm Ne.symm
  unfold State.hubPast hubPassed
  rw [List.any_cons, hnew, Bool.false_and, Bool.false_or, List.any_filter]
  refine congrArg (_ || ·) (congrArg s.collPast.any (funext fun e => ?_))
  cases hat : e.1 == h' && e.2.1 == g' with
  | false => simp
  | true =>
    rw [Bool.and_eq_true, beq_iff_eq, beq_iff_eq] at hat
    obtain ⟨rfl, rfl⟩ := hat
    have hkept : (e.1 == hub && e.2.1 == g) = false := by
      rw [Bool.and_eq_false_iff, beq_eq_false_iff_ne, beq_eq_false_iff_ne]
      exact h
    rw [hkept]
    rfl

/-! ## The write of a group's entry -/

theorem base_le_of_findReg {rs : List RegRow} {off : Nat} {r : RegRow} {ix : List Nat} (h : findReg rs off = some (r, ix)) :
    r.base ≤ off := by
  induction rs with
  | nil => cases h
  | cons q rs ih =>
    unfold findReg at h
    split at h
    · next hq =>
      obtain ⟨rfl, -⟩ := Prod.mk.inj (Option.some.inj h)
      unfold RegRow.find at hq
      split at hq
      · cases hq
      · next hle => exact Nat.le_of_not_lt hle
    · exact ih h

/-- The registers below those of the partitions have no field of type LCK. -/
theorem deviceRegs_below_no_lck : ∀ r ∈ deviceRegs, r.base < 0x800010 → ∀ f ∈ r.fields, f.ty ≠ .lck := by decide +kernel

/-- A write by types below the registers of the partitions sets device registers and nothing else. -/
theorem genWrite_csrOnly (s : State) {off : Nat} (v : W64) (hoff : off < 0x800010) :
    s.genWrite off v = { s with csr := (s.genWrite off v).csr } := by
  cases hr : findReg deviceRegs off with
  | none =>
    have hsame : s.genWrite off v = s := by unfold State.genWrite; rw [hr]
    rw [hsame]
  | some p =>
    obtain ⟨r, ix⟩ := p
    rw [genWrite_eq_setWord s v hr
      (deviceRegs_below_no_lck r (mem_of_findReg hr) (Nat.lt_of_le_of_lt (base_le_of_findReg hr) hoff))]
    rfl

/-- What a group starts anew with, besides the fields of its registers (R312, R443). -/
def restarted (g : Nat) (s : State) : State :=
  { s with
    collSeq := s.collSeq.filter fun e => e.1 != g
    insts := s.insts.filter fun x => x.group != g
    abortGroups := s.abortGroups.filter (· != g)
    peerAborted := s.peerAborted.filter (· != g)
    splitTick := NMap.set (fun _ => none) s.splitTick g none }

theorem sets_restarted {fs : List (Fld × Nat)} {s t : State} (h : Sets fs s t) (g : Nat) :
    Sets fs (restarted g s) (restarted g t) := by
  obtain ⟨hframe, hval, hrest⟩ := h
  exact ⟨congrArg (restarted g) hframe, hval, hrest⟩

/-- Of fields set after a write that set registers alone, a group that starts anew shows the fields and its restart. -/
theorem restarted_of_sets {fs : List (Fld × Nat)} {s w u : State} (hwrite : w = { s with csr := w.csr }) (hsets : Sets fs w u)
    (g : Nat) : restarted g u = { restarted g s with csr := (restarted g u).csr } ∧
      Sets fs { w with
        collSeq := (restarted g u).collSeq, insts := (restarted g u).insts, abortGroups := (restarted g u).abortGroups
        peerAborted := (restarted g u).peerAborted, splitTick := (restarted g u).splitTick } (restarted g u) := by
  obtain ⟨c, rfl⟩ : ∃ c, w = { s with csr := c } := ⟨_, hwrite⟩
  obtain ⟨d, rfl⟩ : ∃ d, u = { s with csr := d } := ⟨_, hsets.1⟩
  exact ⟨rfl, sets_restarted hsets g⟩

/-- The registers of a group after a word of its entry is written: the count of instances and split cleared. -/
def entryWritten (g word : Nat) (v : W64) (s : State) : State :=
  ((s.genWrite (Csr.colGrpCfg g + 8 * word) v).setFld (Csr.colGrpInst_instance g) 0).setFld (Csr.colGrpCfg_split g) 0

theorem entryWritten_sets (g word : Nat) (v : W64) (s : State) :
    Sets [(Csr.colGrpInst_instance g, 0), (Csr.colGrpCfg_split g, 0)] (s.genWrite (Csr.colGrpCfg g + 8 * word) v)
      (entryWritten g word v s) := by
  have hinst : (Csr.colGrpInst_instance g).lo + (Csr.colGrpInst_instance g).w ≤ 64 := by show 0 + 32 ≤ 64; decide
  have hcfg : (Csr.colGrpCfg_split g).lo + (Csr.colGrpCfg_split g).w ≤ 64 := by show 36 + 1 ≤ 64; decide
  have hapart : Apart (Csr.colGrpInst_instance g) (Csr.colGrpCfg_split g) := by
    refine .inr (.inr ?_)
    show 0 + 32 ≤ 36
    decide
  exact sets_append_setFld (sets_setFld _ 0 hinst) hcfg (List.forall_mem_singleton.mpr hapart) 0

theorem exec_colGrpWrite_of_word {g word : Nat} (v : W64) (s : State) (hg : g < 1024) (hword : word < 3) :
    let u := restarted g (entryWritten g word v s)
    exec (.colGrpWrite g word v) s = .next
      (if u.fld (Csr.colGrpCfg_valid g) = 1 ∧ u.groupCut g = true then u.splitGroup g else u) := by
  rw [exec_colGrpWrite, execColGrpWrite, if_pos hg, State.groupWrite, if_pos hword]
  simp only [Bool.and_eq_true, flag_iff]
  rfl

/-! ## The statement -/

theorem collStreams : CollStreams := by
  refine ⟨segColl_expires, segColl_broken, fun h s hlife hwhole hgroup hvalid hsplit => ?_, ?_, fun hub g s hhub hg => ?_,
    fun g word v s hg hword => ?_⟩
  · obtain ⟨t, hexec, hforward, hreturn, habort⟩ := segColl_by_flags hlife hwhole hgroup hvalid hsplit
    exact ⟨t, hexec, hforward, hreturn, habort⟩
  · intro g i h s hg hvalid hsplit hnext habort rank n cs here seen hhead
    have hexec : exec (.collFoldStart g) s = .next (s.foldStart g i) := exec_collFoldStart_of_next hg hvalid hsplit hnext
    refine ⟨fun hmissing hwait => ?_, fun hready hstatus hcs => ?_⟩
    · have hwait' : deadlineSeen s g h = false ∨ h.opcode = coBarrier :=
        hwait.imp_left fun hseen => Bool.eq_false_iff.mpr fun hs => hseen (deadlineSeen_iff.mp hs)
      rw [hexec, foldStart_waits hhead habort hmissing hwait']
    · have hready' : s.localCount g ≤ (s.instContribs g i).length ∨ deadlineSeen s g h = true ∧ h.opcode ≠ coBarrier :=
        hready.imp_right fun ⟨hs, hop⟩ => ⟨deadlineSeen_iff.mpr hs, hop⟩
      rw [hexec, foldStart_folds hhead habort hready' hstatus hcs]
      exact ⟨_, foldedState s g i h, rfl, rfl, rfl⟩
  · exact ⟨hubPassed hub g s, congrArg _ (if_pos ⟨hhub, hg⟩), rfl, hubPast_hubPassed_same hub g s,
      fun h' g' d h => hubPast_hubPassed_other h s d⟩
  · have hoff : Csr.colGrpCfg g + 8 * word < 0x800010 := by show 0x610000 + 0x20 * g + 8 * word < _; omega
    obtain ⟨hframe, hsets⟩ := restarted_of_sets (genWrite_csrOnly s v hoff) (entryWritten_sets g word v s) g
    exact ⟨_, restarted g (entryWritten g word v s), exec_colGrpWrite_of_word v s hg hword, hframe, hsets, rfl⟩

/-- Settles O46: a collective's result is delivered to the contributions of its group, a COLL contributes to the next
one, and a group's streams are folded and handed on as the ranks say. -/
theorem collectivesFold : Obligations.CollectivesFold := ⟨collectivesDeliver, collInstruction, collStreams⟩

end Sys2Proof.Proofs
end

section
/-! PROOFS. A step on an empty queue (spec/09_datum_time.md R289; spec/15_power_droop_thermal.md R437): first counters
that count one after another, then the counters of one partition, then those of the block. -/
namespace Sys2Proof.Proofs

open Sys2Proof Sys2Proof.Machine Sys2Proof.Claims Sys2Proof.Laws

/-! ## Counters -/

/-- The register at an offset as one counter of 64 bits. -/
abbrev counter (o : Nat) : Fld := ⟨o, 0, 64⟩

/-- One event counted on each register of a list. -/
def countEach (s : State) (os : List Nat) : State := os.foldl (fun s o => s.addFld (counter o) 1) s

theorem countEach_append (s : State) (os os' : List Nat) : countEach s (os ++ os') = countEach (countEach s os) os' :=
  List.foldl_append

theorem countEach_frame (s : State) (os : List Nat) : countEach s os = { s with csr := (countEach s os).csr } :=
  csrOnly_foldl (fun _ _ => rfl) os s

theorem word_countEach_other {s : State} {os : List Nat} {o : Nat} (h : o ∉ os) : (countEach s os).word o = s.word o := by
  induction os generalizing s with
  | nil => rfl
  | cons o' os ih =>
    obtain ⟨hne, hos⟩ := not_or.mp fun hmem => h (List.mem_cons.mpr hmem)
    exact (ih hos).trans (word_setFld_other s _ _ o hne)

theorem fld_addFld_counter (s : State) (o o' : Nat) : (s.addFld (counter o') 1).fld (counter o) =
    if o = o' then min (2 ^ 64 - 1) (s.fld (counter o) + 1) else s.fld (counter o) := by
  have hw : (counter o').lo + (counter o').w ≤ 64 := Nat.le_refl 64
  split
  · next h =>
    subst h
    exact (fld_setFld_same s _ _ hw).trans (Nat.mod_eq_of_lt (Nat.lt_of_le_of_lt (min_le_left ..) (by simp)))
  · next h => exact fld_setFld_other s _ _ _ hw (.inl h)

/-- A counter counts as often as it is listed, up to its greatest value. -/
theorem fld_countEach (s : State) (os : List Nat) (o : Nat) :
    (countEach s os).fld (counter o) = min (2 ^ 64 - 1) (s.fld (counter o) + os.count o) := by
  induction os generalizing s with
  | nil => exact (Nat.min_eq_right (Nat.le_sub_one_of_lt (fld_lt s (counter o)))).symm
  | cons o' os ih =>
    refine (ih _).trans ?_
    rw [fld_addFld_counter, List.count_cons]
    by_cases h : o = o'
    · simp only [h, if_true, beq_self_eq_true]; omega
    · rw [if_neg h, if_neg (by simpa using Ne.symm h), Nat.add_zero]

/-- What lies in one list of a family alone is counted there. -/
theorem count_flatMap_single {l : List Nat} {g : Nat → List Nat} {p o : Nat} (hl : l.Nodup) (hp : p ∈ l)
    (h : ∀ q ∈ l, q ≠ p → o ∉ g q) : (l.flatMap g).count o = (g p).count o := by
  obtain ⟨below, above, rfl⟩ := List.append_of_mem hp
  obtain ⟨-, hnodup, hapart⟩ := List.nodup_append.mp hl
  have hzero (m : List Nat) (hsub : m ⊆ below ++ p :: above) (hm : p ∉ m) : (m.flatMap g).count o = 0 := by
    rw [List.count_eq_zero, List.mem_flatMap]
    rintro ⟨q, hq, hmem⟩
    exact h q (hsub hq) (fun heq => hm (heq ▸ hq)) hmem
  have hbelow := hzero below (by simp) fun hmem => hapart p hmem p List.mem_cons_self rfl
  have habove := hzero above (by simp) (List.nodup_cons.mp hnodup).1
  simp only [List.flatMap_append, List.flatMap_cons, List.count_append, hbelow, habove, Nat.zero_add, Nat.add_zero]

/-! ## The counters of a partition -/

/-- Where the cycle counters lie: among the registers of throttle reasons and of phase timers. -/
abbrev AmongCycles (o : Nat) : Prop := 0x202000 ≤ o ∧ o < 0x300000 ∨ 0x301000 ≤ o

/-- `t` follows from `s` by cycles counted: what decides which counters count is as it was. -/
structure CycledOnly (s t : State) : Prop where
  power : t.power = s.power
  tiles : t.tiles = s.tiles
  words : ∀ o, ¬ AmongCycles o → t.word o = s.word o

theorem CycledOnly.countEach {s t : State} (h : CycledOnly s t) {os : List Nat} (hos : ∀ o ∈ os, AmongCycles o) :
    CycledOnly s (countEach t os) where
  power := (congrArg State.power (countEach_frame t os)).trans h.power
  tiles := (congrArg State.tiles (countEach_frame t os)).trans h.tiles
  words o ho := (word_countEach_other fun hmem => ho (hos o hmem)).trans (h.words o ho)

/-- The reasons that are active read no cycle counter. -/
theorem CycledOnly.reason {s t : State} (h : CycledOnly s t) {p : Nat} (hp : p < 32) (r : Nat) :
    t.reason p r = s.reason p r := by
  obtain ⟨hpower, -, hword⟩ := h
  have hfld (f : Fld) (hf : f.off < 0x202000 ∨ f.off = 0x300200) : t.fld f = s.fld f :=
    congrArg (bits · f.lo f.w) (hword f.off (by omega))
  have hmost (n : Nat) : t.opAtMost n = s.opAtMost n := by
    have henabled : t.opEnabled = s.opEnabled := by
      funext k
      rw [State.opEnabled, State.opEnabled, State.opOn, State.opOn, hpower, hfld Csr.dtmModeCur_op_max (.inr rfl)]
    rw [State.opAtMost, State.opAtMost, henabled]
  have hsts (lo w : Nat) : t.fld ⟨Csr.pwrSts, lo, w⟩ = s.fld ⟨Csr.pwrSts, lo, w⟩ :=
    hfld _ (.inl (by show 0x200000 < _; decide))
  have htemp (lo w : Nat) : t.fld ⟨Csr.pwrTemp (p / 2), lo, w⟩ = s.fld ⟨Csr.pwrTemp (p / 2), lo, w⟩ :=
    hfld _ (.inl (by show 0x200400 + 0x8 * (p / 2) < _; omega))
  have hdroop : t.fld (Csr.pwrDroop_div (p / 2)) = s.fld (Csr.pwrDroop_div (p / 2)) :=
    hfld _ (.inl (by show 0x200200 + 0x8 * (p / 2) < _; omega))
  have hclk : t.fld (Csr.clkSrc_cur (p / 2)) = s.fld (Csr.clkSrc_cur (p / 2)) :=
    hfld _ (.inl (by show 0x101018 + 0x40 * (p / 2) < _; omega))
  unfold State.reason
  simp only [hfld Csr.dtmModeCur_op_max (.inr rfl), hmost, hsts, htemp, hdroop, hclk, hpower]

/-- The tiles of a partition that run, in the list of tiles. -/
def runningTiles (s : State) (p : Nat) : NMap Tile := s.tiles.filter (fun e => partOf e.1 == p && e.2.state == tsRunning)

/-- The phase timers that a TCLK cycle counts on a partition (R289). -/
def phaseCounters (s : State) (p : Nat) : List Nat := (runningTiles s p).map (fun e => Csr.dtmPtCycles p e.2.phase)

/-- The throttle reasons that a TCLK cycle counts on a partition (R437). -/
def reasonCounters (s : State) (p : Nat) : List Nat := ((List.range 5).filter (s.reason p)).map (Csr.pwrThrCycles p)

/-- The counters that a TCLK cycle counts on a partition. -/
def cycleCounters (s : State) (p : Nat) : List Nat := phaseCounters s p ++ reasonCounters s p

theorem mem_phaseCounters {s : State} {p o : Nat} :
    o ∈ phaseCounters s p ↔ ∃ e ∈ runningTiles s p, Csr.dtmPtCycles p e.2.phase = o := List.mem_map

theorem eq_of_mem_reasonCounters {s : State} {p o : Nat} (h : o ∈ reasonCounters s p) :
    ∃ r < 5, o = Csr.pwrThrCycles p r := by
  obtain ⟨r, hr, rfl⟩ := List.mem_map.mp h
  exact ⟨r, List.mem_range.mp (List.mem_of_mem_filter hr), rfl⟩

theorem phaseCycles_eq {s u : State} (h : CycledOnly s u) (p : Nat) : u.phaseCycles p = countEach u (phaseCounters s p) := by
  rw [countEach, phaseCounters, List.foldl_map, runningTiles, ← h.tiles]
  rfl

theorem amongCycles_thr {p r : Nat} (hp : p < 32) (hr : r < 5) : AmongCycles (Csr.pwrThrCycles p r) := by
  show AmongCycles (0x202008 + 0x80 * p + 0x10 * r); omega

theorem amongCycles_pt (p k : Nat) : AmongCycles (Csr.dtmPtCycles p k) := by
  show AmongCycles (0x301000 + 0x100 * p + 0x10 * k); omega

theorem reasonCycles_eq {s u : State} (h : CycledOnly s u) {p : Nat} (hp : p < 32) :
    u.reasonCycles p = countEach u (reasonCounters s p) := by
  have upTo (l : List Nat) (hl : ∀ r ∈ l, r < 5) (u : State) (h : CycledOnly s u) :
      l.foldl (fun s r => if s.reason p r then s.addFld (Csr.pwrThrCycles_cycles p r) 1 else s) u =
        countEach u ((l.filter (s.reason p)).map (Csr.pwrThrCycles p)) := by
    induction l generalizing u with
    | nil => rfl
    | cons r l ih =>
      obtain ⟨hr, hl⟩ := List.forall_mem_cons.mp hl
      rw [List.foldl_cons, h.reason hp, List.filter_cons]
      split
      · exact ih hl _ (h.countEach (os := [Csr.pwrThrCycles p r]) (by simpa using amongCycles_thr hp hr))
      · exact ih hl u h
  exact upTo _ (fun r hr => List.mem_range.mp hr) u h

theorem amongCycles_of_mem {s : State} {p o : Nat} (hp : p < 32) (ho : o ∈ cycleCounters s p) : AmongCycles o := by
  obtain hpt | hthr := List.mem_append.mp ho
  · obtain ⟨e, -, rfl⟩ := mem_phaseCounters.mp hpt
    exact amongCycles_pt ..
  · obtain ⟨r, hr, rfl⟩ := eq_of_mem_reasonCounters hthr
    exact amongCycles_thr hp hr

theorem partCycle_eq {s u : State} (h : CycledOnly s u) {p : Nat} (hp : p < 32) :
    (u.phaseCycles p).reasonCycles p = countEach u (cycleCounters s p) := by
  have hphase := h.countEach fun o (ho : o ∈ phaseCounters s p) => amongCycles_of_mem hp (List.mem_append_left _ ho)
  rw [phaseCycles_eq h, reasonCycles_eq hphase hp, ← countEach_append, cycleCounters]

/-! ## The counters of the block -/

/-- The two partitions of a die (R236). -/
abbrev diePartitions (d : Nat) : List Nat := [2 * d, 2 * d + 1]

/-- The cycle counts of dies, one more on each of the first `n`. -/
def diesCycled (s : State) (n : Nat) : NMap Nat :=
  (List.range n).foldl (fun c d => NMap.set (fun _ => 0) c d (NMap.get (fun _ => 0) c d + 1)) s.cycles

theorem diesCycled_succ (s : State) (n : Nat) : diesCycled s (n + 1) =
    NMap.set (fun _ => 0) (diesCycled s n) n (NMap.get (fun _ => 0) (diesCycled s n) n + 1) := by
  simp only [diesCycled, List.range_succ, List.foldl_append, List.foldl_cons, List.foldl_nil]

theorem get_diesCycled (s : State) (n d : Nat) : NMap.get (fun _ => 0) (diesCycled s n) d =
    NMap.get (fun _ => 0) s.cycles d + if d < n then 1 else 0 := by
  induction n generalizing d with
  | zero => rfl
  | succ n ih =>
    rw [diesCycled_succ, nmap_get_set, ih, ih]
    grind

/-- The block with other cycle counts of its dies. -/
abbrev withCycles (s : State) (c : NMap Nat) : State := { s with cycles := c }

theorem countEach_withCycles (s : State) (c : NMap Nat) (os : List Nat) :
    countEach (withCycles s c) os = withCycles (countEach s os) c := by
  induction os generalizing s with
  | nil => rfl
  | cons o os ih => exact ih (s.addFld (counter o) 1)

theorem dieCycle_eq {s u : State} (h : CycledOnly s u) {d : Nat} (hd : d < 16) : u.dieCycle d =
    withCycles (countEach u ((diePartitions d).flatMap (cycleCounters s)))
      (NMap.set (fun _ => 0) u.cycles d (NMap.get (fun _ => 0) u.cycles d + 1)) := by
  have hu : CycledOnly s (withCycles u (NMap.set (fun _ => 0) u.cycles d (NMap.get (fun _ => 0) u.cycles d + 1))) :=
    ⟨h.power, h.tiles, h.words⟩
  have hfirst := hu.countEach fun o (ho : o ∈ cycleCounters s (2 * d)) => amongCycles_of_mem (by omega) ho
  have hpair : (diePartitions d).flatMap (cycleCounters s) = cycleCounters s (2 * d) ++ cycleCounters s (2 * d + 1) := by
    simp
  rw [hpair, ← countEach_withCycles, countEach_append, ← partCycle_eq hfirst (by omega), ← partCycle_eq hu (by omega)]
  rfl

/-- The counters that a TCLK cycle counts on the first `n` dies. -/
def diesCounters (s : State) (n : Nat) : List Nat :=
  (List.range n).flatMap fun d => (diePartitions d).flatMap (cycleCounters s)

theorem amongCycles_of_mem_dies {s : State} {n o : Nat} (hn : n ≤ 16) (ho : o ∈ diesCounters s n) : AmongCycles o := by
  simp only [diesCounters, List.mem_flatMap, List.mem_range] at ho
  obtain ⟨d, hd, p, hp, ho⟩ := ho
  have : p = 2 * d ∨ p = 2 * d + 1 := by simpa using hp
  exact amongCycles_of_mem (by omega) ho

/-- The dies' cycles counted, die after die. -/
theorem foldl_dieCycle (s : State) {n : Nat} (hn : n ≤ 16) :
    (List.range n).foldl State.dieCycle s = withCycles (countEach s (diesCounters s n)) (diesCycled s n) := by
  induction n with
  | zero => rfl
  | succ n ih =>
    have hcounted := CycledOnly.countEach (s := s) ⟨rfl, rfl, fun _ _ => rfl⟩ fun o (ho : o ∈ diesCounters s n) =>
      amongCycles_of_mem_dies (by omega) ho
    have hu : CycledOnly s (withCycles (countEach s (diesCounters s n)) (diesCycled s n)) :=
      ⟨hcounted.power, hcounted.tiles, hcounted.words⟩
    have hcounters : diesCounters s (n + 1) = diesCounters s n ++ (diePartitions n).flatMap (cycleCounters s) := by
      simp only [diesCounters, List.range_succ, List.flatMap_append, List.flatMap_singleton]
    rw [List.range_succ, List.foldl_append, ih (by omega), List.foldl_cons, List.foldl_nil, dieCycle_eq hu hn, hcounters,
      countEach_append, diesCycled_succ, countEach_withCycles]

/-- The registers that count, partition after partition. -/
theorem diesCounters_eq (s : State) : diesCounters s 16 = (List.range 32).flatMap (cycleCounters s) := by
  have hrange : List.range 32 = (List.range 16).flatMap diePartitions := by decide
  rw [hrange, List.flatMap_assoc]
  rfl

theorem mem_cycleCounters {s : State} (hphase : ∀ e ∈ s.tiles, e.2.phase < 16) {p o : Nat}
    (ho : o ∈ cycleCounters s p) : (∃ k < 16, o = Csr.dtmPtCycles p k) ∨ ∃ r < 5, o = Csr.pwrThrCycles p r := by
  refine (List.mem_append.mp ho).imp (fun hpt => ?_) eq_of_mem_reasonCounters
  obtain ⟨e, he, rfl⟩ := mem_phaseCounters.mp hpt
  exact ⟨_, hphase e (List.mem_of_mem_filter he), rfl⟩

theorem dtmPtCycles_injective (p : Nat) : Function.Injective (Csr.dtmPtCycles p) := by
  intro k k' h
  replace h : 0x301000 + 0x100 * p + 0x10 * k = 0x301000 + 0x100 * p + 0x10 * k' := h
  omega

theorem pwrThrCycles_injective (p : Nat) : Function.Injective (Csr.pwrThrCycles p) := by
  intro r r' h
  replace h : 0x202008 + 0x80 * p + 0x10 * r = 0x202008 + 0x80 * p + 0x10 * r' := h
  omega

theorem dtmPtCycles_ne_pwrThrCycles (p k q r : Nat) : Csr.dtmPtCycles p k ≠ Csr.pwrThrCycles q r := by
  show 0x301000 + 0x100 * p + 0x10 * k ≠ 0x202008 + 0x80 * q + 0x10 * r; omega

/-- A phase timer counts each tile that runs in its slot. -/
theorem count_dtmPtCycles {s : State} (hphase : ∀ e ∈ s.tiles, e.2.phase < 16) {p k : Nat} (hp : p < 32) (hk : k < 16) :
    (diesCounters s 16).count (Csr.dtmPtCycles p k) =
      (s.tiles.filter (fun e => partOf e.1 == p && e.2.state == tsRunning && e.2.phase == k)).length := by
  rw [diesCounters_eq, count_flatMap_single List.nodup_range (List.mem_range.mpr hp)]
  · have hthr : Csr.dtmPtCycles p k ∉ reasonCounters s p := fun hmem => by
      obtain ⟨r, -, heq⟩ := eq_of_mem_reasonCounters hmem
      exact dtmPtCycles_ne_pwrThrCycles _ _ _ _ heq
    have hmap : phaseCounters s p = ((runningTiles s p).map (fun e => e.2.phase)).map (Csr.dtmPtCycles p) := by
      rw [List.map_map]; rfl
    rw [cycleCounters, List.count_append, List.count_eq_zero_of_not_mem hthr, hmap,
      List.count_map_of_injective _ _ (dtmPtCycles_injective p), List.count_eq_countP, List.countP_map, runningTiles,
      List.countP_filter, List.countP_eq_length_filter]
    exact congrArg List.length (List.filter_congr fun e _ => Bool.and_comm ..)
  · intro q hq hne hmem
    obtain ⟨k', hk', heq⟩ | ⟨r, hr, heq⟩ := mem_cycleCounters hphase hmem
    · replace heq : 0x301000 + 0x100 * p + 0x10 * k = 0x301000 + 0x100 * q + 0x10 * k' := heq
      omega
    · exact dtmPtCycles_ne_pwrThrCycles _ _ _ _ heq

/-- A throttle reason counts where it is active. -/
theorem count_pwrThrCycles {s : State} (hphase : ∀ e ∈ s.tiles, e.2.phase < 16) {p r : Nat} (hp : p < 32) (hr : r < 5) :
    (diesCounters s 16).count (Csr.pwrThrCycles p r) = if s.reason p r then 1 else 0 := by
  rw [diesCounters_eq, count_flatMap_single List.nodup_range (List.mem_range.mpr hp)]
  · have hpt : Csr.pwrThrCycles p r ∉ phaseCounters s p := fun hmem => by
      obtain ⟨e, -, heq⟩ := mem_phaseCounters.mp hmem
      exact dtmPtCycles_ne_pwrThrCycles _ _ _ _ heq
    rw [cycleCounters, List.count_append, List.count_eq_zero_of_not_mem hpt, reasonCounters,
      List.count_map_of_injective _ _ (pwrThrCycles_injective p), Nat.zero_add]
    split
    · next h => rw [List.count_filter h, List.count_eq_one_of_mem List.nodup_range (List.mem_range.mpr hr)]
    · next h => exact List.count_eq_zero_of_not_mem fun hmem => h (List.of_mem_filter hmem)
  · intro q hq hne hmem
    obtain ⟨k, hk, heq⟩ | ⟨r', hr', heq⟩ := mem_cycleCounters hphase hmem
    · exact dtmPtCycles_ne_pwrThrCycles _ _ _ _ heq.symm
    · replace heq : 0x202008 + 0x80 * p + 0x10 * r = 0x202008 + 0x80 * q + 0x10 * r' := heq
      omega

theorem tclkCycle_eq {s : State} (hrun : s.frozen = false) :
    ∃ c, s.tclkCycle = withCycles (countEach s (diesCounters s 16)) c ∧ ∀ d,
      NMap.get (fun _ => 0) c d = NMap.get (fun _ => 0) s.cycles d + if d < 16 then 1 else 0 := by
  refine ⟨diesCycled s 16, ?_, fun d => get_diesCycled s 16 d⟩
  rw [State.tclkCycle, hrun, ← foldl_dieCycle s le_rfl]
  rfl

theorem step_of_empty {s : State} (hqueue : s.pending = []) : step s = .next s.tclkCycle := by
  rw [step, hqueue]

/-- Settles O54: with the clocks running the step counts each counter as often as a TCLK cycle lists it. -/
theorem emptyQueueRunsOneCycle : Obligations.EmptyQueueRunsOneCycle := by
  refine ⟨fun s hqueue hfrozen => ?_, fun s hqueue hrun hphase => ?_⟩
  · rw [step_of_empty hqueue, State.tclkCycle, if_pos hfrozen]
  · obtain ⟨c, hcycle, hget⟩ := tclkCycle_eq hrun
    refine ⟨withCycles (countEach s (diesCounters s 16)) c, (step_of_empty hqueue).trans (congrArg _ hcycle), ?_,
      hget, fun p hp k hk => ?_, fun p hp r hr => ?_, fun o hpt hthr => ?_⟩
    · rw [countEach_frame]
    · rw [← count_dtmPtCycles hphase hp hk]
      exact fld_countEach s _ _
    · rw [← count_pwrThrCycles hphase hp hr]
      exact fld_countEach s _ _
    · refine word_countEach_other fun hmem => ?_
      rw [diesCounters_eq, List.mem_flatMap] at hmem
      obtain ⟨p, hp, hmem⟩ := hmem
      obtain ⟨k, hk, heq⟩ | ⟨r, hr, heq⟩ := mem_cycleCounters hphase hmem
      · exact hpt p (List.mem_range.mp hp) k hk heq
      · exact hthr p (List.mem_range.mp hp) r hr heq

end Sys2Proof.Proofs
end

section
/-! PROOFS. The registers of the Datum unit (spec/09_datum_time.md R275, R276, R278, R279, R283): first registers whose
fields all read what was written, then the count with its holdover, then the writes. -/
namespace Sys2Proof.Proofs

open Sys2Proof Sys2Proof.Machine Sys2Proof.Claims Sys2Proof.Laws

/-! ## Registers that read what was written -/

/-- A field of a device register read off two states whose register reads the same. -/
theorem devFld_of_word {s t : State} {f : Fld} (h : t.word f.off = s.word f.off) : t.fld f = s.fld f :=
  congrArg (bits · f.lo f.w) h

/-- A field that is set takes its value, where the value fits. -/
theorem fld_of_mem_sets {fs : List (Fld × Nat)} {s t : State} (h : Sets fs s t) {f : Fld} {v : Nat} (hmem : (f, v) ∈ fs)
    (hv : v < 2 ^ f.w) : t.fld f = v := (h.2.1 _ hmem).trans (Nat.mod_eq_of_lt hv)

/-- A register with no fields but RW ones takes each of them from the word written. -/
theorem sets_genWrite_rw (s : State) {off : Nat} {r : RegRow} {ix : List Nat} (v : W64)
    (hr : findReg deviceRegs off = some (r, ix)) (hrw : ∀ g ∈ r.fields, g.ty = .rw) :
    Sets (r.fields.map fun g => (⟨off, g.lo, g.w⟩, bits v g.lo g.w)) s (s.genWrite off v) := by
  have hlck : ∀ g ∈ r.fields, g.ty ≠ .lck := fun g hg => by rw [hrw g hg]; decide
  have heq := genWrite_eq_setWord s v hr hlck
  refine ⟨by rw [heq]; rfl, fun p hp => ?_, fun o b hb => ?_⟩
  · obtain ⟨⟨lo, w, ty, reset⟩, hg, rfl⟩ := List.mem_map.mp hp
    obtain rfl : ty = .rw := hrw _ hg
    exact (fld_genWrite_rw s (f := ⟨off, lo, w⟩) v hr hlck hg).trans (Nat.mod_eq_of_lt (bits_lt ..)).symm
  · by_cases ho : o = off
    · subst ho
      rw [heq, word_setWord_same, getLsbD_rowWrite_none]
      intro g hg ⟨hlo, hhi⟩
      have := hb _ (List.mem_map_of_mem hg)
      dsimp only at this
      omega
    · rw [heq, word_setWord, if_neg ho]

theorem word_withDatum (s : State) (d : Datum) (o : Nat) : ({ s with datum := d } : State).word o = s.word o := rfl

/-- The same fields set beside the record of the Datum unit. -/
theorem sets_withDatum {fs : List (Fld × Nat)} {s t : State} (h : Sets fs s t) (d : Datum) :
    Sets fs { s with datum := d } { t with datum := d } := by
  obtain ⟨hframe, hval, hrest⟩ := h
  exact ⟨by rw [hframe], hval, hrest⟩

/-! ## The count -/

/-- What the holdover of the Datum unit leaves of the block. -/
structure HoldKeeps (s t : State) : Prop where
  count : t.count = s.count
  tiles : t.tiles = s.tiles
  otp : t.otp = s.otp
  pending : t.pending = s.pending
  load : t.datum.load = s.datum.load
  edge : t.datum.edge = s.datum.edge

theorem HoldKeeps.trans {s t u : State} (h : HoldKeeps s t) (k : HoldKeeps t u) : HoldKeeps s u :=
  ⟨k.count.trans h.count, k.tiles.trans h.tiles, k.otp.trans h.otp, k.pending.trans h.pending, k.load.trans h.load,
    k.edge.trans h.edge⟩

/-- An event of the Datum unit leaves the registers below those of partitions. -/
theorem word_raiseDatum (s : State) (code sev : Nat) {o : Nat} (ho : o < 0x700000) :
    (s.raiseDatum code sev).word o = s.word o := (raiseM_frame s _).low o ho

/-- The registers as a tick generated in HOLDOVER leaves them (R279). -/
def holdCounted (s : State) : State :=
  let u := s.addFld Csr.dtmSts_hold_ticks 1
  u.setFld Csr.dtmHold_bound_ns (min (2 ^ 32 - 1) (driftBound (u.fld Csr.dtmSts_hold_ticks) u.datum.frozen u.wander))

theorem sets_holdCounted (s : State) :
    let ticks := min (2 ^ 32 - 1) (s.fld Csr.dtmSts_hold_ticks + 1)
    Sets [(Csr.dtmSts_hold_ticks, ticks),
      (Csr.dtmHold_bound_ns, min (2 ^ 32 - 1) (driftBound ticks s.datum.frozen s.wander))] s (holdCounted s) := by
  intro ticks
  have hticks : Sets [(Csr.dtmSts_hold_ticks, ticks)] s (s.addFld Csr.dtmSts_hold_ticks 1) := sets_setFld s _ (by decide)
  have hval : (s.addFld Csr.dtmSts_hold_ticks 1).fld Csr.dtmSts_hold_ticks = ticks :=
    fld_of_mem_sets hticks List.mem_cons_self (show ticks < 2 ^ 32 by omega)
  have hother (f : Fld) (hf : f.off ≠ Csr.dtmSts) : (s.addFld Csr.dtmSts_hold_ticks 1).fld f = s.fld f :=
    fld_setFld_other s _ _ _ (by decide) (.inl hf)
  have hwander : (s.addFld Csr.dtmSts_hold_ticks 1).wander = s.wander := by
    rw [State.wander, State.flag, hother Csr.clkSts_lost_state (by decide), hother (Csr.clkSrc_cur 16) (by decide),
      hother Csr.dtmCtl_wander_ppb (by decide)]
    rfl
  have hbound := sets_append_setFld hticks (f := Csr.dtmHold_bound_ns) (by decide) (by simp [Apart])
    (min (2 ^ 32 - 1) (driftBound ticks s.datum.frozen s.wander))
  rw [holdCounted, hval, hwander, addFld_datum]
  exact hbound

theorem holdTick_cases (s : State) : s.holdTick = holdCounted s ∨
    s.holdTick = ({ holdCounted s with datum := { (holdCounted s).datum with limited := true } } : State).raiseDatum 0x0303
      sevWarn := by
  unfold State.holdTick holdCounted
  dsimp only
  split
  · exact .inr rfl
  · exact .inl rfl

theorem holdTick_keeps (s : State) : HoldKeeps s s.holdTick := by
  have hframe := (sets_holdCounted s).1
  obtain h | h := holdTick_cases s <;> rw [h, hframe]
  · exact ⟨rfl, rfl, rfl, rfl, rfl, rfl⟩
  · constructor <;> simp [State.raiseDatum]

theorem word_holdTick (s : State) {o : Nat} (ho : o < 0x700000) : s.holdTick.word o = (holdCounted s).word o := by
  obtain h | h := holdTick_cases s <;> rw [h]
  exact (word_raiseDatum _ _ _ ho).trans (word_withDatum ..)

/-- The registers as HOLDOVER is entered (R279). -/
def holdEntered (s : State) (d : Datum) : State :=
  (((({ s with datum := d }.setFld Csr.dtmSts_state dsHoldover).setFld Csr.dtmSts_holdover 1).setFld Csr.dtmSts_hold_seen
    1).setFld Csr.dtmSts_hold_ticks 0).setFld Csr.dtmHold_bound_ns 2

/-- The registers of HOLDOVER as it begins. -/
theorem sets_holdEntered (s : State) (d : Datum) : Sets [(Csr.dtmSts_state, dsHoldover), (Csr.dtmSts_holdover, 1),
    (Csr.dtmSts_hold_seen, 1), (Csr.dtmSts_hold_ticks, 0), (Csr.dtmHold_bound_ns, 2)] { s with datum := d } (holdEntered s d) := by
  have hstate := sets_setFld { s with datum := d } (f := Csr.dtmSts_state) dsHoldover (by decide)
  have hholdover := sets_append_setFld hstate (f := Csr.dtmSts_holdover) (by decide) (by decide) 1
  have hseen := sets_append_setFld hholdover (f := Csr.dtmSts_hold_seen) (by decide) (by decide) 1
  have hticks := sets_append_setFld hseen (f := Csr.dtmSts_hold_ticks) (by decide) (by decide) 0
  exact sets_append_setFld hticks (f := Csr.dtmHold_bound_ns) (by decide) (by decide) 2

theorem enterHoldover_eq (s : State) : s.enterHoldover = (holdEntered s { s.datum with
    frozen := s.pNow, run := 0, limited := false, early := none, empty := 0 }).raiseDatum 0x0301 sevWarn := rfl

theorem enterHoldover_keeps (s : State) : HoldKeeps s s.enterHoldover := by
  rw [enterHoldover_eq, (sets_holdEntered ..).1]
  constructor <;> simp [State.raiseDatum]

/-- The block at a tick, with the count and the record of the unit that it leads to (R275, R278). -/
def ticked (s : State) : State :=
  { s with
    count := s.datum.load.getD (s.count + 1), collPast := if s.datum.load.isSome then [] else s.collPast,
    datum := { s.datum with load := none, tickAt := s.datum.tickAt + s.datum.next, edge := false, lag := s.datum.lag + 1
                            empty := if s.datum.edge then 0 else s.datum.empty + 1 } }

/-- The tick in HOLDOVER, into HOLDOVER and elsewhere (R279). -/
def heldOver (s : State) : State :=
  if s.fld Csr.dtmSts_state = dsHoldover then s.holdTick
  else if (s.fld Csr.dtmSts_state = dsSlew ∨ s.fld Csr.dtmSts_state = dsLocked) ∧ 2 ≤ s.datum.empty then s.enterHoldover
  else s

theorem heldOver_keeps (s : State) : HoldKeeps s (heldOver s) := by
  unfold heldOver
  split
  · exact holdTick_keeps s
  · split
    · exact enterHoldover_keeps s
    · exact ⟨rfl, rfl, rfl, rfl, rfl, rfl⟩

/-- The interval that begins at a tick. -/
def intervalBegun (s : State) : State :=
  { s with datum := { s.datum with next := s.nextInterval (s.datum.early.getD 0), early := none } }

theorem execDatumTick_of_running {s : State} (hrun : s.frozen = false) :
    execDatumTick s = .next (intervalBegun (heldOver (ticked s))).showPhase := by
  rw [execDatumTick, if_neg (by simp [hrun])]
  rfl

theorem word_showPhase (s : State) {o : Nat} (ho : o ≠ Csr.dtmPhase) : s.showPhase.word o = s.word o := by
  rw [State.showPhase, word_setFld_other _ _ _ _ ho, word_setFld_other _ _ _ _ ho]

theorem showPhase_frame (s : State) : s.showPhase = { s with csr := s.showPhase.csr } := rfl

theorem shown_keeps (s : State) : HoldKeeps s (intervalBegun s).showPhase := by
  rw [showPhase_frame]
  exact ⟨rfl, rfl, rfl, rfl, rfl, rfl⟩

theorem word_shown (s : State) {o : Nat} (ho : o ≠ Csr.dtmPhase) : (intervalBegun s).showPhase.word o = s.word o :=
  (word_showPhase _ ho).trans (word_withDatum ..)

theorem word_ticked (s : State) (o : Nat) : (ticked s).word o = s.word o := rfl

theorem fld_ticked (s : State) (f : Fld) : (ticked s).fld f = s.fld f := rfl

theorem wander_ticked (s : State) : (ticked s).wander = s.wander := rfl

/-- A tick in HOLDOVER counts it and computes the bound anew (R279). -/
theorem heldOver_counts {s : State} (hhold : s.fld Csr.dtmSts_state = dsHoldover) :
    (heldOver s).fld Csr.dtmSts_state = dsHoldover ∧
    (heldOver s).fld Csr.dtmSts_hold_ticks = min (2 ^ 32 - 1) (s.fld Csr.dtmSts_hold_ticks + 1) ∧
    (heldOver s).fld Csr.dtmHold_bound_ns =
      min (2 ^ 32 - 1) (driftBound ((heldOver s).fld Csr.dtmSts_hold_ticks) s.datum.frozen s.wander) := by
  have hsets := sets_holdCounted s
  have hfld (f : Fld) (hf : f.off < 0x700000) : (heldOver s).fld f = (holdCounted s).fld f := by
    rw [heldOver, if_pos hhold]
    exact devFld_of_word (word_holdTick s hf)
  have hticks : (heldOver s).fld Csr.dtmSts_hold_ticks = min (2 ^ 32 - 1) (s.fld Csr.dtmSts_hold_ticks + 1) :=
    (hfld _ (by decide)).trans (fld_of_mem_sets hsets (by simp) (Nat.lt_of_le_of_lt (min_le_left ..) (by decide)))
  refine ⟨(hfld _ (by decide)).trans ((fld_of_sets hsets (by simp [Apart])).trans hhold), hticks, ?_⟩
  rw [hticks, hfld _ (by decide)]
  exact fld_of_mem_sets hsets (by simp) (Nat.lt_of_le_of_lt (min_le_left ..) (by decide))

/-- A second tick interval without an edge enters HOLDOVER (R279). -/
theorem heldOver_enters {s : State} (hhold : s.fld Csr.dtmSts_state ≠ dsHoldover)
    (hlost : (s.fld Csr.dtmSts_state = dsSlew ∨ s.fld Csr.dtmSts_state = dsLocked) ∧ 2 ≤ s.datum.empty) :
    (heldOver s).fld Csr.dtmSts_state = dsHoldover ∧ (heldOver s).fld Csr.dtmSts_holdover = 1 ∧
    (heldOver s).fld Csr.dtmSts_hold_seen = 1 ∧ (heldOver s).fld Csr.dtmSts_hold_ticks = 0 ∧
    (heldOver s).fld Csr.dtmHold_bound_ns = 2 := by
  have hfld {f : Fld} {v : Nat} (hf : f.off < 0x700000) (hmem : (f, v) ∈ [(Csr.dtmSts_state, dsHoldover),
      (Csr.dtmSts_holdover, 1), (Csr.dtmSts_hold_seen, 1), (Csr.dtmSts_hold_ticks, 0), (Csr.dtmHold_bound_ns, 2)])
      (hv : v < 2 ^ f.w) : (heldOver s).fld f = v := by
    rw [heldOver, if_neg hhold, if_pos hlost, enterHoldover_eq]
    exact (devFld_of_word (word_raiseDatum _ _ _ hf)).trans (fld_of_mem_sets (sets_holdEntered ..) hmem hv)
  exact ⟨hfld (by decide) (by decide) (by decide), hfld (by decide) (by decide) (by decide),
    hfld (by decide) (by decide) (by decide), hfld (by decide) (by decide) (by decide),
    hfld (by decide) (by decide) (by decide)⟩

theorem datumTick_counts (s : State) (hrun : s.frozen = false) : ∃ t, exec .datumTick s = .next t ∧
    t.count = s.datum.load.getD (s.count + 1) ∧ t.datum.load = none ∧
    t.datum.edge = false ∧ t.tiles = s.tiles ∧ t.otp = s.otp ∧ t.pending = s.pending ∧
    (let empty := if s.datum.edge then 0 else s.datum.empty + 1
     let st := s.fld Csr.dtmSts_state
     if st = dsHoldover then
       t.fld Csr.dtmSts_state = dsHoldover ∧
       t.fld Csr.dtmSts_hold_ticks = min (2 ^ 32 - 1) (s.fld Csr.dtmSts_hold_ticks + 1) ∧
       t.fld Csr.dtmHold_bound_ns =
         min (2 ^ 32 - 1) (driftBound (t.fld Csr.dtmSts_hold_ticks) s.datum.frozen s.wander)
     else if (st = dsSlew ∨ st = dsLocked) ∧ 2 ≤ empty then
       t.fld Csr.dtmSts_state = dsHoldover ∧ t.fld Csr.dtmSts_holdover = 1 ∧ t.fld Csr.dtmSts_hold_seen = 1 ∧
       t.fld Csr.dtmSts_hold_ticks = 0 ∧ t.fld Csr.dtmHold_bound_ns = 2
     else t.fld Csr.dtmSts_state = st ∧ t.word Csr.dtmHold = s.word Csr.dtmHold) := by
  obtain ⟨hcount, htiles, hotp, hpending, hload, hedge⟩ := (heldOver_keeps (ticked s)).trans (shown_keeps _)
  refine ⟨_, execDatumTick_of_running hrun, hcount, hload, hedge, htiles, hotp, hpending, ?_⟩
  have hfld {f : Fld} (hf : f.off ≠ Csr.dtmPhase) :
      (intervalBegun (heldOver (ticked s))).showPhase.fld f = (heldOver (ticked s)).fld f := devFld_of_word (word_shown _ hf)
  dsimp only
  rw [hfld (f := Csr.dtmSts_state) (by decide), hfld (f := Csr.dtmSts_hold_ticks) (by decide),
    hfld (f := Csr.dtmHold_bound_ns) (by decide), hfld (f := Csr.dtmSts_holdover) (by decide),
    hfld (f := Csr.dtmSts_hold_seen) (by decide), word_shown _ (show Csr.dtmHold ≠ Csr.dtmPhase by decide)]
  split
  · next hhold =>
    have h := heldOver_counts (s := ticked s) hhold
    rwa [fld_ticked, wander_ticked] at h
  · next hhold =>
    have hempty : (if s.datum.edge then 0 else s.datum.empty + 1) = (ticked s).datum.empty := rfl
    rw [hempty]
    split
    · next hlost => exact heldOver_enters (s := ticked s) hhold hlost
    · next hlost =>
      have hsame : heldOver (ticked s) = ticked s := (if_neg hhold).trans (if_neg hlost)
      rw [hsame]
      exact ⟨fld_ticked .., word_ticked ..⟩

/-! ## Writes -/

theorem dtmLoad_loads (v : W64) (s : State) : ∃ t, exec (.dtmLoad v) s = .next t ∧
    if s.fld Csr.dtmSts_aligned = 1 then t = s
    else ∃ u, Sets [(Csr.dtmSts_aligned, 1)] { s with datum := { s.datum with load := some v } } u ∧
      t = if s.fld Csr.lnkDisc_state = diFlood then u.enterAlign else u := by
  refine ⟨s.loadCount v, rfl, ?_⟩
  by_cases halign : s.fld Csr.dtmSts_aligned = 1
  · have hflag : s.flag Csr.dtmSts_aligned = true := (flag_iff ..).mpr halign
    rw [if_pos halign, State.loadCount, State.writeDtmLoad, if_pos hflag, hflag, if_neg (by simp)]
  · have hflag : s.flag Csr.dtmSts_aligned = false := (not_flag_iff ..).mpr halign
    rw [if_neg halign]
    refine ⟨_, sets_setFld _ 1 (by decide), ?_⟩
    rw [State.loadCount, State.writeDtmLoad, hflag]
    simp only [Bool.false_eq_true, if_false, true_and]

/-- A write of DTM_CTL with a reserved src put back (R276). -/
def admittedSrc (v old : W64) : W64 := if bits v 0 2 = 3 then w64 (putField v.toNat 0 2 (bits old 0 2)) else v

/-- A write of DTM_CTL with a period out of range put back (R276). -/
def admittedPeriod (v old : W64) : W64 :=
  if 100 ≤ bits v 2 17 ∧ bits v 2 17 ≤ 100000 then v else w64 (putField v.toNat 2 17 (bits old 2 17))

theorem bits_admittedSrc_src (v old : W64) :
    bits (admittedSrc v old) 0 2 = if bits v 0 2 = 3 then bits old 0 2 else bits v 0 2 := by
  unfold admittedSrc
  split
  · exact (bits_put_same _ _ _ _ (by decide)).trans (Nat.mod_eq_of_lt (bits_lt ..))
  · rfl

theorem bits_admittedSrc_other (v old : W64) {lo w : Nat} (hlo : 2 ≤ lo) : bits (admittedSrc v old) lo w = bits v lo w := by
  unfold admittedSrc
  split
  · exact bits_put_other _ _ _ _ _ _ (by decide) (.inr hlo)
  · rfl

theorem bits_admittedPeriod_period (v old : W64) : bits (admittedPeriod v old) 2 17 =
    if 100 ≤ bits v 2 17 ∧ bits v 2 17 ≤ 100000 then bits v 2 17 else bits old 2 17 := by
  unfold admittedPeriod
  split
  · rfl
  · exact (bits_put_same _ _ _ _ (by decide)).trans (Nat.mod_eq_of_lt (bits_lt ..))

theorem bits_admittedPeriod_other (v old : W64) {lo w : Nat} (hapart : lo + w ≤ 2 ∨ 19 ≤ lo) :
    bits (admittedPeriod v old) lo w = bits v lo w := by
  unfold admittedPeriod
  split
  · rfl
  · exact bits_put_other _ _ _ _ _ _ (by decide) hapart

/-- What a write of DTM_CTL comes to (R276). -/
abbrev admittedCtl (v old : W64) : W64 := admittedPeriod (admittedSrc v old) old

/-- The record of the unit with nothing accepted yet from a new reference (R276). -/
def newReference (d : Datum) : Datum :=
  { d with past := [], run := 0, good := false, early := none, edge := false, empty := 0, markAt := none }

theorem writeDtmCtl_eq (s : State) (v : W64) : s.writeDtmCtl v =
    let u := s.genWrite Csr.dtmCtl (admittedCtl v (s.word Csr.dtmCtl))
    if u.fld Csr.dtmCtl_src = s.fld Csr.dtmCtl_src then u
    else ({ u with datum := newReference u.datum } : State).datumState
      (if u.fld Csr.dtmCtl_src = srcFree then dsFree else dsAcquire) := rfl

theorem sets_genWrite_dtmCtl (s : State) (v : W64) : Sets [(Csr.dtmCtl_src, bits v 0 2),
    (Csr.dtmCtl_period_10ns, bits v 2 17), (Csr.dtmCtl_origin, bits v 19 1), (Csr.dtmCtl_wander_ppb, bits v 32 16),
    (Csr.dtmCtl_slew_ppm, bits v 48 16)] s (s.genWrite Csr.dtmCtl v) :=
  sets_genWrite_rw s v (r := ⟨.dtmCtl, 0x300000, [],
    [⟨0, 2, .rw, 0x0⟩, ⟨2, 17, .rw, 0x3E8⟩, ⟨19, 1, .rw, 0x0⟩, ⟨32, 16, .rw, 0x64⟩, ⟨48, 16, .rw, 0x3E8⟩]⟩) (ix := [])
    rfl (by decide)

theorem sets_genWrite_dtmRelay (s : State) (v : W64) : Sets [(Csr.dtmRelay_upstream, bits v 0 5),
    (Csr.dtmRelay_up_valid, bits v 5 1), (Csr.dtmRelay_hops, bits v 6 5), (Csr.dtmRelay_en_mask, bits v 11 24)] s
    (s.genWrite Csr.dtmRelay v) :=
  sets_genWrite_rw s v (r := ⟨.dtmRelay, 0x300030, [],
    [⟨0, 5, .rw, 0x0⟩, ⟨5, 1, .rw, 0x0⟩, ⟨6, 5, .rw, 0x0⟩, ⟨11, 24, .rw, 0xFFFFFF⟩]⟩) (ix := []) rfl (by decide)

/-- The unit in a state that is neither LOCKED nor HOLDOVER. -/
theorem datumState_eq (s : State) {st : Nat} (hlocked : st ≠ dsLocked) (hhold : st ≠ dsHoldover) :
    s.datumState st = (s.setFld Csr.dtmSts_state st).setFld Csr.dtmSts_holdover 0 := by
  rw [State.datumState, if_neg hlocked, b2n, if_neg (by simpa using hhold)]

theorem dtmCtlWrite_writes (v : W64) (s : State) :
    let src := if bits v 0 2 = 3 then s.fld Csr.dtmCtl_src else bits v 0 2
    let period := if 100 ≤ bits v 2 17 ∧ bits v 2 17 ≤ 100000 then bits v 2 17 else s.fld Csr.dtmCtl_period_10ns
    let ctl := [(Csr.dtmCtl_src, src), (Csr.dtmCtl_period_10ns, period), (Csr.dtmCtl_origin, bits v 19 1),
      (Csr.dtmCtl_wander_ppb, bits v 32 16), (Csr.dtmCtl_slew_ppm, bits v 48 16)]
    ∃ t, exec (.dtmCtlWrite v) s = .next t ∧
      if src = s.fld Csr.dtmCtl_src then Sets ctl s t
      else Sets (ctl ++ [(Csr.dtmSts_state, if src = 0 then dsFree else dsAcquire), (Csr.dtmSts_holdover, 0)])
        { s with datum := { s.datum with past := [], run := 0, good := false, early := none, edge := false, empty := 0,
                                         markAt := none } } t := by
  intro src period ctl
  have hctl : Sets ctl s (s.genWrite Csr.dtmCtl (admittedCtl v (s.word Csr.dtmCtl))) := by
    have h := sets_genWrite_dtmCtl s (admittedCtl v (s.word Csr.dtmCtl))
    have hother {lo w : Nat} (hlo : 19 ≤ lo) : bits (admittedCtl v (s.word Csr.dtmCtl)) lo w = bits v lo w :=
      (bits_admittedPeriod_other _ _ (.inr hlo)).trans (bits_admittedSrc_other _ _ (Nat.le_trans (by decide) hlo))
    rwa [bits_admittedPeriod_period, bits_admittedPeriod_other _ _ (.inl (by decide)), bits_admittedSrc_src,
      bits_admittedSrc_other _ _ (Nat.le_refl 2), hother (by decide), hother (by decide), hother (by decide)] at h
  refine ⟨s.writeDtmCtl v, rfl, ?_⟩
  rw [writeDtmCtl_eq]
  generalize s.genWrite Csr.dtmCtl (admittedCtl v (s.word Csr.dtmCtl)) = u at hctl
  have hlt : src < 2 ^ 2 := by
    simp only [src]
    split
    · exact fld_lt s Csr.dtmCtl_src
    · exact bits_lt ..
  have hsrc : u.fld Csr.dtmCtl_src = src := fld_of_mem_sets hctl List.mem_cons_self hlt
  have hdatum : u.datum = s.datum := by rw [hctl.1]
  dsimp only
  rw [hsrc, hdatum]
  by_cases hsame : src = s.fld Csr.dtmCtl_src
  · rw [if_pos hsame, if_pos hsame]
    exact hctl
  · rw [if_neg hsame, if_neg hsame, datumState_eq _ (by split <;> decide) (by split <;> decide)]
    have hstate := sets_append_setFld (sets_withDatum hctl (newReference s.datum)) (f := Csr.dtmSts_state) (by decide)
      (by simp [ctl, Apart]) (if src = 0 then dsFree else dsAcquire)
    exact sets_append_setFld hstate (f := Csr.dtmSts_holdover) (by decide) (by simp [ctl, Apart]) 0

theorem dtmRelayWrite_writes (v : W64) (s : State) : ∃ t, exec (.dtmRelayWrite v) s = .next t ∧
    Sets [(Csr.dtmRelay_upstream, bits v 0 5), (Csr.dtmRelay_up_valid, bits v 5 1), (Csr.dtmRelay_hops, bits v 6 5),
      (Csr.dtmRelay_en_mask, bits v 11 24)]
      { s with datum := { s.datum with deaf := [], markAt := none, good := false } } t :=
  ⟨s.writeDtmRelay v, rfl, sets_withDatum (sets_genWrite_dtmRelay s v) _⟩

theorem datumCounts : DatumCounts := ⟨datumTick_counts, dtmLoad_loads, dtmCtlWrite_writes, dtmRelayWrite_writes⟩

end Sys2Proof.Proofs
end

section
/-! PROOFS. Reference edges (spec/09_datum_time.md R277, Table 9.1): first what the next interval is computed from, then
an edge settled and shown, then edges by the state of the unit. -/
namespace Sys2Proof.Proofs

open Sys2Proof Sys2Proof.Machine Sys2Proof.Claims Sys2Proof.Laws

/-! ## The interval -/

/-- What the unit computes its estimates from is the same in two blocks. -/
structure SameEstimate (s t : State) : Prop where
  ctl : t.word Csr.dtmCtl = s.word Csr.dtmCtl
  sts : t.word Csr.dtmSts = s.word Csr.dtmSts
  past : t.datum.past = s.datum.past
  frozen : t.datum.frozen = s.datum.frozen

theorem SameEstimate.nextInterval {s t : State} (h : SameEstimate s t) (e : Int) : t.nextInterval e = s.nextInterval e := by
  have hstate : t.fld Csr.dtmSts_state = s.fld Csr.dtmSts_state := devFld_of_word h.sts
  have hperiod : t.period = s.period := congrArg (· * 2560) (devFld_of_word (f := Csr.dtmCtl_period_10ns) h.ctl)
  have hslew : t.slew = s.slew := congrArg (max 1) (devFld_of_word (f := Csr.dtmCtl_slew_ppm) h.ctl)
  have hnow : t.pNow = s.pNow := by
    rw [State.pNow, State.pNow, State.pEst, State.pEst, hstate, hperiod, h.past, h.frozen]
  rw [State.nextInterval, State.nextInterval, hstate, hperiod, hslew, hnow]

/-! ## An edge settled -/

theorem unsigned_lt (w : Nat) (i : Int) : unsigned w i < 2 ^ w := by
  have hpos : (0 : Int) < (2 ^ w : Nat) := by exact_mod_cast Nat.two_pow_pos w
  have hlt := Int.emod_lt_of_pos i hpos
  unfold unsigned
  omega

theorem fld_showPhase_offset (s : State) : s.showPhase.fld Csr.dtmPhase_offset_ns = unsigned 32 (s.datum.e / 256) := by
  rw [State.showPhase, fld_setFld_other _ _ _ _ (by decide) (by decide), fld_setFld_same _ _ _ (by decide)]
  exact Nat.mod_eq_of_lt (unsigned_lt 32 _)

theorem datum_showPhase (s : State) : s.showPhase.datum = s.datum := by rw [State.showPhase, setFld_datum, setFld_datum]

theorem tiles_showPhase (s : State) : s.showPhase.tiles = s.tiles := by rw [State.showPhase, setFld_tiles, setFld_tiles]

theorem count_showPhase (s : State) : s.showPhase.count = s.count := by rw [State.showPhase, setFld_count, setFld_count]

theorem settleEdge_eq (s : State) (e : Int) : s.settleEdge e =
    { s with datum := { s.datum with next := if 0 ≤ e then s.datum.next else s.nextInterval e } } := by
  unfold State.settleEdge
  split <;> rfl

/-- An edge's offset applied and shown: the interval in progress changes with an edge that came after its tick. -/
theorem settled (s : State) (e : Int) : let t := (s.settleEdge e).showPhase
    t.datum = { s.datum with next := if 0 ≤ e then s.datum.next else t.nextInterval e } ∧ t.tiles = s.tiles ∧
      t.count = s.count ∧ t.fld Csr.dtmPhase_offset_ns = unsigned 32 (s.datum.e / 256) ∧
      t.fld Csr.dtmSts_state = s.fld Csr.dtmSts_state := by
  rw [settleEdge_eq]
  dsimp only
  generalize hnext : (if 0 ≤ e then s.datum.next else s.nextInterval e) = next
  have hword {o : Nat} (ho : o ≠ Csr.dtmPhase) :
      ({ s with datum := { s.datum with next := next } } : State).showPhase.word o = s.word o :=
    (word_showPhase _ ho).trans (word_withDatum ..)
  have hsame : SameEstimate s ({ s with datum := { s.datum with next := next } } : State).showPhase :=
    ⟨hword (by decide), hword (by decide), by rw [datum_showPhase], by rw [datum_showPhase]⟩
  refine ⟨?_, tiles_showPhase _, count_showPhase _, fld_showPhase_offset _, devFld_of_word (hword (by decide))⟩
  rw [hsame.nextInterval, hnext, datum_showPhase]

theorem raiseDatum_keeps (s : State) (code sev : Nat) : let t := s.raiseDatum code sev
    t.datum = s.datum ∧ t.tiles = s.tiles ∧ t.count = s.count :=
  ⟨raiseM_datum .., raiseM_tiles .., raiseM_count ..⟩

/-- The unit enters a state: the registers show it, and the record of the unit stays. -/
theorem datumState_keeps (s : State) {st : Nat} (hst : st < 8) : let t := s.datumState st
    t.datum = s.datum ∧ t.tiles = s.tiles ∧ t.count = s.count ∧ t.fld Csr.dtmSts_state = st := by
  intro t
  have hsets := sets_append_setFld (sets_setFld s (f := Csr.dtmSts_state) st (by decide)) (f := Csr.dtmSts_holdover)
    (by decide) (by simp [Apart]) (b2n (st = dsHoldover))
  have hstate := fld_of_mem_sets hsets List.mem_cons_self (show st < 2 ^ 3 from hst)
  have hframe := hsets.1
  have ht : t = if st = dsLocked then ((s.setFld Csr.dtmSts_state st).setFld Csr.dtmSts_holdover
      (b2n (st = dsHoldover))).raiseDatum 0x0302 sevInfo
    else (s.setFld Csr.dtmSts_state st).setFld Csr.dtmSts_holdover (b2n (st = dsHoldover)) := rfl
  generalize (s.setFld Csr.dtmSts_state st).setFld Csr.dtmSts_holdover (b2n (st = dsHoldover)) = u at hstate hframe ht
  rw [ht]
  split
  · obtain ⟨hdatum, htiles, hcount⟩ := raiseDatum_keeps u 0x0302 sevInfo
    rw [hdatum, htiles, hcount, devFld_of_word (word_raiseDatum _ _ _ (by decide))]
    exact ⟨by rw [hframe], by rw [hframe], by rw [hframe], hstate⟩
  · exact ⟨by rw [hframe], by rw [hframe], by rw [hframe], hstate⟩

/-- The state that an edge leads to from ACQUIRE and HOLDOVER: the sixteenth of a run ends them. -/
def runEnded (s : State) (e : Int) : State :=
  if s.datum.run = 16 then s.datumState (if s.withinSlew e then dsLocked else dsSlew) else s

/-- The state that an edge leads to from SLEW and LOCKED, by its offset. -/
def slewFollowed (s : State) (st : Nat) (e : Int) : State :=
  if st = dsSlew ∧ s.withinSlew e = true then s.datumState dsLocked
  else if st = dsLocked ∧ s.withinSlew e = false then s.datumState dsSlew
  else s

theorem refEdge_acquiring {s : State} (hst : s.fld Csr.dtmSts_state = dsAcquire ∨ s.fld Csr.dtmSts_state = dsHoldover)
    (i : Nat) (e : Int) : s.refEdge (some i) e =
      if ((i : Int) - s.pNow).natAbs * 1000 ≤ s.pNow then ((runEnded (s.acceptEdge (some i) e) e).settleEdge e).showPhase
      else { s with datum := { s.datum with run := 0, good := false } } := by
  have hfree : s.fld Csr.dtmSts_state ≠ dsFree := by rintro h; rw [h] at hst; revert hst; decide
  rw [State.refEdge, if_neg hfree, if_pos hst]
  rfl

theorem refEdge_following {s : State} (hfree : s.fld Csr.dtmSts_state ≠ dsFree)
    (hst : ¬ (s.fld Csr.dtmSts_state = dsAcquire ∨ s.fld Csr.dtmSts_state = dsHoldover)) (i : Nat) (e : Int) :
    s.refEdge (some i) e =
      if (e - if s.fld Csr.dtmSts_state = dsSlew then s.datum.e else 0).natAbs * 4 ≤ s.pNow then
        ((slewFollowed (s.acceptEdge (if s.datum.follows e then some i else none) e) (s.fld Csr.dtmSts_state)
          e).settleEdge e).showPhase
      else ({ s with datum := { s.datum with good := false } } : State).setFld Csr.dtmSts_edge_err 1 := by
  rw [State.refEdge, if_neg hfree, if_neg hst]
  rfl

theorem follows_iff (d : Datum) (e : Int) : d.follows e = true ↔ d.good = true ∧ d.lag = if 0 ≤ e then 0 else 1 := by
  unfold Datum.follows
  split <;> simp

theorem runEnded_keeps (s : State) (e : Int) : let t := runEnded s e
    t.datum = s.datum ∧ t.tiles = s.tiles ∧ t.count = s.count ∧
      if s.datum.run = 16 then t.fld Csr.dtmSts_state = dsLocked ∨ t.fld Csr.dtmSts_state = dsSlew
      else t.fld Csr.dtmSts_state = s.fld Csr.dtmSts_state := by
  unfold runEnded
  split
  · have hlt : (if s.withinSlew e then dsLocked else dsSlew) < 8 := by split <;> decide
    obtain ⟨hdatum, htiles, hcount, hstate⟩ := datumState_keeps s hlt
    refine ⟨hdatum, htiles, hcount, ?_⟩
    rw [hstate]
    split
    · exact .inl rfl
    · exact .inr rfl
  · exact ⟨rfl, rfl, rfl, rfl⟩

theorem slewFollowed_keeps (s : State) (st : Nat) (e : Int) (hst : s.fld Csr.dtmSts_state = st) : let t := slewFollowed s st e
    t.datum = s.datum ∧ t.tiles = s.tiles ∧ t.count = s.count ∧
      t.fld Csr.dtmSts_state = if st = dsSlew ∧ s.withinSlew e = true then dsLocked
        else if st = dsLocked ∧ s.withinSlew e = false then dsSlew else st := by
  unfold slewFollowed
  split
  · exact datumState_keeps s (by decide)
  · split
    · exact datumState_keeps s (by decide)
    · exact ⟨rfl, rfl, rfl, hst⟩

theorem fld_acceptEdge (s : State) (i : Option Nat) (e : Int) (f : Fld) : (s.acceptEdge i e).fld f = s.fld f := rfl

theorem datumEdges : DatumEdges := by
  refine ⟨fun i e s hignored => ?_, fun i e s hsrc hfree => ?_⟩
  · rw [exec_datumRefEdge, execDatumRefEdge]
    by_cases hsrc : s.fld Csr.dtmCtl_src = srcPin
    · rw [if_pos hsrc, State.refEdge, if_pos (hignored.resolve_left fun h => h hsrc)]
    · rw [if_neg hsrc]
  · refine ⟨s.refEdge (some i) e, congrArg _ (if_pos hsrc), ?_⟩
    dsimp only
    by_cases hst : s.fld Csr.dtmSts_state = dsAcquire ∨ s.fld Csr.dtmSts_state = dsHoldover
    · rw [if_pos hst, refEdge_acquiring hst]
      split
      · obtain ⟨hdatum, htiles, hcount, hstate⟩ := runEnded_keeps (s.acceptEdge (some i) e) e
        obtain ⟨hdatum', htiles', hcount', -, hstate'⟩ := settled (runEnded (s.acceptEdge (some i) e) e) e
        rw [hdatum] at hdatum'
        rw [hdatum', htiles', htiles, hcount', hcount, hstate']
        refine ⟨rfl, rfl, rfl, rfl, rfl, rfl, rfl, rfl, rfl, ?_⟩
        have hrun : (s.acceptEdge (some i) e).datum.run = s.datum.run + 1 := rfl
        rwa [hrun, fld_acceptEdge] at hstate
      · rfl
    · rw [if_neg hst, refEdge_following hfree hst]
      generalize (e - if s.fld Csr.dtmSts_state = dsSlew then s.datum.e else 0).natAbs * 4 = off
      split
      · have hnext : (if s.datum.follows e then some i else none) =
            if s.datum.good = true ∧ s.datum.lag = (if 0 ≤ e then 0 else 1) then some i else none :=
          if_congr (follows_iff ..) rfl rfl
        rw [hnext]
        generalize hsel : (if s.datum.good = true ∧ s.datum.lag = (if 0 ≤ e then 0 else 1) then some i else none) = sel
        obtain ⟨hdatum, htiles, hcount, hstate⟩ :=
          slewFollowed_keeps (s.acceptEdge sel e) (s.fld Csr.dtmSts_state) e (fld_acceptEdge ..)
        obtain ⟨hdatum', htiles', hcount', hoffset', hstate'⟩ :=
          settled (slewFollowed (s.acceptEdge sel e) (s.fld Csr.dtmSts_state) e) e
        rw [hdatum] at hdatum' hoffset'
        rw [hdatum', htiles', htiles, hcount', hcount, hstate', hoffset', hstate]
        refine ⟨rfl, rfl, rfl, rfl, ?_, rfl, rfl, rfl, rfl, rfl, rfl⟩
        show (sel.toList ++ s.datum.past).take 256 = _
        rw [← hsel, apply_ite Option.toList]
        rfl
      · exact sets_setFld _ 1 (by decide)

end Sys2Proof.Proofs
end

section
/-! PROOFS. Mode epochs (spec/09_datum_time.md R286 to R288): first what the writes of the registers come to, then the
arm and its cancel, then the mode sent and applied. -/
namespace Sys2Proof.Proofs

open Sys2Proof Sys2Proof.Machine Sys2Proof.Claims Sys2Proof.Laws

/-! ## Writes -/

/-- A register whose RW fields cover its word is the word written. -/
theorem word_genWrite_whole (s : State) {off : Nat} {r : RegRow} {ix : List Nat} (v : W64)
    (hr : findReg deviceRegs off = some (r, ix)) (hrw : ∀ g ∈ r.fields, g.ty = .rw)
    (hcover : ∀ b < 64, ∃ g ∈ r.fields, Holds g b) (o : Nat) :
    (s.genWrite off v).word o = if o = off then v else s.word o := by
  have hlck : ∀ g ∈ r.fields, g.ty ≠ .lck := fun g hg => by rw [hrw g hg]; decide
  rw [genWrite_eq_setWord s v hr hlck, word_setWord]
  split
  · refine BitVec.eq_of_getLsbD_eq fun b hb => ?_
    obtain ⟨g, hg, hin⟩ := hcover b hb
    rw [getLsbD_rowWrite_field (deviceRegs_ascending r (mem_of_findReg hr)) hg (hlck g hg) _ _ _ hin, hrw g hg]
    rfl
  · rfl

theorem word_genWrite_modePend (s : State) (v : W64) (o : Nat) :
    (s.genWrite Csr.dtmModePend v).word o = if o = Csr.dtmModePend then v else s.word o :=
  word_genWrite_whole s v (r := ⟨.dtmModePend, 0x300208, [], [⟨0, 32, .rw, 0x0⟩, ⟨32, 1, .rw, 0x1⟩, ⟨33, 16, .rw, 0x3F⟩,
    ⟨49, 3, .rw, 0x5⟩, ⟨52, 6, .rw, 0x0⟩, ⟨58, 6, .rw, 0x0⟩]⟩) (ix := []) rfl (by decide) (by unfold Holds; decide) o

theorem word_genWrite_modeT (s : State) (v : W64) (o : Nat) :
    (s.genWrite Csr.dtmModeT v).word o = if o = Csr.dtmModeT then v else s.word o :=
  word_genWrite_whole s v (r := ⟨.dtmModeT, 0x300210, [], [⟨0, 64, .rw, 0x0⟩]⟩) (ix := []) rfl (by decide)
    (by unfold Holds; decide) o

/-- The row of DTM_MODE_ARM (Table 9.4). -/
abbrev modeArmRow : RegRow :=
  ⟨.dtmModeArm, 0x300218, [], [⟨0, 1, .wo, 0x0⟩, ⟨1, 1, .wo, 0x0⟩, ⟨2, 1, .ro, 0x0⟩, ⟨3, 1, .w1c, 0x0⟩]⟩

theorem genWrite_modeArm (s : State) (v : W64) : s.genWrite Csr.dtmModeArm v =
    s.setWord Csr.dtmModeArm (modeArmRow.write (s.locked.contains Csr.dtmModeArm) v (s.word Csr.dtmModeArm)) :=
  genWrite_eq_setWord s v (ix := []) rfl (by decide)

theorem ascending_modeArmRow : Ascending modeArmRow :=
  deviceRegs_ascending _ (mem_of_findReg (off := Csr.dtmModeArm) (ix := []) rfl)

theorem getLsbD_modeArm_rej (locked : Bool) (v w : W64) :
    (modeArmRow.write locked v w).getLsbD 3 = (w.getLsbD 3 && !v.getLsbD 3) :=
  getLsbD_rowWrite_field ascending_modeArmRow (f := ⟨3, 1, .w1c, 0x0⟩) (by decide) (by decide) locked v w
    (by unfold Holds; decide)

/-- A bit of DTM_MODE_ARM other than rej is in a field that a write leaves, or in none. -/
theorem getLsbD_modeArm_other (locked : Bool) (v w : W64) {b : Nat} (hb : b ≠ 3) :
    (modeArmRow.write locked v w).getLsbD b = w.getLsbD b := by
  by_cases hin : ∃ f ∈ modeArmRow.fields, Holds f b
  · obtain ⟨f, hf, hholds⟩ := hin
    have hkept : f.ty = .wo ∨ f.ty = .ro := by
      have hall : ∀ f ∈ modeArmRow.fields, f.lo = 3 ∧ f.w = 1 ∨ f.ty = .wo ∨ f.ty = .ro := by decide
      refine (hall f hf).resolve_left fun ⟨hlo, hw⟩ => hb ?_
      unfold Holds at hholds
      omega
    rw [getLsbD_rowWrite_field ascending_modeArmRow hf (by rcases hkept with h | h <;> rw [h] <;> decide) locked v w hholds]
    rcases hkept with h | h <;> rw [h] <;> rfl
  · exact getLsbD_rowWrite_none _ _ _ _ fun f hf hholds => hin ⟨f, hf, hholds⟩

/-- A write of DTM_MODE_ARM clears rej where it has its bit, and leaves the other fields (R7). -/
theorem sets_genWrite_modeArm (s : State) (v : W64) :
    Sets [(Csr.dtmModeArm_rej, if v.getLsbD 3 then 0 else s.fld Csr.dtmModeArm_rej)] s (s.genWrite Csr.dtmModeArm v) := by
  rw [genWrite_modeArm]
  refine ⟨rfl, List.forall_mem_singleton.mpr ?_, fun o b hb => ?_⟩
  · have hbit := getLsbD_modeArm_rej (s.locked.contains Csr.dtmModeArm) v (s.word Csr.dtmModeArm)
    rw [State.fld, word_setWord_same]
    split
    · next hv =>
      refine (bits_eq_of_getLsbD (y := 0) (lo' := 3) fun i hi => ?_).trans rfl
      obtain rfl : i = 0 := Nat.lt_one_iff.mp hi
      exact hbit.trans (by rw [hv, Bool.not_true, Bool.and_false]; rfl)
    · next hv =>
      rw [Nat.mod_eq_of_lt (fld_lt s Csr.dtmModeArm_rej)]
      refine bits_eq_of_getLsbD fun i hi => ?_
      obtain rfl : i = 0 := Nat.lt_one_iff.mp hi
      exact hbit.trans (by rw [Bool.eq_false_iff.mpr hv, Bool.not_false, Bool.and_true])
  · rw [word_setWord]
    split
    · next ho =>
      have hne : b ≠ 3 := by
        have := hb _ List.mem_cons_self
        dsimp only at this
        omega
      rw [getLsbD_modeArm_other _ _ _ hne, ho]
    · rfl

theorem modePendWrite_writes (isT : Bool) (v : W64) (s : State) : ∃ t, exec (.dtmModePendWrite isT v) s = .next t ∧
    if s.fld Csr.dtmModeArm_armed = 1 then
      ∃ u, Sets [(Csr.dtmModeArm_rej, 1)] s u ∧ t = u.raiseM (devEvent 2 0x0308 sevWarn none 0 0)
    else t = { s with csr := t.csr } ∧
      ∀ o, t.word o = if o = (if isT then Csr.dtmModeT else Csr.dtmModePend) then v else s.word o := by
  refine ⟨_, rfl, ?_⟩
  split
  · next harmed =>
    refine ⟨s.setFld Csr.dtmModeArm_rej 1, sets_setFld s 1 (by decide), ?_⟩
    rw [State.writeModeWord, State.armed, if_pos ((flag_iff ..).mpr harmed)]
    rfl
  · next harmed =>
    rw [State.writeModeWord, State.armed, if_neg (fun h => harmed ((flag_iff ..).mp h))]
    cases isT with
    | true => exact ⟨genWrite_csrOnly s v (by decide), word_genWrite_modeT s v⟩
    | false => exact ⟨genWrite_csrOnly s v (by decide), word_genWrite_modePend s v⟩

/-! ## The arm -/

/-- An arm is accepted for the next epoch, two ticks ahead or more, with nothing armed and the fields in range (R286). -/
theorem armOk_iff (s : State) : s.armOk = true ↔
    bits (s.word Csr.dtmModePend) 0 32 = (s.fld Csr.dtmModeCur_epoch + 1) % 2 ^ 32 ∧
      2 ≤ (s.word Csr.dtmModeT).toNat - s.count.toNat ∧ ¬ s.fld Csr.dtmModeArm_armed = 1 ∧
      bits (s.word Csr.dtmModePend) 52 6 ≤ 20 ∧ bits (s.word Csr.dtmModePend) 58 6 ≤ 33 := by
  have hahead : s.count.toNat + 2 ≤ (s.word Csr.dtmModeT).toNat ↔ 2 ≤ (s.word Csr.dtmModeT).toNat - s.count.toNat := by omega
  simp only [State.armOk, State.armed, modeInRange, Bool.and_eq_true, beq_iff_eq, decide_eq_true_eq, Bool.not_eq_true',
    not_flag_iff, hahead, and_assoc]
  rfl

theorem writeModeArm_eq (s : State) (v : W64) : s.writeModeArm v =
    let u := s.genWrite Csr.dtmModeArm v
    if v.getLsbD 0 = true then
      if v.getLsbD 1 = false ∧ u.armOk = true then u.setFld Csr.dtmModeArm_armed 1 else u.rejectMode
    else if v.getLsbD 1 = true ∧ u.armed = true ∧ u.count.toNat + 1 < (u.word Csr.dtmModeT).toNat then
      u.setFld Csr.dtmModeArm_armed 0
    else u := by
  unfold State.writeModeArm bit
  cases v.getLsbD 0 <;> cases v.getLsbD 1 <;> simp

/-- A word that none of the fields set lies in stays. -/
theorem word_of_sets {fs : List (Fld × Nat)} {s t : State} (h : Sets fs s t) {o : Nat} (ho : ∀ p ∈ fs, o ≠ p.1.off) :
    t.word o = s.word o := by
  obtain ⟨-, -, hbits⟩ := h
  exact BitVec.eq_of_getLsbD_eq fun b _ => hbits o b fun p hp => .inl (ho p hp)

/-- A field set again. -/
theorem sets_setFld_again {f : Fld} {x : Nat} {s t : State} (h : Sets [(f, x)] s t) (hf : f.lo + f.w ≤ 64) (y : Nat) :
    Sets [(f, y)] s (t.setFld f y) := by
  obtain ⟨hframe, -, hrest⟩ := h
  obtain ⟨hframe', hval', hrest'⟩ := sets_setFld t y hf
  refine ⟨hframe'.trans (by rw [hframe]), hval', fun o b hb => ?_⟩
  have hout := List.forall_mem_singleton.mp hb
  exact (hrest' o b hb).trans (hrest o b (List.forall_mem_singleton.mpr hout))

theorem modeArm_arms (v : W64) (s : State) : ∃ t u : State, exec (.modeArm v) s = .next t ∧ exec (.modeCancel v) s = .next t ∧
    let ahead := (s.word Csr.dtmModeT).toNat - s.count.toNat
    let armed := s.fld Csr.dtmModeArm_armed = 1
    let mode := s.word Csr.dtmModePend
    let rej := if v.getLsbD 3 then 0 else s.fld Csr.dtmModeArm_rej
    let ok := v.getLsbD 1 = false ∧ bits mode 0 32 = (s.fld Csr.dtmModeCur_epoch + 1) % 2 ^ 32 ∧ 2 ≤ ahead ∧ ¬ armed ∧
      bits mode 52 6 ≤ 20 ∧ bits mode 58 6 ≤ 33
    (v.getLsbD 0 = true → ok → Sets [(Csr.dtmModeArm_rej, rej), (Csr.dtmModeArm_armed, 1)] s t) ∧
    (v.getLsbD 0 = true → ¬ ok → Sets [(Csr.dtmModeArm_rej, 1)] s u ∧
      t = u.raiseM (devEvent 2 0x0308 sevWarn none 0 0)) ∧
    (v.getLsbD 0 = false → v.getLsbD 1 = true → armed → 2 ≤ ahead →
      Sets [(Csr.dtmModeArm_rej, rej), (Csr.dtmModeArm_armed, 0)] s t) ∧
    (v.getLsbD 0 = false → (v.getLsbD 1 = false ∨ ¬ armed ∨ ahead < 2) → Sets [(Csr.dtmModeArm_rej, rej)] s t) := by
  have hgen := sets_genWrite_modeArm s v
  have hset (x : Nat) := sets_append_setFld hgen (f := Csr.dtmModeArm_armed) (by decide) (by simp [Apart]) x
  have hrej := sets_setFld_again hgen (by decide) 1
  refine ⟨s.writeModeArm v, (s.genWrite Csr.dtmModeArm v).setFld Csr.dtmModeArm_rej 1, rfl, rfl, ?_⟩
  rw [writeModeArm_eq]
  generalize s.genWrite Csr.dtmModeArm v = w at hgen hset hrej
  have hcount : w.count = s.count := by rw [hgen.1]
  have harmed : w.fld Csr.dtmModeArm_armed = s.fld Csr.dtmModeArm_armed := fld_of_sets hgen (by simp [Apart])
  have hmode : w.word Csr.dtmModePend = s.word Csr.dtmModePend := word_of_sets hgen (by simp)
  have ht : w.word Csr.dtmModeT = s.word Csr.dtmModeT := word_of_sets hgen (by simp)
  have hepoch : w.fld Csr.dtmModeCur_epoch = s.fld Csr.dtmModeCur_epoch := fld_of_sets hgen (by simp [Apart])
  have hok := armOk_iff w
  rw [hmode, ht, hcount, harmed, hepoch] at hok
  have hdue : w.armed = true ∧ w.count.toNat + 1 < (w.word Csr.dtmModeT).toNat ↔
      s.fld Csr.dtmModeArm_armed = 1 ∧ 2 ≤ (s.word Csr.dtmModeT).toNat - s.count.toNat := by
    rw [State.armed, flag_iff, harmed, hcount, ht]
    omega
  dsimp only
  generalize (if v.getLsbD 3 then 0 else s.fld Csr.dtmModeArm_rej) = rej at hgen hset ⊢
  refine ⟨fun harm ⟨hcancel, hadmit⟩ => ?_, fun harm hadmit => ⟨hrej, ?_⟩, fun harm hcancel h hahead => ?_,
    fun harm hnot => ?_⟩
  · rw [if_pos harm, if_pos ⟨hcancel, hok.mpr hadmit⟩]
    exact hset 1
  · rw [if_pos harm, if_neg fun h => hadmit ⟨h.1, hok.mp h.2⟩]
    rfl
  · rw [if_neg (Bool.eq_false_iff.mp harm), if_pos ⟨hcancel, hdue.mpr ⟨h, hahead⟩⟩]
    exact hset 0
  · rw [if_neg (Bool.eq_false_iff.mp harm), if_neg]
    · exact hgen
    · rintro ⟨hcancel, hw⟩
      obtain ⟨h, hahead⟩ := hdue.mp hw
      obtain hno | hno | hno := hnot
      · rw [hno] at hcancel; cases hcancel
      · exact hno h
      · omega

/-! ## The mode sent and applied -/

theorem modeSend_sends (s : State) (harmed : s.fld Csr.dtmModeArm_armed = 1)
    (hdue : (s.word Csr.dtmModeT).toNat ≤ s.count.toNat + 1) :
    exec .modeSend s = .next { s with modeSent := some (s.word Csr.dtmModePend, s.word Csr.dtmModeT) } := by
  have hsend : (s.armed && decide ((s.word Csr.dtmModeT).toNat ≤ s.count.toNat + 1)) = true := by
    rw [State.armed, (flag_iff ..).mpr harmed, decide_eq_true hdue]; rfl
  rw [exec_modeSend, execModeSend, if_pos hsend]

theorem modeApply_unsent (s : State) (h : s.modeSent ≠ some (s.word Csr.dtmModePend, s.word Csr.dtmModeT)) :
    exec .modeApply s = .next s := by
  rw [exec_modeApply, execModeApply]
  cases hsent : s.modeSent with
  | none => rfl
  | some p =>
    obtain ⟨m, T⟩ := p
    have hother : ¬ (m = s.word Csr.dtmModePend ∧ T = s.word Csr.dtmModeT) := by
      rintro ⟨rfl, rfl⟩
      exact h hsent
    refine congrArg _ (if_neg fun happly => hother ?_)
    simp only [Bool.and_eq_true, beq_iff_eq] at happly
    obtain ⟨⟨⟨-, hmode⟩, htick⟩, -⟩ := happly
    exact ⟨hmode, htick⟩

theorem modeApply_applies (m T : W64) (s : State) (hsent : s.modeSent = some (m, T)) (hm : m = s.word Csr.dtmModePend)
    (hT : T = s.word Csr.dtmModeT) (harmed : s.fld Csr.dtmModeArm_armed = 1) (hdue : T.toNat ≤ s.count.toNat) :
    ∃ t u : State, exec .modeApply s = .next t ∧ u = { s with csr := u.csr } ∧ u.word Csr.dtmModeCur = m ∧
      u.fld Csr.dtmModeArm_armed = 0 ∧ u.fld Csr.dtmModeArm_rej = s.fld Csr.dtmModeArm_rej ∧
      (∀ o, o ≠ Csr.dtmModeCur → o ≠ Csr.dtmModeArm → u.word o = s.word o) ∧
      t = u.raiseM (devEvent 2 0x0306 sevInfo none 0 0) := by
  have happly : (s.armed && m == s.word Csr.dtmModePend && T == s.word Csr.dtmModeT && decide (T.toNat ≤ s.count.toNat)) = true := by
    rw [State.armed, (flag_iff ..).mpr harmed, ← hm, ← hT, decide_eq_true hdue]; simp
  refine ⟨_, (s.setWord Csr.dtmModeCur m).setFld Csr.dtmModeArm_armed 0, ?_, rfl, ?_, ?_, ?_, fun o hcur harm => ?_, rfl⟩
  · rw [exec_modeApply, execModeApply, hsent]
    exact congrArg _ (if_pos happly)
  · rw [word_setFld_other _ _ _ _ (by decide), word_setWord_same]
  · exact fld_setFld_same _ _ _ (by decide)
  · rw [fld_setFld_other _ _ _ _ (by decide) (by decide)]
    exact devFld_of_word (by rw [word_setWord, if_neg (by decide)])
  · rw [word_setFld_other _ _ _ _ harm, word_setWord, if_neg hcur]

theorem modeEpochs : ModeEpochs :=
  ⟨modePendWrite_writes, modeArm_arms, modeSend_sends, modeApply_unsent, modeApply_applies⟩

end Sys2Proof.Proofs
end

section
/-! PROOFS. The tick edges that units see (spec/09_datum_time.md R280, R287 to R289, R300; spec/12_training_support.md
R349, R358): first the tiles and timers of a die, then the heartbeats of a hub, then the waits of its sequencers. -/
namespace Sys2Proof.Proofs

open Sys2Proof Sys2Proof.Machine Sys2Proof.Claims Sys2Proof.Laws

/-! ## A compute die -/

/-- Tiles changed one after another, each once. -/
theorem tile_foldl_updTile (f : Tile → Tile) {l : List Nat} (hl : l.Nodup) (s : State) (n : Nat) :
    (l.foldl (fun s i => s.updTile i f) s).tile n = if n ∈ l then f (s.tile n) else s.tile n := by
  induction l generalizing s with
  | nil => rfl
  | cons i l ih =>
    obtain ⟨hi, hl⟩ := List.nodup_cons.mp hl
    rw [List.foldl_cons, ih hl, tile_updTile]
    by_cases hn : n = i
    · subst hn
      rw [if_neg hi, if_pos rfl, if_pos List.mem_cons_self]
    · simp only [List.mem_cons, hn, false_or, if_false]

theorem tilesOnly_foldl_updTile (f : Tile → Tile) (l : List Nat) (s : State) :
    l.foldl (fun s i => s.updTile i f) s = { s with tiles := (l.foldl (fun s i => s.updTile i f) s).tiles } :=
  List.foldlRecOn (motive := fun t : State => t = { s with tiles := t.tiles }) _ _ rfl fun t ht i _ => by
    rw [ht]; rfl

/-- The tiles of a die. -/
abbrev dieTiles (d : Nat) : List Nat := (List.range 128).map (128 * d + ·)

theorem mem_dieTiles (d n : Nat) : n ∈ dieTiles d ↔ n / 128 = d := by
  simp only [dieTiles, List.mem_map, List.mem_range]
  constructor
  · rintro ⟨i, hi, rfl⟩; omega
  · intro h; exact ⟨n % 128, by omega, by omega⟩

theorem dieMode_none {s : State} (h : s.modeSent = none) (d : Nat) (before : W64) : s.dieMode d before = s := by
  rw [State.dieMode, h]

theorem dieMode_some {s : State} {m T : W64} (h : s.modeSent = some (m, T)) (d : Nat) (before : W64) :
    s.dieMode d before = if before.toNat < T.toNat ∧ T.toNat ≤ (s.seenDie d).toNat then
      (dieTiles d).foldl (fun s i => s.updTile i fun t => t.applyMode m) s else s := by
  rw [State.dieMode, h, dieTiles, List.foldl_map]

theorem dieMode_frame (s : State) (d : Nat) (before : W64) :
    s.dieMode d before = { s with tiles := (s.dieMode d before).tiles } := by
  obtain h | ⟨⟨m, T⟩, h⟩ := Option.eq_none_or_eq_some s.modeSent
  · rw [dieMode_none h]
  · rw [dieMode_some h]
    split
    · exact tilesOnly_foldl_updTile ..
    · rfl

/-- The mode sent becomes current in the tiles of the die whose tick edge has come (R287, R288). -/
theorem tile_dieMode {s : State} {m T : W64} (h : s.modeSent = some (m, T)) (d : Nat) (before : W64) (n : Nat) :
    (s.dieMode d before).tile n = if n / 128 = d ∧ before.toNat < T.toNat ∧ T.toNat ≤ (s.seenDie d).toNat then
      (s.tile n).applyMode m else s.tile n := by
  rw [dieMode_some h]
  by_cases hdue : before.toNat < T.toNat ∧ T.toNat ≤ (s.seenDie d).toNat
  · rw [if_pos hdue, tile_foldl_updTile _ (List.nodup_range.map fun _ _ heq => Nat.add_left_cancel heq)]
    simp only [mem_dieTiles, hdue, and_true]
  · rw [if_neg hdue, if_neg fun hall => hdue hall.2]

theorem csrOnly_phaseTicks (s : State) (p : Nat) : s.phaseTicks p = { s with csr := (s.phaseTicks p).csr } :=
  csrOnly_foldl (fun _ _ => rfl) _ s

theorem csrOnly_reasonTicks (s : State) (p : Nat) : s.reasonTicks p = { s with csr := (s.reasonTicks p).csr } :=
  csrOnly_foldl (fun s r => by split <;> rfl) _ s

/-- The timers of a die's partitions count at a tick edge (R289, R437). -/
def diePartitionTicks (s : State) (d : Nat) : State := (diePartitions d).foldl (fun s p => (s.phaseTicks p).reasonTicks p) s

theorem csrOnly_diePartitionTicks (s : State) (d : Nat) :
    diePartitionTicks s d = { s with csr := (diePartitionTicks s d).csr } :=
  csrOnly_foldl (fun s p => (csrOnly_reasonTicks ..).trans (by rw [csrOnly_phaseTicks])) _ s

theorem dieTick_eq (s : State) (d : Nat) : s.dieTick d = diePartitionTicks ((s.setSeen d).dieMode d (s.seenDie d)) d := rfl

theorem exec_tickEdgeSeen_die {d : Nat} {s : State} (hrun : s.frozen = false) (hd : d < 16) (hnew : s.seenDie d ≠ s.count) :
    exec (.tickEdgeSeen (.die d)) s = .next (s.dieTick d) := by
  show Host.Outcome.next (if s.frozen then s else if d < 16 ∧ s.seenDie d ≠ s.count then s.dieTick d else s) = _
  rw [hrun, if_neg Bool.false_ne_true, if_pos ⟨hd, hnew⟩]

theorem dieTick_frame (s : State) (d : Nat) : s.dieTick d = { s with
    seen := (s.setSeen d).seen, tiles := ((s.setSeen d).dieMode d (s.seenDie d)).tiles, csr := (s.dieTick d).csr } := by
  have h := csrOnly_diePartitionTicks ((s.setSeen d).dieMode d (s.seenDie d)) d
  rw [← dieTick_eq] at h
  refine h.trans ?_
  rw [dieMode_frame]
  rfl

theorem seenDie_setSeen (s : State) (d : Nat) : (s.setSeen d).seenDie d = s.count := nmap_get_set_same ..

theorem tile_dieTick (s : State) (d n : Nat) : (s.dieTick d).tile n = ((s.setSeen d).dieMode d (s.seenDie d)).tile n := by
  rw [dieTick_frame]
  rfl

/-! ## The heartbeats of a hub -/

/-- A heartbeat of a port reads of the ports that one alone. -/
theorem heartbeat_of_port {s t : State} {n : Nat} (hframe : t = { s with ports := t.ports, out := t.out, seen := t.seen })
    (hport : t.port n = s.port n) : t.heartbeat n = s.heartbeat n := by
  have hport' : ({ s with ports := t.ports, out := t.out, seen := t.seen } : State).port n = s.port n := by
    rw [← hport]; rfl
  rw [hframe, State.heartbeat, State.heartbeat, hport']
  rfl

/-- The HEARTBEAT packet that a port stamps, and the port after it. -/
def heartbeatOf (s : State) (n : Nat) : Port × Packet :=
  (s.port n).stamp (mkPacket ptHeartbeat 6 0 0 0 0 (s.heartbeat n).bytes)

/-- A port sends heartbeats in UP and HELD (R300). -/
abbrev Sends (s : State) (n : Nat) : Prop := s.portState n = psUp ∨ s.portState n = psHeld

/-- The test of a port for heartbeats. -/
abbrev sending (s : State) (n : Nat) : Bool := s.portState n == psUp || s.portState n == psHeld

theorem sending_iff (s : State) (n : Nat) : sending s n = true ↔ Sends s n := by
  rw [Bool.or_eq_true, beq_iff_eq, beq_iff_eq]

theorem sendHeartbeat_eq {s : State} (hrun : s.frozen = false) (n : Nat) : s.sendHeartbeat n = { s with
    ports := NMap.set (fun _ => {}) s.ports n (heartbeatOf s n).1, out := s.out ++ [.packet n (heartbeatOf s n).2.seal] } := by
  show (s.setPort n (heartbeatOf s n).1).emit (.packet n (heartbeatOf s n).2.seal) = _
  have hrun' : (s.setPort n (heartbeatOf s n).1).frozen = false := hrun
  rw [State.emit, hrun', if_neg Bool.false_ne_true]
  rfl

/-- `t` follows from `s` by the heartbeats of the ports in `l`. -/
structure Heartbeats (s t : State) (l : List Nat) : Prop where
  frame : t = { s with ports := t.ports, out := t.out }
  ports : ∀ n, t.port n = if n ∈ l ∧ Sends s n then (heartbeatOf s n).1 else s.port n
  out : t.out = s.out ++ (l.filter (sending s)).map fun n => Out.packet n (heartbeatOf s n).2.seal

theorem Heartbeats.skip {s t : State} {l : List Nat} {n : Nat} (h : Heartbeats s t l) (hn : ¬ Sends s n) :
    Heartbeats s t (l ++ [n]) where
  frame := h.frame
  ports m := by
    rw [h.ports]
    refine if_congr (and_congr_left fun hm => ?_) rfl rfl
    have hne : m ≠ n := fun heq => hn (heq ▸ hm)
    simp [hne]
  out := by rw [h.out, List.filter_append, List.filter_cons_of_neg (p := sending s) (mt (sending_iff s n).mp hn),
    List.filter_nil, List.append_nil]

theorem Heartbeats.send {s t : State} {l : List Nat} {n : Nat} (h : Heartbeats s t l) (hrun : s.frozen = false) (hl : n ∉ l)
    (hn : Sends s n) : Heartbeats s (t.sendHeartbeat n) (l ++ [n]) := by
  have hport : t.port n = s.port n := (h.ports n).trans (if_neg fun hm => hl hm.1)
  have hbeat : t.heartbeat n = s.heartbeat n := heartbeat_of_port (by rw [h.frame]) hport
  have hof : heartbeatOf t n = heartbeatOf s n := by rw [heartbeatOf, heartbeatOf, hport, hbeat]
  have hrun' : t.frozen = false := by rw [h.frame]; exact hrun
  rw [sendHeartbeat_eq hrun', hof]
  refine ⟨by rw [h.frame], fun m => ?_, ?_⟩
  · refine (nmap_get_set ..).trans ?_
    by_cases hm : m = n
    · subst hm
      rw [if_pos rfl, if_pos ⟨by simp, hn⟩]
    · rw [if_neg hm]
      refine (h.ports m).trans ?_
      simp [hm]
  · show t.out ++ _ = _
    rw [h.out, List.filter_append, List.filter_cons_of_pos (p := sending s) ((sending_iff s n).mpr hn), List.filter_nil,
      List.map_append, List.append_assoc]
    rfl

theorem heartbeats_foldl {s : State} (hrun : s.frozen = false) {l : List Nat} (hl : l.Nodup) :
    Heartbeats s (l.foldl (fun s n => if Sends s n then s.sendHeartbeat n else s) s) l := by
  induction l using List.reverseRecOn with
  | nil => exact ⟨rfl, fun n => by simp, by simp⟩
  | append_singleton l n ih =>
    obtain ⟨hl, -, hapart⟩ := List.nodup_append.mp hl
    have h := ih hl
    rw [List.foldl_append, List.foldl_cons, List.foldl_nil]
    generalize l.foldl (fun s n => if Sends s n then s.sendHeartbeat n else s) s = u at h
    have hsends : Sends u n ↔ Sends s n := by rw [h.frame]; exact Iff.rfl
    split
    · next hn => exact h.send hrun (fun hmem => hapart n hmem n List.mem_cons_self rfl) (hsends.mp hn)
    · next hn => exact h.skip (mt hsends.mpr hn)

/-! ## The waits of sequencers -/

theorem seqWaitTick_cases (s : State) (p : Nat) : s.seqWaitTick p = s ∨
    ∃ f : Fld, f.off = Csr.colSeqWait p ∧ s.seqWaitTick p = s.addFld f 1 := by
  unfold State.seqWaitTick
  dsimp only
  split
  · exact .inl rfl
  · split
    · exact .inl rfl
    · split
      · split
        · exact .inr ⟨Csr.colSeqWait_in_ticks p, rfl, rfl⟩
        · exact .inl rfl
      · exact .inr ⟨Csr.colSeqWait_coll_ticks p, rfl, rfl⟩
      · exact .inr ⟨Csr.colSeqWait_coll_ticks p, rfl, rfl⟩
      · exact .inr ⟨Csr.colSeqWait_coll_ticks p, rfl, rfl⟩
      · exact .inl rfl

theorem csrOnly_seqWaitTick (s : State) (p : Nat) : s.seqWaitTick p = { s with csr := (s.seqWaitTick p).csr } := by
  obtain h | ⟨f, -, h⟩ := seqWaitTick_cases s p
  · rw [h]
  · rw [h]
    rfl

theorem word_seqWaitTicks (s : State) {ps : List Nat} {o : Nat} (ho : ∀ p ∈ ps, o ≠ Csr.colSeqWait p) :
    (ps.foldl State.seqWaitTick s).word o = s.word o := by
  induction ps generalizing s with
  | nil => rfl
  | cons p ps ih =>
    obtain ⟨hp, hps⟩ := List.forall_mem_cons.mp ho
    refine (ih _ hps).trans ?_
    obtain h | ⟨f, hf, h⟩ := seqWaitTick_cases s p
    · rw [h]
    · rw [h]
      exact word_setFld_other s f _ o (hf ▸ hp)

/-! ## The edge seen -/

theorem exec_tickEdgeSeen_hub {h : Nat} {s : State} (hrun : s.frozen = false) (hh : h < 4) (hnew : s.seenHub h ≠ s.count) :
    exec (.tickEdgeSeen (.hub h)) s = .next (s.hubTick h) := by
  show Host.Outcome.next (if s.frozen then s else if h < 4 ∧ s.seenHub h ≠ s.count then s.hubTick h else s) = _
  rw [hrun, if_neg Bool.false_ne_true, if_pos ⟨hh, hnew⟩]

/-- The ports of a hub. -/
abbrev hubPorts (h : Nat) : List Nat := (List.range 6).map fun j => 6 * h + j

/-- The sequencers of a hub. -/
abbrev hubSequencers (h : Nat) : List Nat := (List.range 8).map fun i => 8 * h + i

theorem mem_hubPorts (h n : Nat) : n ∈ hubPorts h ↔ 6 * h ≤ n ∧ n < 6 * h + 6 := by
  simp only [hubPorts, List.mem_map, List.mem_range]
  constructor
  · rintro ⟨j, hj, rfl⟩; omega
  · intro hn; exact ⟨n - 6 * h, by omega, by omega⟩

theorem hubTick_eq (s : State) (h : Nat) : s.hubTick h =
    let v := (hubSequencers h).foldl State.seqWaitTick ((s.setSeen (16 + h)).heartbeats h)
    if h = 0 then v.jobTicks.stepDies else v := by
  rw [List.foldl_map]
  rfl

theorem heartbeatOf_setSeen (s : State) (x n : Nat) : heartbeatOf (s.setSeen x) n = heartbeatOf s n := by
  have hbeat : (s.setSeen x).heartbeat n = s.heartbeat n := heartbeat_of_port rfl rfl
  rw [heartbeatOf, heartbeatOf, hbeat]
  rfl

/-- The heartbeats of a hub that has taken the count. -/
theorem heartbeats_setSeen {s : State} (hrun : s.frozen = false) (h : Nat) :
    Heartbeats (s.setSeen (16 + h)) ((s.setSeen (16 + h)).heartbeats h) (hubPorts h) :=
  heartbeats_foldl (s := s.setSeen (16 + h)) hrun (List.nodup_range.map fun _ _ heq => Nat.add_left_cancel heq)

theorem unitsSeeTicks : UnitsSeeTicks := by
  refine ⟨fun d s hrun hd hnew => ?_, fun h s hrun hh hnew => ?_⟩
  · refine ⟨s.dieTick d, exec_tickEdgeSeen_die hrun hd hnew, ?_, fun u => ?_, fun n => ?_⟩
    · rw [dieTick_frame]
    · rw [dieTick_frame]
      exact nmap_get_set ..
    · rw [tile_dieTick]
      obtain hsent | ⟨⟨m, T⟩, hsent⟩ := Option.eq_none_or_eq_some s.modeSent
      · rw [dieMode_none (s := s.setSeen d) hsent, hsent]
        rfl
      · rw [tile_dieMode (s := s.setSeen d) hsent, seenDie_setSeen, hsent]
        rfl
  · obtain ⟨hframe, hports, hout⟩ := heartbeats_setSeen hrun h
    simp only [heartbeatOf_setSeen, mem_hubPorts] at hports hout
    refine ⟨s.hubTick h, (s.setSeen (16 + h)).heartbeats h, _, exec_tickEdgeSeen_hub hrun hh hnew, ?_, fun n => ?_, fun x => ?_,
      hout, rfl, csrOnly_foldl csrOnly_seqWaitTick _ _, fun o ho => word_seqWaitTicks _ fun p hp => ?_, hubTick_eq s h⟩
    · rw [hframe]
      rfl
    · rw [hports]
      simp only [and_assoc]
      rfl
    · rw [hframe]
      exact nmap_get_set ..
    · obtain ⟨i, hi, rfl⟩ := List.mem_map.mp hp
      have := List.mem_range.mp hi
      exact ho _ (by omega)

/-- Settles O43: the count with its holdover, the reference edges, the mode epochs, and the edges that units see. -/
theorem datumCountsAndModes : Obligations.DatumCountsAndModes := ⟨datumCounts, datumEdges, modeEpochs, unitsSeeTicks⟩

end Sys2Proof.Proofs
end

section
/-! PROOFS. The ports of the Stezer links (spec/10_links_and_collectives.md R294 to R296, R300, R301, Table 10.4): first
what packets handed to ports leave of the block, then the states of ports, then packets received, then heartbeats. -/
namespace Sys2Proof.Proofs

open Sys2Proof Sys2Proof.Machine Sys2Proof.Claims Sys2Proof.Laws

/-! ## Packets handed to ports -/

/-- `t` follows from `s` by packets sent and buffers freed: ports and output alone may have changed. -/
def PortsOnly (s t : State) : Prop := t = { s with ports := t.ports, out := t.out }

theorem portsOnly_refl (s : State) : PortsOnly s s := rfl

theorem portsOnly_trans {s t u : State} (h : PortsOnly s t) (k : PortsOnly t u) : PortsOnly s u := by
  unfold PortsOnly at *
  rw [k, h]

theorem portsOnly_setPort (s : State) (n : Nat) (p : Port) : PortsOnly s (s.setPort n p) := rfl

theorem portsOnly_emit (s : State) (o : Out) : PortsOnly s (s.emit o) := by
  unfold State.emit
  split
  · exact portsOnly_refl s
  · rfl

theorem portsOnly_foldl {α : Type} (f : State → α → State) (h : ∀ s x, PortsOnly s (f s x)) (l : List α)
    (s : State) : PortsOnly s (l.foldl f s) :=
  List.foldlRecOn (motive := PortsOnly s) l f (portsOnly_refl s) fun t ht x _ => portsOnly_trans ht (h t x)

theorem portsOnly_freeBuffer (s : State) (b : Option (Nat × Nat)) : PortsOnly s (s.freeBuffer b) := by
  cases b with
  | none => exact portsOnly_refl s
  | some b => exact portsOnly_setPort ..

theorem portsOnly_transmit (s : State) (n : Nat) (q : Packet) : PortsOnly s (s.transmit n q) :=
  portsOnly_trans (portsOnly_setPort s n _) (portsOnly_emit ..)

theorem portsOnly_pump (n : Nat) (qs kept : List QPacket) (s : State) : PortsOnly s (s.pump n kept qs) := by
  induction qs generalizing kept s with
  | nil => exact portsOnly_setPort ..
  | cons q qs ih =>
    rw [State.pump]
    split
    · exact portsOnly_trans (portsOnly_trans (portsOnly_transmit ..) (portsOnly_freeBuffer ..)) (ih ..)
    · exact ih ..

theorem portsOnly_routePacket (s : State) (via : Option Nat) (plane : Nat) (q : Packet) :
    PortsOnly s (s.routePacket via plane q) := by
  unfold State.routePacket
  dsimp only
  split
  · exact portsOnly_pump ..
  · exact portsOnly_freeBuffer ..

theorem portsOnly_answer (s : State) (g : Segment) (op da status : Nat) (data : List Byte) :
    PortsOnly s (s.answer g op da status data) :=
  portsOnly_foldl _ (fun s q => portsOnly_routePacket s none _ q) _ s

/-! ## Ports set twice -/

theorem nmap_insert_insert {α : Type} (m : NMap α) (i : Nat) (x y : α) :
    NMap.insert (NMap.insert m i x) i y = NMap.insert m i y := by
  induction m with
  | nil => simp [NMap.insert]
  | cons e m ih =>
    obtain ⟨k, v⟩ := e
    by_cases hk : i = k
    · simp [NMap.insert, hk]
    · by_cases hlt : i < k
      · simp [NMap.insert, hk, hlt]
      · simp [NMap.insert, hk, hlt, ih]

theorem port_setPort (s : State) (n : Nat) (p : Port) : (s.setPort n p).port n = p := nmap_get_set_same ..

/-- The later of two records of a port counts, where neither is that of a port at reset. -/
theorem setPort_setPort (s : State) (n : Nat) {p q : Port} (hp : p ≠ {}) (hq : q ≠ {}) :
    (s.setPort n p).setPort n q = s.setPort n q := by
  simp only [State.setPort, NMap.set, if_neg hp, if_neg hq, nmap_insert_insert]

theorem port_ne_reset {p : Port} (h : p.unacked ≠ 0) : p ≠ {} := fun heq => h (congrArg Port.unacked heq)

/-! ## States of ports (R301) -/

theorem sets_startTraining (s : State) (n st : Nat) :
    Sets [(Csr.lnkPortSts_state n, st), (Csr.lnkPortSts_attempts n, 0)] s (s.startTraining n st) :=
  sets_append_setFld (sets_setFld s st (by simp)) (by simp) (by simp [Apart]) 0

theorem portDropped_dropPort (s : State) (n st : Nat) : PortDropped s (s.dropPort n st) n st := by
  have hfreed := portsOnly_foldl _ (fun s (q : QPacket) => portsOnly_freeBuffer s q.from_) (s.port n).queue s
  have hsets := sets_startTraining { ((((s.port n).queue.foldl (fun s q => s.freeBuffer q.from_) s).forgetBuffers
    n).setPort n {}) with admitted := s.admitted.filter (· != 76 + n), readyReq := s.readyReq.filter (· != 76 + n) } n st
  rw [PortDropped]
  unfold PortsOnly at hfreed
  convert hsets using 1
  rw [State.dropPort, hfreed]
  rfl

theorem leavesUp_leaveUp (s : State) (n st : Nat) : LeavesUp s (s.leaveUp n st) n st :=
  ⟨_, portDropped_dropPort s n st, rfl⟩

theorem lnkPortTrain_trains {n : Nat} (hn : n < 24) (s : State) : ∃ t, exec (.lnkPortTrain n) s = .next t ∧
    if s.portState n = psDown ∨ s.portState n = psFailed then
      Sets [(Csr.lnkPortSts_state n, psTraining), (Csr.lnkPortSts_attempts n, 0), (Csr.lnkPortSts_miswire n, 0)] s t
    else t = s := by
  refine ⟨s.trainPort n, congrArg _ (if_pos hn), ?_⟩
  unfold State.trainPort
  split
  · exact sets_append_setFld (sets_startTraining ..) (by simp) (by simp [Apart]) 0
  · rfl

/-- A port taken DOWN (Table 10.4). -/
theorem downPort_drops (s : State) (n : Nat) :
    if s.portState n = psUp then LeavesUp s (s.downPort n) n psDown else PortDropped s (s.downPort n) n psDown := by
  unfold State.downPort
  split
  · exact leavesUp_leaveUp ..
  · exact portDropped_dropPort ..

/-- A port leaves UP for RETRAIN where a condition holds in UP. -/
theorem retrains_if (s : State) (n : Nat) (c : Prop) [Decidable c] :
    if c then LeavesUp s (if c then s.leaveUp n psRetrain else s) n psRetrain
    else (if c then s.leaveUp n psRetrain else s) = s := by
  split
  · exact leavesUp_leaveUp ..
  · rfl

theorem laneLockLoss_retrains {n : Nat} (hn : n < 24) (s : State) : ∃ t, exec (.laneLockLoss n) s = .next t ∧
    if s.portState n = psUp then LeavesUp s t n psRetrain else t = s := by
  refine ⟨_, ?_, retrains_if s n (s.portState n = psUp)⟩
  rw [exec_laneLockLoss, execLaneLockLoss]
  simp only [hn, true_and]

theorem portSilent_retrains {n : Nat} (hn : n < 24) (s : State) : ∃ t, exec (.portSilent n) s = .next t ∧
    if s.portState n = psUp ∧ 8 ≤ (s.seenHub (n / 6) - (s.port n).heard).toNat then LeavesUp s t n psRetrain
    else t = s := by
  refine ⟨_, ?_, retrains_if s n _⟩
  rw [exec_portSilent, execPortSilent]
  simp only [hn, true_and]

/-! ## Training (Table 10.4) -/

theorem trains_iff (s : State) (n : Nat) : s.trains n = true ↔
    n < 24 ∧ (s.portState n = psTraining ∨ s.portState n = psRetrain) ∧ s.fld (Csr.clkSrc_cur (28 + n)) ≠ 2 := by
  simp only [State.trains, Bool.and_eq_true, Bool.or_eq_true, decide_eq_true_eq, beq_iff_eq, bne_iff_ne, and_assoc]

theorem trainsToHeld_iff (s : State) (n : Nat) : s.trainsToHeld n = true ↔ s.fld Csr.lnkSts_unreach = 1 ∨
    s.fld Csr.lnkDisc_pos_invalid = 1 ∨ s.portState n = psTraining ∧ s.fld Csr.lnkDisc_state = diReady := by
  simp only [State.trainsToHeld, Bool.or_eq_true, Bool.and_eq_true, flag_iff, beq_iff_eq, or_assoc]

theorem fld_setPort (s : State) (n : Nat) (p : Port) (f : Fld) : (s.setPort n p).fld f = s.fld f := rfl

theorem port_setFld (s : State) (f : Fld) (v n : Nat) : (s.setFld f v).port n = s.port n := rfl

theorem port_startTraining (s : State) (m st n : Nat) : (s.startTraining m st).port n = s.port n := rfl

theorem seenHub_setFld (s : State) (f : Fld) (v h : Nat) : (s.setFld f v).seenHub h = s.seenHub h := rfl

theorem seenHub_startTraining (s : State) (m st h : Nat) : (s.startTraining m st).seenHub h = s.seenHub h := rfl

theorem dtmLinkdly_ne_lnkPortSts {n : Nat} (hn : n < 24) : Csr.dtmLinkdly n ≠ Csr.lnkPortSts n := by
  unfold Csr.dtmLinkdly Csr.lnkPortSts
  omega

/-- The registers of a port that training has ended HELD: its state, and its round trips counted anew. -/
def shownHeld (s : State) (n : Nat) : State := (s.startTraining n psHeld).setFld (Csr.dtmLinkdly_samples n) 0

theorem sets_shownHeld (s : State) {n : Nat} (hn : n < 24) : Sets [(Csr.lnkPortSts_state n, psHeld),
    (Csr.lnkPortSts_attempts n, 0), (Csr.dtmLinkdly_samples n, 0)] s (shownHeld s n) := by
  have hne := dtmLinkdly_ne_lnkPortSts hn
  refine sets_append_setFld (sets_startTraining s n psHeld) (by simp) ?_ 0
  rw [List.forall_mem_cons]
  exact ⟨.inl hne, List.forall_mem_singleton.mpr (.inl hne)⟩

theorem seenHub_raiseM (s : State) (e : Event) (h : Nat) : (s.raiseM e).seenHub h = s.seenHub h := by
  rw [(raiseM_frame s e).frame]; rfl

theorem port_raiseM (s : State) (e : Event) (n : Nat) : (s.raiseM e).port n = s.port n := by
  rw [State.port, raiseM_ports]; rfl

section
variable {n : Nat} {s : State} (hn : n < 24) (hstate : s.portState n = psTraining ∨ s.portState n = psRetrain)
  (hclk : s.fld (Csr.clkSrc_cur (28 + n)) ≠ 2)
include hn hstate hclk

theorem exec_portTrained_training : exec (.portTrained n) s = .next (if s.trainsToHeld n then
    let v := (shownHeld s n).raiseM (portEvent n 0x060A sevInfo 0 0)
    (v.setPort n { v.port n with
      heard := v.seenHub (n / 6)
      arrival := s.fld Csr.lnkDisc_state == diReady && !s.flag Csr.lnkSts_unreach }).catchUp n
  else (s.firstPortUp.enterUp n).catchUp n) :=
  congrArg Host.Outcome.next (if_pos ((trains_iff ..).mpr ⟨hn, hstate, hclk⟩))

theorem portTrained_comesUp : ∃ t u : State, exec (.portTrained n) s = .next t ∧
    let di := s.fld Csr.lnkDisc_state
    let ups := fun (st : Nat) => [(Csr.lnkPortSts_state n, st), (Csr.lnkPortSts_attempts n, 0)]
    if s.fld Csr.lnkSts_unreach = 1 ∨ s.fld Csr.lnkDisc_pos_invalid = 1 ∨ s.portState n = psTraining ∧ di = diReady then
      Sets (ups psHeld ++ [(Csr.dtmLinkdly_samples n, 0)]) s u ∧
      let v := u.raiseM (portEvent n 0x060A sevInfo 0 0)
      t = (v.setPort n { s.port n with
        heard := s.seenHub (n / 6), arrival := di == diReady && s.fld Csr.lnkSts_unreach != 1 }).catchUp n
    else
      let w := s.firstPortUp
      Sets (ups psUp) w u ∧ ∃ x,
      Sets [(Csr.dtmLinkdly_samples n, 0)] ((u.raiseM (portEvent n 0x0601 sevInfo 0 0)).forgetBuffers n) x ∧
      let y := x.setPort n { x.port n with
        heard := x.seenHub (n / 6), used := [0, 0, 0, 0, 0, 0, 0, 0], owed := [0, 0, 0, 0, 0, 0, 0, 0] }
      t = ((y.pump n [] (y.port n).queue).ownEntry.recompute w).catchUp n := by
  rw [exec_portTrained_training hn hstate hclk]
  by_cases hheld : s.trainsToHeld n = true
  · rw [if_pos hheld]
    refine ⟨_, shownHeld s n, rfl, ?_⟩
    dsimp only
    rw [if_pos ((trainsToHeld_iff ..).mp hheld), port_raiseM, seenHub_raiseM]
    refine ⟨sets_shownHeld s hn, ?_⟩
    rw [shownHeld, port_setFld, port_startTraining, seenHub_setFld, seenHub_startTraining, State.flag, bne]
  · rw [if_neg hheld]
    refine ⟨_, s.firstPortUp.startTraining n psUp, rfl, ?_⟩
    dsimp only
    rw [if_neg (mt (trainsToHeld_iff ..).mpr hheld)]
    exact ⟨sets_startTraining .., _, sets_setFld _ 0 (by simp), rfl⟩

theorem portTrainTimeout_counts : ∃ t, exec (.portTrainTimeout n) s = .next t ∧
    let di := s.fld Csr.lnkDisc_state
    let k := min (2 ^ (Csr.lnkPortSts_attempts n).w - 1) (s.fld (Csr.lnkPortSts_attempts n) + 1)
    if s.fld Csr.lnkDisc_window = 1 ∧ diTrain ≤ di ∧ di ≤ diFlood then t = s
    else if k = 3 then ∃ u, Sets [(Csr.lnkPortSts_attempts n, k), (Csr.lnkPortSts_state n, psFailed)] s u ∧
      t = u.raiseM (portEvent n 0x0603 sevWarn 0 0)
    else Sets [(Csr.lnkPortSts_attempts n, k)] s t := by
  have htrains : s.trains n = true := (trains_iff ..).mpr ⟨hn, hstate, hclk⟩
  refine ⟨_, congrArg Host.Outcome.next (if_pos htrains), ?_⟩
  intro di k
  have hattempt : Sets [(Csr.lnkPortSts_attempts n, k)] s (s.addFld (Csr.lnkPortSts_attempts n) 1) :=
    sets_setFld s k (by simp)
  have hcount : (s.addFld (Csr.lnkPortSts_attempts n) 1).fld (Csr.lnkPortSts_attempts n) = k :=
    fld_of_mem_sets hattempt List.mem_cons_self (Nat.lt_of_le_of_lt (min_le_left ..) (show 2 ^ 2 - 1 < 2 ^ 2 by decide))
  simp only [hcount, Bool.and_eq_true, flag_iff, decide_eq_true_eq, and_assoc]
  split
  · rfl
  · split
    · exact ⟨_, sets_append_setFld hattempt (by simp) (by simp [Apart]) psFailed, rfl⟩
    · exact hattempt

end

/-! ## Retransmission (R296) -/

theorem foldl_emit (s : State) (hrun : s.frozen = false) (n : Nat) (qs : List Packet) :
    qs.foldl (fun s q => s.emit (.packet n q)) s = { s with out := s.out ++ qs.map fun q => Out.packet n q } := by
  induction qs generalizing s with
  | nil => simp
  | cons q qs ih =>
    have hemit : s.emit (.packet n q) = { s with out := s.out ++ [.packet n q] } := if_neg (by simp [hrun])
    rw [List.foldl_cons, hemit]
    refine (ih { s with out := s.out ++ [.packet n q] } hrun).trans ?_
    simp

/-- A port with one more retransmission counted. -/
def replayCounted (s : State) (n : Nat) : State :=
  (s.setPort n { s.port n with tries := (s.port n).tries + 1 }).addFld (Csr.lnkPortCnt_replays n) 1

theorem sets_replayCounted (s : State) (n : Nat) : Sets [(Csr.lnkPortCnt_replays n,
    min (2 ^ (Csr.lnkPortCnt_replays n).w - 1) (s.fld (Csr.lnkPortCnt_replays n) + 1))]
    (s.setPort n { s.port n with tries := (s.port n).tries + 1 }) (replayCounted s n) := by
  rw [← fld_setPort s n { s.port n with tries := (s.port n).tries + 1 }]
  exact sets_setFld _ _ (by simp)

theorem frozen_addFld (s : State) (f : Fld) (n : Nat) : (s.addFld f n).frozen = s.frozen := rfl

theorem frozen_setPort (s : State) (n : Nat) (p : Port) : (s.setPort n p).frozen = s.frozen := rfl

theorem frozen_replayCounted (s : State) (n : Nat) : (replayCounted s n).frozen = s.frozen :=
  (frozen_addFld ..).trans (frozen_setPort ..)

theorem replay_eq (s : State) (n : Nat) : s.replay n =
    if (s.port n).sent.isEmpty then s
    else if 16 ≤ (s.port n).tries then if s.portState n = psUp then s.leaveUp n psRetrain else s
    else (s.port n).sent.foldl (fun s q => s.emit (.packet n q)) (replayCounted s n) := rfl

theorem replayTimeout_resends {n : Nat} {s : State} (hn : n < 24) (hrun : s.frozen = false) :
    ∃ t, exec (.replayTimeout n) s = .next t ∧
      if (s.port n).sent = [] then t = s
      else if 16 ≤ (s.port n).tries then if s.portState n = psUp then LeavesUp s t n psRetrain else t = s
      else ∃ u, Sets [(Csr.lnkPortCnt_replays n,
            min (2 ^ (Csr.lnkPortCnt_replays n).w - 1) (s.fld (Csr.lnkPortCnt_replays n) + 1))]
          (s.setPort n { s.port n with tries := (s.port n).tries + 1 }) u ∧
        t = { u with out := u.out ++ (s.port n).sent.map (fun q => Out.packet n q) } := by
  refine ⟨s.replay n, congrArg _ (if_pos hn), ?_⟩
  rw [replay_eq]
  simp only [List.isEmpty_iff]
  split
  · rfl
  · split
    · exact retrains_if ..
    · exact ⟨replayCounted s n, sets_replayCounted s n, foldl_emit _ ((frozen_replayCounted s n).trans hrun) n _⟩

theorem portsChangeState : PortsChangeState :=
  ⟨fun n s hn => ⟨lnkPortTrain_trains hn s, ⟨s.downPort n, congrArg _ (if_pos hn), downPort_drops s n⟩,
      laneLockLoss_retrains hn s, portSilent_retrains hn s⟩,
    fun _ _ hn hstate hclk => ⟨portTrained_comesUp hn hstate hclk, portTrainTimeout_counts hn hstate hclk⟩,
    fun _ _ hn hrun => replayTimeout_resends hn hrun⟩

/-! ## Packets received (R295, R296) -/

theorem discards_discardPacket (s : State) (n : Nat) : Discards s (s.discardPacket n) n := rfl

theorem sets_crcCounted (s : State) (n : Nat) : Sets [(Csr.lnkPortCnt_crc_err n,
    min (2 ^ (Csr.lnkPortCnt_crc_err n).w - 1) (s.fld (Csr.lnkPortCnt_crc_err n) + 1))] s
    (s.addFld (Csr.lnkPortCnt_crc_err n) 1) := sets_setFld _ _ (by simp)

/-- A DATA packet in transit is not for this device. -/
abbrev Transit (s : State) (q : Packet) : Prop :=
  q.type = ptData ∧ ¬ (s.fld Csr.lnkSts_log_valid = 1 ∧ q.dst = s.fld Csr.lnkSts_logical)

theorem transit_iff (s : State) (q : Packet) :
    (q.type == ptData && !(s.flag Csr.lnkSts_log_valid && q.dst == s.fld Csr.lnkSts_logical)) = true ↔ Transit s q := by
  simp only [Transit, Bool.and_eq_true, Bool.not_eq_true', Bool.and_eq_false_iff, beq_iff_eq, not_flag_iff,
    beq_eq_false_iff_ne, not_and_or, ne_eq]

/-- The record of a port that has accepted a packet; the buffer of one for this device is free at once (R295). -/
def portAccepted (p : Port) (q : Packet) (transit : Prop) [Decidable transit] : Port :=
  { p with
    rxSeq := (p.rxSeq + 1) % 4096, naked := false, unacked := p.unacked + 1,
    owed := if transit then p.owed else p.owed.set q.vc (p.owed.getD q.vc 0 + 1) }

/-- What the header of an accepted packet, and the acknowledgement that 32 of them call for, lead to (R296). -/
def acknowledged (s : State) (n : Nat) (q : Packet) : State :=
  let u := s.linkFields n q
  if 32 ≤ (u.port n).unacked then u.sendLinkctl n false else u

theorem acceptPacket_eq (s : State) (n : Nat) (q : Packet) : s.acceptPacket n q =
    let v := acknowledged (s.setPort n (portAccepted (s.port n) q (Transit s q))) n q
    if Transit s q then v.routePacket (some n) (n / 6) q else if q.type = ptData then v.trackPacket n q else v := by
  let p := s.port n
  let counted : Port := { p with rxSeq := (p.rxSeq + 1) % 4096, naked := false, unacked := p.unacked + 1 }
  have hunfold : s.acceptPacket n q =
      let transit := q.type == ptData && !(s.flag Csr.lnkSts_log_valid && q.dst == s.fld Csr.lnkSts_logical)
      let v := acknowledged (if transit then s.setPort n counted else (s.setPort n counted).freeBuffer (some (n, q.vc))) n q
      if transit then v.routePacket (some n) (n / 6) q else if q.type = ptData then v.trackPacket n q else v := rfl
  have hport : (if Transit s q then s.setPort n counted else (s.setPort n counted).freeBuffer (some (n, q.vc))) =
      s.setPort n (portAccepted p q (Transit s q)) := by
    unfold portAccepted
    split
    · rfl
    · rw [State.freeBuffer, port_setPort, setPort_setPort _ _ (port_ne_reset (Nat.succ_ne_zero _))
        (port_ne_reset (Nat.succ_ne_zero _))]
  rw [hunfold]
  simp only [transit_iff, hport]
  rfl

section
variable {n : Nat} {q : Packet} {s : State} (hn : n < 24) (hcarries : s.carries n q.type = true)
  (htype : q.type = ptData ∨ q.type = ptGaz)
include hn hcarries htype

theorem exec_stezerDataRx_bad (hbad : q.good = false) : exec (.stezerDataRx n q) s =
    .next ((s.addFld (Csr.lnkPortCnt_crc_err n) 1).discardPacket n) :=
  congrArg Host.Outcome.next ((if_pos ⟨hn, hcarries, htype⟩).trans (if_neg (Bool.eq_false_iff.mp hbad)))

theorem exec_stezerDataRx_good (hgood : q.good = true) : exec (.stezerDataRx n q) s =
    .next (if q.seqNo = (s.port n).rxSeq then (s.hear n).acceptPacket n q else (s.hear n).discardPacket n) := by
  have hseq : ((s.hear n).port n).rxSeq = (s.port n).rxSeq := by rw [State.hear, port_setPort]
  rw [← hseq]
  exact congrArg Host.Outcome.next ((if_pos ⟨hn, hcarries, htype⟩).trans (if_pos hgood))

theorem stezerDataRx_receives : ∃ t, exec (.stezerDataRx n q) s = .next t ∧
      let heard := s.setPort n { s.port n with heard := s.seenHub (n / 6) }
      if q.good = false then ∃ u, Discards u t n ∧ Sets [(Csr.lnkPortCnt_crc_err n,
          min (2 ^ (Csr.lnkPortCnt_crc_err n).w - 1) (s.fld (Csr.lnkPortCnt_crc_err n) + 1))] s u
      else if q.seqNo ≠ (s.port n).rxSeq then Discards heard t n
      else
        let transit := q.type = ptData ∧ ¬ (s.fld Csr.lnkSts_log_valid = 1 ∧ q.dst = s.fld Csr.lnkSts_logical)
        let p := heard.port n
        let u := (heard.setPort n { p with
          rxSeq := (p.rxSeq + 1) % 4096, naked := false, unacked := p.unacked + 1,
          owed := if transit then p.owed else p.owed.set q.vc (p.owed.getD q.vc 0 + 1) }).linkFields n q
        let v := if 32 ≤ (u.port n).unacked then u.sendLinkctl n false else u
        t = if transit then v.routePacket (some n) (n / 6) q else if q.type = ptData then v.trackPacket n q else v := by
  cases hgood : q.good with
  | false =>
    refine ⟨_, exec_stezerDataRx_bad hn hcarries htype hgood, ?_⟩
    rw [if_pos rfl]
    exact ⟨_, discards_discardPacket .., sets_crcCounted s n⟩
  | true =>
    refine ⟨_, exec_stezerDataRx_good hn hcarries htype hgood, ?_⟩
    rw [if_neg (by decide)]
    by_cases hnext : q.seqNo = (s.port n).rxSeq
    · rw [if_pos hnext, if_neg (not_not_intro hnext)]
      exact acceptPacket_eq (s.hear n) n q
    · rw [if_neg hnext, if_pos hnext]
      exact discards_discardPacket ..

end

theorem linkctlRx_receives {n : Nat} {q : Packet} {s : State} (hn : n < 24)
    (hup : s.portState n = psUp ∨ s.portState n = psHeld) (htype : q.type = ptLinkctl) :
    ∃ t, exec (.linkctlRx n q) s = .next t ∧
      if q.good then t = (s.setPort n { s.port n with heard := s.seenHub (n / 6) }).linkFields n q
      else Sets [(Csr.lnkPortCnt_crc_err n,
        min (2 ^ (Csr.lnkPortCnt_crc_err n).w - 1) (s.fld (Csr.lnkPortCnt_crc_err n) + 1))] s t := by
  refine ⟨_, congrArg Host.Outcome.next (if_pos ⟨hn, hup, htype⟩), ?_⟩
  split
  · rfl
  · exact sets_crcCounted s n

/-! ## Heartbeats (R282, R292, R300) -/

section
variable {n : Nat} {q : Packet} {s : State} (hn : n < 24) (hup : s.portState n = psUp ∨ s.portState n = psHeld)
  (htype : q.type = ptHeartbeat)
include hn hup htype

theorem heartbeatRx_bad (rx : W64) (hbad : q.good = false) : ∃ t, exec (.heartbeatRx n q rx) s = .next t ∧
    Sets [(Csr.lnkPortCnt_crc_err n,
      min (2 ^ (Csr.lnkPortCnt_crc_err n).w - 1) (s.fld (Csr.lnkPortCnt_crc_err n) + 1))] s t := by
  refine ⟨_, congrArg Host.Outcome.next (if_pos ⟨hn, hup, htype⟩), ?_⟩
  rw [if_neg (Bool.eq_false_iff.mp hbad)]
  exact sets_crcCounted s n

theorem exec_heartbeatRx_good (rx : W64) (hgood : q.good = true) : exec (.heartbeatRx n q rx) s =
    .next (((s.hear n).linkFields n q).takeHeartbeat n (q.heartbeat rx)) :=
  congrArg Host.Outcome.next ((if_pos ⟨hn, hup, htype⟩).trans (if_pos hgood))

end

/-- The registers of a port that show its neighbour, as a heartbeat leaves them. -/
def peerShown (s : State) (n : Nat) (hb : Heartbeat) : State :=
  (s.setFld (Csr.lnkPortSts_peer_phys n) hb.phys).setFld (Csr.lnkPortSts_peer_port n) hb.port

theorem sets_peerShown (s : State) (n : Nat) (hb : Heartbeat) :
    Sets [(Csr.lnkPortSts_peer_phys n, hb.phys), (Csr.lnkPortSts_peer_port n, hb.port)] s (peerShown s n hb) :=
  sets_append_setFld (sets_setFld s _ (by simp)) (by simp) (by simp [Apart]) _

/-- The one-way delay as a heartbeat that echoes a timestamp measures it (R282). -/
def delayMeasured (s : State) (n : Nat) (hb : Heartbeat) : State :=
  if hb.echo = 0 then s
  else (s.setFld (Csr.dtmLinkdly_delay n) ((hb.rx - hb.echo - hb.hold).toNat / 2)).addFld (Csr.dtmLinkdly_samples n) 1

theorem delayMeasured_measures (s : State) (n : Nat) (hb : Heartbeat) :
    if hb.echo = 0 then delayMeasured s n hb = s
    else Sets [(Csr.dtmLinkdly_delay n, (hb.rx - hb.echo - hb.hold).toNat / 2),
      (Csr.dtmLinkdly_samples n, min (2 ^ 32 - 1) (s.fld (Csr.dtmLinkdly_samples n) + 1))] s (delayMeasured s n hb) := by
  unfold delayMeasured
  split
  · rfl
  · exact sets_append_addFld (sets_setFld s _ (by simp)) (f := Csr.dtmLinkdly_samples n) (by simp) (by simp [Apart]) 1

/-- A port that trained in READY isolates the position of its neighbour (R477). -/
def arrivalIsolated (s : State) (n : Nat) (hb : Heartbeat) : State :=
  if (s.port n).arrival = true ∧ s.gazState hb.phys ≠ gazIsolated then
    (s.setFld (Csr.lnkGazLo_state hb.phys) gazIsolated).recompute s
  else s

/-- A heartbeat of the upstream port in Relay is its marker (R282). -/
def markerTaken (s : State) (n : Nat) (hb : Heartbeat) : State :=
  if s.fld Csr.dtmCtl_src = srcRelay ∧ s.flag Csr.dtmRelay_up_valid = true ∧ s.fld Csr.dtmRelay_upstream = n ∧
      bit (s.word Csr.dtmRelay) (11 + n) = true ∧ s.datum.deaf.contains n = false then
    s.marker n hb
  else s

theorem takeHeartbeat_eq (s : State) (n : Nat) (hb : Heartbeat) : s.takeHeartbeat n hb =
    let u := peerShown s n hb
    if hb.port ≠ (if n % 2 = 0 then n + 1 else n - 1) ∨ hb.phys ≠ u.facing n then
      (u.downPort n).setFld (Csr.lnkPortSts_miswire n) 1
    else
      let v := delayMeasured u n hb
      markerTaken (arrivalIsolated (v.setPort n { v.port n with echo := hb.tx, echoAt := hb.rx }) n hb) n hb := rfl

theorem markerTaken_eq (s : State) (n : Nat) (hb : Heartbeat) : markerTaken s n hb =
    if s.fld Csr.dtmCtl_src = srcRelay ∧ s.fld Csr.dtmRelay_up_valid = 1 ∧ s.fld Csr.dtmRelay_upstream = n ∧
      (s.word Csr.dtmRelay).getLsbD (11 + n) = true ∧ n ∉ s.datum.deaf then s.marker n hb else s := by
  simp only [markerTaken, flag_iff, bit, List.contains_eq_mem, decide_eq_false_iff_not]

theorem heartbeatRx_good {n : Nat} {q : Packet} {s : State} (rx : W64) (hn : n < 24)
    (hup : s.portState n = psUp ∨ s.portState n = psHeld) (htype : q.type = ptHeartbeat) (hgood : q.good = true) :
    let hb := q.heartbeat rx
    ∃ t u : State, exec (.heartbeatRx n q rx) s = .next t ∧
      Sets [(Csr.lnkPortSts_peer_phys n, hb.phys), (Csr.lnkPortSts_peer_port n, hb.port)]
        ((s.setPort n { s.port n with heard := s.seenHub (n / 6) }).linkFields n q) u ∧
      if hb.port ≠ (if n % 2 = 0 then n + 1 else n - 1) ∨ hb.phys ≠ u.facing n then
        Sets [(Csr.lnkPortSts_miswire n, 1)] (u.downPort n) t
      else ∃ v w, (if hb.echo = 0 then v = u else
          Sets [(Csr.dtmLinkdly_delay n, (hb.rx - hb.echo - hb.hold).toNat / 2),
            (Csr.dtmLinkdly_samples n, min (2 ^ 32 - 1) (u.fld (Csr.dtmLinkdly_samples n) + 1))] u v) ∧
        w = (let x := v.setPort n { v.port n with echo := hb.tx, echoAt := hb.rx }
          if (v.port n).arrival = true ∧ x.gazState hb.phys ≠ gazIsolated then
            (x.setFld (Csr.lnkGazLo_state hb.phys) gazIsolated).recompute x else x) ∧
        t = if w.fld Csr.dtmCtl_src = srcRelay ∧ w.fld Csr.dtmRelay_up_valid = 1 ∧ w.fld Csr.dtmRelay_upstream = n ∧
            (w.word Csr.dtmRelay).getLsbD (11 + n) = true ∧ n ∉ w.datum.deaf then w.marker n hb else w := by
  intro hb
  refine ⟨_, peerShown ((s.hear n).linkFields n q) n hb, exec_heartbeatRx_good hn hup htype rx hgood,
    sets_peerShown .., ?_⟩
  rw [takeHeartbeat_eq]
  generalize peerShown ((s.hear n).linkFields n q) n hb = u
  dsimp only
  by_cases hcross : hb.port ≠ (if n % 2 = 0 then n + 1 else n - 1) ∨ hb.phys ≠ u.facing n
  · rw [if_pos hcross, if_pos hcross]
    exact sets_setFld _ 1 (by simp)
  · rw [if_neg hcross, if_neg hcross]
    refine ⟨delayMeasured u n hb, _, delayMeasured_measures u n hb, rfl, ?_⟩
    rw [markerTaken_eq, arrivalIsolated, port_setPort]

theorem portsReceive : PortsReceive :=
  ⟨fun _ _ _ hn hcarries htype => stezerDataRx_receives hn hcarries htype,
    fun _ _ _ hn hup htype => linkctlRx_receives hn hup htype,
    fun _ _ hn hunacked => congrArg Host.Outcome.next (if_pos ⟨hn, hunacked⟩),
    fun _ _ rx _ hn hup htype hbad => heartbeatRx_bad hn hup htype rx hbad,
    fun _ _ rx _ hn hup htype hgood => heartbeatRx_good rx hn hup htype hgood⟩

/-- Settles O44: the states of ports, and what they receive. -/
theorem stezerPorts : Obligations.StezerPorts := ⟨portsChangeState, portsReceive⟩

end Sys2Proof.Proofs
end

section
/-! PROOFS. A WRITE segment at its home (spec/10_links_and_collectives.md R298; spec/06_memory_and_ordering.md R167, R169,
R198): first what it stores and where, then one whose word detection corrects, reported in memory. -/
namespace Sys2Proof.Proofs

open Sys2Proof Sys2Proof.Machine Sys2Proof.Claims Sys2Proof.Laws

/-! ## A WRITE served -/

theorem byte_answer (s : State) (g : Segment) (op da status : Nat) (data : List Byte) (a : Nat) :
    (s.answer g op da status data).byte a = s.byte a := by
  have h : (s.answer g op da status data).mem = s.mem := by rw [portsOnly_answer s g op da status data]
  rw [State.byte, h, State.byte]

/-- A WRITE that its home takes stores its bytes in the memory that detection leaves, and is answered (R167, R298). -/
theorem segWrite_stores {s : State} {g : Segment} {e : Ecc} (hhome : AtHome s g)
    (htaken : segRefused s g .write g.data.length = none)
    (hfound : (s.detect (eccWithin e .write g.da g.data.length) none).2 = none) :
    exec (.segWrite g e) s = .next (((s.detect (eccWithin e .write g.da g.data.length) none).1.writeBytes g.da
      g.data).answer g opAck g.da stOk []) := by
  obtain ⟨hlife, hwhole, hfree⟩ := hhome
  have hyoung : s.tooOld g.sendTick = false := decide_eq_false (Nat.not_lt.mpr hlife)
  have hhomed : exec (.segWrite g e) s = .next (s.homeSegment { g with op := opWrite } e) := by
    rw [exec_segWrite, execSegWrite, State.serveSegment, hyoung, if_neg Bool.false_ne_true]
    exact congrArg Host.Outcome.next (if_neg (Bool.eq_false_iff.mp hwhole))
  have hallowed : s.accessFail (Segment.origin { g with op := opWrite }) none (hubOf g.part) .write g.da
      g.data.length = none := htaken
  rw [hhomed, State.homeSegment]
  simp only [segAccess, if_true, hfree, hallowed, hfound, Option.isSome_none, Bool.false_eq_true, if_false,
    State.performSegment]
  rfl

/-! ## The counterexample -/

/-- A WRITE of one byte to 0x20000 by partition 0 of device 9. -/
def byteWrite : Segment := ⟨5, 9, opWrite, 0, 1, 0x20000, 0, 0, true, [1]⟩

/-- A bound device whose job slot 0 owns granule 0, with the rights of remote devices, and names partition 0 of device
9 a peer; its M-level ring lies in that granule, at 0x60000, and its crossings are open. -/
def peerOfDevice9 : State where
  admitted := List.range 101
  mem := [(0x40000 + 4 * 9, 1)]
  csr := [(Csr.memMevqCfg, BitVec.ofNat 64 (0x60000 + 4 * 2 ^ 48)), (Csr.prtBindSts, 1),
    (Csr.prtJobAct 0, BitVec.ofNat 64 (2 ^ 32)), (Csr.prtJobActPeers 0, 0x40000), (Csr.prtGranAct 0, 0x6020)]

theorem byteWrite_taken : AtHome peerOfDevice9 byteWrite ∧ segRefused peerOfDevice9 byteWrite .write 1 = none := by
  unfold AtHome; decide +kernel

/-- Detection corrects the word that the byte lies in, and writes the event's record into the M-level ring (R169, R198). -/
theorem corrected_writesRecord : let d := peerOfDevice9.detect (eccWithin (.corrected 0x20000) .write 0x20000 1) none
    d.2 = none ∧ peerOfDevice9.byte 0x60000 = 0 ∧ d.1.byte 0x60000 = 6 := by
  decide +kernel

/-- Refutes O45: its WRITE clause keeps every byte outside the segment as before the command, but where detection
corrects a word that is written in part, its event's record goes into the M-level ring, which lies in memory. -/
theorem not_gazetteerAndSegments : ¬ Obligations.GazetteerAndSegments := by
  rintro ⟨-, hserved, -⟩
  obtain ⟨hhome, htaken⟩ := byteWrite_taken
  obtain ⟨hfound, hbefore, hrecord⟩ := corrected_writesRecord
  obtain ⟨hwrite, -⟩ := hserved byteWrite (.corrected 0x20000) peerOfDevice9 hhome
  obtain ⟨t, u, hexec, hstored, -⟩ := hwrite htaken
  obtain ⟨-, hbytes, ht⟩ := hstored hfound
  have hkept : t.byte 0x60000 = 0 := by
    rw [ht, byte_answer, hbytes, if_neg (by decide), hbefore]
  have hwritten : t.byte 0x60000 = 6 := by
    rw [← Host.Outcome.next.inj ((segWrite_stores hhome htaken hfound).symm.trans hexec), byte_answer, byte_writeBytes,
      if_neg (by decide)]
    exact hrecord
  exact absurd (hkept.symm.trans hwritten) (by decide)

end Sys2Proof.Proofs
end
